-- ==== Sys2Proof/Word.lean ====
section
/-! DEFINITION. The word types of the AVM-9120 and the plainest arithmetic on them. -/

namespace Sys2Proof

/-- A 32-bit register of the module (R7). -/
abbrev Word := BitVec 32

/-- One byte of memory; multi-byte data is little-endian (R5). -/
abbrev Byte := BitVec 8

/-- A 64-bit word: one itinerary step (R126) or one descriptor word (R137). -/
abbrev Word64 := BitVec 64

/-- Bits `[lo+n-1:lo]` of a number read as bits. -/
def fld (w lo n : Nat) : Nat := w / 2 ^ lo % 2 ^ n

/-- Bit `i` of a number read as bits. -/
def bit (w i : Nat) : Bool := fld w i 1 == 1

/-- A number with bits `[lo+n-1:lo]` replaced by `v`. -/
def setFld (w lo n v : Nat) : Nat :=
  w % 2 ^ lo + 2 ^ lo * (v % 2 ^ n) + 2 ^ (lo + n) * (w / 2 ^ (lo + n))

/-- A bit as a number. -/
def b2n (b : Bool) : Nat := if b then 1 else 0

/-- Two's complement value of an `n`-bit number. -/
def sext (n w : Nat) : Int :=
  if w % 2 ^ n < 2 ^ (n - 1) then (w % 2 ^ n : Nat) else (w % 2 ^ n : Nat) - (2 ^ n : Nat)

/-- The `n`-bit two's complement code of an integer. -/
def wrapInt (n : Nat) (i : Int) : Nat := (i % (2 ^ n : Nat)).toNat

end Sys2Proof
end

