-- ==== Sys2Proof/Syntax.lean ====
section
/-! DEFINITION. The commands the block takes: every row of spec/opcode_table.json, with its operands.
A tile operand `t` is row × 64 + column (R13); addresses are BAR0 byte offsets or module memory
addresses as the row says; a measured quantity enters as the number its register would report. -/

namespace Sys2Proof

/-- The four execution units of a tile (R111). -/
inductive Unit4 where
  | move | crate | matrix | vector
  deriving DecidableEq, Repr

/-- Who makes a register access or gives a command (R7, R450, R488): the two PCIe functions, the
warden side, and Registrar firmware. -/
inductive Side where
  | pf0 | pf1 | warden | firmware
  deriving DecidableEq, Repr

/-- The commands of the AVM-9120: one constructor per row of the table of operations and events. -/
inductive Instr where
  /-- NOP (R127): Flow step that does nothing and completes in the cycle in which it issues. -/
  | nop (t : Nat)
  /-- END (R117): End step; the tile enters IDLE. -/
  | endStep (t : Nat)
  /-- HANG_STEP (R120): Hang point; a no-operation when no hang is armed, otherwise it waits for the units to go idle. -/
  | hangStep (t : Nat)
  /-- HANG_POINT_REACHED (R120): An armed HANG step finds every unit idle and the tile enters HANG. -/
  | hangPointReached (t : Nat)
  /-- JUMP (R128): Forward jump by DISP steps, popping any loop levels it leaves. -/
  | jump (t : Nat)
  /-- BRANCH (R128): Forward conditional branch that compares sA with sB. -/
  | branch (t : Nat)
  /-- LOOP (R129): Pushes a bounded loop level, or skips the body when the count is zero. -/
  | loopStep (t : Nat)
  /-- SALU (R131): Scalar ALU operation that writes RD. -/
  | salu (t : Nat)
  /-- SREAD (R132): Reads a ticket, loop count, exhibit, generation or status into a scalar register. -/
  | sread (t : Nat)
  /-- FENCE (R133): Holds issue until the named units are idle. -/
  | fence (t : Nat)
  /-- FENCE_COMPLETE (R133): The units named by a FENCE become idle and the FENCE completes. -/
  | fenceComplete (t : Nat)
  /-- WAIT (R135): Ticket wait step; it issues and completes at once when the counter already holds the amount. -/
  | wait (t : Nat)
  /-- WAIT_SATISFIED (R86): A pending wait finds tk at least n, consumes n and completes. -/
  | waitSatisfied (t : Nat)
  /-- ADD (R136): Ticket step that adds AMOUNT to the tile's own counter. -/
  | add (t : Nat)
  /-- WAVE_STEP (R136): Joins the tile to a ticket wave of its group and contributes sA. -/
  | waveStep (t : Nat)
  /-- COPY (R144): Moves a source pattern into a destination pattern with format conversion. -/
  | copy (t : Nat)
  /-- FILL (R144): Writes a converted FP32 value to every element of a pattern. -/
  | fill (t : Nat)
  /-- DLOAD (R146): Loads a descriptor from scratch. -/
  | dload (t : Nat)
  /-- DSTORE (R146): Stores a descriptor to scratch. -/
  | dstore (t : Nat)
  /-- DADD (R146): Adds to the BASE of a descriptor. -/
  | dadd (t : Nat)
  /-- SEND (R149): Cuts its data into WRITE crates, or twin crates, and sends them to a remote target. -/
  | send (t : Nat)
  /-- SIGNAL (R151): Sends one TICKET crate to a corridor-list peer. -/
  | signal (t : Nat)
  /-- READ (R152): Sends READ_REQ crates for a remote source pattern. -/
  | read (t : Nat)
  /-- COLLATE (R153): Sends COLLATE crates to a Collator reduction. -/
  | collate (t : Nat)
  /-- HOLD (R157): Loads a B block into the matrix array. -/
  | hold (t : Nat)
  /-- MMA (R158): Matrix multiply-accumulate into accumulator banks. -/
  | mma (t : Nat)
  /-- MATRIX_CLEAR (R159): Clears the values and compensation terms of the banks named. -/
  | matrixClear (t : Nat)
  /-- VEC_MOVE (R162): Vector move with conversion. -/
  | vecMove (t : Nat)
  /-- VEC_ADD (R162): Vector add. -/
  | vecAdd (t : Nat)
  /-- VEC_SUB (R162): Vector subtract. -/
  | vecSub (t : Nat)
  /-- VEC_MUL (R162): Vector multiply. -/
  | vecMul (t : Nat)
  /-- VEC_FMA (R162): Vector fused multiply-add. -/
  | vecFma (t : Nat)
  /-- VEC_MIN (R162): Vector minimumNumber. -/
  | vecMin (t : Nat)
  /-- VEC_MAX (R162): Vector maximumNumber. -/
  | vecMax (t : Nat)
  /-- VEC_CMP (R162): Vector compare. -/
  | vecCmp (t : Nat)
  /-- VEC_SELECT (R162): Vector select. -/
  | vecSelect (t : Nat)
  /-- VEC_RCP (R162): Vector reciprocal. -/
  | vecRcp (t : Nat)
  /-- VEC_RSQRT (R162): Vector reciprocal square root. -/
  | vecRsqrt (t : Nat)
  /-- VEC_SQRT (R162): Vector square root. -/
  | vecSqrt (t : Nat)
  /-- VEC_EXP2 (R162): Vector base-2 exponential. -/
  | vecExp2 (t : Nat)
  /-- VEC_LOG2 (R162): Vector base-2 logarithm. -/
  | vecLog2 (t : Nat)
  /-- VEC_SIGN (R162): Vector absolute value or negation. -/
  | vecSign (t : Nat)
  /-- VEC_REDUCE (R163): Vector lane reduction by a fixed tree. -/
  | vecReduce (t : Nat)
  /-- ARITH (R165): Configuration step that writes fields of TILE_ARITH_CTRL. -/
  | arith (t : Nat)
  /-- STAT_CLEAR (R165): Configuration step that clears TILE_ARITH_STAT bits. -/
  | statClear (t : Nat)
  /-- TRAP_ENABLE (R165): Configuration step that writes TILE_ARITH_TRAP_EN. -/
  | trapEnable (t : Nat)
  /-- PERF (R165): Configuration step that acts on TILE_PERF_CTRL. -/
  | perf (t : Nat)
  /-- CRATE_TIME (R165): Configuration step that writes TILE_CRATE_TIME. -/
  | crateTime (t : Nat)
  /-- UNIT_STEP_COMPLETE (R111): A move, crate, matrix or vector unit completes its step. -/
  | unitStepComplete (t : Nat) (u : Unit4)
  /-- TILE_CRATE_TIMEOUT (R100): TILE_CRATE_TIME expires for a wait or an unaccepted crate step, giving CRATE_TIMEOUT. -/
  | tileCrateTimeout (t : Nat)
  /-- TILE_HANG_TIMEOUT (R100): TILE_HANG_TIME passes with a hang armed and the hang point not reached. -/
  | tileHangTimeout (t : Nat)
  /-- CRATE_INGRESS_TIMEOUT (R85): A partly received crate misses its last beat within TILE_CRATE_TIME and is discarded. -/
  | crateIngressTimeout (t : Nat) (ix : Nat)
  /-- CRATE_WRITE (R82): A WRITE crate completes at a tile: its data is written and TICKET_ADD added. -/
  | crateWrite (ix : Nat)
  /-- CRATE_READ_REQ (R82): A READ_REQ crate reaches a tile, which reads and returns a READ_RESP. -/
  | crateReadReq (ix : Nat)
  /-- CRATE_READ_RESP (R152): A READ_RESP crate is written to the requester's destination and ticketed. -/
  | crateReadResp (ix : Nat)
  /-- CRATE_TICKET (R82): A TICKET crate adds TICKET_ADD to a counter. -/
  | crateTicket (ix : Nat)
  /-- CRATE_TWIN_WRITE (R391): A twin crate passes the duplicate filter: written, digested or discarded. -/
  | crateTwinWrite (ix : Nat)
  /-- STOP (R109): TILE_STATE_CTRL command that stops a running or waiting tile into IDLE. -/
  | stop (t : Nat) (side : Side)
  /-- RELEASE (R104): TILE_STATE_CTRL command that moves a trapped tile to IDLE. -/
  | releaseTrap (t : Nat) (side : Side)
  /-- RESET (R109): TILE_STATE_CTRL command that resets one tile. -/
  | reset (t : Nat) (side : Side)
  /-- PERF_CLEAR (R110): CLEAR of TILE_PERF_CTRL zeroes the counters and MIN_SLACK at the next step boundary. -/
  | perfClear (t : Nat) (side : Side)
  /-- TILE_ARITH_STAT_CLEAR (R63): W1C clear of TILE_ARITH_STAT, taking effect at a step boundary or at once in TRAP and OFF. -/
  | tileArithStatClear (t : Nat) (mask : Nat) (side : Side)
  /-- CYCLE_COUNT_LO_READ (R105): A read of TILE_CYCLE_COUNT_LO latches the high half. -/
  | cycleCountLoRead (t : Nat)
  /-- REGISTER_WRITE (R107): Host or warden write to a register field that has no row of its own. -/
  | registerWrite (addr : Nat) (value : Nat) (side : Side)
  /-- THERMAL_CONVERSION (R90): The tile thermal sensor converts and updates TILE_TEMP. -/
  | thermalConversion (t : Nat) (temp : Nat)
  /-- CYCLE_STRETCH (R91): The critical-path slack falls below 4/256 and the next island cycle is lengthened. -/
  | cycleStretch (t : Nat) (slack : Nat)
  /-- ISLAND_CLOCK_CHANGE (R93): Firmware changes a tile's island frequency or supply. -/
  | islandClockChange (t : Nat) (freq : Nat) (volt : Nat)
  /-- ROUTER_FAIL (R15): A tile's corridor router fails; corridors then route around it. -/
  | routerFail (t : Nat)
  /-- LOAD (R171): Plan command that copies an image into a slot and audits it. -/
  | load
  /-- LOAD_COPY_DONE (R171): The image copy from host memory completes and the audit starts. -/
  | loadCopyDone (k : Nat) (bad : Nat)
  /-- AUDIT_DONE (R185): The audit ends; the slot becomes AUDITED or REJECTED. -/
  | auditDone (k : Nat)
  /-- PREPARE (R187): Plan command that places and preloads a slot. -/
  | prepare
  /-- AUTO_PREPARE_START (R172): A passed slot with AUTO_PREPARE starts preparing once no slot is READY or PREPARING. -/
  | autoPrepareStart
  /-- PREPARE_DONE (R187): Placement and preload finish; the slot becomes READY or REJECTED. -/
  | prepareDone (k : Nat) (tiles : List (Nat × Nat)) (tiers : List (Nat × Nat)) (offsets : List Nat) (segs : List (Nat × Nat)) (broken : Nat)
  /-- HANG (R195): Plan command that arms, waits for and applies a hang. -/
  | hang
  /-- HANG_ARMED_ALL_AT_POINT (R195): The last tile reaches its hang point and PENDING falls to 0. -/
  | hangArmedAllAtPoint
  /-- HANG_WAVE_COMPLETE (R199): The hang wave completes; the module applies, or withdraws on a mismatch. -/
  | hangWaveComplete
  /-- HANG_APPLY (R195): Corridors drain and step 5 applies tables, moves and tiles, then releases the generation. -/
  | hangApply
  /-- HANG_WAVE_SLOW (R200): PLN_HANG_WAVE_TIME passes after the contribution without wave completion. -/
  | hangWaveSlow
  /-- WITHDRAW (R201): Plan command that withdraws a hang not yet contributed or applying. -/
  | withdraw
  /-- DISCARD (R171): Plan command that empties a slot. -/
  | discard
  /-- READ_PLACEMENT (R465): Plan command that dumps the placement to host memory. -/
  | readPlacement
  /-- READ_CATALOGUE (R465): Plan command that dumps the Catalogue to host memory. -/
  | readCatalogue
  /-- PLACE_QUERY (R521): Office message asking for the tile of an exhibit in a generation. -/
  | placeQuery (ix : Nat)
  /-- PLACE_QUERY_REPEAT (R521): The 100 us repeat of an unanswered PLACE_QUERY. -/
  | placeQueryRepeat
  /-- PLACE_ANSWER (R521): Office message answering a placement query. -/
  | placeAnswer (ix : Nat)
  /-- PLACE_MOVED (R521): Office message giving the new tile of a moved exhibit. -/
  | placeMoved (ix : Nat)
  /-- PLACE_EXCHANGE_TIMEOUT (R193): PLN_EXCHANGE_TIME passes with a corridor unresolved; placement fails with REMOTE. -/
  | placeExchangeTimeout
  /-- PAGE_DECODE_DONE (R221): A held page is decoded after a parity failure; data is corrected or found uncorrectable. -/
  | pageDecodeDone (mem : Nat) (page : Nat)
  /-- SCRUB_PAGE (R227): The background scrub decodes the next page in full. -/
  | scrubPage (mem : Nat)
  /-- VAULT_DIE_FAIL (R234): A Vault die stops answering for 10 us, or returns too many uncorrectable columns, and is declared failed. -/
  | vaultDieFail (die : Nat)
  /-- MARCH_TEST (R233): Firmware march-tests the rows of a retired page and records a soft-spare entry. -/
  | marchTest (page : Nat) (rows : List (Nat × List (Nat)))
  /-- READ_RAW (R245): Raw command that reads data and parity bits without a check. -/
  | readRaw (mem : Nat) (pp : Nat) (reserved : Nat) (side : Side)
  /-- WRITE_DATA (R245): Raw command that writes data only. -/
  | writeData (mem : Nat) (pp : Nat) (reserved : Nat) (side : Side)
  /-- WRITE_PARITY (R245): Raw command that writes parity bits only. -/
  | writeParity (mem : Nat) (pp : Nat) (reserved : Nat) (side : Side)
  /-- READ_PAGE_PARITY (R245): Raw command that reads a page-parity byte. -/
  | readPageParity (mem : Nat) (pp : Nat) (reserved : Nat) (side : Side)
  /-- WRITE_PAGE_PARITY (R245): Raw command that writes a page-parity byte without a delta. -/
  | writePageParity (mem : Nat) (pp : Nat) (reserved : Nat) (side : Side)
  /-- CHECKED_READ (R245): Raw command that reads by the normal path without write-back. -/
  | checkedRead (mem : Nat) (pp : Nat) (reserved : Nat) (side : Side)
  /-- STORE_REFRESH (R243): Per-bank refresh command on a Store channel. -/
  | storeRefresh (chan : Nat) (temp : Nat)
  /-- STORE_RFM (R243): Refresh management issued on device request. -/
  | storeRfm (chan : Nat) (bank : Nat)
  /-- WCK2DQ_OSC_READ (R243): The 4 ms read of the interval oscillator of a channel. -/
  | wck2dqOscRead (chan : Nat) (drift : Nat)
  /-- ZQ_LATCH (R243): The 32 ms ZQ latch on a channel. -/
  | zqLatch (chan : Nat)
  /-- SELF_REFRESH_ENTRY (R243): An idle Store channel enters self-refresh. -/
  | selfRefreshEntry (chan : Nat) (segs : List (Nat))
  /-- FLIT_SLOT (R249): A link transmits one flit in its slot: DATA, retransmission, CONTROL, CREDIT, INIT or IDLE. -/
  | flitSlot (j : Nat) (l : Nat)
  /-- DATA_FLIT (R265): A good DATA flit is received and held, marked in order or discarded. -/
  | dataFlit (j : Nat) (l : Nat) (raw : List (Nat))
  /-- CONTROL_FLIT (R267): A CONTROL flit is received: acknowledgements, credits and NAK retransmissions. -/
  | controlFlit (j : Nat) (l : Nat) (raw : List (Nat))
  /-- CREDIT_FLIT (R270): A CREDIT flit is received and its freed counts are taken. -/
  | creditFlit (j : Nat) (l : Nat) (raw : List (Nat))
  /-- IDLE_FLIT (R280): An IDLE flit is received; its slot is checked and FAULT is honoured. -/
  | idleFlit (j : Nat) (l : Nat) (raw : List (Nat))
  /-- INIT_FLIT (R272): An INIT flit is received during channel bring-up or rejoin. -/
  | initFlit (j : Nat) (l : Nat) (raw : List (Nat))
  /-- BAD_FLIT (R254): A flit fails RS decoding or the CRC; it is discarded and its slot is negatively acknowledged. -/
  | badFlit (j : Nat) (l : Nat) (raw : List (Nat))
  /-- REORDER_RELEASE (R265): Flits marked in order leave the reorder buffer and free their credits. -/
  | reorderRelease (j : Nat) (c : Nat)
  /-- CRATE_TRANSMIT_START (R270): A crate has full credit cover and starts on its chosen channel. -/
  | crateTransmitStart (ix : Nat)
  /-- ACK_TIMER_EXPIRY (R266): WNG_ACK_TIME passes since an unreported in-order flit; a CONTROL flit is sent. -/
  | ackTimerExpiry (j : Nat)
  /-- CREDIT_TIMER_EXPIRY (R270): WNG_ACK_TIME passes since an unreported freeing; a CREDIT flit is sent. -/
  | creditTimerExpiry (j : Nat)
  /-- REPLAY_TIMER_EXPIRY (R269): A link's replay timer expires and its unacknowledged flits are retransmitted. -/
  | replayTimerExpiry (j : Nat) (l : Nat)
  /-- LINK_SUSPEND (R276): Lock loss on a link suspends it and fails its flits over to the sibling. -/
  | linkSuspend (j : Nat) (l : Nat)
  /-- LINK_REJOIN (R277): A suspended or retrained link regains lock and rejoins by INIT with REJOIN. -/
  | linkRejoin (j : Nat) (l : Nat)
  /-- LINK_DOWN_TIMER (R278): WNG_LINK_DOWN_TIME passes for a suspended link, which goes down. -/
  | linkDownTimer (j : Nat) (l : Nat)
  /-- INIT_TIMEOUT (R272): An INIT exchange fails to reach UP within 100 us and restarts lane training. -/
  | initTimeout (j : Nat) (l : Nat)
  /-- CREDIT_TIMEOUT (R274): A P1-compatible class waits WNG_CREDIT_TIME without credit reports. -/
  | creditTimeout (j : Nat) (c : Nat)
  /-- WIDTH_CHANGE (R275): A Wing decides a width change and requests it. -/
  | widthChange (j : Nat) (l : Nat) (width : Nat)
  /-- WIDTH_CHANGE_DONE (R275): Retraining at the new width ends and DATA resumes. -/
  | widthChangeDone (j : Nat) (l : Nat) (locked : Nat)
  /-- CHANNEL_RESET (R279): WNG_CHAN_CTRL command that resets a channel. -/
  | channelReset (j : Nat) (side : Side)
  /-- LINK_DOWN (R283): WNG_CHAN_CTRL command that declares a link down at once. -/
  | linkDown (j : Nat) (l : Nat) (side : Side)
  /-- CREDIT_ADV_WRITE (R271): A write of WNG_CREDIT_ADV is checked against the total grant limits. -/
  | creditAdvWrite (w : Nat) (c : Nat) (value : Nat) (side : Side)
  /-- REQUEST_ENTRY_ALLOC (R299): A waiting READ_REQ takes a free request-table entry and leaves the Wing. -/
  | requestEntryAlloc (ix : Nat)
  /-- RESPONSE_MATCH (R300): A READ_RESP is matched by its Wing or discarded as late. -/
  | responseMatch (ix : Nat)
  /-- REQUEST_TIMEOUT (R301): FAB_REQUEST_TIME passes for a request, which is retried or completed as unreachable. -/
  | requestTimeout (id : Nat)
  /-- REQUEST_RETRY (R301): Firmware resends a timed-out READ_REQ by the alternate route. -/
  | requestRetry (id : Nat)
  /-- QUARANTINE_EXPIRY (R300): A retried entry leaves quarantine and becomes free. -/
  | quarantineExpiry (id : Nat)
  /-- COLLATE_CRATE (R305): A COLLATE crate reaches its serving Collator and is added into its chunk's slots. -/
  | collateCrate (ix : Nat)
  /-- COLLATE_STALL (R308): A chunk holds slots for COL_STALL_TIME without completing. -/
  | collateStall (ix : Nat)
  /-- COL_RED_CFG_WRITE (R305): A write of a reduction entry is checked against the slot total. -/
  | colRedCfgWrite (col : Nat) (r : Nat) (value : Nat) (side : Side)
  /-- WAVE_MESSAGE (R312): A WAVE message is received and combined; phases and the wave may complete. -/
  | waveMessage (ix : Nat)
  /-- WAVE_SLOW (R432): FAB_WAVE_TIME passes in a wave. -/
  | waveSlow (group : Nat)
  /-- CENSUS (R317): FAB_CTRL command that starts a census wave. -/
  | census (group : Nat) (side : Side)
  /-- FABRIC_RESET (R318): FAB_CTRL command, through PF1, that starts a fabric reset flood. -/
  | fabricReset (side : Side)
  /-- FABRIC_RESET_MESSAGE (R318): A reset message is received, forwarded once and acted on by a local reset. -/
  | fabricResetMessage (ix : Nat)
  /-- OFFICE_CRATE (R293): A TC3 crate addressed to this module is handed to the Registrar. -/
  | officeCrate (ix : Nat)
  /-- BRINGUP_START (R341): A link's lasers are lit and locked and training frames start. -/
  | bringupStart (j : Nat) (l : Nat)
  /-- TRAINING_FRAME (R338): A good training frame is received; inversion, order and pairing are corrected. -/
  | trainingFrame (j : Nat) (k : Nat) (r : Nat) (frame : Nat)
  /-- MARGIN_TEST_DONE (R339): A fibre's margin test completes and RX_DONE is set. -/
  | marginTestDone (j : Nat) (k : Nat) (margins : List (Nat))
  /-- BRINGUP_TIMEOUT (R341): A link does not finish bring-up within 5 ms. -/
  | bringupTimeout (j : Nat) (l : Nat)
  /-- RETRAIN_RETRY (R342): The retry interval expires and firmware retries lane training. -/
  | retrainRetry (j : Nat) (l : Nat)
  /-- LANE_REQUEST (R345): Lane-control REQUEST for a lane move. -/
  | laneRequest (j : Nat) (l : Nat) (lane : Nat) (margins : List (Nat))
  /-- LANE_MOVE (R345): Lane-control MOVE: the lane is duplicated on a new slot. -/
  | laneMove (j : Nat) (l : Nat) (lane : Nat) (slot : Nat) (fibre : Nat)
  /-- LANE_SWITCHED (R345): Lane-control SWITCHED: the old slot is released. -/
  | laneSwitched (j : Nat) (l : Nat) (lane : Nat)
  /-- LANE_REFUSE (R345): Lane-control REFUSE: no free slot with enough margin. -/
  | laneRefuse (j : Nat) (l : Nat) (lane : Nat)
  /-- LANE_TAKE_NEW_SLOT (R345): The receiver aligns a duplicated lane and switches at a flit-group boundary. -/
  | laneTakeNewSlot (j : Nat) (l : Nat) (lane : Nat)
  /-- STEER_TIMEOUT (R345): WNG_STEER_TIME passes without SWITCHED. -/
  | steerTimeout (j : Nat) (l : Nat) (lane : Nat)
  /-- LANE_UNLOCK (R346): A lane loses symbol lock and a move is requested. -/
  | laneUnlock (j : Nat) (l : Nat) (lane : Nat)
  /-- QUALITY_UPDATE (R350): The 1 ms update of eye width and error-rate exponent of a receive slot. -/
  | qualityUpdate (w : Nat) (n : Nat) (eye : Nat) (exp : Nat)
  /-- LANE_LAG (R335): A lane's stuffing lag reaches 64 UI; the lane is stopped. -/
  | laneLag (j : Nat) (l : Nat) (lane : Nat)
  /-- WIDTH_RISE_TIMER (R346): Enough passing slots have held for 100 ms; the link widens. -/
  | widthRiseTimer (j : Nat) (l : Nat)
  /-- SPARE (R346): WNG_LANE_CTRL command that requests a move of a lane. -/
  | spare (w : Nat) (p : Nat) (lane : Nat) (side : Side)
  /-- RESTORE (R352): WNG_LANE_CTRL command that moves a lane back to its assigned slot. -/
  | restore (w : Nat) (p : Nat) (lane : Nat) (side : Side)
  /-- LASER_BIAS_UPDATE (R354): The 10 us bias control update of a laser position, with state judgement. -/
  | laserBiasUpdate (p : Nat) (pos : Nat) (bias : Nat) (power : Nat)
  /-- SWAP (R355): LMP_CTRL command that starts a laser swap. -/
  | swap (p : Nat) (pos : Nat) (side : Side)
  /-- SWAP_WARM_DONE (R367): The 15 ms warm-up ends; lanes move away and the combiner switches. -/
  | swapWarmDone (p : Nat) (pos : Nat)
  /-- SWAP_LOCK_DONE (R367): The reserve is locked, rings are relocked and the drive is set. -/
  | swapLockDone (p : Nat) (pos : Nat)
  /-- SWAP_RETURN (R367): At 28 ms the lanes move back to their slot and the swap completes. -/
  | swapReturn (p : Nat) (pos : Nat)
  /-- LASER_SWAP_FAIL (R369): A reserve misses its output or lock, or fails during a swap. -/
  | laserSwapFail (p : Nat) (pos : Nat)
  /-- LASER_FAIL (R360): A laser's output drops 3 dB without a bias change; it is marked failed. -/
  | laserFail (p : Nat) (pos : Nat)
  /-- RING_UNLOCK (R358): A ring's lock error persists 20 us or its heater saturates; it relocks by sweep. -/
  | ringUnlock (w : Nat) (n : Nat) (modulator : Nat)
  /-- RING_RELOCK (R358): An unlocked ring relocks, which is a relight of its slot. -/
  | ringRelock (w : Nat) (n : Nat) (modulator : Nat)
  /-- BANDGAP_CHECK (R359): The 10 ms comparison of the two band-gap references of a die. -/
  | bandgapCheck (die : Nat) (ref : Nat) (second : Nat)
  /-- RELIGHT (R361): Received power returns and stays stable for 1 ms; the slot is queued for calibration. -/
  | relight (w : Nat) (n : Nat)
  /-- CAL_ATTEMPT (R363): A queued slot reaches the head of its channel's queue and calibration starts. -/
  | calAttempt (j : Nat)
  /-- CAL_MEASURE_DONE (R364): Two measurements finish and are compared; the result is applied or requeued. -/
  | calMeasureDone (j : Nat) (h1 : Nat) (e1 : Nat) (h2 : Nat) (e2 : Nat) (light : Nat × Option Nat) (exp : Nat) (tco : Nat)
  /-- CAL_DEFERRED (R365): A calibration trigger has waited 10 s for a free slot. -/
  | calDeferred (w : Nat) (n : Nat)
  /-- CALIBRATE (R361): WNG_CAL_CTRL command that queues one slot. -/
  | calibrate (w : Nat) (n : Nat) (side : Side)
  /-- CALIBRATE_LINK (R361): WNG_CAL_CTRL command that queues every slot of a pair. -/
  | calibrateLink (w : Nat) (p : Nat) (side : Side)
  /-- CLEAR_SUSPECT (R364): WNG_CAL_CTRL command that clears Suspect and calibrates a slot. -/
  | clearSuspect (w : Nat) (n : Nat) (side : Side)
  /-- GOVERNOR_SAMPLE (R370): The 10 us Climate governor power measurement and pace setting. -/
  | governorSample (draw : Nat × Nat) (input : Nat) (pace : List (Nat × Nat))
  /-- GOVERNOR_TEMP_STEP (R371): The 100 us step of island clocks for tiles above or below the temperature limit. -/
  | governorTempStep
  /-- COND_SUMMARY (R375): RGS_COND_TIME elapses; a summary record is written and margins are re-planned. -/
  | condSummary (dmax : List (Nat)) (dmean : List (Nat)) (weak : List (Nat))
  /-- WRITE_NOW (R375): RGS_COND_CTRL command that writes a summary record now. -/
  | writeNow (dmax : List (Nat)) (dmean : List (Nat)) (weak : List (Nat)) (side : Side)
  /-- SLACK_SAMPLE (R377): Firmware's 1 ms sample of tile critical-path slack. -/
  | slackSample
  /-- COMPARE_TIMEOUT (R392): A block's second copy is incomplete after PAIR_COMPARE_TIME; it counts as unmatched. -/
  | compareTimeout (ix : Nat)
  /-- DISPUTE (R393): Pairing message reporting a disagreement; the member runs a known-answer test. -/
  | dispute (ix : Nat)
  /-- KAT_DONE (R393): The arbitration self-test finishes and ARBITRATE is sent. -/
  | katDone (shard : Nat) (epoch : Nat) (failed : List (Nat))
  /-- ARBITRATE (R394): Pairing message with the other member's test result; the outcome is decided. -/
  | arbitrate (ix : Nat)
  /-- ARBITRATE_TIMEOUT (R393): No ARBITRATE arrives within 5 ms; the other side is treated as failing. -/
  | arbitrateTimeout (shard : Nat) (epoch : Nat)
  /-- IDLE_SELF_TEST (R398): A tile in IDLE completes a continuous self-test run. -/
  | idleSelfTest (t : Nat) (fail : Nat)
  /-- REBUILD_DONE (R395): The last rebuild byte is written; counters are set and the freeze is released. -/
  | rebuildDone (shard : Nat)
  /-- BEACON_TIMER (R396): A beacon period ends: beacons are sent, counts advance, loss and isolation are judged. -/
  | beaconTimer
  /-- BEACON (R399): Pairing message from a partner that resets its missed count. -/
  | beacon (ix : Nat)
  /-- WITNESS_QUERY (R399): Pairing message asking the reserve to confirm a loss. -/
  | witnessQuery (ix : Nat)
  /-- WITNESS_ANSWER (R399): Pairing message with the reserve's verdict; the requester may take over. -/
  | witnessAnswer (ix : Nat)
  /-- SUBSTITUTE (R402): Pairing flood message that installs a substitution, forwarded once. -/
  | substitute (ix : Nat)
  /-- HANDOVER_MESSAGE (R407): Pairing message announcing a handover; the reserve answers as if confirmed. -/
  | handoverMessage (ix : Nat)
  /-- SWITCHOVER_CLOSE (R404): The 2.5 ms switch-over window ends and the survivor is SOLE. -/
  | switchoverClose
  /-- HANDOVER (R407): PAIR_CTRL command that stops and fences the module and hands it over. -/
  | handover (side : Side)
  /-- STOCKTAKE (R410): PAIR_CTRL command that contributes to a marker wave. -/
  | stocktake (group : Nat) (number : Nat) (side : Side)
  /-- STOCKTAKE_RELEASE (R413): PAIR_CTRL RELEASE that ends a freeze and frees COW pages. -/
  | stocktakeRelease (side : Side)
  /-- CLEAR_SUBST (R415): PAIR_CTRL command that clears unreferenced substitutions. -/
  | clearSubst (side : Side)
  /-- FORCE_TAKEOVER (R399): PAIR_CTRL command, through PF1, that takes over without a witness. -/
  | forceTakeover (side : Side)
  /-- UNFENCE (R399): PAIR_CTRL command that leaves FENCED. -/
  | unfence (side : Side)
  /-- DRAIN_DONE (R413): The drain of the frozen ledger to the buddy completes. -/
  | drainDone
  /-- INCIDENT_WINDOW_END (R419): A source's counting window ends and its count returns to 0. -/
  | incidentWindowEnd (blk : Nat) (inst : Nat) (k : Nat)
  /-- LEVEL_REPEAT (R417): A persisting condition produces a further event after 1 ms. -/
  | levelRepeat (blk : Nat) (inst : Nat) (k : Nat)
  /-- INC_FORCE (R424): Force bit write that injects one event into a source. -/
  | incForce (blk : Nat) (inst : Nat) (value : Nat) (side : Side)
  /-- CHANCE_TIMER_EXPIRY (R425): A chance timer expires and the source's action is taken or cancelled. -/
  | chanceTimerExpiry (blk : Nat) (inst : Nat) (k : Nat)
  /-- ACTION_CANCEL (R426): A write of 1 to PENDING cancels a pending action. -/
  | actionCancel (blk : Nat) (inst : Nat) (mask : Nat) (side : Side)
  /-- RESUME (R429): INC_ACTION command that ends a HALT. -/
  | resume (blk : Nat) (inst : Nat) (side : Side)
  /-- LATCH_CLEAR (R421): A write of 1 to VALID clears the first-source latch. -/
  | latchClear (blk : Nat) (inst : Nat) (side : Side)
  /-- RAISED_CLEAR (R421): W1C write of RAISED bits of INC_STAT. -/
  | raisedClear (blk : Nat) (inst : Nat) (mask : Nat) (side : Side)
  /-- POLICY_WRITE (R431): A write of INC_POLICY with field-by-field rights checks. -/
  | policyWrite (blk : Nat) (inst : Nat) (k : Nat) (value : Nat) (side : Side)
  /-- SELF_FAULT (R430): A parity fault in a block's incident logic enters Lockdown at once. -/
  | selfFault (blk : Nat) (inst : Nat)
  /-- FIRMWARE_STALL (R430): The watchdog is not served for 5 ms; Lockdown is entered at once. -/
  | firmwareStall
  /-- FORCE (R430): RGS_LOCK_CTRL FORCE from the warden side enters Lockdown at once. -/
  | forceLockdown (side : Side)
  /-- LOCKDOWN_CLEAR (R441): RGS_LOCK_CTRL CLEAR that requests an exit from Lockdown. -/
  | lockdownClear (side : Side)
  /-- LOCKDOWN_EXIT_CHECK (R442): The 1 ms check of policy and exit conditions, which may take a QUIET exit. -/
  | lockdownExitCheck
  /-- DOCKET_DOORBELL (R457): Doorbell write of a docket or plan ring's producer count. -/
  | docketDoorbell (d : Nat) (count : Nat) (side : Side)
  /-- LOGBOOK_DOORBELL (R457): Doorbell write of a logbook ring's consumer count. -/
  | logbookDoorbell (l : Nat) (count : Nat) (side : Side)
  /-- DOCKET_NOP (R460): Docket entry that does nothing and completes. -/
  | docketNop (r : Nat)
  /-- DMA_WRITE (R461): Docket entry that copies host memory to module memory. -/
  | dmaWrite (r : Nat) (pages : Nat)
  /-- DMA_READ (R461): Docket entry that copies module memory to host memory. -/
  | dmaRead (r : Nat) (pages : Nat)
  /-- ARCHIVE_READ (R460): Docket entry that reads an Archive-flash area. -/
  | archiveRead (r : Nat)
  /-- ARCHIVE_WRITE (R460): Docket entry, PF1 only, that writes the user area. -/
  | archiveWrite (r : Nat)
  /-- MEASURE_LOG_READ (R460): Docket entry that copies the measurement log. -/
  | measureLogRead (r : Nat)
  /-- FW_STAGE (R477): Docket entry, PF1 only, that writes and verifies a firmware slot. -/
  | fwStage (r : Nat)
  /-- DOCKET_ENTRY_DONE (R463): A docket entry finishes its transfer and its completion record is written. -/
  | docketEntryDone (r : Nat) (flash : Nat)
  /-- RESTART (R462): HST_DMA_CTRL command that clears HALTED on a channel. -/
  | restart (r : Nat) (side : Side)
  /-- RING_ENABLE (R457): A change of ENABLE in a ring's configuration, which resets counts or aborts an entry. -/
  | ringEnable (d : Nat) (on : Nat) (side : Side)
  /-- LOGBOOK_SPACE_RETURN (R468): Space returns to a full logbook ring and LOST_RECORDS is written. -/
  | logbookSpaceReturn (l : Nat)
  /-- LOG_QUEUE_FLUSH (R468): Queued records are written once the link can carry writes again. -/
  | logQueueFlush (rate : Nat) (width : Nat)
  /-- WARDEN_NOTICE_WRITE (R487): A write of HST_WARDEN_NOTICE queues a notice to the warden side. -/
  | wardenNoticeWrite (value : Nat) (side : Side)
  /-- NOTICE_SEND (R487): The 1 ms notice rate limit expires and the waiting notice is sent. -/
  | noticeSend
  /-- BAR2_READ (R454): Host read through the BAR2 window of module memory. -/
  | bar2Read (off : Nat) (n : Nat)
  /-- BAR2_WRITE (R454): Host write through the BAR2 window of module memory. -/
  | bar2Write (off : Nat) (data : List (Nat))
  /-- FLR (R455): Function-level reset of PF0 or PF1. -/
  | flr (pf : Nat)
  /-- FUNCTION_STATE_CHANGE (R455): A function enters or leaves D3hot, or Bus Master Enable changes. -/
  | functionStateChange (pf : Nat) (d3 : Nat) (bme : Nat)
  /-- PERST (R496): PERST# asserted for 100 us resets the PCIe endpoint only. -/
  | perst
  /-- PCIE_LINK_DOWN (R432): The PCIe link leaves L0 without a reset. -/
  | pcieLinkDown
  /-- MEAS_DATA_READ (R492): A read of RGS_MEAS_DATA[0] latches the measurement words and count. -/
  | measDataRead
  /-- DOE_DISCOVERY (R471): DOE Discovery request on PF1. -/
  | doeDiscovery (index : Nat)
  /-- GET_VERSION (R471): SPDM GET_VERSION request. -/
  | getVersion (msg : List (Nat))
  /-- GET_CAPABILITIES (R471): SPDM GET_CAPABILITIES request. -/
  | getCapabilities (msg : List (Nat))
  /-- NEGOTIATE_ALGORITHMS (R471): SPDM NEGOTIATE_ALGORITHMS request. -/
  | negotiateAlgorithms (msg : List (Nat))
  /-- GET_DIGESTS (R471): SPDM GET_DIGESTS request. -/
  | getDigests (msg : List (Nat))
  /-- GET_CERTIFICATE (R471): SPDM GET_CERTIFICATE request. -/
  | getCertificate (msg : List (Nat))
  /-- CHALLENGE (R471): SPDM CHALLENGE request. -/
  | challenge (msg : List (Nat))
  /-- GET_MEASUREMENTS (R472): SPDM GET_MEASUREMENTS request. -/
  | getMeasurements (msg : List (Nat))
  /-- RESPOND_IF_READY (R471): SPDM RESPOND_IF_READY request. -/
  | respondIfReady (msg : List (Nat))
  /-- SPDM_UNSUPPORTED (R471): An SPDM request outside the supported set, answered with ERROR. -/
  | spdmUnsupported (msg : List (Nat))
  /-- STATUS_GET (R485): Warden request for module status. -/
  | statusGet (msg : List (Nat))
  /-- REG_READ (R485): Warden request that reads BAR0 words. -/
  | regRead (msg : List (Nat))
  /-- REG_WRITE (R485): Warden request that writes a BAR0 word with warden rights. -/
  | regWrite (msg : List (Nat))
  /-- POWER_CAP_SET (R501): Warden request that sets and stores the input power cap. -/
  | powerCapSet (msg : List (Nat)) (flash : Nat)
  /-- LIFECYCLE_SET (R481): Warden request that changes the lifecycle state, with erase and reset. -/
  | lifecycleSet (msg : List (Nat))
  /-- FW_AUTHORISE (R485): Warden request that authorises a STAGED slot. -/
  | fwAuthorise (msg : List (Nat)) (flash : Nat)
  /-- FW_COMMIT_SVN (R479): Warden request that raises the rollback fuse count. -/
  | fwCommitSvn (msg : List (Nat))
  /-- HISTORY_READ (R485): Warden request that reads incident history records. -/
  | historyRead (msg : List (Nat))
  /-- WARDEN_LOCKDOWN_FORCE (R485): Warden LOCKDOWN request with FORCE. -/
  | wardenLockdownForce (msg : List (Nat))
  /-- WARDEN_LOCKDOWN_CLEAR (R485): Warden LOCKDOWN request with CLEAR. -/
  | wardenLockdownClear (msg : List (Nat))
  /-- TENANT_KEY_SET (R485): Warden request that sets or erases a tenant key. -/
  | tenantKeySet (msg : List (Nat)) (flash : Nat)
  /-- CONFIG_SET (R485): Warden request that sets the Warden network configuration. -/
  | configSet (msg : List (Nat)) (flash : Nat)
  /-- PROVISION (R485): Warden request that yields a CSR or loads a certificate chain chunk. -/
  | provision (msg : List (Nat)) (flash : Nat)
  /-- WARDEN_ARCHIVE_READ (R485): Warden request that reads an Archive area. -/
  | wardenArchiveRead (msg : List (Nat))
  /-- FIRMWARE_READY (R478): Firmware reaches READY and confirms its slot. -/
  | firmwareReady
  /-- BOOT_TIMEOUT (R478): Firmware misses READY within 60 s; the Registrar restarts with a module reset. -/
  | bootTimeout
  /-- POWER_ON_RESET (R513): The input rises through turn-on and the power-up sequence runs. -/
  | powerOnReset
  /-- POWER_LOSS (R500): The input falls through turn-off or exceeds shutoff; the switch opens after hold-up. -/
  | powerLoss
  /-- INPUT_OUT_OF_RANGE (R500): The input leaves 40 V to 50 V while the module still runs. -/
  | inputOutOfRange (volts : Nat)
  /-- POL_FAULT (R432): A point-of-load converter faults. -/
  | polFault
  /-- POWER_STATE_REQUEST (R505): PWR_STATE_CTRL GO that requests a power state, refused or started. -/
  | powerStateRequest (target : Nat) (side : Side)
  /-- POWER_STATE_DONE (R509): The entry or exit actions of a power-state change complete. -/
  | powerStateDone
  /-- MODULE_RESET (R514): PWR_RESET_CTRL MODULE command that resets the module. -/
  | moduleReset (side : Side)
  /-- GALLERY_RESET (R515): GAL_RESET_CTRL GALLERY command that resets tiles and the Vault. -/
  | galleryReset (side : Side)
  /-- GALLERY_RESET_DONE (R515): A Gallery reset finishes; held crates are delivered and DMA resumes. -/
  | galleryResetDone
  /-- STORE_CHANNEL_FAIL (R247): A Store channel fails and its STATE becomes failed, making its device's pages uncorrectable to every reader. -/
  | storeChannelFail (chan : Nat)
  /-- STORE_TRAINING_DONE (R243): Full LPDDR5X training of all channels ends, passing or raising TRAINING_FAIL. -/
  | storeTrainingDone (pass : Nat)
  /-- STORE_WIPE_DONE (R235): The 0.40 s Store wipe after a power-on or module reset finishes and WIPE_BUSY returns to 0. -/
  | storeWipeDone
  /-- PIC_TEMP_UPDATE (R361): A PIC temperature reading is updated; it queues slots whose temperature has left CAL_TEMP by the threshold and raises PIC_THERMAL above 95 °C. -/
  | picTempUpdate (w : Nat) (temp : Nat) (slope : Nat)
  /-- PIC_THERMAL (R373): More than a quarter of a PIC's rings stay unlocked for 1 ms and PIC_THERMAL is raised. -/
  | picThermal (w : Nat)
  /-- PCIE_COMPLETION_TIMEOUT (R453): A non-posted request of the module gets no completion within 50 ms, and its DMA channel stops with HOST_ERROR. -/
  | pcieCompletionTimeout (r : Nat)
  /-- BAD_OPCODE_ENTRY (R460): A docket or plan-ring entry with an undefined opcode is consumed and completes with BAD_OPCODE. -/
  | badOpcodeEntry (r : Nat)
  /-- BAD_FORMAT_REQUEST (R484): A Warden UDP message with a malformed header or an undefined TYPE is answered with a signed rejection. -/
  | badFormatRequest (msg : List (Nat))
  /-- ARP_REQUEST (R482): An ARP request on the Warden port is received and answered. -/
  | arpRequest (ip : Nat)
  /-- ICMP_ECHO (R482): An ICMP echo request on the Warden port is received and answered. -/
  | icmpEcho (ip : Nat) (data : List (Nat))
  /-- LIFECYCLE_ERASE_DONE (R481): The erase of a lifecycle change, up to 330 s, finishes and the module reset of step 4 follows. -/
  | lifecycleEraseDone
  /-- QUIET_EXIT_AGEING (R442): A QUIET exit passes out of the last 10 minutes of Registrar timer and RECENT falls by one. -/
  | quietExitAgeing
  deriving DecidableEq, Repr

end Sys2Proof
end

