-- ==== Sys2Proof/Decode.lean ====
section
/-! DEFINITION. The commands that a word spells by the bits of spec/opcode_table.json.  Every row of the
table has an empty list of fields, so no row gives bits and no word spells a command. -/

namespace Sys2Proof

/-- The command an `nbits`-bit word spells by the table's bits: none, since no row gives bits. -/
def decodeTableWord (_nbits _w : Nat) : Option Instr := none

end Sys2Proof
end

