-- ==== Sys2Proof/Config.lean ====
section
/-! DEFINITION. What the spec leaves open: free values with no body, and the few constants a
rule leaves to the part.  Nothing can evaluate a free value, so a statement that mentions one
holds whatever it is (notes/assumptions, entries named at each constant). -/

namespace Sys2Proof.Config

/-- The random source of the Registrar (R55 hang entropy, R318 reset numbers, R402 numbers, R485
nonces): the `n`-th 64-bit draw.  Free: log entry 1. -/
opaque entropy : Nat → Nat

/-- The choice, within the accuracy of R61, that the vector engine makes for RCP, RSQRT, EXP2 and
LOG2: operation and operand bits give an offset in ulps, reduced to the bound where it is used.
Free, but the same on every tile and every run as R61 says: log entry 2. -/
opaque vecUlp : Nat → Nat → Nat

/-- What a read finds that overlaps a write still running in another unit or an arriving crate
(R83, R124: old bytes, new bytes or a mixture).  Free: log entry 3. -/
opaque racedByte : Nat → Nat

/-- Firmware's fixed table of dither frequencies (R357): a ring's place on its waveguide gives the number of the frequency among those that
the waveguide's earlier rings leave.  The spec does not print the table: log entry 191. -/
opaque dither : Nat → Nat

/-- The order or interleaving the spec leaves to chance where several outcomes are allowed.
Free: log entry 4. -/
opaque choice : Nat → Nat

/-- ECDSA P-384 verification of a 384-bit digest: key index, digest, signature bytes.
The algorithm is public and outside the spec's text; its verdict is free: log entry 5. -/
opaque ecdsaVerify : Nat → List Nat → List Nat → Bool

/-- ECDSA P-384 signature (96 bytes) the Registrar makes over a digest: log entry 5. -/
opaque ecdsaSign : Nat → List Nat → Nat → List Nat

/-- The firmware image in slot A when the module is first powered: log entry 61. -/
opaque factoryImage : List Nat

/-- The digest that the measured boot extends measurement register 1 or 6 with, from what R472 names, and 2 to 5 at the
first power-on reset: register, inputs.  The spec gives no bytes that the digest is taken over: log entry 61. -/
opaque measured : Nat → List Nat → List Nat

/-- The IPv4 address that DHCPv4 gives the Warden port (R482): it comes from a server outside the module.  Free: log entry 64. -/
opaque dhcpAddress : Nat

/-- The MAC address of the Warden port, fused one per module (R482).  Free: log entry 64. -/
opaque macAddress : Nat

/-- The first page, within the plan store, of plan-store record number `n` (R168): no rule gives the store's layout, so where
a record lies is free: log entry 16. -/
opaque recordPage : Nat → Nat

end Sys2Proof.Config
end

