-- ==== Sys2Proof/Machine/Formats.lean ====
section
/-! DEFINITION. Number formats, conversions, rounding and noise: R37 to R55 of 02_arithmetic.md.
A value is held exactly, as a sign, a magnitude `m` and a power of two `e`; every conversion
computes exactly and narrows once at the end. -/

namespace Sys2Proof.Machine

/-- A decoded value: `fin neg m e` is `±m·2^e` (a signed zero has `m = 0`). -/
inductive FpVal where
  | nan
  | inf (neg : Bool)
  | fin (neg : Bool) (m : Nat) (e : Int)
  deriving DecidableEq, Repr

/-- A scalar format of R38.  `maxCode` is the code of its largest finite magnitude. -/
structure Fmt where
  bits : Nat
  mbits : Nat
  bias : Nat
  maxCode : Nat
  hasInf : Bool
  nanCode : Nat
  deriving DecidableEq, Repr

/-- The scalar formats of R38 and the canonical NaNs of R39 (0 where the format has none). -/
def fmtFP32 : Fmt := ⟨32, 23, 127, 0x7F7FFFFF, true, 0x7FC00000⟩
def fmtBF16 : Fmt := ⟨16, 7, 127, 0x7F7F, true, 0x7FC0⟩
def fmtFP16 : Fmt := ⟨16, 10, 15, 0x7BFF, true, 0x7E00⟩
def fmtE4M3 : Fmt := ⟨8, 3, 7, 0x7E, false, 0x7F⟩
def fmtE5M2 : Fmt := ⟨8, 2, 15, 0x7B, true, 0x7E⟩
def fmtE2M3 : Fmt := ⟨6, 3, 1, 0x1F, false, 0⟩
def fmtE3M2 : Fmt := ⟨6, 2, 3, 0x1F, false, 0⟩
def fmtE2M1 : Fmt := ⟨4, 1, 1, 0x7, false, 0⟩

/-- The element format of a format code of R37. -/
def elemFmt (code : Nat) : Fmt :=
  match code with
  | 0 => fmtFP32 | 1 => fmtBF16 | 2 => fmtFP16 | 3 => fmtE4M3 | 4 => fmtE5M2
  | 5 => fmtE4M3 | 6 => fmtE5M2 | 7 => fmtE2M3 | 8 => fmtE3M2 | _ => fmtE2M1

/-- Code 0xB to 0xF are reserved (R37). -/
def fmtValid (code : Nat) : Bool := code ≤ 0xA

/-- Formats with E8M0 block scales (R37, R40). -/
def isMX (code : Nat) : Bool := 5 ≤ code && code ≤ 0xA

/-- Group-scaled MXFP4 (R45). -/
def isGrouped (code : Nat) : Bool := code == 0xA

/-- Bits per element (R37). -/
def fmtBits (code : Nat) : Nat := (elemFmt code).bits

/-- The power of two of a format's least significant subnormal bit. -/
def Fmt.lsbMin (f : Fmt) : Int := 1 - (f.bias : Int) - f.mbits

/-- Decode a code of a scalar format (R38). E4M3 has only the NaN of magnitude 0x7F; the 6- and
4-bit types have neither infinity nor NaN. -/
def Fmt.decode (f : Fmt) (code : Nat) : FpVal :=
  let neg := bit code (f.bits - 1)
  let mag := code % 2 ^ (f.bits - 1)
  if mag ≤ f.maxCode then
    let ex := mag / 2 ^ f.mbits
    let man := mag % 2 ^ f.mbits
    if ex = 0 then .fin neg man f.lsbMin else .fin neg (man + 2 ^ f.mbits) (f.lsbMin + (ex - 1 : Nat))
  else if f.hasInf && mag = f.maxCode + 1 then .inf neg
  else .nan

/-- The rounding modes of R51. -/
inductive RMode where
  | rne | rtz | stoch
  deriving DecidableEq, Repr

/-- The status flags of R62, each with the bit of TILE_ARITH_STAT that R65 gives it. -/
def fInvalid : BitVec 8 := 0x01
def fDivZero : BitVec 8 := 0x02
def fOverflow : BitVec 8 := 0x04
def fUnderflow : BitVec 8 := 0x08
def fInexact : BitVec 8 := 0x10
def fSaturate : BitVec 8 := 0x20
def fScaleClamp : BitVec 8 := 0x40
def fNanScale : BitVec 8 := 0x80

/-- A flag when a condition holds. -/
def flagIf (c : Bool) (f : BitVec 8) : BitVec 8 := if c then f else 0

/-- Floor of log2 of a magnitude `m·2^e`, `m ≠ 0`. -/
def ilog (m : Nat) (e : Int) : Int := (Nat.log2 m : Int) + e

/-- Whether a remainder rounds the magnitude up: `rem / 2^sh` is the fraction (R51, R53). -/
def roundsUp (mode : RMode) (noise odd rem sh : Nat) : Bool :=
  match mode with
  | .rtz => false
  | .rne => let h := 2 ^ sh; decide (h < 2 * rem) || (2 * rem == h && odd == 1)
  | .stoch => decide (256 ≤ rem * 256 / 2 ^ sh + noise)

/-- Round `m·2^e` to `f`'s precision with an unbounded exponent above and the subnormal quantum
below: the magnitude code (possibly above `maxCode`) and whether it was inexact (R49, R53). -/
def Fmt.roundMag (f : Fmt) (mode : RMode) (noise m : Nat) (e : Int) : Nat × Bool :=
  if m = 0 then (0, false) else
  let q := max f.lsbMin (ilog m e - f.mbits)
  let base (man : Nat) : Nat := (q - f.lsbMin).toNat * 2 ^ f.mbits + man
  if q ≤ e then (base (m * 2 ^ (e - q).toNat), false)
  else
    let sh := (q - e).toNat
    let man := m / 2 ^ sh
    let rem := m % 2 ^ sh
    if rem = 0 then (base man, false)
    else (base (if roundsUp mode noise (man % 2) rem sh then man + 1 else man), true)

/-- What one conversion or operation gives: the code, the flags it raises and whether it clamped. -/
structure Cv where
  code : Nat
  flags : BitVec 8
  clamp : Bool
  deriving DecidableEq, Repr

/-- The code with its sign bit. -/
def Fmt.withSign (f : Fmt) (neg : Bool) (mag : Nat) : Nat := b2n neg * 2 ^ (f.bits - 1) + mag

/-- The narrowing conversion of R49 into a scalar format, `sat` being SAT of TILE_ARITH_CTRL. -/
def Fmt.narrow (f : Fmt) (mode : RMode) (sat : Bool) (noise : Nat) (v : FpVal) : Cv :=
  match v with
  | .nan => if f.nanCode = 0 then ⟨0, fInvalid, false⟩ else ⟨f.nanCode, 0, false⟩
  | .inf neg =>
    if f.hasInf then ⟨f.withSign neg (f.maxCode + 1), 0, false⟩
    else if f.nanCode ≠ 0 then ⟨f.nanCode, fInvalid, false⟩
    else ⟨f.withSign neg f.maxCode, fInvalid ||| fSaturate, true⟩
  | .fin neg m e =>
    let (mag, inexact) := f.roundMag mode noise m e
    if f.maxCode < mag then
      if mode = .rtz then ⟨f.withSign neg f.maxCode, fOverflow ||| fInexact, false⟩
      else if f.nanCode = 0 || (sat && f.bits != 16 + 16 && f != fmtBF16) then
        ⟨f.withSign neg f.maxCode, fOverflow ||| fInexact ||| fSaturate, true⟩
      else if f.hasInf then ⟨f.withSign neg (f.maxCode + 1), fOverflow ||| fInexact, false⟩
      else ⟨f.nanCode, fOverflow ||| fInexact, false⟩
    else
      ⟨f.withSign neg mag,
        flagIf (inexact && decide (mag < 2 ^ f.mbits)) fUnderflow ||| flagIf inexact fInexact, false⟩

/-- Rounding to FP32 by RNE, as every FP32 operation does (R52); FP32 never saturates. -/
def toF32 (v : FpVal) : Cv := fmtFP32.narrow .rne false 0 v

/-- Decode an FP32 word. -/
def ofF32 (w : Nat) : FpVal := fmtFP32.decode w

/-- An exactly decoded value as an FP32 code: R48 makes this exact for every narrower format;
for MX and group-scaled products beyond FP32's precision it rounds by RNE. -/
def widen (v : FpVal) : Nat := (toF32 v).code

/-! ### Exact arithmetic on values -/

/-- Sign and magnitude of a finite value as an integer at quantum `2^q`, `q ≤ e`. -/
def atQuantum (neg : Bool) (m : Nat) (e q : Int) : Int :=
  let a : Int := (m * 2 ^ (e - q).toNat : Nat)
  if neg then -a else a

/-- Exact sum; infinities and NaNs as IEEE 754-2019.  The second part is INVALID (R58, R61). -/
def FpVal.add (a b : FpVal) : FpVal × Bool :=
  match a, b with
  | .nan, _ => (.nan, false)
  | _, .nan => (.nan, false)
  | .inf s, .inf t => if s = t then (.inf s, false) else (.nan, true)
  | .inf s, .fin _ _ _ => (.inf s, false)
  | .fin _ _ _, .inf t => (.inf t, false)
  | .fin s m e, .fin t n d =>
    let q := min e d
    let x := atQuantum s m e q + atQuantum t n d q
    if x = 0 then (.fin (s && t && m == 0 && n == 0) 0 q, false)
    else (.fin (decide (x < 0)) x.natAbs q, false)

/-- Negation. -/
def FpVal.neg : FpVal → FpVal
  | .nan => .nan
  | .inf s => .inf (!s)
  | .fin s m e => .fin (!s) m e

/-- Whether a value is a finite zero. -/
def FpVal.isZero : FpVal → Bool
  | .fin _ m _ => m == 0
  | _ => false

/-- The sign of a value (NaN counts as positive). -/
def FpVal.sign : FpVal → Bool
  | .nan => false
  | .inf s => s
  | .fin s _ _ => s

/-- Exact product; infinity times zero is INVALID (R58, R61). -/
def FpVal.mul (a b : FpVal) : FpVal × Bool :=
  match a, b with
  | .nan, _ => (.nan, false)
  | _, .nan => (.nan, false)
  | .inf s, x => if x.isZero then (.nan, true) else (.inf (s != x.sign), false)
  | x, .inf t => if x.isZero then (.nan, true) else (.inf (t != x.sign), false)
  | .fin s m e, .fin t n d => (.fin (s != t) (m * n) (e + d), false)

/-- Magnitude comparison `m·2^e < n·2^d`. -/
def magLt (m : Nat) (e : Int) (n : Nat) (d : Int) : Bool :=
  let q := min e d
  decide (m * 2 ^ (e - q).toNat < n * 2 ^ (d - q).toNat)

/-- Numeric `a < b` of two values, false with a NaN (R61). -/
def FpVal.lt (a b : FpVal) : Bool :=
  match a, b with
  | .nan, _ => false
  | _, .nan => false
  | .inf s, .inf t => s && !t
  | .inf s, .fin _ _ _ => s
  | .fin _ _ _, .inf t => !t
  | .fin s m e, .fin t n d =>
    let q := min e d
    decide (atQuantum s m e q < atQuantum t n d q)

/-- Numeric equality, false with a NaN (R61). -/
def FpVal.eqv (a b : FpVal) : Bool :=
  match a, b with
  | .nan, _ => false
  | _, .nan => false
  | _, _ => !a.lt b && !b.lt a

/-- The quotient of a magnitude by a magnitude, exact up to a sticky low bit that stands far
below any rounding position used here. -/
def quotSticky (m : Nat) (e : Int) (n : Nat) (d : Int) : Nat × Int :=
  let k := 64 + Nat.log2 n
  let a := m * 2 ^ k
  (2 * (a / n) + (if a % n = 0 then 0 else 1), e - d - (k : Int) - 1)

/-! ### Microscaling (R40 to R47, R50) -/

/-- emax of the element types of R50. -/
def emaxOf (code : Nat) : Int :=
  match code with
  | 5 => 8 | 6 => 15 | 7 => 2 | 8 => 4 | _ => 2

/-- Value scaled by `2^k`. -/
def FpVal.scale (v : FpVal) (k : Int) : FpVal :=
  match v with
  | .fin s m e => .fin s m (e + k)
  | x => x

/-- Decode an MX element `x` under block scale code `e` (R43): a scale of 0xFF is NaN. -/
def mxDecode (f : Fmt) (e x : Nat) : FpVal :=
  if e = 0xFF then .nan else (f.decode x).scale ((e : Int) - 127)

/-- Flags of decoding a block scale (R43, R65 NAN_SCALE). -/
def scaleFlags (e : Nat) : BitVec 8 := flagIf (e == 0xFF) fNanScale

/-- Decode a group-scaled element (R46). -/
def groupDecode (g e x : Nat) : FpVal × BitVec 8 :=
  if g = 0x7F || g = 0xFF then (.nan, fNanScale ||| scaleFlags e)
  else if 0x80 ≤ g then (.nan, fNanScale ||| fInvalid ||| scaleFlags e)
  else if e = 0xFF then (.nan, fNanScale)
  else
    match fmtE2M1.decode x with
    | .fin s m d =>
      if g = 0 then (.fin s 0 0, 0)
      else ((FpVal.mul (fmtE4M3.decode g) (.fin s m (d + (e : Int) - 127))).1, 0)
    | v => (v, 0)

/-- The largest finite magnitude among values, as `(m, e)`; zero when there is none. -/
def maxMag : List FpVal → Nat × Int
  | [] => (0, 0)
  | v :: vs =>
    let r := maxMag vs
    match v with
    | .fin _ m e => if magLt r.1 r.2 m e then (m, e) else r
    | _ => r

/-- Whether a block holds a NaN or an infinity. -/
def hasSpecial (vs : List FpVal) : Bool :=
  vs.any fun v => match v with | .fin _ _ _ => false | _ => true

/-- Clamp an integer to [-127, 127]. -/
def clampExp (s : Int) : Int := max (-127) (min 127 s)

/-- Element saturation of R50: elements always saturate, whatever SAT is. -/
def Fmt.mxElem (f : Fmt) (mode : RMode) (noise : Nat) (v : FpVal) : Cv :=
  match v with
  | .fin neg m e =>
    let (mag, inexact) := f.roundMag mode noise m e
    if f.maxCode < mag then
      if mode = .rtz then ⟨f.withSign neg f.maxCode, fOverflow ||| fInexact, false⟩
      else ⟨f.withSign neg f.maxCode, fOverflow ||| fInexact ||| fSaturate, true⟩
    else
      ⟨f.withSign neg mag,
        flagIf (inexact && decide (mag < 2 ^ f.mbits)) fUnderflow ||| flagIf inexact fInexact, false⟩
  | _ => ⟨0, 0, false⟩

/-- One encoded block: its scale code, its elements and the flags of its scale. -/
structure MxBlock where
  scale : Nat
  elems : List Cv
  flags : BitVec 8
  deriving DecidableEq, Repr

/-- Encode the elements of a block, drawing noise by output index. -/
def mxElems (f : Fmt) (mode : RMode) (noise : Nat → Nat) (s : Int) : Nat → List FpVal → List Cv
  | _, [] => []
  | i, v :: vs => f.mxElem mode (noise i) (v.scale (-s)) :: mxElems f mode noise s (i + 1) vs

/-- Conversion of one block into an MX format (R50). `i` is the output index of its first value. -/
def mxEncode (code : Nat) (mode : RMode) (noise : Nat → Nat) (i : Nat) (vs : List FpVal) : MxBlock :=
  let f := elemFmt code
  if hasSpecial vs then ⟨0xFF, vs.map fun _ => ⟨0, 0, false⟩, fNanScale⟩
  else
    let (m, e) := maxMag vs
    if m = 0 then ⟨0, vs.map fun v => ⟨f.withSign v.sign 0, 0, false⟩, 0⟩
    else
      let s0 := ilog m e - emaxOf code
      let s := clampExp s0
      ⟨(s + 127).toNat, mxElems f mode noise s i vs, flagIf (s0 != s) fScaleClamp⟩

/-- Round a magnitude upward to an E4M3 code (R47, no flag). -/
def roundUpE4M3 (m : Nat) (e : Int) : Nat :=
  let (mag, inexact) := fmtE4M3.roundMag .rtz 0 m e
  if inexact then mag + 1 else mag

/-- Split a list into blocks of `n`. -/
def chunksOf {α : Type} (n : Nat) (fuel : Nat) (xs : List α) : List (List α) :=
  match fuel with
  | 0 => []
  | fuel + 1 => if xs.isEmpty then [] else xs.take n :: chunksOf n fuel (xs.drop n)

/-- Elements of a group-scaled block: each value divided by `g·2^s` exactly, then rounded. -/
def groupElems (mode : RMode) (noise : Nat → Nat) (gm : Nat) (ge s : Int) : Nat → List FpVal → List Cv
  | _, [] => []
  | i, v :: vs =>
    (match v with
      | .fin neg m e =>
        let q := quotSticky m e gm (ge + s)
        fmtE2M1.mxElem mode (noise i) (.fin neg q.1 q.2)
      | x => fmtE2M1.mxElem mode (noise i) x) :: groupElems mode noise gm ge s (i + 1) vs

/-- The blocks of one group under group scale `g = gm·2^ge` (R47). -/
def groupBlocks (mode : RMode) (noise : Nat → Nat) (gm : Nat) (ge : Int) : Nat → List (List FpVal) → List MxBlock
  | _, [] => []
  | i, b :: bs =>
    (if hasSpecial b then ⟨0xFF, b.map fun _ => ⟨0, 0, false⟩, fNanScale⟩
     else
      let (m, e) := maxMag b
      if m = 0 then ⟨0, b.map fun _ => ⟨0, 0, false⟩, 0⟩
      else
        let q := quotSticky m e gm ge
        let s0 := ilog q.1 q.2 - 2
        let s := clampExp s0
        ⟨(s + 127).toNat, groupElems mode noise gm ge s i b, flagIf (s0 != s) fScaleClamp⟩)
      :: groupBlocks mode noise gm ge (i + b.length) bs

/-- Conversion of one group from FP32 to group-scaled MXFP4 (R47): the group scale code and its
blocks. -/
def groupEncode (mode : RMode) (noise : Nat → Nat) (i : Nat) (vs : List FpVal) : Nat × List MxBlock :=
  let bs := chunksOf 32 17 vs
  let (m, e) := maxMag ((bs.filter fun b => !hasSpecial b).flatten)
  let g := if m = 0 then 0x38 else
    let sa := ilog m e - 2
    let q := quotSticky m (e - sa) 6 0
    roundUpE4M3 q.1 q.2
  match fmtE4M3.decode g with
  | .fin _ gm ge => (g, groupBlocks mode noise gm ge i bs)
  | _ => (g, [])

/-! ### The noise generator (R54) -/

/-- The 64-bit finaliser of R54. -/
def mix64 (z0 : Nat) : Nat :=
  let z := z0 % 2 ^ 64
  let z := (z ^^^ (z >>> 30)) * 0xBF58476D1CE4E5B9 % 2 ^ 64
  let z := (z ^^^ (z >>> 27)) * 0x94D049BB133111EB % 2 ^ 64
  z ^^^ (z >>> 31)

/-- The step seed of R54. -/
def stepSeed (base exhibit offset count : Nat) : Nat :=
  mix64 (base ^^^ mix64 (exhibit * 2 ^ 32 ||| offset) ^^^ count)

/-- The noise byte of output value `i` (R54). -/
def noiseByte (seed i : Nat) : Nat :=
  mix64 (seed + (i / 8) * 0x9E3779B97F4A7C15) >>> (8 * (i % 8)) % 256

end Sys2Proof.Machine
end

