-- ==== Sys2Proof/Machine/Sha.lean ====
section
/-! DEFINITION. SHA-384, the measurement of R184, R471 and R476.  The spec names the algorithm; its steps are the
published ones (PRESUMED, log entry 5).  Its constants are computed from what they are, fractional parts of roots of
primes, so that a reader need not trust a table of digits. -/

namespace Sys2Proof.Machine

/-- The primes below 410, by trial division with the primes below 20 (20 × 20 < 410 ≤ 23 × 23). -/
def primesTo410 : List Nat :=
  (List.range 410).filter fun n => 2 ≤ n && [2, 3, 5, 7, 11, 13, 17, 19].all fun p => n == p || n % p != 0

/-- The greatest number `r + x`, `x < 2 ^ k`, whose `deg`-th power is at most `n`: one bit a step, highest first. -/
def rootFrom (deg n : Nat) : Nat → Nat → Nat
  | 0, r => r
  | k + 1, r => rootFrom deg n k (if (r + 2 ^ k) ^ deg ≤ n then r + 2 ^ k else r)

/-- The first 64 bits of the fractional part of the `deg`-th root of `p`, a number below 512. -/
def rootFraction (deg p : Nat) : Nat := rootFrom deg (p * 2 ^ (64 * deg)) 69 0 % 2 ^ 64

/-- The 80 round constants: cube roots of the first 80 primes. -/
def shaK : List Nat := (primesTo410.take 80).map (rootFraction 3)

/-- The initial hash value: square roots of the ninth to the sixteenth prime. -/
def shaIV : List Nat := ((primesTo410.drop 8).take 8).map (rootFraction 2)

/-- A number as a word of the algorithm. -/
def wrap64 (n : Nat) : Nat := n % 2 ^ 64

/-- The exclusive or of `x` turned right by each of the amounts and of `x` shifted right by `sh` (none where 64). -/
def mixTurns (turns : List Nat) (sh x : Nat) : Nat :=
  turns.foldl (fun m n => m ^^^ (x >>> n + x % 2 ^ n * 2 ^ (64 - n))) (x >>> sh)

/-- A big-endian number. -/
def beNat (bs : List Byte) : Nat := bs.foldl (fun n b => 256 * n + b.toNat) 0

/-- `n` big-endian bytes. -/
def beBytes (n v : Nat) : List Byte := (List.range n).reverse.map fun i => BitVec.ofNat 8 (v / 256 ^ i)

/-- The rounds over the constants that remain.  `w` holds the schedule's next sixteen words, oldest first, and `v` the eight
working variables: the last four are h, g, f, e from the end, and each half shifts down by one word. -/
def shaRounds : List Nat → List Nat → List Nat → List Nat
  | [], _, v => v
  | k :: ks, w, v =>
    let x := v.getD 4 0
    let y := v.getD 0 0
    let chosen := v.getD 6 0 ^^^ (x &&& (v.getD 5 0 ^^^ v.getD 6 0))
    let agreed := (y &&& v.getD 1 0) ||| (v.getD 2 0 &&& (y ||| v.getD 1 0))
    let sum := v.getD 7 0 + mixTurns [14, 18, 41] 64 x + chosen + k + w.headD 0
    let fresh := w.headD 0 + mixTurns [1, 8] 7 (w.getD 1 0) + w.getD 9 0 + mixTurns [19, 61] 6 (w.getD 14 0)
    shaRounds ks (w.tail ++ [wrap64 fresh])
      (wrap64 (sum + mixTurns [28, 34, 39] 64 y + agreed) :: v.take 3 ++ wrap64 (v.getD 3 0 + sum) :: (v.drop 4).take 3)

/-- The blocks of 128 bytes, each taken into the hash value. -/
def shaBlocks : Nat → List Nat → List Byte → List Nat
  | 0, v, _ => v
  | n + 1, v, bs =>
    let words := (List.range 16).map fun i => beNat ((bs.drop (8 * i)).take 8)
    shaBlocks n (v.zipWith (fun a b => wrap64 (a + b)) (shaRounds shaK words v)) (bs.drop 128)

/-- SHA-384: 48 bytes. -/
def sha384 (bs : List Byte) : List Byte :=
  let zeros := (239 - bs.length % 128) % 128
  let m := bs ++ 0x80 :: List.replicate zeros 0 ++ beBytes 16 (8 * bs.length)
  (((shaBlocks (m.length / 128) shaIV m).take 6).map (beBytes 8)).flatten

end Sys2Proof.Machine
end

