-- ==== Sys2Proof/Machine/Flags.lean ====
section
/-! DEFINITION. The arithmetic of the engines and the flags it raises: vector lanes (R61 to R63,
R162, R163), matrix chunks and accumulators (R56 to R60), the Collators' compensated addition. -/

namespace Sys2Proof.Machine

/-- An FP32 result with flags, from an exact value and whether forming it was invalid. -/
def f32Of (r : FpVal × Bool) : Cv :=
  let c := toF32 r.1
  { c with flags := c.flags ||| flagIf r.2 fInvalid }

/-- FP32 addition by RNE (R61). -/
def f32Add (a b : Nat) : Cv := f32Of ((ofF32 a).add (ofF32 b))

/-- FP32 subtraction by RNE (R61). -/
def f32Sub (a b : Nat) : Cv := f32Of ((ofF32 a).add (ofF32 b).neg)

/-- FP32 multiplication by RNE (R61). -/
def f32Mul (a b : Nat) : Cv := f32Of ((ofF32 a).mul (ofF32 b))

/-- Fused multiply-add, one rounding; Inf × 0 + x is INVALID even when x is NaN (R61). -/
def f32Fma (a b c : Nat) : Cv :=
  let p := (ofF32 a).mul (ofF32 b)
  let r := p.1.add (ofF32 c)
  f32Of (r.1, p.2 || r.2)

/-- A result that carries no flag. -/
def quiet (code : Nat) : Cv := ⟨code, 0, false⟩

/-- An FP32 value as the module produces it: a NaN is the canonical one (R39). -/
def canonF32 (v : Nat) : Nat := if 0x7F800000 < v % 2 ^ 31 then fmtFP32.nanCode else v

/-- minimumNumber: a NaN operand yields the other operand; −0 < +0 (R61). -/
def f32Min (a b : Nat) : Cv :=
  match ofF32 a, ofF32 b with
  | .nan, .nan => quiet fmtFP32.nanCode
  | .nan, _ => quiet b
  | _, .nan => quiet a
  | x, y => quiet (if x.lt y then a else if y.lt x then b else if x.sign then a else b)

/-- maximumNumber (R61). -/
def f32Max (a b : Nat) : Cv :=
  match ofF32 a, ofF32 b with
  | .nan, .nan => quiet fmtFP32.nanCode
  | .nan, _ => quiet b
  | _, .nan => quiet a
  | x, y => quiet (if x.lt y then b else if y.lt x then a else if x.sign then b else a)

/-- +1.0 in FP32. -/
def oneF32 : Nat := 0x3F800000

/-- Compare: SUB 0 equal, 1 less than, 2 less or equal; false with a NaN, with no flag (R61, R162). -/
def f32Cmp (sub a b : Nat) : Cv :=
  let x := ofF32 a
  let y := ofF32 b
  let r := match sub with
    | 0 => x.eqv y
    | 1 => x.lt y
    | _ => x.lt y || x.eqv y
  quiet (if r then oneF32 else 0)

/-- The magnitude of an FP32 code in units of the smallest subnormal; infinity as the power of two that follows the largest
finite number. -/
def magUnits (r : Nat) : Nat := if r < 2 ^ 23 then r else (2 ^ 23 + r % 2 ^ 23) * 2 ^ (r / 2 ^ 23 - 1)

/-- The magnitude codes within `bound` ulps of a true value: of code `t`'s, or of one between it and the next, where `inexact`
(R61).  An ulp is the spacing of the codes from `t` upwards (log entry 2). -/
def ulpCodes (t bound : Nat) (inexact : Bool) : List Nat :=
  let u := magUnits (t + 1) - magUnits t
  ((List.range (4 * bound + 1)).map (t + bound - ·)).filter fun r =>
    decide (r ≤ 0x7F800000) && decide (magUnits r ≤ magUnits t + bound * u) && decide (magUnits t + (if inexact then u else 0) ≤ magUnits r + bound * u)

/-- A magnitude code that the implementation chooses among those within the accuracy of R61.  The choice is free: entry 2. -/
def withinUlp (op operand t bound : Nat) (inexact : Bool) : Nat :=
  let cs := ulpCodes t bound inexact
  cs.getD (Config.vecUlp op operand % cs.length) t

/-- A non-exact operation's FP32 result from a truncated magnitude `m·2^e` (sticky in its low bit), within `bound` ulps (R61).  A
magnitude beyond the largest finite number overflows to infinity. -/
def approxResult (op operand bound : Nat) (neg : Bool) (m : Nat) (e : Int) : Cv :=
  let (t, inexact) := fmtFP32.roundMag .rtz 0 m e
  if 0x7F800000 ≤ t then ⟨fmtFP32.withSign neg 0x7F800000, fOverflow ||| fInexact, false⟩ else
  let r := withinUlp op operand t bound inexact
  ⟨fmtFP32.withSign neg r,
    flagIf (inexact || r != t) fInexact ||| flagIf (decide (0x7F800000 ≤ r)) fOverflow
      ||| flagIf (decide (r < 0x800000) && (inexact || r != t)) fUnderflow, false⟩

/-- The canonical FP32 NaN with INVALID. -/
def nanInvalid : Cv := ⟨fmtFP32.nanCode, fInvalid, false⟩

/-- The canonical FP32 NaN, propagated with no flag (R39). -/
def nanQuiet : Cv := quiet fmtFP32.nanCode

/-- A signed FP32 infinity. -/
def infF32 (neg : Bool) : Nat := fmtFP32.withSign neg 0x7F800000

/-- Reciprocal, at most 1 ulp; ±0 gives ±Inf and DIV_ZERO (R61). -/
def f32Rcp (a : Nat) : Cv :=
  match ofF32 a with
  | .nan => nanQuiet
  | .inf s => quiet (fmtFP32.withSign s 0)
  | .fin s m e =>
    if m = 0 then ⟨infF32 s, fDivZero, false⟩
    else let q := quotSticky 1 0 m e; approxResult 9 a 1 s q.1 q.2

/-- Square root of a magnitude, truncated with a sticky low bit: an even power of two under the
root keeps it exact when it is exact. -/
def sqrtSticky (m : Nat) (e : Int) : Nat × Int :=
  let k : Nat := if e % 2 = 0 then 128 else 129
  let a := m * 2 ^ k
  let r := Nat.sqrt a
  (2 * r + (if r * r = a then 0 else 1), (e - k) / 2 - 1)

/-- Reciprocal square root, at most 1 ulp, with the special cases of R61. -/
def f32Rsqrt (a : Nat) : Cv :=
  match ofF32 a with
  | .nan => nanQuiet
  | .inf s => if s then nanInvalid else quiet 0
  | .fin s m e =>
    if m = 0 then ⟨infF32 s, fDivZero, false⟩
    else if s then nanInvalid
    else
      let r := sqrtSticky m e
      let q := quotSticky 1 0 r.1 r.2
      approxResult 10 a 1 false q.1 q.2

/-- Square root, correctly rounded; √−0 = −0 (R61). -/
def f32Sqrt (a : Nat) : Cv :=
  match ofF32 a with
  | .nan => nanQuiet
  | .inf s => if s then nanInvalid else quiet a
  | .fin s m e =>
    if m = 0 then quiet a
    else if s then nanInvalid
    else let r := sqrtSticky m e; toF32 (.fin false r.1 r.2)

/-- The square roots 2^(1/2), 2^(1/4), … in 100-bit fixed point, multiplied up over the fraction
bits of `f / 2^n`, highest first. -/
def exp2Frac (f : Nat) : Nat → Nat → Nat → Nat
  | 0, _, acc => acc
  | n + 1, root, acc =>
    let r := Nat.sqrt (root * 2 ^ 100)
    exp2Frac f n r (if bit f n then acc * r / 2 ^ 100 else acc)

/-- Base-2 exponential, at most 2 ulp (R61).  The integer part shifts; the fraction is taken to 64 bits, toward minus infinity,
and bits of the operand below those move no result past a code. -/
def f32Exp2 (a : Nat) : Cv :=
  match ofF32 a with
  | .nan => nanQuiet
  | .inf s => quiet (if s then 0 else infF32 false)
  | .fin s m e =>
    if m = 0 then quiet oneF32
    else
      let q : Int := atQuantum s m (e + 64) 0
      let q : Int := if 0 ≤ e + 64 then q else (if s then -(m : Int) else m) / (2 : Int) ^ (-(e + 64)).toNat
      if (2 : Int) ^ 74 < q then ⟨infF32 false, fOverflow ||| fInexact, false⟩
      else if q < -((2 : Int) ^ 74) then approxResult 12 a 2 false 1 (-300)
      else
        let ip := q / (2 : Int) ^ 64
        let fr := (q % (2 : Int) ^ 64).toNat
        let exact := fr == 0 && decide (0 ≤ e + 64)
        let v := exp2Frac fr 64 (2 ^ 101) (2 ^ 100)
        approxResult 12 a 2 false (2 * v + (if exact then 0 else 1)) (ip - 101)

/-- The fraction bits of log2 of a mantissa in [1, 2), 100-bit fixed point, by repeated squaring. -/
def log2Frac : Nat → Nat → Nat → Nat
  | 0, _, acc => acc
  | n + 1, x, acc =>
    let y := x * x / 2 ^ 100
    if 2 ^ 101 ≤ y then log2Frac n (y / 2) (2 * acc + 1) else log2Frac n y (2 * acc)

/-- Base-2 logarithm, at most 2 ulp, with the special cases of R61. -/
def f32Log2 (a : Nat) : Cv :=
  match ofF32 a with
  | .nan => nanQuiet
  | .inf s => if s then nanInvalid else quiet a
  | .fin s m e =>
    if m = 0 then ⟨infF32 true, fDivZero, false⟩
    else if s then nanInvalid
    else
      let l := Nat.log2 m
      let x := m * 2 ^ (100 - l)
      let ip : Int := l + e
      let fr := log2Frac 64 x 0
      let q : Int := ip * (2 : Int) ^ 64 + fr
      if q = 0 && m = 2 ^ l then quiet 0
      else approxResult 13 a 2 (decide (q < 0)) (if m = 2 ^ l then 2 * q.natAbs else if q < 0 then 2 * q.natAbs - 1 else 2 * q.natAbs + 1) (-65)

/-- SIGN: absolute value or negation of the bits, exact on every value (R162). -/
def f32Sign (sub a : Nat) : Cv :=
  let mag := a % 2 ^ 31
  quiet (if sub = 0 then mag else mag + (if bit a 31 then 0 else 2 ^ 31))

/-- SELECT: SRC2 if SRC1 ≠ ±0.0, otherwise SRC3; a NaN selects SRC2 (R162), and a NaN selected is produced as R39 says. -/
def f32Select (a b c : Nat) : Cv := quiet (canonF32 (if a % 2 ^ 31 = 0 then c else b))

/-- One lane of vector operation `op` (R162), REDUCE apart. -/
def vecLane (op sub a b c : Nat) : Cv :=
  match op with
  | 0x0 => quiet (canonF32 a)
  | 0x1 => f32Add a b
  | 0x2 => f32Sub a b
  | 0x3 => f32Mul a b
  | 0x4 => f32Fma a b c
  | 0x5 => f32Min a b
  | 0x6 => f32Max a b
  | 0x7 => f32Cmp sub a b
  | 0x8 => f32Select a b c
  | 0x9 => f32Rcp a
  | 0xA => f32Rsqrt a
  | 0xB => f32Sqrt a
  | 0xC => f32Exp2 a
  | 0xD => f32Log2 a
  | _ => f32Sign sub a

/-- Combine the lower half of a list with its upper half, lane by lane. -/
def foldHalf (f : Nat → Nat → Cv) : List Nat → List Nat → List Cv
  | a :: as, b :: bs => f a b :: foldHalf f as bs
  | _, _ => []

/-- The OR of the flags of a list of results. -/
def orFlags (cs : List Cv) : BitVec 8 := cs.foldl (fun a c => a ||| c.flags) 0

/-- How many results clamped (TILE_SAT_COUNT). -/
def satCount (cs : List Cv) : Nat := (cs.filter (·.clamp)).length

/-- How many results raised INVALID (TILE_INVALID_COUNT). -/
def invCount (cs : List Cv) : Nat := (cs.filter fun c => c.flags &&& fInvalid != 0).length

/-- The fixed tree of R163: lane i with lane i + n/2, and so on down to lane 0.  Answers lane 0 and
every intermediate result. -/
def reduceTree (f : Nat → Nat → Cv) : Nat → List Nat → List Cv → Nat × List Cv
  | 0, xs, acc => (xs.headD 0, acc)
  | k + 1, xs, acc =>
    let r := foldHalf f (xs.take (2 ^ k)) (xs.drop (2 ^ k))
    reduceTree f k (r.map (·.code)) (acc ++ r)

/-- REDUCE of 256 lanes: SUB 0 sum, SUB 1 maximumNumber (R162, R163). -/
def vecReduce (sub : Nat) (xs : List Nat) : Nat × List Cv :=
  reduceTree (if sub = 0 then f32Add else f32Max) 8 xs []

/-! ### Matrix chunks (R57, R58) -/

/-- The pairings of R56. -/
def pairOk (a b : Nat) : Bool :=
  let small (c : Nat) : Bool := 3 ≤ c && c ≤ 0xA
  (a == 1 && b == 1) || (a == 2 && b == 2) || (small a && small b)

/-- Chunk length along K (R56). -/
def chunkLen (fmt : Nat) : Nat := if fmt = 1 || fmt = 2 then 16 else 32

/-- One matrix operand element: its bare value, its block-scale exponent, its group scale. -/
structure MElem where
  v : FpVal
  sc : Int
  g : FpVal
  nanScale : Bool
  inv : Bool
  deriving DecidableEq, Repr

/-- The largest exponent of the finite non-zero products. -/
def topExp : List FpVal → Option Int
  | [] => none
  | .fin _ m e :: ps =>
    if m = 0 then topExp ps
    else match topExp ps with
      | none => some (ilog m e)
      | some t => some (max t (ilog m e))
  | _ :: ps => topExp ps

/-- A product in fixed point at quantum `2^q`, truncated toward minus infinity (R57 step 2). -/
def fixAt (q : Int) : FpVal → Int
  | .fin s m e =>
    let a : Int := if s then -(m : Int) else m
    if q ≤ e then a * (2 : Int) ^ (e - q).toNat else a / (2 : Int) ^ (q - e).toNat
  | _ => 0

/-- The partial sum of one chunk before rounding, and its flags (R57 steps 1 to 3, R58). -/
def chunkSum (as bs : List MElem) : FpVal × BitVec 8 :=
  let ps := (as.zip bs).map fun (a, b) => a.v.mul b.v
  let nanS := (as ++ bs).any (·.nanScale)
  let inv := (as ++ bs).any (·.inv)
  let anyNan := (as ++ bs).any fun x => x.v == .nan
  let posInf := ps.any fun p => p.1 == .inf false
  let negInf := ps.any fun p => p.1 == .inf true
  let bad := ps.any (·.2) || (posInf && negInf)
  let fl := flagIf nanS fNanScale ||| flagIf (inv || bad) fInvalid
  if anyNan || bad then (.nan, fl)
  else if posInf then (.inf false, fl)
  else if negInf then (.inf true, fl)
  else
    match topExp (ps.map (·.1)) with
    | none => (.fin false 0 0, fl)
    | some t =>
      let q := t - 40
      let s : Int := (ps.map fun p => fixAt q p.1).foldl (fun x y => x + y) 0
      let sc := (as.headD ⟨.nan, 0, .nan, false, false⟩).sc + (bs.headD ⟨.nan, 0, .nan, false, false⟩).sc
      let ga := (as.headD ⟨.nan, 0, .nan, false, false⟩).g
      let gb := (bs.headD ⟨.nan, 0, .nan, false, false⟩).g
      let v : FpVal := .fin (decide (s < 0)) s.natAbs (q + sc)
      (((v.mul ga).1.mul gb).1, fl)

/-- An accumulator element: value and compensation term (R59). -/
structure AccEl where
  a : Word
  c : Word
  deriving DecidableEq, Repr

/-- Whether an FP32 code is ±Inf or NaN. -/
def isSpecialF32 (w : Nat) : Bool := decide (0x7F800000 ≤ w % 2 ^ 31)

/-- One addition into an accumulator element (R57 step 5, R58, R59). The additions of the
compensation term raise no flag of their own when `t` is infinite or NaN. -/
def accAdd (comp : Bool) (x : Nat) (el : AccEl) : AccEl × BitVec 8 :=
  if comp then
    let y := f32Sub x el.c.toNat
    let t := f32Add el.a.toNat y.code
    if isSpecialF32 t.code then (⟨BitVec.ofNat 32 t.code, 0⟩, y.flags ||| t.flags)
    else
      let d := f32Sub t.code el.a.toNat
      let c := f32Sub d.code y.code
      (⟨BitVec.ofNat 32 t.code, BitVec.ofNat 32 c.code⟩, y.flags ||| t.flags ||| d.flags ||| c.flags)
  else
    let t := f32Add el.a.toNat x
    (⟨BitVec.ofNat 32 t.code, el.c⟩, t.flags)

/-- Bank readout: plainly as `a`, or folded as RNE(a − c) (R60). -/
def accRead (fold : Bool) (el : AccEl) : Nat × BitVec 8 :=
  if fold then let r := f32Sub el.a.toNat el.c.toNat; (r.code, r.flags) else (el.a.toNat, 0)

/-- Add the chunks of one output element in increasing K order (R57). -/
def macChunks (comp : Bool) : List (List MElem × List MElem) → AccEl → BitVec 8 → Nat → AccEl × BitVec 8 × Nat
  | [], el, fl, inv => (el, fl, inv)
  | (as, bs) :: cs, el, fl, inv =>
    let p := chunkSum as bs
    let x := toF32 p.1
    let r := accAdd comp x.code el
    let f := p.2 ||| x.flags ||| r.2
    macChunks comp cs r.1 (fl ||| f) (inv + b2n (f &&& fInvalid != 0))

end Sys2Proof.Machine
end

