-- ==== Sys2Proof/Machine/RegMap.lean ====
section
/-! DEFINITION. The register tables of the spec as data (R7, R10): for each block, every register's
offset in the block's window, how often it repeats, and its fields with access code, reset value and
Cleared-by class.  One row per register; the chapter's rule is named at each table. -/

namespace Sys2Proof.Machine

/-- Access codes of R7. -/
inductive Acc where
  | ro | rw | w1c | w1s | wo | wdn
  deriving DecidableEq, Repr

/-- Cleared-by classes of R10; `fixed` never changes, `none` is stateless. -/
inductive Cls where
  | gen | tile | chn | gal | mod | por | never | fixed | none
  deriving DecidableEq, Repr

/-- One field of a register. -/
structure RField where
  lo : Nat
  width : Nat
  acc : Acc
  reset : Nat
  cls : Cls
  deriving DecidableEq, Repr

/-- One register, or `count` registers `stride` bytes apart. -/
structure RegRow where
  off : Nat
  count : Nat
  stride : Nat
  fields : List RField
  deriving DecidableEq, Repr

/-- The kinds of block of the prefix table (R10's section, R416). -/
inductive Blk where
  | gal | tile | vlt | sto | wng | lmp | col | fab | pln | cur | pair | rgs | hst | pwr
  deriving DecidableEq, Repr

/-- Offset of TILE_ARITH_CTRL (R65). -/
def rTILE_ARITH_CTRL : Nat := 0x400
/-- Offset of TILE_ARITH_STAT (R65). -/
def rTILE_ARITH_STAT : Nat := 0x404
/-- Offset of TILE_ARITH_TRAP_EN (R65). -/
def rTILE_ARITH_TRAP_EN : Nat := 0x408
/-- Offset of TILE_SAT_COUNT (R65). -/
def rTILE_SAT_COUNT : Nat := 0x40C
/-- Offset of TILE_INVALID_COUNT (R65). -/
def rTILE_INVALID_COUNT : Nat := 0x410
/-- Offset of TILE_NOISE_SEED_LO (R65). -/
def rTILE_NOISE_SEED_LO : Nat := 0x418
/-- Offset of TILE_NOISE_SEED_HI (R65). -/
def rTILE_NOISE_SEED_HI : Nat := 0x41C
/-- Offset of TILE_ID (R110). -/
def rTILE_ID : Nat := 0x0
/-- Offset of TILE_STATE (R110). -/
def rTILE_STATE : Nat := 0x4
/-- Offset of TILE_STATE_CTRL (R110). -/
def rTILE_STATE_CTRL : Nat := 0x8
/-- Offset of TILE_EXHIBIT (R110). -/
def rTILE_EXHIBIT : Nat := 0xC
/-- Offset of TILE_EXEC_POS (R110). -/
def rTILE_EXEC_POS : Nat := 0x10
/-- Offset of TILE_GEN (R110). -/
def rTILE_GEN : Nat := 0x14
/-- Offset of TILE_CLOCK (R110). -/
def rTILE_CLOCK : Nat := 0x20
/-- Offset of TILE_TEMP (R110). -/
def rTILE_TEMP : Nat := 0x30
/-- Offset of TILE_CPM (R110). -/
def rTILE_CPM : Nat := 0x34
/-- Offset of TILE_STRETCH_COUNT (R110). -/
def rTILE_STRETCH_COUNT : Nat := 0x38
/-- Offset of TILE_CRATE_TIME (R110). -/
def rTILE_CRATE_TIME : Nat := 0x40
/-- Offset of TILE_HANG_TIME (R110). -/
def rTILE_HANG_TIME : Nat := 0x44
/-- Offset of TILE_CRATE_DROP_COUNT (R110). -/
def rTILE_CRATE_DROP_COUNT : Nat := 0x48
/-- Offset of TILE_SCRATCH_CORR_COUNT (R110). -/
def rTILE_SCRATCH_CORR_COUNT : Nat := 0x4C
/-- Offset of TILE_CFG_DROP_COUNT (R110). -/
def rTILE_CFG_DROP_COUNT : Nat := 0x50
/-- Offset of TILE_TRAP_CAUSE (R110). -/
def rTILE_TRAP_CAUSE : Nat := 0x100
/-- Offset of TILE_TRAP_POS (R110). -/
def rTILE_TRAP_POS : Nat := 0x104
/-- Offset of TILE_TRAP_STEP_LO (R110). -/
def rTILE_TRAP_STEP_LO : Nat := 0x108
/-- Offset of TILE_TRAP_STEP_HI (R110). -/
def rTILE_TRAP_STEP_HI : Nat := 0x10C
/-- Offset of TILE_TRAP_INFO (R110). -/
def rTILE_TRAP_INFO : Nat := 0x110
/-- Offset of TILE_TRAP_DATA_LO (R110). -/
def rTILE_TRAP_DATA_LO : Nat := 0x114
/-- Offset of TILE_TRAP_DATA_HI (R110). -/
def rTILE_TRAP_DATA_HI : Nat := 0x118
/-- Offset of TILE_TRAP_GEN (R110). -/
def rTILE_TRAP_GEN : Nat := 0x11C
/-- Offset of TILE_TRAP_CYCLE (R110). -/
def rTILE_TRAP_CYCLE : Nat := 0x120
/-- Offset of TILE_TICKET (R110). -/
def rTILE_TICKET : Nat := 0x200
/-- Offset of TILE_PERF_CTRL (R110). -/
def rTILE_PERF_CTRL : Nat := 0x300
/-- Offset of TILE_CYCLE_COUNT_LO (R110). -/
def rTILE_CYCLE_COUNT_LO : Nat := 0x308
/-- Offset of TILE_CYCLE_COUNT_HI (R110). -/
def rTILE_CYCLE_COUNT_HI : Nat := 0x30C
/-- Offset of TILE_RUN_COUNT (R110). -/
def rTILE_RUN_COUNT : Nat := 0x310
/-- Offset of TILE_WAIT_COUNT (R110). -/
def rTILE_WAIT_COUNT : Nat := 0x314
/-- Offset of TILE_MATRIX_COUNT (R110). -/
def rTILE_MATRIX_COUNT : Nat := 0x318
/-- Offset of TILE_VECTOR_COUNT (R110). -/
def rTILE_VECTOR_COUNT : Nat := 0x31C
/-- Offset of TILE_VAULT_STALL_COUNT (R110). -/
def rTILE_VAULT_STALL_COUNT : Nat := 0x320
/-- Offset of TILE_STORE_STALL_COUNT (R110). -/
def rTILE_STORE_STALL_COUNT : Nat := 0x324
/-- Offset of TILE_STEP_COUNT (R110). -/
def rTILE_STEP_COUNT : Nat := 0x328
/-- Offset of TILE_CRATE_OUT_COUNT (R110). -/
def rTILE_CRATE_OUT_COUNT : Nat := 0x32C
/-- Offset of TILE_CRATE_IN_COUNT (R110). -/
def rTILE_CRATE_IN_COUNT : Nat := 0x330
/-- Offset of PLN_GEN_LO (R211). -/
def rPLN_GEN_LO : Nat := 0x0
/-- Offset of PLN_GEN_HI (R211). -/
def rPLN_GEN_HI : Nat := 0x4
/-- Offset of PLN_HANG_STAT (R211). -/
def rPLN_HANG_STAT : Nat := 0x8
/-- Offset of PLN_LAST_APPLY_COUNT (R211). -/
def rPLN_LAST_APPLY_COUNT : Nat := 0xC
/-- Offset of PLN_LAST_HANG_COUNT (R211). -/
def rPLN_LAST_HANG_COUNT : Nat := 0x10
/-- Offset of PLN_HANG_COUNT (R211). -/
def rPLN_HANG_COUNT : Nat := 0x14
/-- Offset of PLN_WITHDRAW_COUNT (R211). -/
def rPLN_WITHDRAW_COUNT : Nat := 0x18
/-- Offset of PLN_HANG_WAVE_TIME (R211). -/
def rPLN_HANG_WAVE_TIME : Nat := 0x1C
/-- Offset of PLN_EXCHANGE_TIME (R211). -/
def rPLN_EXCHANGE_TIME : Nat := 0x20
/-- Offset of PLN_SIG_POLICY (R211). -/
def rPLN_SIG_POLICY : Nat := 0x24
/-- Offset of PLN_STORE_FREE (R211). -/
def rPLN_STORE_FREE : Nat := 0x28
/-- Offset of PLN_SLOT_STAT (R211). -/
def rPLN_SLOT_STAT : Nat := 0x40
/-- Offset of PLN_SLOT_DETAIL (R211). -/
def rPLN_SLOT_DETAIL : Nat := 0x44
/-- Offset of PLN_SLOT_GEN_LO (R211). -/
def rPLN_SLOT_GEN_LO : Nat := 0x48
/-- Offset of PLN_SLOT_GEN_HI (R211). -/
def rPLN_SLOT_GEN_HI : Nat := 0x4C
/-- Offset of PLN_SLOT_LENGTH (R211). -/
def rPLN_SLOT_LENGTH : Nat := 0x50
/-- Offset of PLN_SLOT_HASH (R211). -/
def rPLN_SLOT_HASH : Nat := 0x100
/-- Offset of CUR_STAT (R212). -/
def rCUR_STAT : Nat := 0x0
/-- Offset of CUR_RETIRED_COUNT (R212). -/
def rCUR_RETIRED_COUNT : Nat := 0x4
/-- Offset of CUR_RETIRE_THRESH (R212). -/
def rCUR_RETIRE_THRESH : Nat := 0x8
/-- Offset of CUR_RETIRE_TIME (R212). -/
def rCUR_RETIRE_TIME : Nat := 0xC
/-- Offset of CUR_PAGE_THRESH (R212). -/
def rCUR_PAGE_THRESH : Nat := 0x10
/-- Offset of CUR_THERMAL_THRESH (R212). -/
def rCUR_THERMAL_THRESH : Nat := 0x14
/-- Offset of CUR_CAT_INDEX (R212). -/
def rCUR_CAT_INDEX : Nat := 0x20
/-- Offset of CUR_CAT_STAT (R212). -/
def rCUR_CAT_STAT : Nat := 0x24
/-- Offset of CUR_CAT_DATA (R212). -/
def rCUR_CAT_DATA : Nat := 0x30
/-- Offset of CUR_PLACE_INDEX (R212). -/
def rCUR_PLACE_INDEX : Nat := 0x50
/-- Offset of CUR_PLACE_DATA (R212). -/
def rCUR_PLACE_DATA : Nat := 0x54
/-- Offset of VLT_STAT (R246). -/
def rVLT_STAT : Nat := 0x0
/-- Offset of VLT_CORR_COUNT (R246). -/
def rVLT_CORR_COUNT : Nat := 0x4
/-- Offset of VLT_UNCORR_COUNT (R246). -/
def rVLT_UNCORR_COUNT : Nat := 0x8
/-- Offset of VLT_UNDETECTED_COUNT (R246). -/
def rVLT_UNDETECTED_COUNT : Nat := 0xC
/-- Offset of VLT_POISON_READ_COUNT (R246). -/
def rVLT_POISON_READ_COUNT : Nat := 0x10
/-- Offset of VLT_POISON_DROP_COUNT (R246). -/
def rVLT_POISON_DROP_COUNT : Nat := 0x14
/-- Offset of VLT_POISON_PAGE_COUNT (R246). -/
def rVLT_POISON_PAGE_COUNT : Nat := 0x18
/-- Offset of VLT_RETIRED_PAGE_COUNT (R246). -/
def rVLT_RETIRED_PAGE_COUNT : Nat := 0x1C
/-- Offset of VLT_PAGE_THRESH (R246). -/
def rVLT_PAGE_THRESH : Nat := 0x20
/-- Offset of VLT_PAGE_TIME (R246). -/
def rVLT_PAGE_TIME : Nat := 0x24
/-- Offset of VLT_SCRUB_TIME (R246). -/
def rVLT_SCRUB_TIME : Nat := 0x28
/-- Offset of VLT_SCRUB_PASS_COUNT (R246). -/
def rVLT_SCRUB_PASS_COUNT : Nat := 0x2C
/-- Offset of VLT_KEEP_REPAIR_COUNT (R246). -/
def rVLT_KEEP_REPAIR_COUNT : Nat := 0x30
/-- Offset of VLT_KEEP_WINDOW_LO (R246). -/
def rVLT_KEEP_WINDOW_LO : Nat := 0x40
/-- Offset of VLT_KEEP_WINDOW_HI (R246). -/
def rVLT_KEEP_WINDOW_HI : Nat := 0x44
/-- Offset of VLT_SPARE_ROWS (R246). -/
def rVLT_SPARE_ROWS : Nat := 0x80
/-- Offset of VLT_LAST_ERR_LO (R246). -/
def rVLT_LAST_ERR_LO : Nat := 0xA0
/-- Offset of VLT_LAST_ERR_HI (R246). -/
def rVLT_LAST_ERR_HI : Nat := 0xA4
/-- Offset of VLT_LAST_ERR_INFO (R246). -/
def rVLT_LAST_ERR_INFO : Nat := 0xA8
/-- Offset of VLT_RAW_AUTH (R246). -/
def rVLT_RAW_AUTH : Nat := 0x100
/-- Offset of VLT_RAW_ADDR_LO (R246). -/
def rVLT_RAW_ADDR_LO : Nat := 0x104
/-- Offset of VLT_RAW_ADDR_HI (R246). -/
def rVLT_RAW_ADDR_HI : Nat := 0x108
/-- Offset of VLT_RAW_CMD (R246). -/
def rVLT_RAW_CMD : Nat := 0x10C
/-- Offset of VLT_RAW_PARITY (R246). -/
def rVLT_RAW_PARITY : Nat := 0x110
/-- Offset of VLT_RAW_DATA (R246). -/
def rVLT_RAW_DATA : Nat := 0x120
/-- Offset of STO_STAT (R247). -/
def rSTO_STAT : Nat := 0x0
/-- Offset of STO_CORR_COUNT (R247). -/
def rSTO_CORR_COUNT : Nat := 0x4
/-- Offset of STO_UNCORR_COUNT (R247). -/
def rSTO_UNCORR_COUNT : Nat := 0x8
/-- Offset of STO_UNDETECTED_COUNT (R247). -/
def rSTO_UNDETECTED_COUNT : Nat := 0xC
/-- Offset of STO_POISON_READ_COUNT (R247). -/
def rSTO_POISON_READ_COUNT : Nat := 0x10
/-- Offset of STO_POISON_DROP_COUNT (R247). -/
def rSTO_POISON_DROP_COUNT : Nat := 0x14
/-- Offset of STO_POISON_PAGE_COUNT (R247). -/
def rSTO_POISON_PAGE_COUNT : Nat := 0x18
/-- Offset of STO_RETIRED_PAGE_COUNT (R247). -/
def rSTO_RETIRED_PAGE_COUNT : Nat := 0x1C
/-- Offset of STO_PAGE_THRESH (R247). -/
def rSTO_PAGE_THRESH : Nat := 0x20
/-- Offset of STO_PAGE_TIME (R247). -/
def rSTO_PAGE_TIME : Nat := 0x24
/-- Offset of STO_SCRUB_TIME (R247). -/
def rSTO_SCRUB_TIME : Nat := 0x28
/-- Offset of STO_SCRUB_PASS_COUNT (R247). -/
def rSTO_SCRUB_PASS_COUNT : Nat := 0x2C
/-- Offset of STO_LINK_ECC_COUNT (R247). -/
def rSTO_LINK_ECC_COUNT : Nat := 0x30
/-- Offset of STO_RETRAIN_COUNT (R247). -/
def rSTO_RETRAIN_COUNT : Nat := 0x34
/-- Offset of STO_SPARE_FREE (R247). -/
def rSTO_SPARE_FREE : Nat := 0x38
/-- Offset of STO_SEG_INDEX (R247). -/
def rSTO_SEG_INDEX : Nat := 0x3C
/-- Offset of STO_SEG_DATA (R247). -/
def rSTO_SEG_DATA : Nat := 0x40
/-- Offset of STO_LAST_ERR_LO (R247). -/
def rSTO_LAST_ERR_LO : Nat := 0x44
/-- Offset of STO_LAST_ERR_HI (R247). -/
def rSTO_LAST_ERR_HI : Nat := 0x48
/-- Offset of STO_LAST_ERR_INFO (R247). -/
def rSTO_LAST_ERR_INFO : Nat := 0x4C
/-- Offset of STO_CHAN_STAT (R247). -/
def rSTO_CHAN_STAT : Nat := 0x100
/-- Offset of WNG_ACK_TIME (R283). -/
def rWNG_ACK_TIME : Nat := 0x1000
/-- Offset of WNG_REPLAY_TIME (R283). -/
def rWNG_REPLAY_TIME : Nat := 0x1004
/-- Offset of WNG_LINK_DOWN_TIME (R283). -/
def rWNG_LINK_DOWN_TIME : Nat := 0x1008
/-- Offset of WNG_CREDIT_TIME (R283). -/
def rWNG_CREDIT_TIME : Nat := 0x100C
/-- Offset of WNG_CONGEST_TIME (R283). -/
def rWNG_CONGEST_TIME : Nat := 0x1010
/-- Offset of WNG_FEATURE_CFG (R283). -/
def rWNG_FEATURE_CFG : Nat := 0x1014
/-- Offset of WNG_CFG_REJECT_COUNT (R283). -/
def rWNG_CFG_REJECT_COUNT : Nat := 0x1018
/-- Offset of WNG_CREDIT_ADV (R283). -/
def rWNG_CREDIT_ADV : Nat := 0x1020
/-- Offset of WNG_CHAN_STAT (R283). -/
def rWNG_CHAN_STAT : Nat := 0x1100
/-- Offset of WNG_CHAN_PEER (R283). -/
def rWNG_CHAN_PEER : Nat := 0x1104
/-- Offset of WNG_CHAN_CTRL (R283). -/
def rWNG_CHAN_CTRL : Nat := 0x1108
/-- Offset of WNG_CHAN_RTT (R283). -/
def rWNG_CHAN_RTT : Nat := 0x110C
/-- Offset of WNG_FEC_CORR_COUNT (R283). -/
def rWNG_FEC_CORR_COUNT : Nat := 0x1110
/-- Offset of WNG_FEC_UNCORR_COUNT (R283). -/
def rWNG_FEC_UNCORR_COUNT : Nat := 0x1114
/-- Offset of WNG_CRC_FAIL_COUNT (R283). -/
def rWNG_CRC_FAIL_COUNT : Nat := 0x1118
/-- Offset of WNG_REPLAY_COUNT (R283). -/
def rWNG_REPLAY_COUNT : Nat := 0x111C
/-- Offset of WNG_DUP_COUNT (R283). -/
def rWNG_DUP_COUNT : Nat := 0x1120
/-- Offset of WNG_FAILOVER_COUNT (R283). -/
def rWNG_FAILOVER_COUNT : Nat := 0x1124
/-- Offset of WNG_WIDTH_CHANGE_COUNT (R283). -/
def rWNG_WIDTH_CHANGE_COUNT : Nat := 0x1128
/-- Offset of WNG_CREDIT_STALL_COUNT (R283). -/
def rWNG_CREDIT_STALL_COUNT : Nat := 0x112C
/-- Offset of WNG_CONGEST_COUNT (R283). -/
def rWNG_CONGEST_COUNT : Nat := 0x1130
/-- Offset of WNG_DROP_COUNT (R283). -/
def rWNG_DROP_COUNT : Nat := 0x1134
/-- Offset of WNG_BUFFER_STAT (R283). -/
def rWNG_BUFFER_STAT : Nat := 0x1138
/-- Offset of WNG_TX_STATE (R283). -/
def rWNG_TX_STATE : Nat := 0x1400
/-- Offset of WNG_RX_STATE (R283). -/
def rWNG_RX_STATE : Nat := 0x1500
/-- Offset of WNG_CREDIT_STATE (R283). -/
def rWNG_CREDIT_STATE : Nat := 0x1600
/-- Offset of FAB_MODULE_ID (R325). -/
def rFAB_MODULE_ID : Nat := 0x0
/-- Offset of FAB_CTRL (R325). -/
def rFAB_CTRL : Nat := 0x4
/-- Offset of FAB_REQUEST_TIME (R325). -/
def rFAB_REQUEST_TIME : Nat := 0x8
/-- Offset of FAB_WAVE_TIME (R325). -/
def rFAB_WAVE_TIME : Nat := 0xC
/-- Offset of FAB_CENSUS_STAT (R325). -/
def rFAB_CENSUS_STAT : Nat := 0x10
/-- Offset of FAB_RESET_CFG (R325). -/
def rFAB_RESET_CFG : Nat := 0x14
/-- Offset of FAB_REQ_OUT (R325). -/
def rFAB_REQ_OUT : Nat := 0x18
/-- Offset of FAB_REQ_RETRY_COUNT (R325). -/
def rFAB_REQ_RETRY_COUNT : Nat := 0x1C
/-- Offset of FAB_REQ_UNREACHABLE_COUNT (R325). -/
def rFAB_REQ_UNREACHABLE_COUNT : Nat := 0x20
/-- Offset of FAB_LATE_COUNT (R325). -/
def rFAB_LATE_COUNT : Nat := 0x24
/-- Offset of FAB_NO_ROUTE_COUNT (R325). -/
def rFAB_NO_ROUTE_COUNT : Nat := 0x28
/-- Offset of FAB_TRANSIT_REJECT_COUNT (R325). -/
def rFAB_TRANSIT_REJECT_COUNT : Nat := 0x2C
/-- Offset of FAB_TRANSIT_COUNT (R325). -/
def rFAB_TRANSIT_COUNT : Nat := 0x30
/-- Offset of FAB_CONGEST_IN_COUNT (R325). -/
def rFAB_CONGEST_IN_COUNT : Nat := 0x34
/-- Offset of FAB_ROUTE_INDEX (R325). -/
def rFAB_ROUTE_INDEX : Nat := 0x40
/-- Offset of FAB_ROUTE_DATA (R325). -/
def rFAB_ROUTE_DATA : Nat := 0x48
/-- Offset of FAB_CHAN_MAP (R325). -/
def rFAB_CHAN_MAP : Nat := 0x100
/-- Offset of FAB_WAVE_STAT (R325). -/
def rFAB_WAVE_STAT : Nat := 0x200
/-- Offset of COL_STAT (R326). -/
def rCOL_STAT : Nat := 0x0
/-- Offset of COL_STALL_TIME (R326). -/
def rCOL_STALL_TIME : Nat := 0x4
/-- Offset of COL_CHUNK_COUNT (R326). -/
def rCOL_CHUNK_COUNT : Nat := 0x8
/-- Offset of COL_STALL_COUNT (R326). -/
def rCOL_STALL_COUNT : Nat := 0xC
/-- Offset of COL_MISMATCH_COUNT (R326). -/
def rCOL_MISMATCH_COUNT : Nat := 0x10
/-- Offset of COL_SAT_COUNT (R326). -/
def rCOL_SAT_COUNT : Nat := 0x14
/-- Offset of COL_NAN_COUNT (R326). -/
def rCOL_NAN_COUNT : Nat := 0x18
/-- Offset of COL_CFG_REJECT_COUNT (R326). -/
def rCOL_CFG_REJECT_COUNT : Nat := 0x1C
/-- Offset of COL_RED_CFG (R326). -/
def rCOL_RED_CFG : Nat := 0x8000
/-- Offset of WNG_STAT (R352). -/
def rWNG_STAT : Nat := 0x0
/-- Offset of WNG_MARGIN_THRESH (R352). -/
def rWNG_MARGIN_THRESH : Nat := 0x4
/-- Offset of WNG_SPARE_EXP (R352). -/
def rWNG_SPARE_EXP : Nat := 0x8
/-- Offset of WNG_STEER_TIME (R352). -/
def rWNG_STEER_TIME : Nat := 0xC
/-- Offset of WNG_RETRAIN_TIME (R352). -/
def rWNG_RETRAIN_TIME : Nat := 0x10
/-- Offset of WNG_LANE_CTRL (R352). -/
def rWNG_LANE_CTRL : Nat := 0x14
/-- Offset of WNG_MOVE_COUNT (R352). -/
def rWNG_MOVE_COUNT : Nat := 0x20
/-- Offset of WNG_REFUSE_COUNT (R352). -/
def rWNG_REFUSE_COUNT : Nat := 0x24
/-- Offset of WNG_STEER_FAIL_COUNT (R352). -/
def rWNG_STEER_FAIL_COUNT : Nat := 0x28
/-- Offset of WNG_STUFF_COUNT (R352). -/
def rWNG_STUFF_COUNT : Nat := 0x2C
/-- Offset of WNG_LAG_FAIL_COUNT (R352). -/
def rWNG_LAG_FAIL_COUNT : Nat := 0x30
/-- Offset of WNG_RETRAIN_COUNT (R352). -/
def rWNG_RETRAIN_COUNT : Nat := 0x34
/-- Offset of WNG_LINK_STAT (R352). -/
def rWNG_LINK_STAT : Nat := 0x100
/-- Offset of WNG_RX_SLOT_STAT (R352). -/
def rWNG_RX_SLOT_STAT : Nat := 0x2000
/-- Offset of WNG_RX_SLOT_QUAL (R352). -/
def rWNG_RX_SLOT_QUAL : Nat := 0x2800
/-- Offset of WNG_TX_SLOT_STAT (R352). -/
def rWNG_TX_SLOT_STAT : Nat := 0x3000
/-- Offset of WNG_STEER_MAP (R352). -/
def rWNG_STEER_MAP : Nat := 0x3800
/-- Offset of LMP_STAT (R380). -/
def rLMP_STAT : Nat := 0x0
/-- Offset of LMP_WATCH_THRESH (R380). -/
def rLMP_WATCH_THRESH : Nat := 0x4
/-- Offset of LMP_SWAP_THRESH (R380). -/
def rLMP_SWAP_THRESH : Nat := 0x8
/-- Offset of LMP_FADE_THRESH (R380). -/
def rLMP_FADE_THRESH : Nat := 0xC
/-- Offset of LMP_CTRL (R380). -/
def rLMP_CTRL : Nat := 0x10
/-- Offset of LMP_SWAP_COUNT (R380). -/
def rLMP_SWAP_COUNT : Nat := 0x14
/-- Offset of LMP_FAIL_COUNT (R380). -/
def rLMP_FAIL_COUNT : Nat := 0x18
/-- Offset of LMP_SWAP_FAIL_COUNT (R380). -/
def rLMP_SWAP_FAIL_COUNT : Nat := 0x1C
/-- Offset of LMP_LASER_STAT (R380). -/
def rLMP_LASER_STAT : Nat := 0x100
/-- Offset of WNG_CAL_TEMP_THRESH (R381). -/
def rWNG_CAL_TEMP_THRESH : Nat := 0x4000
/-- Offset of WNG_CAL_CTRL (R381). -/
def rWNG_CAL_CTRL : Nat := 0x4004
/-- Offset of WNG_CAL_COUNT (R381). -/
def rWNG_CAL_COUNT : Nat := 0x4008
/-- Offset of WNG_CAL_DISAGREE_COUNT (R381). -/
def rWNG_CAL_DISAGREE_COUNT : Nat := 0x400C
/-- Offset of WNG_CAL_ABANDON_COUNT (R381). -/
def rWNG_CAL_ABANDON_COUNT : Nat := 0x4010
/-- Offset of WNG_CAL_DEFER_COUNT (R381). -/
def rWNG_CAL_DEFER_COUNT : Nat := 0x4014
/-- Offset of WNG_RING_UNLOCK_COUNT (R381). -/
def rWNG_RING_UNLOCK_COUNT : Nat := 0x4018
/-- Offset of WNG_PIC_TEMP (R381). -/
def rWNG_PIC_TEMP : Nat := 0x401C
/-- Offset of WNG_CAL_RX (R381). -/
def rWNG_CAL_RX : Nat := 0x4400
/-- Offset of WNG_RING_TX (R381). -/
def rWNG_RING_TX : Nat := 0x4C00
/-- Offset of PWR_GOV_SLEW (R382). -/
def rPWR_GOV_SLEW : Nat := 0x100
/-- Offset of PWR_GOV_TEMP_LIMIT (R382). -/
def rPWR_GOV_TEMP_LIMIT : Nat := 0x104
/-- Offset of PWR_GOV_CTRL (R382). -/
def rPWR_GOV_CTRL : Nat := 0x108
/-- Offset of PWR_GOV_STAT (R382). -/
def rPWR_GOV_STAT : Nat := 0x10C
/-- Offset of PWR_GOV_LIMIT_COUNT (R382). -/
def rPWR_GOV_LIMIT_COUNT : Nat := 0x110
/-- Offset of RGS_COND_TIME (R383). -/
def rRGS_COND_TIME : Nat := 0x600
/-- Offset of RGS_COND_CTRL (R383). -/
def rRGS_COND_CTRL : Nat := 0x604
/-- Offset of RGS_COND_SEQ (R383). -/
def rRGS_COND_SEQ : Nat := 0x608
/-- Offset of RGS_COND_REPLAN_EN (R383). -/
def rRGS_COND_REPLAN_EN : Nat := 0x60C
/-- Offset of RGS_COND_REPLAN_COUNT (R383). -/
def rRGS_COND_REPLAN_COUNT : Nat := 0x610
/-- Offset of PAIR_STAT (R415). -/
def rPAIR_STAT : Nat := 0x0
/-- Offset of PAIR_PEERS (R415). -/
def rPAIR_PEERS : Nat := 0x4
/-- Offset of PAIR_CTRL (R415). -/
def rPAIR_CTRL : Nat := 0x8
/-- Offset of PAIR_BEACON_TIME (R415). -/
def rPAIR_BEACON_TIME : Nat := 0xC
/-- Offset of PAIR_LOST_THRESH (R415). -/
def rPAIR_LOST_THRESH : Nat := 0x10
/-- Offset of PAIR_COMPARE_TIME (R415). -/
def rPAIR_COMPARE_TIME : Nat := 0x14
/-- Offset of PAIR_MISSED (R415). -/
def rPAIR_MISSED : Nat := 0x18
/-- Offset of PAIR_STOCKTAKE_STAT (R415). -/
def rPAIR_STOCKTAKE_STAT : Nat := 0x1C
/-- Offset of PAIR_STOCKTAKE_GEN_LO (R415). -/
def rPAIR_STOCKTAKE_GEN_LO : Nat := 0x20
/-- Offset of PAIR_STOCKTAKE_GEN_HI (R415). -/
def rPAIR_STOCKTAKE_GEN_HI : Nat := 0x24
/-- Offset of PAIR_DRAIN_COUNT (R415). -/
def rPAIR_DRAIN_COUNT : Nat := 0x28
/-- Offset of PAIR_AGREE_COUNT (R415). -/
def rPAIR_AGREE_COUNT : Nat := 0x30
/-- Offset of PAIR_DISAGREE_COUNT (R415). -/
def rPAIR_DISAGREE_COUNT : Nat := 0x34
/-- Offset of PAIR_UNMATCHED_COUNT (R415). -/
def rPAIR_UNMATCHED_COUNT : Nat := 0x38
/-- Offset of PAIR_DUP_COUNT (R415). -/
def rPAIR_DUP_COUNT : Nat := 0x3C
/-- Offset of PAIR_STALE_COUNT (R415). -/
def rPAIR_STALE_COUNT : Nat := 0x40
/-- Offset of PAIR_TWIN_REJECT_COUNT (R415). -/
def rPAIR_TWIN_REJECT_COUNT : Nat := 0x44
/-- Offset of PAIR_ARBITRATE_COUNT (R415). -/
def rPAIR_ARBITRATE_COUNT : Nat := 0x48
/-- Offset of PAIR_KAT_FAIL_COUNT (R415). -/
def rPAIR_KAT_FAIL_COUNT : Nat := 0x4C
/-- Offset of PAIR_DISPUTE_INFO (R415). -/
def rPAIR_DISPUTE_INFO : Nat := 0x60
/-- Offset of PAIR_DISPUTE_EPOCH (R415). -/
def rPAIR_DISPUTE_EPOCH : Nat := 0x64
/-- Offset of PAIR_DISPUTE_BLOCK (R415). -/
def rPAIR_DISPUTE_BLOCK : Nat := 0x68
/-- Offset of PAIR_SUBST (R415). -/
def rPAIR_SUBST : Nat := 0x100
/-- Offset of INC_STAT (R445). -/
def rINC_STAT : Nat := 0x800
/-- Offset of INC_FIRST (R445). -/
def rINC_FIRST : Nat := 0x804
/-- Offset of INC_FORCE (R445). -/
def rINC_FORCE : Nat := 0x808
/-- Offset of INC_ACTION (R445). -/
def rINC_ACTION : Nat := 0x80C
/-- Offset of INC_CHANCE_TIME (R445). -/
def rINC_CHANCE_TIME : Nat := 0x810
/-- Offset of INC_COUNT (R445). -/
def rINC_COUNT : Nat := 0x820
/-- Offset of INC_POLICY (R445). -/
def rINC_POLICY : Nat := 0x880
/-- Offset of RGS_LOCK_STAT (R446). -/
def rRGS_LOCK_STAT : Nat := 0x700
/-- Offset of RGS_LOCK_CTRL (R446). -/
def rRGS_LOCK_CTRL : Nat := 0x704
/-- Offset of RGS_LOCK_QUIET_TIME (R446). -/
def rRGS_LOCK_QUIET_TIME : Nat := 0x708
/-- Offset of RGS_LOCK_RECOVERY_COUNT (R446). -/
def rRGS_LOCK_RECOVERY_COUNT : Nat := 0x70C
/-- Offset of RGS_LOCK_COUNT (R446). -/
def rRGS_LOCK_COUNT : Nat := 0x710
/-- Offset of HST_STAT (R491). -/
def rHST_STAT : Nat := 0x0
/-- Offset of HST_BAR2_BASE (R491). -/
def rHST_BAR2_BASE : Nat := 0x4
/-- Offset of HST_LOG_ROUTE (R491). -/
def rHST_LOG_ROUTE : Nat := 0x8
/-- Offset of HST_UNROUTED_COUNT (R491). -/
def rHST_UNROUTED_COUNT : Nat := 0xC
/-- Offset of HST_HOST_ERROR_COUNT (R491). -/
def rHST_HOST_ERROR_COUNT : Nat := 0x10
/-- Offset of HST_WARDEN_NOTICE (R491). -/
def rHST_WARDEN_NOTICE : Nat := 0x14
/-- Offset of HST_RING_BASE_LO (R491). -/
def rHST_RING_BASE_LO : Nat := 0x100
/-- Offset of HST_RING_BASE_HI (R491). -/
def rHST_RING_BASE_HI : Nat := 0x104
/-- Offset of HST_RING_CFG (R491). -/
def rHST_RING_CFG : Nat := 0x108
/-- Offset of HST_RING_STAT (R491). -/
def rHST_RING_STAT : Nat := 0x10C
/-- Offset of HST_RING_HEAD (R491). -/
def rHST_RING_HEAD : Nat := 0x110
/-- Offset of HST_RING_TAIL (R491). -/
def rHST_RING_TAIL : Nat := 0x114
/-- Offset of HST_DMA_CTRL (R491). -/
def rHST_DMA_CTRL : Nat := 0x118
/-- Offset of HST_DMA_MIB_COUNT (R491). -/
def rHST_DMA_MIB_COUNT : Nat := 0x11C
/-- Offset of HST_LOG_BASE_LO (R491). -/
def rHST_LOG_BASE_LO : Nat := 0x600
/-- Offset of HST_LOG_BASE_HI (R491). -/
def rHST_LOG_BASE_HI : Nat := 0x604
/-- Offset of HST_LOG_STATUS_LO (R491). -/
def rHST_LOG_STATUS_LO : Nat := 0x608
/-- Offset of HST_LOG_STATUS_HI (R491). -/
def rHST_LOG_STATUS_HI : Nat := 0x60C
/-- Offset of HST_LOG_CFG (R491). -/
def rHST_LOG_CFG : Nat := 0x610
/-- Offset of HST_LOG_PROD (R491). -/
def rHST_LOG_PROD : Nat := 0x614
/-- Offset of HST_LOG_CONS (R491). -/
def rHST_LOG_CONS : Nat := 0x618
/-- Offset of HST_LOG_DROP_COUNT (R491). -/
def rHST_LOG_DROP_COUNT : Nat := 0x61C
/-- Offset of RGS_ID (R492). -/
def rRGS_ID : Nat := 0x0
/-- Offset of RGS_SERIAL_LO (R492). -/
def rRGS_SERIAL_LO : Nat := 0x4
/-- Offset of RGS_SERIAL_HI (R492). -/
def rRGS_SERIAL_HI : Nat := 0x8
/-- Offset of RGS_LIFECYCLE (R492). -/
def rRGS_LIFECYCLE : Nat := 0x10
/-- Offset of RGS_BOOT_STAT (R492). -/
def rRGS_BOOT_STAT : Nat := 0x14
/-- Offset of RGS_FW_VERSION (R492). -/
def rRGS_FW_VERSION : Nat := 0x18
/-- Offset of RGS_SVN (R492). -/
def rRGS_SVN : Nat := 0x1C
/-- Offset of RGS_MEAS_INDEX (R492). -/
def rRGS_MEAS_INDEX : Nat := 0x20
/-- Offset of RGS_MEAS_COUNT (R492). -/
def rRGS_MEAS_COUNT : Nat := 0x24
/-- Offset of RGS_MEAS_DATA (R492). -/
def rRGS_MEAS_DATA : Nat := 0x40
/-- Offset of PWR_STATE_STAT (R518). -/
def rPWR_STATE_STAT : Nat := 0x0
/-- Offset of PWR_STATE_CTRL (R518). -/
def rPWR_STATE_CTRL : Nat := 0x4
/-- Offset of PWR_CAP (R518). -/
def rPWR_CAP : Nat := 0x8
/-- Offset of PWR_INPUT (R518). -/
def rPWR_INPUT : Nat := 0xC
/-- Offset of PWR_PLATE_TEMP (R518). -/
def rPWR_PLATE_TEMP : Nat := 0x10
/-- Offset of PWR_RESET_CTRL (R518). -/
def rPWR_RESET_CTRL : Nat := 0x14
/-- Offset of PWR_RESET_CAUSE (R518). -/
def rPWR_RESET_CAUSE : Nat := 0x18
/-- Offset of GAL_STAT (R519). -/
def rGAL_STAT : Nat := 0x0
/-- Offset of GAL_RESET_CTRL (R519). -/
def rGAL_RESET_CTRL : Nat := 0x4
/-- Offset of STO_RAW_AUTH (R247). -/
def rSTO_RAW_AUTH : Nat := 0x200
/-- Offset of STO_RAW_ADDR_LO (R247). -/
def rSTO_RAW_ADDR_LO : Nat := 0x204
/-- Offset of STO_RAW_ADDR_HI (R247). -/
def rSTO_RAW_ADDR_HI : Nat := 0x208
/-- Offset of STO_RAW_CMD (R247). -/
def rSTO_RAW_CMD : Nat := 0x20C
/-- Offset of STO_RAW_PARITY (R247). -/
def rSTO_RAW_PARITY : Nat := 0x210
/-- Offset of STO_RAW_DATA (R247). -/
def rSTO_RAW_DATA : Nat := 0x220

/-- The HST registers of R491, part 0. -/
def rows_hst_0 : List RegRow :=
  [ ⟨0x0, 1, 4, [⟨0, 3, .ro, 0x0, .mod⟩, ⟨4, 5, .ro, 0x0, .mod⟩, ⟨9, 1, .ro, 0x0, .mod⟩, ⟨16, 13, .ro, 0x0, .mod⟩]⟩,
    ⟨0x4, 1, 4, [⟨0, 10, .rw, 0x0, .mod⟩]⟩,
    ⟨0x8, 1, 4, [⟨0, 28, .rw, 0x0, .mod⟩]⟩,
    ⟨0xC, 1, 4, [⟨0, 32, .ro, 0x0, .mod⟩]⟩,
    ⟨0x10, 1, 4, [⟨0, 32, .ro, 0x0, .mod⟩]⟩,
    ⟨0x14, 1, 4, [⟨0, 32, .wo, 0x0, .none⟩]⟩,
    ⟨0x100, 33, 32, [⟨12, 20, .rw, 0x0, .mod⟩]⟩,
    ⟨0x104, 33, 32, [⟨0, 32, .rw, 0x0, .mod⟩]⟩,
    ⟨0x108, 33, 32, [⟨0, 5, .rw, 0x4, .mod⟩, ⟨5, 2, .rw, 0x0, .mod⟩, ⟨7, 1, .rw, 0x0, .mod⟩, ⟨8, 1, .rw, 0x0, .mod⟩]⟩,
    ⟨0x10C, 33, 32, [⟨0, 2, .ro, 0x0, .mod⟩, ⟨2, 1, .ro, 0x0, .mod⟩, ⟨4, 4, .ro, 0x0, .mod⟩]⟩,
    ⟨0x110, 33, 32, [⟨0, 32, .ro, 0x0, .mod⟩]⟩,
    ⟨0x114, 33, 32, [⟨0, 32, .ro, 0x0, .mod⟩]⟩,
    ⟨0x118, 32, 32, [⟨0, 1, .wo, 0x0, .none⟩]⟩,
    ⟨0x11C, 32, 32, [⟨0, 32, .ro, 0x0, .mod⟩]⟩,
    ⟨0x600, 4, 32, [⟨12, 20, .rw, 0x0, .mod⟩]⟩,
    ⟨0x604, 4, 32, [⟨0, 32, .rw, 0x0, .mod⟩]⟩ ]

/-- The HST registers of R491, part 1. -/
def rows_hst_1 : List RegRow :=
  [ ⟨0x608, 4, 32, [⟨6, 26, .rw, 0x0, .mod⟩]⟩,
    ⟨0x60C, 4, 32, [⟨0, 32, .rw, 0x0, .mod⟩]⟩,
    ⟨0x610, 4, 32, [⟨0, 5, .rw, 0x8, .mod⟩, ⟨7, 1, .rw, 0x0, .mod⟩, ⟨8, 1, .rw, 0x0, .mod⟩]⟩,
    ⟨0x614, 4, 32, [⟨0, 32, .ro, 0x0, .mod⟩]⟩,
    ⟨0x618, 4, 32, [⟨0, 32, .ro, 0x0, .mod⟩]⟩,
    ⟨0x61C, 4, 32, [⟨0, 32, .ro, 0x0, .mod⟩]⟩ ]

/-- The RGS registers of R383, R446, R492, part 0. -/
def rows_rgs_0 : List RegRow :=
  [ ⟨0x0, 1, 4, [⟨0, 16, .ro, 0x9120, .fixed⟩, ⟨16, 8, .ro, 0xb1, .fixed⟩]⟩,
    ⟨0x4, 1, 4, [⟨0, 32, .ro, 0x0, .fixed⟩]⟩,
    ⟨0x8, 1, 4, [⟨0, 32, .ro, 0x0, .fixed⟩]⟩,
    ⟨0x10, 1, 4, [⟨0, 3, .ro, 0x0, .never⟩, ⟨4, 1, .ro, 0x0, .never⟩, ⟨8, 4, .ro, 0x0, .never⟩]⟩,
    ⟨0x14, 1, 4, [⟨0, 1, .ro, 0x0, .mod⟩, ⟨4, 3, .ro, 0x0, .mod⟩, ⟨8, 3, .ro, 0x0, .mod⟩, ⟨12, 1, .ro, 0x0, .mod⟩, ⟨13, 1, .ro, 0x0, .mod⟩, ⟨14, 1, .ro, 0x0, .mod⟩]⟩,
    ⟨0x18, 1, 4, [⟨0, 32, .ro, 0x0, .mod⟩]⟩,
    ⟨0x1C, 1, 4, [⟨0, 7, .ro, 0x0, .mod⟩, ⟨8, 7, .ro, 0x0, .mod⟩]⟩,
    ⟨0x20, 1, 4, [⟨0, 3, .rw, 0x1, .mod⟩]⟩,
    ⟨0x24, 1, 4, [⟨0, 32, .ro, 0x0, .mod⟩]⟩,
    ⟨0x40, 12, 4, [⟨0, 32, .ro, 0x0, .mod⟩]⟩,
    ⟨0x600, 1, 4, [⟨0, 11, .rw, 0xa, .mod⟩]⟩,
    ⟨0x604, 1, 4, [⟨0, 1, .wo, 0x0, .none⟩]⟩,
    ⟨0x608, 1, 4, [⟨0, 32, .ro, 0x0, .never⟩]⟩,
    ⟨0x60C, 1, 4, [⟨0, 1, .rw, 0x1, .mod⟩, ⟨1, 1, .rw, 0x1, .mod⟩, ⟨2, 1, .rw, 0x1, .mod⟩, ⟨3, 1, .rw, 0x1, .mod⟩]⟩,
    ⟨0x610, 1, 4, [⟨0, 32, .ro, 0x0, .mod⟩]⟩,
    ⟨0x700, 1, 4, [⟨0, 1, .ro, 0x0, .mod⟩, ⟨1, 1, .ro, 0x0, .mod⟩, ⟨2, 1, .ro, 0x0, .mod⟩, ⟨3, 1, .ro, 0x0, .mod⟩, ⟨4, 1, .ro, 0x0, .mod⟩, ⟨5, 1, .ro, 0x0, .mod⟩, ⟨6, 1, .ro, 0x0, .mod⟩, ⟨8, 4, .ro, 0x0, .mod⟩, ⟨16, 11, .ro, 0x0, .mod⟩, ⟨27, 5, .ro, 0x0, .mod⟩]⟩ ]

/-- The RGS registers of R446, part 1. -/
def rows_rgs_1 : List RegRow :=
  [ ⟨0x704, 1, 4, [⟨0, 1, .wo, 0x0, .none⟩, ⟨1, 1, .wdn, 0x0, .none⟩]⟩,
    ⟨0x708, 1, 4, [⟨0, 14, .rw, 0x32, .mod⟩]⟩,
    ⟨0x70C, 1, 4, [⟨0, 2, .ro, 0x0, .mod⟩, ⟨8, 24, .ro, 0x0, .mod⟩]⟩,
    ⟨0x710, 1, 4, [⟨0, 32, .ro, 0x0, .mod⟩]⟩ ]

/-- The PWR registers of R382, R518, part 0. -/
def rows_pwr_0 : List RegRow :=
  [ ⟨0x0, 1, 4, [⟨0, 3, .ro, 0x0, .mod⟩, ⟨3, 1, .ro, 0x0, .mod⟩, ⟨4, 3, .ro, 0x0, .mod⟩, ⟨8, 3, .ro, 0x0, .mod⟩]⟩,
    ⟨0x4, 1, 4, [⟨0, 3, .wo, 0x0, .none⟩, ⟨3, 1, .wo, 0x0, .none⟩]⟩,
    ⟨0x8, 1, 4, [⟨0, 11, .wdn, 0x640, .never⟩]⟩,
    ⟨0xC, 1, 4, [⟨0, 16, .ro, 0x0, .mod⟩, ⟨16, 16, .ro, 0x0, .mod⟩]⟩,
    ⟨0x10, 1, 4, [⟨0, 12, .ro, 0x0, .mod⟩, ⟨16, 12, .ro, 0x0, .mod⟩]⟩,
    ⟨0x14, 1, 4, [⟨0, 2, .wo, 0x0, .none⟩]⟩,
    ⟨0x18, 1, 4, [⟨0, 3, .ro, 0x0, .mod⟩, ⟨3, 1, .ro, 0x0, .mod⟩]⟩,
    ⟨0x100, 1, 4, [⟨0, 6, .rw, 0x1e, .mod⟩]⟩,
    ⟨0x104, 1, 4, [⟨0, 12, .rw, 0x190, .mod⟩]⟩,
    ⟨0x108, 1, 4, [⟨0, 1, .wdn, 0x0, .mod⟩]⟩,
    ⟨0x10C, 1, 4, [⟨0, 5, .ro, 0x10, .mod⟩, ⟨8, 1, .ro, 0x0, .mod⟩, ⟨9, 1, .ro, 0x0, .mod⟩, ⟨10, 1, .ro, 0x0, .mod⟩, ⟨16, 16, .ro, 0x0, .mod⟩]⟩,
    ⟨0x110, 1, 4, [⟨0, 32, .ro, 0x0, .mod⟩]⟩ ]

/-- The PLN registers of R211, part 0. -/
def rows_pln_0 : List RegRow :=
  [ ⟨0x0, 1, 4, [⟨0, 32, .ro, 0x0, .mod⟩]⟩,
    ⟨0x4, 1, 4, [⟨0, 32, .ro, 0x0, .mod⟩]⟩,
    ⟨0x8, 1, 4, [⟨0, 3, .ro, 0x0, .mod⟩, ⟨3, 1, .ro, 0x0, .mod⟩, ⟨4, 2, .ro, 0x0, .mod⟩, ⟨16, 11, .ro, 0x0, .mod⟩]⟩,
    ⟨0xC, 1, 4, [⟨0, 32, .ro, 0x0, .mod⟩]⟩,
    ⟨0x10, 1, 4, [⟨0, 32, .ro, 0x0, .mod⟩]⟩,
    ⟨0x14, 1, 4, [⟨0, 32, .ro, 0x0, .mod⟩]⟩,
    ⟨0x18, 1, 4, [⟨0, 32, .ro, 0x0, .mod⟩]⟩,
    ⟨0x1C, 1, 4, [⟨0, 16, .rw, 0x7d0, .mod⟩]⟩,
    ⟨0x20, 1, 4, [⟨0, 16, .rw, 0x64, .mod⟩]⟩,
    ⟨0x24, 1, 4, [⟨0, 1, .wdn, 0x0, .por⟩, ⟨4, 4, .wdn, 0x0, .por⟩]⟩,
    ⟨0x28, 1, 4, [⟨0, 19, .ro, 0x40000, .mod⟩]⟩,
    ⟨0x40, 4, 32, [⟨0, 3, .ro, 0x0, .mod⟩, ⟨8, 8, .ro, 0x0, .mod⟩, ⟨16, 1, .ro, 0x0, .mod⟩, ⟨17, 1, .ro, 0x0, .mod⟩, ⟨18, 2, .ro, 0x0, .mod⟩, ⟨20, 1, .ro, 0x0, .mod⟩]⟩,
    ⟨0x44, 4, 32, [⟨0, 32, .ro, 0x0, .mod⟩]⟩,
    ⟨0x48, 4, 32, [⟨0, 32, .ro, 0x0, .mod⟩]⟩,
    ⟨0x4C, 4, 32, [⟨0, 32, .ro, 0x0, .mod⟩]⟩,
    ⟨0x50, 4, 32, [⟨0, 32, .ro, 0x0, .mod⟩]⟩ ]

/-- The PLN registers of R211, part 1. -/
def rows_pln_1 : List RegRow :=
  [ ⟨0x100, 48, 4, [⟨0, 32, .ro, 0x0, .mod⟩]⟩ ]

/-- The CUR registers of R212, part 0. -/
def rows_cur_0 : List RegRow :=
  [ ⟨0x0, 1, 4, [⟨0, 11, .ro, 0x0, .mod⟩, ⟨16, 6, .ro, 0x20, .mod⟩]⟩,
    ⟨0x4, 1, 4, [⟨0, 11, .ro, 0x0, .mod⟩]⟩,
    ⟨0x8, 1, 4, [⟨0, 8, .rw, 0x3, .mod⟩]⟩,
    ⟨0xC, 1, 4, [⟨0, 16, .rw, 0x1770, .mod⟩]⟩,
    ⟨0x10, 1, 4, [⟨0, 11, .rw, 0x40, .mod⟩]⟩,
    ⟨0x14, 1, 4, [⟨0, 12, .rw, 0x17c, .mod⟩]⟩,
    ⟨0x20, 1, 4, [⟨0, 14, .rw, 0x0, .mod⟩, ⟨16, 1, .rw, 0x0, .mod⟩]⟩,
    ⟨0x24, 1, 4, [⟨0, 1, .ro, 0x0, .mod⟩, ⟨1, 1, .ro, 0x0, .mod⟩]⟩,
    ⟨0x30, 8, 4, [⟨0, 32, .ro, 0x0, .mod⟩]⟩,
    ⟨0x50, 1, 4, [⟨0, 16, .rw, 0x0, .mod⟩]⟩,
    ⟨0x54, 1, 4, [⟨0, 5, .ro, 0x0, .mod⟩, ⟨5, 6, .ro, 0x0, .mod⟩, ⟨11, 1, .ro, 0x0, .mod⟩, ⟨12, 1, .ro, 0x0, .mod⟩, ⟨13, 1, .ro, 0x0, .mod⟩, ⟨14, 1, .ro, 0x0, .mod⟩]⟩ ]

/-- The FAB registers of R325, part 0. -/
def rows_fab_0 : List RegRow :=
  [ ⟨0x0, 1, 4, [⟨0, 15, .ro, 0x0, .mod⟩, ⟨15, 1, .ro, 0x1, .mod⟩, ⟨16, 15, .wdn, 0x0, .por⟩, ⟨31, 1, .wdn, 0x1, .por⟩]⟩,
    ⟨0x4, 1, 4, [⟨0, 2, .wo, 0x0, .none⟩, ⟨2, 6, .wo, 0x0, .none⟩]⟩,
    ⟨0x8, 1, 4, [⟨0, 14, .rw, 0x32, .mod⟩]⟩,
    ⟨0xC, 1, 4, [⟨0, 16, .rw, 0x3e8, .mod⟩]⟩,
    ⟨0x10, 1, 4, [⟨0, 8, .ro, 0x0, .mod⟩, ⟨8, 8, .ro, 0x0, .mod⟩, ⟨16, 1, .ro, 0x0, .mod⟩, ⟨17, 1, .ro, 0x0, .mod⟩]⟩,
    ⟨0x14, 1, 4, [⟨0, 1, .wdn, 0x1, .por⟩]⟩,
    ⟨0x18, 1, 4, [⟨0, 15, .ro, 0x0, .mod⟩]⟩,
    ⟨0x1C, 1, 4, [⟨0, 32, .ro, 0x0, .mod⟩]⟩,
    ⟨0x20, 1, 4, [⟨0, 32, .ro, 0x0, .mod⟩]⟩,
    ⟨0x24, 1, 4, [⟨0, 32, .ro, 0x0, .mod⟩]⟩,
    ⟨0x28, 1, 4, [⟨0, 32, .ro, 0x0, .mod⟩]⟩,
    ⟨0x2C, 1, 4, [⟨0, 32, .ro, 0x0, .mod⟩]⟩,
    ⟨0x30, 1, 4, [⟨0, 32, .ro, 0x0, .mod⟩]⟩,
    ⟨0x34, 1, 4, [⟨0, 32, .ro, 0x0, .mod⟩]⟩,
    ⟨0x40, 1, 4, [⟨0, 15, .rw, 0x0, .mod⟩]⟩,
    ⟨0x48, 4, 4, [⟨0, 32, .ro, 0x0, .gen⟩]⟩ ]

/-- The FAB registers of R325, part 1. -/
def rows_fab_1 : List RegRow :=
  [ ⟨0x100, 36, 4, [⟨0, 15, .ro, 0x0, .gen⟩, ⟨16, 2, .ro, 0x0, .gen⟩, ⟨24, 8, .ro, 0x0, .gen⟩]⟩,
    ⟨0x200, 64, 4, [⟨0, 16, .ro, 0x0, .gen⟩, ⟨16, 3, .ro, 0x0, .gen⟩, ⟨19, 1, .ro, 0x0, .gen⟩, ⟨20, 11, .ro, 0x0, .gen⟩]⟩ ]

/-- The PAIR registers of R415, part 0. -/
def rows_pair_0 : List RegRow :=
  [ ⟨0x0, 1, 4, [⟨0, 3, .ro, 0x0, .mod⟩, ⟨3, 1, .ro, 0x0, .mod⟩, ⟨4, 2, .ro, 0x0, .mod⟩, ⟨6, 1, .ro, 0x0, .mod⟩, ⟨7, 2, .ro, 0x0, .mod⟩]⟩,
    ⟨0x4, 1, 4, [⟨0, 15, .ro, 0x0, .gen⟩, ⟨15, 1, .ro, 0x1, .gen⟩, ⟨16, 15, .ro, 0x0, .gen⟩, ⟨31, 1, .ro, 0x1, .gen⟩]⟩,
    ⟨0x8, 1, 4, [⟨0, 3, .wo, 0x0, .none⟩, ⟨3, 6, .wo, 0x0, .none⟩, ⟨16, 16, .wo, 0x0, .none⟩]⟩,
    ⟨0xC, 1, 4, [⟨0, 7, .rw, 0xa, .mod⟩]⟩,
    ⟨0x10, 1, 4, [⟨0, 5, .rw, 0x5, .mod⟩]⟩,
    ⟨0x14, 1, 4, [⟨0, 10, .rw, 0xa, .mod⟩]⟩,
    ⟨0x18, 1, 4, [⟨0, 8, .ro, 0x0, .mod⟩, ⟨8, 8, .ro, 0x0, .mod⟩]⟩,
    ⟨0x1C, 1, 4, [⟨0, 3, .ro, 0x0, .mod⟩, ⟨3, 1, .ro, 0x0, .mod⟩, ⟨4, 1, .ro, 0x0, .mod⟩, ⟨5, 1, .ro, 0x0, .mod⟩, ⟨16, 16, .ro, 0x0, .mod⟩]⟩,
    ⟨0x20, 1, 4, [⟨0, 32, .ro, 0x0, .mod⟩]⟩,
    ⟨0x24, 1, 4, [⟨0, 16, .ro, 0x0, .mod⟩]⟩,
    ⟨0x28, 1, 4, [⟨0, 32, .ro, 0x0, .mod⟩]⟩,
    ⟨0x30, 1, 4, [⟨0, 32, .ro, 0x0, .mod⟩]⟩,
    ⟨0x34, 1, 4, [⟨0, 32, .ro, 0x0, .mod⟩]⟩,
    ⟨0x38, 1, 4, [⟨0, 32, .ro, 0x0, .mod⟩]⟩,
    ⟨0x3C, 1, 4, [⟨0, 32, .ro, 0x0, .mod⟩]⟩,
    ⟨0x40, 1, 4, [⟨0, 32, .ro, 0x0, .mod⟩]⟩ ]

/-- The PAIR registers of R415, part 1. -/
def rows_pair_1 : List RegRow :=
  [ ⟨0x44, 1, 4, [⟨0, 32, .ro, 0x0, .mod⟩]⟩,
    ⟨0x48, 1, 4, [⟨0, 32, .ro, 0x0, .mod⟩]⟩,
    ⟨0x4C, 1, 4, [⟨0, 32, .ro, 0x0, .mod⟩]⟩,
    ⟨0x60, 1, 4, [⟨0, 14, .ro, 0x0, .mod⟩, ⟨16, 14, .ro, 0x0, .mod⟩, ⟨30, 1, .ro, 0x0, .mod⟩]⟩,
    ⟨0x64, 1, 4, [⟨0, 32, .ro, 0x0, .mod⟩]⟩,
    ⟨0x68, 1, 4, [⟨0, 28, .ro, 0x0, .mod⟩]⟩,
    ⟨0x100, 16, 4, [⟨0, 15, .ro, 0x0, .mod⟩, ⟨16, 15, .ro, 0x0, .mod⟩, ⟨31, 1, .ro, 0x0, .mod⟩]⟩ ]

/-- The GAL registers of R519, part 0. -/
def rows_gal_0 : List RegRow :=
  [ ⟨0x0, 1, 4, [⟨0, 1, .ro, 0x0, .gal⟩, ⟨1, 1, .ro, 0x1, .gal⟩, ⟨4, 12, .ro, 0x840, .gal⟩, ⟨16, 11, .ro, 0x0, .gal⟩]⟩,
    ⟨0x4, 1, 4, [⟨0, 1, .wo, 0x0, .none⟩]⟩ ]

/-- The VLT registers of R246, part 0. -/
def rows_vlt_0 : List RegRow :=
  [ ⟨0x0, 1, 4, [⟨0, 1, .ro, 0x0, .mod⟩, ⟨16, 16, .ro, 0x0, .mod⟩]⟩,
    ⟨0x4, 1, 4, [⟨0, 32, .ro, 0x0, .mod⟩]⟩,
    ⟨0x8, 1, 4, [⟨0, 32, .ro, 0x0, .mod⟩]⟩,
    ⟨0xC, 1, 4, [⟨0, 32, .ro, 0x0, .mod⟩]⟩,
    ⟨0x10, 1, 4, [⟨0, 32, .ro, 0x0, .mod⟩]⟩,
    ⟨0x14, 1, 4, [⟨0, 32, .ro, 0x0, .mod⟩]⟩,
    ⟨0x18, 1, 4, [⟨0, 32, .ro, 0x0, .mod⟩]⟩,
    ⟨0x1C, 1, 4, [⟨0, 32, .ro, 0x0, .mod⟩]⟩,
    ⟨0x20, 1, 4, [⟨0, 8, .rw, 0x10, .mod⟩]⟩,
    ⟨0x24, 1, 4, [⟨0, 16, .rw, 0x64, .mod⟩]⟩,
    ⟨0x28, 1, 4, [⟨0, 16, .rw, 0x64, .mod⟩]⟩,
    ⟨0x2C, 1, 4, [⟨0, 32, .ro, 0x0, .mod⟩]⟩,
    ⟨0x30, 1, 4, [⟨0, 32, .ro, 0x0, .mod⟩]⟩,
    ⟨0x40, 8, 8, [⟨0, 5, .ro, 0x0, .gen⟩, ⟨5, 6, .ro, 0x0, .gen⟩, ⟨11, 10, .ro, 0x0, .gen⟩, ⟨31, 1, .ro, 0x0, .gen⟩]⟩,
    ⟨0x44, 8, 8, [⟨0, 10, .ro, 0x0, .gen⟩, ⟨16, 16, .ro, 0x0, .gen⟩]⟩,
    ⟨0x80, 8, 4, [⟨0, 9, .ro, 0x0, .fixed⟩, ⟨16, 7, .ro, 0x0, .never⟩, ⟨31, 1, .ro, 0x0, .never⟩]⟩ ]

/-- The VLT registers of R246, part 1. -/
def rows_vlt_1 : List RegRow :=
  [ ⟨0xA0, 1, 4, [⟨0, 32, .ro, 0x0, .mod⟩]⟩,
    ⟨0xA4, 1, 4, [⟨0, 8, .ro, 0x0, .mod⟩]⟩,
    ⟨0xA8, 1, 4, [⟨0, 3, .ro, 0x0, .mod⟩, ⟨3, 4, .ro, 0x0, .mod⟩]⟩,
    ⟨0x100, 1, 4, [⟨0, 1, .wdn, 0x0, .mod⟩]⟩,
    ⟨0x104, 1, 4, [⟨0, 32, .rw, 0x0, .mod⟩]⟩,
    ⟨0x108, 1, 4, [⟨0, 8, .rw, 0x0, .mod⟩]⟩,
    ⟨0x10C, 1, 4, [⟨0, 3, .rw, 0x0, .mod⟩, ⟨3, 1, .wo, 0x0, .none⟩, ⟨4, 7, .rw, 0x0, .mod⟩, ⟨16, 1, .ro, 0x0, .mod⟩, ⟨17, 1, .ro, 0x0, .mod⟩, ⟨18, 3, .ro, 0x0, .mod⟩]⟩,
    ⟨0x110, 1, 4, [⟨0, 32, .rw, 0x0, .mod⟩]⟩,
    ⟨0x120, 8, 4, [⟨0, 32, .rw, 0x0, .mod⟩]⟩ ]

/-- The STO registers of R247, part 0. -/
def rows_sto_0 : List RegRow :=
  [ ⟨0x0, 1, 4, [⟨0, 1, .ro, 0x0, .mod⟩, ⟨1, 1, .ro, 0x0, .mod⟩]⟩,
    ⟨0x4, 1, 4, [⟨0, 32, .ro, 0x0, .mod⟩]⟩,
    ⟨0x8, 1, 4, [⟨0, 32, .ro, 0x0, .mod⟩]⟩,
    ⟨0xC, 1, 4, [⟨0, 32, .ro, 0x0, .mod⟩]⟩,
    ⟨0x10, 1, 4, [⟨0, 32, .ro, 0x0, .mod⟩]⟩,
    ⟨0x14, 1, 4, [⟨0, 32, .ro, 0x0, .mod⟩]⟩,
    ⟨0x18, 1, 4, [⟨0, 32, .ro, 0x0, .mod⟩]⟩,
    ⟨0x1C, 1, 4, [⟨0, 32, .ro, 0x0, .mod⟩]⟩,
    ⟨0x20, 1, 4, [⟨0, 8, .rw, 0x10, .mod⟩]⟩,
    ⟨0x24, 1, 4, [⟨0, 16, .rw, 0x64, .mod⟩]⟩,
    ⟨0x28, 1, 4, [⟨0, 16, .rw, 0x258, .mod⟩]⟩,
    ⟨0x2C, 1, 4, [⟨0, 32, .ro, 0x0, .mod⟩]⟩,
    ⟨0x30, 1, 4, [⟨0, 32, .ro, 0x0, .mod⟩]⟩,
    ⟨0x34, 1, 4, [⟨0, 32, .ro, 0x0, .mod⟩]⟩,
    ⟨0x38, 1, 4, [⟨0, 18, .ro, 0x20000, .mod⟩]⟩,
    ⟨0x3C, 1, 4, [⟨0, 11, .rw, 0x0, .mod⟩]⟩ ]

/-- The STO registers of R247, part 1. -/
def rows_sto_1 : List RegRow :=
  [ ⟨0x40, 1, 4, [⟨0, 8, .ro, 0x0, .gen⟩]⟩,
    ⟨0x44, 1, 4, [⟨0, 32, .ro, 0x0, .mod⟩]⟩,
    ⟨0x48, 1, 4, [⟨0, 8, .ro, 0x0, .mod⟩]⟩,
    ⟨0x4C, 1, 4, [⟨0, 3, .ro, 0x0, .mod⟩, ⟨3, 4, .ro, 0x0, .mod⟩]⟩,
    ⟨0x100, 64, 4, [⟨0, 3, .ro, 0x0, .mod⟩, ⟨8, 8, .ro, 0x0, .mod⟩]⟩,
    ⟨0x200, 1, 4, [⟨0, 1, .wdn, 0x0, .mod⟩]⟩,
    ⟨0x204, 1, 4, [⟨0, 32, .rw, 0x0, .mod⟩]⟩,
    ⟨0x208, 1, 4, [⟨0, 8, .rw, 0x0, .mod⟩]⟩,
    ⟨0x20C, 1, 4, [⟨0, 3, .rw, 0x0, .mod⟩, ⟨3, 1, .wo, 0x0, .none⟩, ⟨4, 7, .rw, 0x0, .mod⟩, ⟨11, 1, .rw, 0x0, .mod⟩, ⟨16, 1, .ro, 0x0, .mod⟩, ⟨17, 1, .ro, 0x0, .mod⟩, ⟨18, 3, .ro, 0x0, .mod⟩]⟩,
    ⟨0x210, 1, 4, [⟨0, 32, .rw, 0x0, .mod⟩]⟩,
    ⟨0x220, 8, 4, [⟨0, 32, .rw, 0x0, .mod⟩]⟩ ]

/-- The WNG registers of R283, R352, part 0. -/
def rows_wng_0 : List RegRow :=
  [ ⟨0x0, 1, 4, [⟨0, 18, .ro, 0x0, .mod⟩, ⟨18, 1, .ro, 0x0, .mod⟩]⟩,
    ⟨0x4, 1, 4, [⟨0, 8, .rw, 0x1e, .mod⟩]⟩,
    ⟨0x8, 1, 4, [⟨0, 4, .rw, 0x7, .mod⟩]⟩,
    ⟨0xC, 1, 4, [⟨0, 10, .rw, 0x14, .mod⟩]⟩,
    ⟨0x10, 1, 4, [⟨0, 10, .rw, 0x1, .mod⟩]⟩,
    ⟨0x14, 1, 4, [⟨0, 2, .wo, 0x0, .none⟩, ⟨2, 5, .wo, 0x0, .none⟩, ⟨7, 4, .wo, 0x0, .none⟩]⟩,
    ⟨0x20, 1, 4, [⟨0, 32, .ro, 0x0, .mod⟩]⟩,
    ⟨0x24, 1, 4, [⟨0, 32, .ro, 0x0, .mod⟩]⟩,
    ⟨0x28, 1, 4, [⟨0, 32, .ro, 0x0, .mod⟩]⟩,
    ⟨0x2C, 1, 4, [⟨0, 32, .ro, 0x0, .mod⟩]⟩,
    ⟨0x30, 1, 4, [⟨0, 32, .ro, 0x0, .mod⟩]⟩,
    ⟨0x34, 1, 4, [⟨0, 32, .ro, 0x0, .mod⟩]⟩,
    ⟨0x100, 18, 4, [⟨0, 3, .ro, 0x0, .chn⟩, ⟨3, 1, .ro, 0x0, .chn⟩, ⟨4, 1, .ro, 0x0, .chn⟩, ⟨5, 1, .ro, 0x0, .chn⟩, ⟨6, 5, .ro, 0x0, .chn⟩, ⟨11, 5, .ro, 0x0, .chn⟩, ⟨16, 4, .ro, 0x0, .chn⟩]⟩,
    ⟨0x1000, 1, 4, [⟨0, 9, .rw, 0x1e, .mod⟩]⟩,
    ⟨0x1004, 1, 4, [⟨0, 14, .rw, 0xc8, .mod⟩]⟩,
    ⟨0x1008, 1, 4, [⟨0, 9, .rw, 0xa, .mod⟩]⟩ ]

/-- The WNG registers of R283, part 1. -/
def rows_wng_1 : List RegRow :=
  [ ⟨0x100C, 1, 4, [⟨0, 14, .rw, 0x14, .mod⟩]⟩,
    ⟨0x1010, 1, 4, [⟨0, 16, .rw, 0x64, .mod⟩]⟩,
    ⟨0x1014, 1, 4, [⟨0, 8, .ro, 0x3, .mod⟩, ⟨8, 5, .rw, 0x1f, .mod⟩]⟩,
    ⟨0x1018, 1, 4, [⟨0, 32, .ro, 0x0, .mod⟩]⟩,
    ⟨0x1020, 1, 4, [⟨0, 12, .rw, 0x200, .mod⟩, ⟨16, 14, .rw, 0x1000, .mod⟩]⟩,
    ⟨0x1024, 1, 4, [⟨0, 12, .rw, 0x200, .mod⟩, ⟨16, 14, .rw, 0x800, .mod⟩]⟩,
    ⟨0x1028, 1, 4, [⟨0, 12, .rw, 0x300, .mod⟩, ⟨16, 14, .rw, 0x400, .mod⟩]⟩,
    ⟨0x102C, 1, 4, [⟨0, 12, .rw, 0x100, .mod⟩, ⟨16, 14, .rw, 0x400, .mod⟩]⟩,
    ⟨0x1100, 9, 64, [⟨0, 3, .ro, 0x0, .chn⟩, ⟨3, 1, .ro, 0x0, .chn⟩, ⟨4, 2, .ro, 0x0, .chn⟩, ⟨6, 2, .ro, 0x0, .chn⟩, ⟨8, 2, .ro, 0x3, .chn⟩, ⟨10, 2, .ro, 0x3, .chn⟩, ⟨16, 4, .ro, 0x0, .chn⟩, ⟨24, 5, .ro, 0x0, .chn⟩]⟩,
    ⟨0x1104, 9, 64, [⟨0, 15, .ro, 0x0, .chn⟩, ⟨15, 1, .ro, 0x0, .chn⟩, ⟨16, 6, .ro, 0x0, .chn⟩, ⟨24, 4, .ro, 0x0, .chn⟩, ⟨28, 4, .ro, 0x0, .chn⟩]⟩,
    ⟨0x1108, 9, 64, [⟨0, 2, .wo, 0x0, .none⟩, ⟨2, 1, .wo, 0x0, .none⟩]⟩,
    ⟨0x110C, 9, 64, [⟨0, 16, .ro, 0x0, .chn⟩]⟩,
    ⟨0x1110, 9, 64, [⟨0, 32, .ro, 0x0, .chn⟩]⟩,
    ⟨0x1114, 9, 64, [⟨0, 32, .ro, 0x0, .chn⟩]⟩,
    ⟨0x1118, 9, 64, [⟨0, 32, .ro, 0x0, .chn⟩]⟩,
    ⟨0x111C, 9, 64, [⟨0, 32, .ro, 0x0, .chn⟩]⟩,
    ⟨0x1120, 9, 64, [⟨0, 32, .ro, 0x0, .chn⟩]⟩,
    ⟨0x1124, 9, 64, [⟨0, 32, .ro, 0x0, .chn⟩]⟩,
    ⟨0x1128, 9, 64, [⟨0, 32, .ro, 0x0, .chn⟩]⟩ ]

/-- The WNG registers of R283, R352, R381, part 2. -/
def rows_wng_2 : List RegRow :=
  [ ⟨0x112C, 9, 64, [⟨0, 32, .ro, 0x0, .chn⟩]⟩,
    ⟨0x1130, 9, 64, [⟨0, 32, .ro, 0x0, .chn⟩]⟩,
    ⟨0x1134, 9, 64, [⟨0, 32, .ro, 0x0, .chn⟩]⟩,
    ⟨0x1138, 9, 64, [⟨0, 14, .ro, 0x0, .chn⟩, ⟨16, 14, .ro, 0x0, .chn⟩]⟩,
    ⟨0x1400, 36, 4, [⟨0, 16, .ro, 0x0, .chn⟩, ⟨16, 16, .ro, 0x0, .chn⟩]⟩,
    ⟨0x1500, 36, 4, [⟨0, 16, .ro, 0x0, .chn⟩, ⟨16, 14, .ro, 0x0, .chn⟩]⟩,
    ⟨0x1600, 36, 4, [⟨0, 12, .ro, 0x0, .chn⟩, ⟨16, 14, .ro, 0x0, .chn⟩]⟩,
    ⟨0x2000, 324, 4, [⟨0, 2, .ro, 0x3, .chn⟩, ⟨2, 4, .ro, 0x0, .chn⟩, ⟨6, 1, .ro, 0x0, .chn⟩, ⟨7, 1, .ro, 0x0, .chn⟩, ⟨8, 1, .ro, 0x0, .chn⟩, ⟨9, 1, .ro, 0x0, .chn⟩, ⟨16, 8, .ro, 0x0, .chn⟩]⟩,
    ⟨0x2800, 324, 4, [⟨0, 8, .ro, 0x0, .chn⟩, ⟨8, 4, .ro, 0x0, .chn⟩]⟩,
    ⟨0x3000, 324, 4, [⟨0, 2, .ro, 0x0, .chn⟩, ⟨2, 4, .ro, 0x0, .chn⟩, ⟨6, 1, .ro, 0x0, .chn⟩, ⟨7, 6, .ro, 0x0, .chn⟩]⟩,
    ⟨0x3800, 288, 4, [⟨0, 5, .ro, 0x0, .chn⟩, ⟨5, 1, .ro, 0x0, .chn⟩, ⟨6, 1, .ro, 0x0, .chn⟩, ⟨8, 5, .ro, 0x0, .chn⟩, ⟨13, 1, .ro, 0x0, .chn⟩, ⟨14, 1, .ro, 0x0, .chn⟩, ⟨15, 1, .ro, 0x0, .chn⟩]⟩,
    ⟨0x4000, 1, 4, [⟨0, 6, .rw, 0xc, .mod⟩]⟩,
    ⟨0x4004, 1, 4, [⟨0, 2, .wo, 0x0, .none⟩, ⟨2, 9, .wo, 0x0, .none⟩]⟩,
    ⟨0x4008, 1, 4, [⟨0, 32, .ro, 0x0, .mod⟩]⟩,
    ⟨0x400C, 1, 4, [⟨0, 32, .ro, 0x0, .mod⟩]⟩,
    ⟨0x4010, 1, 4, [⟨0, 32, .ro, 0x0, .mod⟩]⟩ ]

/-- The WNG registers of R381, part 3. -/
def rows_wng_3 : List RegRow :=
  [ ⟨0x4014, 1, 4, [⟨0, 32, .ro, 0x0, .mod⟩]⟩,
    ⟨0x4018, 1, 4, [⟨0, 32, .ro, 0x0, .mod⟩]⟩,
    ⟨0x401C, 1, 4, [⟨0, 12, .ro, 0x0, .mod⟩, ⟨16, 8, .ro, 0x0, .mod⟩]⟩,
    ⟨0x4400, 324, 4, [⟨0, 14, .ro, 0x0, .mod⟩, ⟨14, 1, .ro, 0x0, .mod⟩, ⟨16, 6, .ro, 0x0, .mod⟩, ⟨22, 2, .ro, 0x0, .mod⟩, ⟨24, 8, .ro, 0x0, .mod⟩]⟩,
    ⟨0x4C00, 324, 4, [⟨0, 14, .ro, 0x0, .mod⟩, ⟨14, 1, .ro, 0x0, .mod⟩, ⟨16, 6, .ro, 0x0, .mod⟩]⟩ ]

/-- The COL registers of R326, part 0. -/
def rows_col_0 : List RegRow :=
  [ ⟨0x0, 1, 4, [⟨0, 12, .ro, 0x800, .mod⟩, ⟨16, 12, .ro, 0x800, .mod⟩]⟩,
    ⟨0x4, 1, 4, [⟨0, 16, .rw, 0x64, .mod⟩]⟩,
    ⟨0x8, 1, 4, [⟨0, 32, .ro, 0x0, .mod⟩]⟩,
    ⟨0xC, 1, 4, [⟨0, 32, .ro, 0x0, .mod⟩]⟩,
    ⟨0x10, 1, 4, [⟨0, 32, .ro, 0x0, .mod⟩]⟩,
    ⟨0x14, 1, 4, [⟨0, 32, .ro, 0x0, .mod⟩]⟩,
    ⟨0x18, 1, 4, [⟨0, 32, .ro, 0x0, .mod⟩]⟩,
    ⟨0x1C, 1, 4, [⟨0, 32, .ro, 0x0, .mod⟩]⟩,
    ⟨0x8000, 4096, 4, [⟨0, 5, .rw, 0x0, .mod⟩, ⟨5, 2, .rw, 0x0, .mod⟩, ⟨7, 2, .rw, 0x0, .mod⟩, ⟨9, 1, .rw, 0x0, .mod⟩, ⟨16, 12, .rw, 0x0, .mod⟩]⟩ ]

/-- The LMP registers of R380, part 0. -/
def rows_lmp_0 : List RegRow :=
  [ ⟨0x0, 1, 4, [⟨0, 8, .ro, 0x0, .mod⟩, ⟨8, 8, .ro, 0x0, .mod⟩, ⟨16, 5, .ro, 0x0, .mod⟩, ⟨24, 8, .ro, 0x0, .mod⟩]⟩,
    ⟨0x4, 1, 4, [⟨0, 8, .rw, 0xa0, .mod⟩]⟩,
    ⟨0x8, 1, 4, [⟨0, 8, .rw, 0xb4, .mod⟩]⟩,
    ⟨0xC, 1, 4, [⟨0, 8, .rw, 0xa, .mod⟩]⟩,
    ⟨0x10, 1, 4, [⟨0, 2, .wo, 0x0, .none⟩, ⟨2, 8, .wo, 0x0, .none⟩]⟩,
    ⟨0x14, 1, 4, [⟨0, 32, .ro, 0x0, .mod⟩]⟩,
    ⟨0x18, 1, 4, [⟨0, 32, .ro, 0x0, .mod⟩]⟩,
    ⟨0x1C, 1, 4, [⟨0, 32, .ro, 0x0, .mod⟩]⟩,
    ⟨0x100, 162, 4, [⟨0, 8, .ro, 0x0, .mod⟩, ⟨8, 8, .ro, 0x0, .mod⟩, ⟨16, 3, .ro, 0x0, .mod⟩, ⟨19, 1, .ro, 0x0, .never⟩, ⟨20, 1, .ro, 0x0, .never⟩, ⟨21, 1, .ro, 0x0, .never⟩, ⟨24, 3, .ro, 0x0, .never⟩]⟩ ]

/-- The TILE registers of R110, part 0. -/
def rows_tile_0 : List RegRow :=
  [ ⟨0x0, 1, 4, [⟨0, 5, .ro, 0x0, .fixed⟩, ⟨5, 6, .ro, 0x0, .fixed⟩, ⟨11, 1, .ro, 0x0, .fixed⟩, ⟨12, 1, .ro, 0x0, .mod⟩]⟩,
    ⟨0x4, 1, 4, [⟨0, 3, .ro, 0x0, .tile⟩]⟩,
    ⟨0x8, 1, 4, [⟨0, 2, .wo, 0x0, .none⟩]⟩,
    ⟨0xC, 1, 4, [⟨0, 16, .ro, 0xffff, .gen⟩]⟩,
    ⟨0x10, 1, 4, [⟨0, 15, .ro, 0x0, .gen⟩, ⟨16, 1, .ro, 0x0, .tile⟩]⟩,
    ⟨0x14, 1, 4, [⟨0, 32, .ro, 0x0, .tile⟩]⟩,
    ⟨0x20, 1, 4, [⟨0, 7, .ro, 0x38, .tile⟩, ⟨8, 7, .ro, 0x32, .tile⟩]⟩,
    ⟨0x30, 1, 4, [⟨0, 12, .ro, 0x0, .tile⟩]⟩,
    ⟨0x34, 1, 4, [⟨0, 8, .ro, 0xff, .tile⟩, ⟨8, 8, .ro, 0xff, .tile⟩]⟩,
    ⟨0x38, 1, 4, [⟨0, 32, .ro, 0x0, .tile⟩]⟩,
    ⟨0x40, 1, 4, [⟨0, 16, .rw, 0x1ca, .gen⟩]⟩,
    ⟨0x44, 1, 4, [⟨0, 16, .rw, 0x8f1, .gen⟩]⟩,
    ⟨0x48, 1, 4, [⟨0, 32, .ro, 0x0, .tile⟩]⟩,
    ⟨0x4C, 1, 4, [⟨0, 32, .ro, 0x0, .tile⟩]⟩,
    ⟨0x50, 1, 4, [⟨0, 32, .ro, 0x0, .tile⟩]⟩,
    ⟨0x100, 1, 4, [⟨0, 4, .ro, 0x0, .tile⟩, ⟨16, 9, .ro, 0x0, .tile⟩]⟩ ]

/-- The TILE registers of R110, part 1. -/
def rows_tile_1 : List RegRow :=
  [ ⟨0x104, 1, 4, [⟨0, 15, .ro, 0x0, .tile⟩, ⟨16, 1, .ro, 0x0, .tile⟩]⟩,
    ⟨0x108, 1, 4, [⟨0, 32, .ro, 0x0, .tile⟩]⟩,
    ⟨0x10C, 1, 4, [⟨0, 32, .ro, 0x0, .tile⟩]⟩,
    ⟨0x110, 1, 4, [⟨0, 4, .ro, 0x0, .tile⟩, ⟨4, 1, .ro, 0x0, .tile⟩, ⟨16, 8, .ro, 0x0, .tile⟩]⟩,
    ⟨0x114, 1, 4, [⟨0, 32, .ro, 0x0, .tile⟩]⟩,
    ⟨0x118, 1, 4, [⟨0, 32, .ro, 0x0, .tile⟩]⟩,
    ⟨0x11C, 1, 4, [⟨0, 32, .ro, 0x0, .tile⟩]⟩,
    ⟨0x120, 1, 4, [⟨0, 32, .ro, 0x0, .tile⟩]⟩,
    ⟨0x200, 64, 4, [⟨0, 16, .ro, 0x0, .tile⟩]⟩,
    ⟨0x300, 1, 4, [⟨0, 1, .wo, 0x0, .none⟩, ⟨1, 1, .rw, 0x0, .tile⟩]⟩,
    ⟨0x308, 1, 4, [⟨0, 32, .ro, 0x0, .tile⟩]⟩,
    ⟨0x30C, 1, 4, [⟨0, 32, .ro, 0x0, .tile⟩]⟩,
    ⟨0x310, 1, 4, [⟨0, 32, .ro, 0x0, .tile⟩]⟩,
    ⟨0x314, 1, 4, [⟨0, 32, .ro, 0x0, .tile⟩]⟩,
    ⟨0x318, 1, 4, [⟨0, 32, .ro, 0x0, .tile⟩]⟩,
    ⟨0x31C, 1, 4, [⟨0, 32, .ro, 0x0, .tile⟩]⟩ ]

/-- The TILE registers of R110, R65, part 2. -/
def rows_tile_2 : List RegRow :=
  [ ⟨0x320, 1, 4, [⟨0, 32, .ro, 0x0, .tile⟩]⟩,
    ⟨0x324, 1, 4, [⟨0, 32, .ro, 0x0, .tile⟩]⟩,
    ⟨0x328, 1, 4, [⟨0, 32, .ro, 0x0, .tile⟩]⟩,
    ⟨0x32C, 1, 4, [⟨0, 32, .ro, 0x0, .tile⟩]⟩,
    ⟨0x330, 1, 4, [⟨0, 32, .ro, 0x0, .tile⟩]⟩,
    ⟨0x400, 1, 4, [⟨0, 2, .rw, 0x0, .gen⟩, ⟨2, 1, .rw, 0x1, .gen⟩, ⟨3, 1, .rw, 0x0, .gen⟩, ⟨8, 1, .rw, 0x0, .gen⟩]⟩,
    ⟨0x404, 1, 4, [⟨0, 1, .w1c, 0x0, .tile⟩, ⟨1, 1, .w1c, 0x0, .tile⟩, ⟨2, 1, .w1c, 0x0, .tile⟩, ⟨3, 1, .w1c, 0x0, .tile⟩, ⟨4, 1, .w1c, 0x0, .tile⟩, ⟨5, 1, .w1c, 0x0, .tile⟩, ⟨6, 1, .w1c, 0x0, .tile⟩, ⟨7, 1, .w1c, 0x0, .tile⟩]⟩,
    ⟨0x408, 1, 4, [⟨0, 1, .rw, 0x0, .gen⟩, ⟨1, 1, .rw, 0x0, .gen⟩, ⟨2, 1, .rw, 0x0, .gen⟩, ⟨3, 1, .rw, 0x0, .gen⟩, ⟨4, 1, .rw, 0x0, .gen⟩, ⟨5, 1, .rw, 0x0, .gen⟩, ⟨6, 1, .rw, 0x0, .gen⟩, ⟨7, 1, .rw, 0x0, .gen⟩]⟩,
    ⟨0x40C, 1, 4, [⟨0, 32, .ro, 0x0, .tile⟩]⟩,
    ⟨0x410, 1, 4, [⟨0, 32, .ro, 0x0, .tile⟩]⟩,
    ⟨0x418, 1, 4, [⟨0, 32, .ro, 0x0, .gen⟩]⟩,
    ⟨0x41C, 1, 4, [⟨0, 32, .ro, 0x0, .gen⟩]⟩ ]

/-- The INC registers of R445, part 0. -/
def rows_inc_0 : List RegRow :=
  [ ⟨0x800, 1, 4, [⟨0, 24, .w1c, 0x0, .mod⟩, ⟨30, 1, .ro, 0x0, .mod⟩, ⟨31, 1, .ro, 0x0, .mod⟩]⟩,
    ⟨0x804, 1, 4, [⟨0, 5, .ro, 0x0, .mod⟩, ⟨5, 2, .ro, 0x0, .mod⟩, ⟨7, 1, .ro, 0x0, .mod⟩, ⟨8, 1, .ro, 0x0, .mod⟩, ⟨16, 1, .w1c, 0x0, .mod⟩]⟩,
    ⟨0x808, 1, 4, [⟨0, 24, .wo, 0x0, .none⟩, ⟨31, 1, .wdn, 0x0, .mod⟩]⟩,
    ⟨0x80C, 1, 4, [⟨0, 24, .w1c, 0x0, .mod⟩, ⟨31, 1, .wo, 0x0, .none⟩]⟩,
    ⟨0x810, 1, 4, [⟨0, 10, .rw, 0x14, .mod⟩]⟩,
    ⟨0x820, 24, 4, [⟨0, 8, .ro, 0x0, .mod⟩, ⟨8, 24, .ro, 0x0, .mod⟩]⟩,
    ⟨0x880, 24, 4, [⟨0, 8, .rw, 0x0, .mod⟩, ⟨8, 16, .rw, 0x0, .mod⟩, ⟨24, 2, .rw, 0x0, .mod⟩, ⟨26, 2, .rw, 0x0, .mod⟩]⟩ ]

/-- All rows of the HST window. -/
def rows_hst : List RegRow := rows_hst_0 ++ rows_hst_1

/-- All rows of the RGS window. -/
def rows_rgs : List RegRow := rows_rgs_0 ++ rows_rgs_1

/-- All rows of the PWR window. -/
def rows_pwr : List RegRow := rows_pwr_0

/-- All rows of the PLN window. -/
def rows_pln : List RegRow := rows_pln_0 ++ rows_pln_1

/-- All rows of the CUR window. -/
def rows_cur : List RegRow := rows_cur_0

/-- All rows of the FAB window. -/
def rows_fab : List RegRow := rows_fab_0 ++ rows_fab_1

/-- All rows of the PAIR window. -/
def rows_pair : List RegRow := rows_pair_0 ++ rows_pair_1

/-- All rows of the GAL window. -/
def rows_gal : List RegRow := rows_gal_0

/-- All rows of the VLT window. -/
def rows_vlt : List RegRow := rows_vlt_0 ++ rows_vlt_1

/-- All rows of the STO window. -/
def rows_sto : List RegRow := rows_sto_0 ++ rows_sto_1

/-- All rows of the WNG window. -/
def rows_wng : List RegRow := rows_wng_0 ++ rows_wng_1 ++ rows_wng_2 ++ rows_wng_3

/-- All rows of the COL window. -/
def rows_col : List RegRow := rows_col_0

/-- All rows of the LMP window. -/
def rows_lmp : List RegRow := rows_lmp_0

/-- All rows of the TILE window. -/
def rows_tile : List RegRow := rows_tile_0 ++ rows_tile_1 ++ rows_tile_2

/-- All rows of the INC window. -/
def rows_inc : List RegRow := rows_inc_0

/-- The sources of each incident block with THRESH, WINDOW in ms, SEVERITY and ACTION (R432). -/
def src_gal : List (Nat × Nat × Nat × Nat × Nat) :=
  [(0, 1, 1, 2, 1), (1, 16, 1000, 1, 0), (2, 1, 1, 3, 3)]
def src_tile : List (Nat × Nat × Nat × Nat × Nat) :=
  [(0, 64, 1000, 1, 0), (1, 1, 1, 2, 0), (2, 1, 1, 2, 0), (3, 1, 1, 2, 0), (4, 1, 1, 2, 0), (5, 1, 1, 2, 0), (6, 1, 1, 2, 0), (7, 1, 1, 2, 0), (8, 1, 1, 2, 0), (9, 1, 1, 1, 0), (10, 16, 1000, 1, 0)]
def src_vlt : List (Nat × Nat × Nat × Nat × Nat) :=
  [(0, 255, 1000, 1, 0), (1, 1, 1, 2, 0), (2, 1, 1, 1, 0), (3, 1, 1, 1, 0), (4, 4, 10000, 2, 0), (5, 1, 1, 3, 3), (6, 16, 1000, 1, 0)]
def src_sto : List (Nat × Nat × Nat × Nat × Nat) :=
  [(0, 255, 1000, 1, 0), (1, 1, 1, 2, 0), (2, 1, 1, 1, 0), (3, 1, 1, 1, 0), (4, 4, 10000, 2, 0), (5, 255, 1000, 1, 0), (6, 1, 1, 2, 1), (7, 1, 1, 2, 0), (8, 1, 1, 3, 3)]
def src_wng : List (Nat × Nat × Nat × Nat × Nat) :=
  [(0, 64, 1000, 1, 0), (1, 1, 1, 1, 0), (2, 1, 1, 2, 0), (3, 16, 1000, 1, 0), (4, 1, 1, 2, 1), (5, 1, 1, 1, 0), (6, 1, 1, 2, 0), (7, 255, 1000, 1, 0), (8, 1, 1, 1, 0), (9, 1, 1, 1, 0), (10, 1, 1, 1, 0), (11, 4, 1000, 1, 0), (12, 8, 60000, 2, 0), (13, 64, 1000, 1, 0), (14, 1, 1, 1, 0), (15, 1, 1, 1, 0), (16, 1, 1, 3, 3), (17, 1, 1, 2, 0)]
def src_lmp : List (Nat × Nat × Nat × Nat × Nat) :=
  [(0, 1, 1, 1, 0), (1, 1, 1, 2, 0), (2, 1, 1, 2, 0), (3, 1, 1, 2, 0), (4, 1, 1, 2, 0), (5, 1, 1, 2, 0)]
def src_col : List (Nat × Nat × Nat × Nat × Nat) :=
  [(0, 1, 1, 1, 0), (1, 1, 1, 2, 0)]
def src_fab : List (Nat × Nat × Nat × Nat × Nat) :=
  [(0, 16, 1000, 1, 0), (1, 1, 1, 2, 0), (2, 64, 1000, 1, 0), (3, 1, 1, 2, 0), (4, 1, 1, 2, 0)]
def src_pln : List (Nat × Nat × Nat × Nat × Nat) :=
  [(0, 1, 1, 2, 0), (1, 1, 1, 2, 0), (2, 1, 1, 2, 0)]
def src_cur : List (Nat × Nat × Nat × Nat × Nat) :=
  [(0, 1, 1, 2, 0), (1, 1, 1, 2, 0)]
def src_pair : List (Nat × Nat × Nat × Nat × Nat) :=
  [(0, 1, 1, 2, 0), (1, 1, 1, 2, 0), (2, 1, 1, 3, 3), (3, 1, 1, 1, 0), (4, 1, 1, 2, 0), (5, 1, 1, 2, 0), (6, 1, 1, 3, 3), (7, 1, 1, 2, 0), (8, 1, 1, 1, 0)]
def src_rgs : List (Nat × Nat × Nat × Nat × Nat) :=
  [(0, 16, 1000, 1, 0), (1, 1, 1, 3, 3), (2, 1, 1, 2, 0)]
def src_hst : List (Nat × Nat × Nat × Nat × Nat) :=
  [(0, 1, 1, 1, 1), (1, 1, 1, 2, 0), (2, 1, 1, 2, 0)]
def src_pwr : List (Nat × Nat × Nat × Nat × Nat) :=
  [(0, 1, 1, 3, 3), (1, 1, 1, 3, 3), (2, 1, 1, 1, 0), (3, 1, 1, 3, 3), (4, 1, 1, 1, 0), (5, 1, 1, 3, 3)]

/-- The source table of a block (R432). -/
def incSources : Blk → List (Nat × Nat × Nat × Nat × Nat)
  | .gal => src_gal
  | .tile => src_tile
  | .vlt => src_vlt
  | .sto => src_sto
  | .wng => src_wng
  | .lmp => src_lmp
  | .col => src_col
  | .fab => src_fab
  | .pln => src_pln
  | .cur => src_cur
  | .pair => src_pair
  | .rgs => src_rgs
  | .hst => src_hst
  | .pwr => src_pwr

/-- The default INC_POLICY value of source `k` (R432, R445); 0 where there is no source. -/
def incPolicyReset (b : Blk) (k : Nat) : Nat :=
  match (incSources b).find? (fun x => x.1 == k) with
  | some (_, th, w, sv, ac) => th + w * 2 ^ 8 + sv * 2 ^ 24 + ac * 2 ^ 26
  | none => 0

/-- Whether block `b` has a source `k` (R432). -/
def hasSource (b : Blk) (k : Nat) : Bool := (incSources b).any (fun x => x.1 == k)

/-- The incident registers of a tile: a Cleared-by entry MOD reads TILE (R445). -/
def rows_tile_inc : List RegRow :=
  rows_inc.map fun r => { r with fields := r.fields.map fun f => if f.cls = .mod then { f with cls := .tile } else f }

/-- The register rows of a block's own window, incident registers included. -/
def rowsOf : Blk → List RegRow
  | .gal => rows_gal ++ rows_inc
  | .tile => rows_tile ++ rows_tile_inc
  | .vlt => rows_vlt ++ rows_inc
  | .sto => rows_sto ++ rows_inc
  | .wng => rows_wng ++ rows_inc
  | .lmp => rows_lmp ++ rows_inc
  | .col => rows_col ++ rows_inc
  | .fab => rows_fab ++ rows_inc
  | .pln => rows_pln ++ rows_inc
  | .cur => rows_cur ++ rows_inc
  | .pair => rows_pair ++ rows_inc
  | .rgs => rows_rgs ++ rows_inc
  | .hst => rows_hst ++ rows_inc
  | .pwr => rows_pwr ++ rows_inc

/-- The row of a window offset, with the index within it; `none` where no table defines one (R9). -/
def findRow (rows : List RegRow) (off : Nat) : Option (RegRow × Nat) :=
  match rows with
  | [] => none
  | r :: rs =>
    if r.off ≤ off ∧ off < r.off + r.count * r.stride ∧ (off - r.off) % r.stride = 0 then
      some (r, (off - r.off) / r.stride)
    else findRow rs off

/-- The reset value of a register from its fields. -/
def fieldsReset (fs : List RField) : Nat := fs.foldl (fun v f => setFld v f.lo f.width f.reset) 0

/-- Whether an event of class `ev` returns a field of class `c` to its reset value (R10). -/
def Cls.clearedBy (c ev : Cls) : Bool :=
  match c, ev with
  | .gen, .gen => true
  | .gen, .tile => true
  | .tile, .tile => true
  | .gen, .gal => true
  | .tile, .gal => true
  | .gal, .gal => true
  | .chn, .chn => true
  | .gen, .mod => true
  | .tile, .mod => true
  | .gal, .mod => true
  | .chn, .mod => true
  | .mod, .mod => true
  | .gen, .por => true
  | .tile, .por => true
  | .gal, .por => true
  | .chn, .por => true
  | .mod, .por => true
  | .por, .por => true
  | _, _ => false

end Sys2Proof.Machine
end

