-- ==== Sys2Proof/Machine/State.lean ====
section
/-! DEFINITION. The state of the module as plain data: registers, tiles, memories, plans, links,
light, pairs, incidents, host interface, security, power; the queue of waiting commands; and the
state after a completed power-on reset. -/

namespace Sys2Proof.Machine

/-- A sparse table: keys strictly rising, no entry equal to what an unlisted key reads as. -/
abbrev Assoc (α : Type) := List (Nat × α)

/-- A stream descriptor: four 64-bit words (R137). -/
structure Desc where
  w0 : Word64
  w1 : Word64
  w2 : Word64
  w3 : Word64
  deriving DecidableEq, Repr

/-- The all-zero descriptor. -/
def Desc.zero : Desc := ⟨0, 0, 0, 0⟩

/-- A Catalogue entry (R192). `tier`: 0 Vault, 1 Store, 3 not present. -/
structure CatEntry where
  tier : Nat
  format : Nat
  keep : Bool
  shared : Bool
  spilled : Bool
  owner : Nat
  address : Nat
  length : Nat
  gen : Nat
  deriving DecidableEq, Repr

/-- An entry of an exhibit's corridor list as the Curator resolved it (R142, R180): corridor ID,
destination exhibit, module and tile. `resolved` is false while the tile is asked for again (R402). -/
structure CorrEntry where
  corridor : Nat
  dstExhibit : Nat
  dstModule : Nat
  tile : Nat
  resolved : Bool
  deriving DecidableEq, Repr

/-- One level of the loop stack (R129): the LOOP's index, its body length, the iterations done and
the iterations left. -/
structure LoopLevel where
  start : Nat
  body : Nat
  completed : Nat
  left : Nat
  deriving DecidableEq, Repr

/-- The held matrix block (R157): its K, its format code and its 64 rows. -/
structure Held where
  k : Nat
  fmt : Nat
  rows : List (List MElem)
  deriving DecidableEq, Repr

/-- A byte range of memory in a space (0 scratch, 1 Vault, 2 Store) written while a step that reads
may be running (R83, R124). -/
structure Raced where
  space : Nat
  lo : Nat
  hi : Nat
  deriving DecidableEq, Repr

/-- A step in a unit, with everything it captured at issue (R113): word, index, execution count
(R54), TILE_ARITH_CTRL, TILE_ARITH_TRAP_EN and TILE_CRATE_TIME (R165), scalars, descriptors, tensors and corridors; how many of
its crates have left; and what others have written since (R124). -/
structure Issued where
  word : Word64
  index : Nat
  count : Nat
  ctrl : Word
  trapEn : Nat
  crateTime : Nat
  s : Assoc Word
  d : Assoc Desc
  tensors : Assoc CatEntry
  corridors : List CorrEntry
  sent : Nat
  raced : List Raced
  deriving DecidableEq, Repr

/-- What holds the issue stage of a tile (R111): nothing, a WAIT, a FENCE, an armed HANG, or a trap, a stop or an END
that waits for issued steps to run to completion (R114, R121, R167). -/
inductive Holding where
  | none
  | wait (ticket amount : Nat)
  | fence (units : Nat)
  | hang
  | trap
  | stop
  | ended
  deriving DecidableEq, Repr

/-- A cause waiting for the next step boundary of its tile (R99 to R102). -/
structure PendTrap where
  cause : Nat
  data : Nat
  word : Word64
  flags : Nat
  deriving DecidableEq, Repr

/-- A change that waits for a step boundary (R27, R29, R107): register writes with their mask and side, commands, clock, pace.  A
clear of counters carries what completed at its boundary, by register offset, to be counted after it (R63, R110). -/
inductive Deferred where
  | write (off value mask : Nat) (side : Side)
  | statClear (mask : Nat)
  | perfClear (after : List (Nat × Nat))
  | clock (freq volt : Nat)
  | pace (v : Nat)
  | stop
  | reset (after : List (Nat × Nat))
  deriving DecidableEq, Repr

/-- A request of a tile that has no response yet (R152): its tile-local number, its READ step, the
runs of source bytes it covers by their place in the concatenated rows, and its ticket. -/
structure ReadOut where
  id : Nat
  issued : Issued
  start : Nat
  length : Nat
  ticket : Nat
  ticketAdd : Nat
  deriving DecidableEq, Repr

/-- A crate (R80, R81), with what its flits carry (R256): traffic class, destination, TAG,
CONGESTION, DUP_ELIGIBLE, POISON; the channel it arrived on, if it came from another module (36 + w: formed by Collator w);
on the corridors, the tile at which it entered, whether it took the detour channel, and whether a failed router lost beats of
it (R15, R78); at a Wing, the channel whose credits it waits for and the timer when that began (R258), and the generation whose
routes it keeps to over a hang (R31); the CONGESTION, DUP_ELIGIBLE and POISON each of its flits arrived with (R258, R292); and whether it carries MXFP8 for a
reduction (R289). -/
structure Crate where
  srcModule : Nat
  srcTile : Nat
  op : Nat
  target : Nat
  ticket : Nat
  length : Nat
  ticketAdd : Nat
  tensor : Nat
  epoch : Nat
  offset : Nat
  request : Nat
  data : List Byte
  destModule : Nat
  destTile : Nat
  tc : Nat
  tag : Nat
  congested : Bool
  dup : Bool
  poison : Bool
  via : Option Nat
  entry : Nat := 0
  detour : Bool := false
  torn : Bool := false
  since : Option (Nat × Nat) := none
  gen : Option Nat := none
  marks : List (Bool × Bool × Bool) := []
  mx : Bool := false
  deriving DecidableEq, Repr

/-- One half of an itinerary store (R74, R117): its step words; positions beyond them read END when
the half is loaded and 0 when it is not. -/
structure Half where
  loaded : Bool
  steps : List Word64
  deriving DecidableEq, Repr

/-- One tile (R67, R116), its registers apart. -/
structure Tile where
  s : Assoc Word
  v : Assoc Word
  acc : Assoc AccEl
  d : Assoc Desc
  scratch : Assoc Byte
  scrPoison : Assoc Bool
  scrErr : Assoc Nat
  half0 : Half
  half1 : Half
  itinErr : Assoc Nat
  loops : List LoopLevel
  held : Option Held
  execCount : Assoc Nat
  holding : Holding
  moveU : Option Issued
  crateU : Option Issued
  matrixU : Option Issued
  vectorU : Option Issued
  pendTraps : List PendTrap
  deferred : List Deferred
  tensors : Assoc CatEntry
  corridors : List CorrEntry
  reads : List ReadOut
  cycHold : Word
  cycles : Nat
  phase : Nat
  holdIssue : Bool
  routerFailed : Bool
  isolated : Bool
  due : Bool
  kat : Bool
  trapTimes : List Nat
  deriving DecidableEq, Repr

/-- A tile after a tile reset (R109, R116). -/
def Tile.reset : Tile where
  s := []
  v := []
  acc := []
  d := []
  scratch := []
  scrPoison := []
  scrErr := []
  half0 := ⟨false, []⟩
  half1 := ⟨false, []⟩
  itinErr := []
  loops := []
  held := none
  execCount := []
  holding := .none
  moveU := none
  crateU := none
  matrixU := none
  vectorU := none
  pendTraps := []
  deferred := []
  tensors := []
  corridors := []
  reads := []
  cycHold := 0
  cycles := 0
  phase := 0
  holdIssue := false
  routerFailed := false
  isolated := false
  due := false
  kat := false
  trapTimes := []

/-- A tracker entry (R228): the word's address and its erasure mask. -/
structure TrackEntry where
  word : Nat
  mask : Nat
  deriving DecidableEq, Repr

/-- One of the two memories as stored (R217 to R240), keyed by physical byte address: data bytes,
bytes whose stored parity bit disagrees, the difference of the stored page parity from the parity
of the stored bytes, page-parity bytes whose own parity disagrees, banks that are off, banks whose
pages came back poisoned (with the pages filled since), redirects of retired pages, the list of
retired pages, pages held for a decode with their reader, trackers, counted events and due pages. -/
structure Mem where
  cells : Assoc Byte
  parBad : Assoc Bool
  ppDiff : Assoc Byte
  ppBad : Assoc Bool
  off : Assoc Bool
  poisoned : Assoc (Option (List Nat))
  redirect : Assoc Nat
  retired : List Nat
  held : List (Nat × Nat)
  tracker : Assoc (List TrackEntry)
  counted : List (Nat × Nat)
  due : List Nat
  keepQueue : List Nat
  scrubNext : Nat
  uncorrTimes : List (Nat × Nat)
  softSpare : List (Nat × List Nat)
  deadDies : List Nat
  deriving DecidableEq, Repr

/-- A memory just wiped (R235). -/
def Mem.wiped : Mem where
  cells := []
  parBad := []
  ppDiff := []
  ppBad := []
  off := []
  poisoned := []
  redirect := []
  retired := []
  held := []
  tracker := []
  counted := []
  due := []
  keepQueue := []
  scrubNext := 0
  uncorrTimes := []
  softSpare := []
  deadDies := []

/-- The incident logic of every block (R416 to R427), its registers apart, keyed by the block's
window base plus the source: when the open window ends, whether the last raise was injected, the
element the last real event named (R434 DETAIL) and the one that the raise named whose action waits (R428), when the last real event
and the last injected raise came (one more than the block's time; R423), and the level conditions that now hold (R427); the time of the last
raise of a Major or Critical source and of the last entry to Lockdown, the times of the QUIET exits (R442), and
whether Lockdown ends by a reset alone (R440). -/
structure IncState where
  winEnd : Assoc Nat
  injected : Assoc Bool
  detail : Assoc Nat
  acting : Assoc Nat
  realAt : Assoc Nat
  forcedAt : Assoc Nat
  level : Assoc Bool
  lastRaise : Nat
  entered : Nat
  exits : List Nat
  held : Bool
  deriving DecidableEq, Repr

/-- Incident state after reset. -/
def IncState.reset : IncState := ⟨[], [], [], [], [], [], [], 0, 0, [], false⟩

/-- A docket or plan entry in progress (R459, R461): the ring, the entry's count, its 64 bytes and
how many bytes have moved. -/
structure Entry where
  ring : Nat
  count : Nat
  bytes : List Byte
  moved : Nat
  result : Nat
  detail : Nat
  finished : Bool
  deriving DecidableEq, Repr

/-- The host interface (R447 to R470), its registers apart: host memory as the module can reach it,
the SEQ of the next record, records queued while the link cannot carry writes, records lost per
ring since its last marker with the SEQ of the first, entries in progress, the state of the link and
of the two functions (in D3hot; Bus Master Enable 0), the notice that waits and when the last left (R487), bytes that
each DMA channel moved beyond its last whole MiB. -/
structure HostState where
  mem : Assoc Byte
  seq : Nat
  queue : List (Nat × List Byte)
  lost : Assoc (Nat × Nat)
  entries : List Entry
  linkUp : Bool
  flitMode : Bool
  d3 : List Side
  noMaster : List Side
  noticeWaiting : Option Nat
  noticeLast : Option Nat
  dmaBytes : Assoc Nat
  deriving DecidableEq, Repr

/-- An exhibit record (R177). -/
structure ExhRec where
  exhibit : Nat
  itinerary : Nat
  entry : Nat
  power : Nat
  privateBytes : Nat
  tensors : List Nat
  corridors : List Nat
  setMask : Nat
  arithCtrl : Nat
  trapEn : Nat
  crateTime : Nat
  hangTime : Nat
  svals : List (Nat × Nat)
  dvals : List (Nat × Desc)
  tickets : List (Nat × Nat)
  deriving DecidableEq, Repr

/-- A corridor record (R180). -/
structure CorrRec where
  corridor : Nat
  src : Nat
  dst : Nat
  dstModule : Nat
  isLocal : Bool
  cls : Nat
  weight : Nat
  deriving DecidableEq, Repr

/-- A Catalogue hint record (R181). -/
structure HintRec where
  tensor : Nat
  format : Nat
  tierHint : Nat
  keep : Bool
  shared : Bool
  place : Nat
  owner : Nat
  length : Nat
  spillRank : Nat
  deriving DecidableEq, Repr

/-- A channel map entry (R287). -/
structure ChanRec where
  level : Nat
  rank : Nat
  neighbour : Nat
  deriving DecidableEq, Repr

/-- A route record (R288). -/
structure RouteRec where
  dest : Nat
  policy : Nat
  altSeat : Nat
  altValid : Bool
  mask : Nat
  transitIn : Nat
  deriving DecidableEq, Repr

/-- A wave group record (R310). -/
structure GroupRec where
  group : Nat
  kind : Nat
  scope : Nat
  localCount : Nat
  rootModule : Nat
  resultOffset : Nat
  deriving DecidableEq, Repr

/-- A Wing policy record (R182). -/
structure PolicyRec where
  block : Nat
  index : Nat
  offset : Nat
  value : Nat
  mask : Nat
  deriving DecidableEq, Repr

/-- A constraint record (R183). -/
structure ConstraintRec where
  kind : Nat
  hard : Bool
  distance : Nat
  ops : List Nat
  deriving DecidableEq, Repr

/-- An adoption set record (R386). -/
structure AdoptSet where
  set : Nat
  guarded : Nat
  shard : Nat
  buddyShard : Nat
  buddy : Nat
  deriving DecidableEq, Repr

/-- A ledger exhibit record (R386). -/
structure LedgerExh where
  exhibit : Nat
  role : Nat
  set : Nat
  deriving DecidableEq, Repr

/-- A ledger tensor record (R386). -/
structure LedgerTensor where
  tensor : Nat
  role : Nat
  set : Nat
  index : Nat
  deriving DecidableEq, Repr

/-- A shard record (R386). -/
structure ShardRec where
  shard : Nat
  keeper : Nat
  mirror : Nat
  deriving DecidableEq, Repr

/-- The PAIR_ROLES section (R385, R386); `none` where NONE is set. -/
structure Roles where
  buddy : Option Nat
  reserve : Option Nat
  shard : Nat
  buddyShard : Nat
  reserveRole : Bool
  cow : Nat
  snapshot : Nat
  buddySnapshot : Nat
  rebuildTicket : Nat
  sets : List AdoptSet
  exhibits : List LedgerExh
  tensors : List LedgerTensor
  shards : List ShardRec
  deriving DecidableEq, Repr

/-- An effective plan (R174 to R183), its keyed records in key order. -/
structure Plan where
  gen : Nat
  sizeClass : Nat
  minFfl : Nat
  seed : Nat
  moduleId : Nat
  hangGroup : Nat
  exhibits : List ExhRec
  itins : List (Nat × List Word64)
  corridors : List CorrRec
  hints : List HintRec
  chans : List ChanRec
  routes : List RouteRec
  groups : List GroupRec
  policy : List PolicyRec
  constraints : List ConstraintRec
  roles : Option Roles
  deriving DecidableEq, Repr

/-- A placement (R187): the tile of each exhibit, the next Catalogue, the tiles of remote corridors,
the segment modes of the Store (R215), and the tiles whose preloading half holds a new itinerary. -/
structure Placement where
  tiles : List (Nat × Nat)
  catalogue : Assoc CatEntry
  remote : List (Nat × Nat)
  segModes : Assoc Nat
  preload : List Nat
  deriving DecidableEq, Repr

/-- No placement. -/
def Placement.empty : Placement := ⟨[], [], [], [], []⟩

/-- What a placement is a function of (R190, log entry 154): the effective plan; whether step 2 of R189 keeps its exhibits; the
tiles that are not usable (the retirement list among them); the retired pages; the thermal map and its limit; the current placement
as far as it bears on the next (tiles, and the place of each tensor whose record is unchanged); devices of the Store that have
failed; and the firmware. -/
structure PlaceIn where
  plan : Plan
  keeps : Bool
  lost : List Nat
  pages : List Nat
  heat : List (Nat × Int × Nat)
  limit : Nat
  place : Option Placement
  dead : List Nat
  firmware : List Byte
  deriving DecidableEq, Repr

/-- What the Curator's search answers: the tile of each exhibit; the tier and offset of each tensor (tier 2: it does not
fit); Store segment modes; and 1 + the index of a HARD constraint it could not meet (0: none). -/
structure PlaceOut where
  tiles : List (Nat × Nat)
  tensors : List (Nat × Nat × Nat)
  segs : List (Nat × Nat)
  broken : Nat
  deriving DecidableEq, Repr

/-- A plan slot (R168, R169), its registers apart: the image while it is copied and audited, the plan,
the placement, the plan-store records it holds (section, key, number, bytes), the corridors still
unresolved while it prepares (corridor, module, exhibit), those resolved (corridor, tile), whether it
has been prepared before, the placement made while the exchange of the same PREPARE still runs (R187), and the thermal map as that
PREPARE began (R189): the mean of each tile's samples as a fraction in lowest terms. -/
structure Slot where
  host : Nat
  length : Nat
  image : List Byte
  plan : Option Plan
  place : Option Placement
  records : List (Nat × Nat × Nat × Nat)
  waiting : List (Nat × Nat × Nat)
  remote : List (Nat × Nat)
  prepared : Bool
  draft : Option Placement
  heat : List (Nat × Int × Nat)
  deriving DecidableEq, Repr

/-- An empty slot. -/
def Slot.empty : Slot := ⟨0, 0, [], none, none, [], [], [], false, none, []⟩

/-- The Curator (R168 to R212), its registers apart: slots 0 to 3; slots waiting to prepare in order;
the plan and placement of the current generation; the slot a HANG at the head of the plan ring waits
for; the hang's start and the time of its step 3 or 4; the entropy of the current generation and of the hang in progress (R55);
whether the wave was reported slow, and whether a record of the slot being hung was lost (R241); the wave's result; the retirement list; tiles and Vault pages that fell due after step 2 of the hang in progress; the
exhibits the last hang moved; who asked for which exhibit of which generation; queries held; the number of the next plan-store
record; the SEQ of Office messages; the Store's segment modes; routes isolated until the next hang; the readings of TILE_TEMP in
the last 100 ms (tile, time, value; R189); exhibits that other modules said they move in a generation still to come (generation,
module, exhibit, tile; R194); and every placement made, by what it is a function of (R190). -/
structure CurState where
  slots : Assoc Slot
  autoQueue : List Nat
  now : Option Plan
  place : Option Placement
  waitingHang : Option Nat
  hangStart : Nat
  hangReady : Nat
  entropy : Nat
  nextEntropy : Nat
  waveSlow : Bool
  lostHang : Bool
  waveResult : Option (Nat × Nat)
  retired : List Nat
  lateTiles : List Nat
  latePages : List Nat
  moved : List Nat
  askers : List (Nat × Nat × Nat)
  heldQueries : List (Nat × Nat × Nat)
  nextRecord : Nat
  msgSeq : Nat
  segModes : Assoc Nat
  noRoute : List Nat
  temps : List (Nat × Nat × Int)
  told : List (Nat × Nat × Nat × Nat)
  past : List (PlaceIn × PlaceOut)
  deriving DecidableEq, Repr

/-- The Curator after reset. -/
def CurState.reset : CurState where
  slots := []
  autoQueue := []
  now := none
  place := none
  waitingHang := none
  hangStart := 0
  hangReady := 0
  entropy := 0
  nextEntropy := 0
  waveSlow := false
  lostHang := false
  waveResult := none
  retired := []
  lateTiles := []
  latePages := []
  moved := []
  askers := []
  heldQueries := []
  nextRecord := 0
  msgSeq := 0
  segModes := []
  noRoute := []
  temps := []
  told := []
  past := []

/-- An entry of the request table (R299 to R301): the requesting tile and its tile-local request, the
crate as it left, the channel it left on, how far it is (`tries`: 1 sent, 2 timed out, 3 sent again), and
whether it is quarantined. -/
structure ReqEntry where
  tile : Nat
  tileId : Nat
  crate : Crate
  chan : Nat
  tries : Nat
  quarantined : Bool
  deriving DecidableEq, Repr

/-- A chunk in the slots of a Collator (R305 to R308): its Wing and reduction, the header of its first
input, inputs added, elements with their compensation terms, blocks, slots taken, whether its
stall was reported, and whether a crate of another length keeps it from completing. -/
structure Chunk where
  wing : Nat
  red : Nat
  head : Crate
  inputs : Nat
  acc : List AccEl
  slots : Nat
  stalled : Bool
  broken : Bool
  deriving DecidableEq, Repr

/-- The value of a wave (R312): lowest, highest, and the rooms and halls whose values it includes. -/
structure WaveVal where
  low : Nat
  high : Nat
  rooms : Nat
  halls : Nat
  deriving DecidableEq, Repr

/-- A WAVE message as received (R316): group, phase, wave number, generation, value and the sender. -/
structure WaveMsg where
  group : Nat
  phase : Nat
  wave : Nat
  gen : Nat
  value : WaveVal
  src : Nat
  deriving DecidableEq, Repr

/-- A wave group on this module (R311 to R315): the number of the wave in progress or next; its phase
as FAB_WAVE_STAT codes it; the contributing tiles with their tickets; local contributions; the value
combined so far; messages received; contributions held for later waves (tile, ticket, value); the last
completed wave with its value; modules asked for missing coverage; when the contribution was complete and whether slowness was reported. -/
structure WaveState where
  wave : Nat
  phase : Nat
  tiles : List (Nat × Nat)
  count : Nat
  value : WaveVal
  got : List WaveMsg
  queued : List (Nat × Nat × Nat)
  last : Option (Nat × WaveVal)
  asked : List Nat
  since : Nat
  slow : Bool
  deriving DecidableEq, Repr

/-- A wave group before its first wave. -/
def WaveState.idle : WaveState := ⟨0, 0, [], 0, ⟨0, 0, 0, 0⟩, [], [], none, [], 0, false⟩

/-- A DATA flit (R255, R256) without its sequence number: class, destination, TAG, flags and its 256 bytes
of payload; in a reorder buffer over a hang, the generation whose routes it keeps to (R31). -/
structure Flit where
  cls : Nat
  destModule : Nat
  destTile : Nat
  tag : Nat
  congested : Bool
  dup : Bool
  poison : Bool
  last : Bool
  payload : List Byte
  gen : Option Nat := none
  deriving DecidableEq, Repr

/-- One link of a channel (R249, R267, R272, R277): the LSN of the next slot it sends, the LSN it expects
once it has taken one, the slot log (LSN, class, SEQ), the partner's last STAMP, and where its INIT
exchange stands: whether it runs, rejoins, and ACKED has been sent and received; slots since the last
flit other than DATA; FAULT as last received; the lanes it can run; which of TC0 and TC1 has its turn (R320);
whether a CONTROL flit with a width request has to leave on it (R275); and whether it was suspended or went down since the
channel's reset (R274). -/
structure LinkState where
  lsn : Nat
  rxLsn : Option Nat
  log : List (Nat × Nat × Nat)
  stamp : Nat
  init : Bool
  rejoin : Bool
  gotInit : Bool
  sentAcked : Bool
  gotAcked : Bool
  sinceOther : Nat
  fault : Bool
  width : Nat
  turn : Nat
  widthDue : Bool
  fell : Bool
  deriving DecidableEq, Repr

/-- A link after a reset. -/
def LinkState.reset : LinkState := ⟨0, none, [], 0, false, false, false, false, false, 0, false, 16, 0, false, false⟩

/-- Sequence and credit state of one class of a channel (R263 to R270): the next new SEQ, the acknowledged point,
NEXT; credits advertised by the partner, used, and freed by it; credits this end grants, has freed and has
reported; the link that carried the last credit report. -/
structure ClassState where
  nextSeq : Nat
  acked : Nat
  next : Nat
  advH : Nat
  advD : Nat
  usedH : Nat
  usedD : Nat
  freedH : Nat
  freedD : Nat
  ownH : Nat
  ownD : Nat
  outH : Nat
  outD : Nat
  repH : Nat
  repD : Nat
  creditLink : Nat
  deriving DecidableEq, Repr

/-- A class after a channel reset. -/
def ClassState.reset : ClassState := ⟨0, 0, 0, 0, 0, 0, 0, 0, 0, 0, 0, 0, 0, 0, 0, 0⟩

/-- A channel (R263 to R280), its registers apart: its INSTANCE and the partner's; the two links; the four
classes; the replay buffer as (SEQ, link last sent on, flit); flits to retransmit (class, SEQ); new
flits not yet sent, in order; flits held out of order; flits marked in order; in-order flits since the last CONTROL, bad slots to report (link, LSN), whether a CONTROL or
CREDIT is due, the width change asked for (link, width code); the channel and class whose credits the crate in transit at the
front of a class waits for, and the timer when that began (R258, R321). -/
structure Chan where
  instance_ : Nat
  peerInstance : Option Nat
  link0 : LinkState
  link1 : LinkState
  classes : Assoc ClassState
  replay : List (Nat × Nat × Flit)
  retx : List (Nat × Nat)
  queue : List Flit
  held : List (Nat × Flit)
  ready : List Flit
  inOrder : Nat
  naks : List (Nat × Nat)
  controlDue : Bool
  creditDue : Bool
  widthReq : Option (Nat × Nat)
  waits : Assoc (Option (Nat × Nat × Nat))
  isolated : Bool
  deriving DecidableEq, Repr

/-- A channel after a channel reset. -/
def Chan.reset : Chan :=
  ⟨0, none, .reset, .reset, [], [], [], [], [], [], 0, [], false, false, none, [], false⟩

/-- The fabric (R285 to R323), its registers apart: crates on the corridors, crates at the Wings that
wait for a channel, READ_REQs that wait for an entry, responses to match, COLLATE crates to add,
crates for the Registrar, the Office messages it holds; the request table with its round-robin point
per Wing; crate labels per Wing and class; chunks; wave groups; WAVE messages held for a later generation;
fabric reset numbers seen; the group of the census; channels 0 to 35; crates bound to one channel; and the routes of earlier
generations that crates in the Wings keep to (R31). -/
structure FabState where
  corridor : List Crate
  outbound : List Crate
  reqWait : List Crate
  respIn : List Crate
  collIn : List Crate
  regIn : List Crate
  inbox : List Crate
  requests : Assoc (Option ReqEntry)
  robin : Assoc Nat
  labels : Assoc Nat
  chunks : List Chunk
  waves : Assoc WaveState
  heldWaves : List WaveMsg
  resetSeen : List Nat
  censusGroup : Option Nat
  chans : Assoc Chan
  pinned : List (Nat × Crate)
  oldRoutes : Assoc (List RouteRec)
  deriving DecidableEq, Repr

/-- The fabric after reset. -/
def FabState.reset : FabState where
  corridor := []
  outbound := []
  reqWait := []
  respIn := []
  collIn := []
  regIn := []
  inbox := []
  requests := []
  robin := []
  labels := []
  chunks := []
  waves := []
  heldWaves := []
  resetSeen := []
  censusGroup := none
  chans := []
  pinned := []
  oldRoutes := []

/-- The lanes of one link (R333 to R347), keyed by 2 × channel + link, its registers apart: the NONCE it sends
and its partner's; margin tests complete here and there; the slots the partner passed; the partner's link
number heard on the pair's receive fibre and the one the partner hears; the retry interval in ms; receive lanes
asked to move; transmit lanes on a second slot, and receive lanes told to take one, with that slot (18 × fibre +
slot); the slots R340 gave the lanes; the lanes lost or refused; and the module and channel that sent the frames of the pair's
receive fibre (R329). -/
structure LaneLink where
  nonce : Nat
  peerNonce : Nat
  rxDone : Bool
  peerDone : Bool
  peerPass : Nat
  heard : Option Nat
  peerHeard : Option Nat
  interval : Nat
  asked : List Nat
  moves : List (Nat × Nat)
  targets : List (Nat × Nat)
  assignTx : List Nat
  assignRx : List Nat
  lost : List Nat
  sender : Option (Nat × Nat)
  deriving DecidableEq, Repr

/-- The lanes of a link before bring-up. -/
def LaneLink.reset : LaneLink := ⟨0, 0, false, false, 0, none, none, 0, [], [], [], [], [], [], none⟩

/-- A laser swap in progress (R367 to R369): 1 warming, 2 waiting at step 2, 3 on the reserve, 4 locked; and the
lanes moved away (link, lane), the bias of the laser it replaces, whether that laser was in WATCH (R355), and the free slots it
holds on its fibres (36 × channel + slot, R368). -/
structure SwapState where
  step : Nat
  moved : List (Nat × Nat)
  bias : Nat
  watched : Bool
  held : List Nat
  deriving DecidableEq, Repr

/-- No swap. -/
def SwapState.reset : SwapState := ⟨0, [], 0, false, []⟩

/-- A calibration trigger that waits (R361, R362): Wing, slot n, rank (0 relight, 1 command, 2 temperature), the
temperature excess, when it fell due and whether its deferral was reported. -/
structure CalWait where
  wing : Nat
  slot : Nat
  rank : Nat
  excess : Nat
  since : Nat
  deferred : Bool
  deriving DecidableEq, Repr

/-- Figures of the interval since the last condition summary (R377): tiles whose slack fell below 16/256, the
lowest slack and its tile, temperature maxima (in 0.25 °C above −512 °C and −40 °C), counters as they stood at that summary, the
lengthened cycles of each tile counted since, and the sum and number of the power samples. -/
structure CondState where
  slackLow : List Nat
  slackMin : Nat
  slackTile : Nat
  picMax : Assoc Nat
  galMax : Nat
  moves : Nat
  stretch : Assoc Nat
  cycles : Assoc Nat
  vltCorr : Nat
  stoCorr : Nat
  undetected : Nat
  powSum : Nat
  powCount : Nat
  deriving DecidableEq, Repr

/-- The figures right after a reset. -/
def CondState.reset : CondState := ⟨[], 255, 0, [], 160, 0, [], [], 0, 0, 0, 0, 0⟩

/-- Lanes and light (R327 to R383), their registers apart: links; updates above the error rate in a row by slot;
swaps by 162 × Lamp + position; calibration triggers in order of arrival; the attempt that runs in a channel;
slots whose Suspect mark the next accepted attempt clears (324 × Wing + slot); the pace of each tile in
sixteenths; raised supply and clock ceiling of tiles by R379; clock steps a tile is held down by R371; the condition figures;
when a slot's calibration record was last written (the timer plus 1) and the newest records that wait for it (R366); the bits
that each Wing has stuffed (R334); the rings that have unlocked and not relocked (972 × Wing + 324 × kind + index, R358); and the
Wings in which more than a quarter of the rings have been so for 1 ms (R373). -/
structure LightState where
  links : Assoc LaneLink
  bad : Assoc Nat
  swaps : Assoc SwapState
  cal : List CalWait
  calNow : Assoc (Option CalWait)
  clearing : List Nat
  pace : Assoc Nat
  volt : Assoc Nat
  ceiling : Assoc Nat
  lowered : Assoc Nat
  cond : CondState
  calWritten : Assoc Nat
  calDue : List (Nat × List Byte)
  stuffed : Assoc Nat
  means : List Nat
  capped : Assoc Nat
  ringsOut : List Nat
  unlocked : List Nat
  deriving DecidableEq, Repr

/-- Lanes and light after reset. -/
def LightState.reset : LightState := ⟨[], [], [], [], [], [], [], [], [], [], .reset, [], [], [], [], [], [], []⟩

/-- An entry of a tile's duplicate filter (R391): its key, the source it was taken from, and whether the
other member's copy has come. -/
structure TwinEntry where
  tile : Nat
  shard : Nat
  epoch : Nat
  tensor : Nat
  offset : Nat
  src : Nat
  done : Bool
  deriving DecidableEq, Repr

/-- A 4 KiB block of a destination tensor while its copies arrive (R392): for each source, the bytes
received by their offset in the block; when the first came; whether it is settled. -/
structure TwinBlock where
  tile : Nat
  shard : Nat
  epoch : Nat
  tensor : Nat
  block : Nat
  copies : List (Nat × Assoc (Option Byte))
  since : Nat
  closed : Bool
  deriving DecidableEq, Repr

/-- An arbitration of a shard and epoch on a member (R393): the results known, true for a failure, and
when this member sent its own; `started` once this member has acted on a DISPUTE. -/
structure Arbitration where
  shard : Nat
  epoch : Nat
  started : Bool
  own : Option Bool
  other : Option Bool
  sentAt : Nat
  closed : Bool
  deriving DecidableEq, Repr

/-- A rebuild of a shard from one module to another, due or running (R395). -/
structure Rebuild where
  shard : Nat
  source : Nat
  dest : Nat
  running : Bool
  deriving DecidableEq, Repr

/-- A copy-on-write freeze of Store tensors (R411, R412): the shard and whether it serves a rebuild; the
Catalogue entries of the frozen tensors as they stood; the frozen pages, by module address; copies made, page to COW page; free
COW pages. -/
structure Freeze where
  shard : Nat
  rebuild : Bool
  entries : List (Nat × CatEntry)
  pages : List Nat
  copies : Assoc Nat
  cow : List Nat
  deriving DecidableEq, Repr

/-- Pairing (R384 to R413), its registers apart: duplicate filters, newest epochs accepted by tile and
shard, blocks under comparison, arbitrations, rebuilds; partners heard in this beacon period, missed
periods per protected module, periods in which both partners were heard; whether a takeover was made, from which buddy, and a
witness is asked; losses confirmed as (subject, requester); substitution numbers seen; the end of the
switch-over; the freeze, and whether a write found no COW page; the drain; the bytes of the buddy's
stocktake that have not come yet; the MARKER group; whether the module handed itself over (R407). -/
structure PairState where
  filter : List TwinEntry
  newest : List (Nat × Nat × Nat)
  blocks : List TwinBlock
  arbs : List Arbitration
  rebuilds : List Rebuild
  heard : List Nat
  missed : Assoc Nat
  bothHeard : Nat
  takeover : Bool
  lostBuddy : Option Nat
  asking : Bool
  lost : List (Nat × Nat)
  numbers : List Nat
  freeze : Option Freeze
  blocked : Bool
  draining : Bool
  snapshotLeft : Nat
  marker : Option Nat
  handed : Bool
  deriving DecidableEq, Repr

/-- Pairing after reset. -/
def PairState.reset : PairState where
  filter := []
  newest := []
  blocks := []
  arbs := []
  rebuilds := []
  heard := []
  missed := []
  bothHeard := 0
  takeover := false
  lostBuddy := none
  asking := false
  lost := []
  numbers := []
  freeze := none
  blocked := false
  draining := false
  snapshotLeft := 0
  marker := none
  handed := false

/-- An entry of the measurement log (R472). -/
structure MeasEntry where
  index : Nat
  count : Nat
  gen : Nat
  digest : List Byte
  deriving DecidableEq, Repr

/-- A firmware slot (R476, R477): its state and image. -/
structure FwSlot where
  state : Nat
  image : List Byte
  deriving DecidableEq, Repr

/-- What the Archive flash keeps (R474), which no reset clears: firmware slots A and B; bytes written to the areas
condition, user and incident history (2 ^ 27 × area + offset); calibration records by index, and those that a band-gap's drift
has made stale (R359); keys (operator,
identity, certificate chain), the lifecycle state that a change under way leads to, committed with its keys (R481 step 2), tenant public keys by slot, one more than the last COUNTER accepted from each KEY with a request that changed state; the Warden
configuration and stored cap; the next history number; power-on resets; the fuses blown (R479); and the fuse map: the
column of a row's reserve tile where it records a repair (R14). -/
structure ArchState where
  slotA : FwSlot
  slotB : FwSlot
  bytes : Assoc Byte
  calRecs : Assoc (List Byte)
  staleCal : List Nat
  operator : List Byte
  identity : Bool
  chain : List Byte
  life : Option Nat
  tenantKeys : Assoc (List Byte)
  counters : Assoc Nat
  config : List Byte
  cap : Option Nat
  histNo : Nat
  powerOn : Nat
  fuse : Nat
  fuseMap : Assoc Nat
  deriving DecidableEq, Repr

/-- The Archive flash as it is after the first power-on reset: slot A in service with an image the spec does not give
(log entry 61), nothing else written. -/
def ArchState.reset : ArchState := ⟨⟨4, Config.factoryImage.map (BitVec.ofNat 8)⟩, ⟨0, []⟩, [], [], [], [], false, [], none, [], [], [], none, 0, 1, 0, []⟩

/-- The security engine and the measured boot (R471 to R489), its registers apart:
measurement registers 1 to 7 where they are not 48 zero bytes, their log, and the words latched by a
read of RGS_MEAS_DATA[0] with the count; the SPDM version agreed, and how far the exchange has come; the
transcripts that CHALLENGE and GET_MEASUREMENTS sign; a lifecycle change in progress (its message); one more than
the last COUNTER accepted from each KEY (R484). -/
structure SecState where
  meas : Assoc (List Byte)
  measLog : List MeasEntry
  measLatch : List Byte
  countLatch : Nat
  spdmVersion : Nat
  spdmStage : Nat
  transcript : List Byte
  measTranscript : List Byte
  lifecycle : Option (List Byte)
  counters : Assoc Nat
  deriving DecidableEq, Repr

/-- The security engine after reset. -/
def SecState.reset : SecState := ⟨[], [], List.replicate 48 0, 0, 0, 0, [], [], none, []⟩

/-- 48 zero bytes, from which each measurement register starts (R472). -/
def measZero : List Byte := List.replicate 48 0

/-- What a digest of 48 bytes covers where no rule gives the bytes it is taken over (log entry 61). -/
def measuredBytes (ix : Nat) (inputs : List Nat) : List Byte :=
  ((Config.measured ix inputs ++ List.replicate 48 0).take 48).map (BitVec.ofNat 8)

/-- What the first power-on reset measures: 1 and 6 from lifecycle, fuses, policy and keys, all 0 or none; 2 to 5 from
the components of the image in slot A. -/
def SecState.first : SecState :=
  let d := fun ix => measuredBytes ix (if ix = 1 || ix = 6 then [0, 0] else [])
  { SecState.reset with
    meas := [1, 2, 3, 4, 5, 6].map fun ix => (ix, sha384 (measZero ++ d ix)),
    measLog := [1, 2, 6, 5, 3, 4].map fun ix => ⟨ix, 1, 0, d ix⟩ }

/-- An access that waits for the wipe of a memory to end (R246): a raw command of the Vault (`v`) or the Store, a BAR2 read or a
BAR2 write. -/
inductive MemAccess where
  | raw (v : Bool) (op pp reserved : Nat) (side : Side)
  | read (off n : Nat)
  | write (off : Nat) (data : List Byte)
  deriving DecidableEq, Repr

/-- Power and reset (R493 to R518), their registers apart: tile register writes held until the module leaves A1
or below, and wave results held with them, as (tiles with their tickets, offset, bytes) (R506); accesses that wait for a wipe or a
halted Store, oldest first (R246, R428); whether the input switch opened in service (BROWNOUT, R500); whether a Gallery reset waits for the hang
to complete (R515). -/
structure PwrState where
  heldWrites : List (Nat × Nat × Side)
  heldResults : List (List (Nat × Nat) × Nat × List Byte)
  memWait : List MemAccess
  opened : Bool
  galWait : Bool
  deriving DecidableEq, Repr

/-- How a host's read completes: with its data, as an Unsupported Request, or with the poisoned bit EP set (R438, R453, R454). -/
inductive Completion where
  | data | unsupported | poisoned
  deriving DecidableEq, Repr

/-- What the module has sent out of itself, oldest first, as bytes: flits of a Wing's link, Warden
messages and notices, SPDM responses, register and BAR2 read completions, reset messages by channel (R318, log entry 63), lane-control frames (R344, log
entry 161). -/
inductive Out where
  | flit (wing link : Nat) (bytes : List Byte)
  | training (wing link : Nat) (bytes : List Byte)
  | warden (bytes : List Byte)
  | doe (bytes : List Byte)
  | read (addr : Nat) (bytes : List Byte) (how : Completion)
  | resetWave (chan : Nat) (bytes : List Byte)
  | laneFrame (wing link : Nat) (bytes : List Byte)
  | arp (address mac : Nat)
  | icmp (address : Nat) (bytes : List Byte)
  deriving DecidableEq, Repr

/-- The reasons a command can fault: none of this model's meanings stops, since the spec gives the
block an effect, or says it has none, in every case. -/
inductive Fault where
  /-- Raised by no meaning; a place for a stop the spec might yet name.  Safe: it only stops. -/
  | unreachable
  deriving DecidableEq, Repr

/-- The reasons a command can be refused. -/
inductive Refusal where
  /-- Raised by exec for a command that has no meaning yet.  Safe: it only stops. -/
  | notModelled (mnemonic : String)
  deriving DecidableEq, Repr

/-- The state of the module (R11 to R36) and the queue of waiting commands. -/
structure State where
  regs : Assoc Word
  tiles : Assoc Tile
  vault : Mem
  store : Mem
  inc : IncState
  host : HostState
  cur : CurState
  fab : FabState
  light : LightState
  pair : PairState
  sec : SecState
  arch : ArchState
  pwr : PwrState
  timer : Nat
  free : Nat
  out : List Out
  pending : List Instr
  deriving DecidableEq, Repr

/-- The module right after a completed power-on reset (R513): slot A is ACTIVE and runs, PCIe has not trained yet. -/
def State.reset : State where
  regs := [(0x10014, 0x40)]
  tiles := []
  vault := .wiped
  store := .wiped
  inc := .reset
  host := ⟨[], 0, [], [], [], false, true, [], [.pf0, .pf1], none, none, []⟩
  cur := .reset
  fab := .reset
  light := .reset
  pair := .reset
  sec := .first
  arch := .reset
  pwr := ⟨[], [], [], false, false⟩
  timer := 0
  free := 0
  out := []
  pending := []

end Sys2Proof.Machine
end

