-- ==== Sys2Proof/Machine/Ops.lean ====
section
/-! DEFINITION. The named operations every meaning is built from: sparse tables, registers (R7 to
R10), the BAR0 map (R456), tiles, incidents (R416 to R424) and logbook records (R433 to R436,
R466 to R468). -/

namespace Sys2Proof.Machine

open Sys2Proof

/-! ### Sparse tables -/

/-- The value of key `k`, `d` where it is unlisted. -/
def aget {α : Type} (d : α) : Assoc α → Nat → α
  | [], _ => d
  | (j, v) :: m, k => if j < k then aget d m k else if j = k then v else d

/-- The table with key `k` reading `v`, kept sorted and without entries that read as `d`. -/
def aput {α : Type} [DecidableEq α] (d : α) : Assoc α → Nat → α → Assoc α
  | [], k, v => if v = d then [] else [(k, v)]
  | (j, w) :: m, k, v =>
    if j < k then (j, w) :: aput d m k v
    else
      let rest := ((j, w) :: m).dropWhile (fun e => decide (e.1 ≤ k))
      if v = d then rest else (k, v) :: rest

/-- Keys strictly rise, all above `lo`, and no entry reads as `d`. -/
def awf {α : Type} [DecidableEq α] (d : α) : Option Nat → Assoc α → Bool
  | _, [] => true
  | lo, (j, v) :: m => (match lo with | none => true | some l => decide (l < j)) && decide (v ≠ d) && awf d (some j) m

/-- Write a run of values at consecutive keys. -/
def aputs {α : Type} [DecidableEq α] (d : α) (m : Assoc α) (k : Nat) : List α → Assoc α
  | [] => m
  | v :: vs => aputs d (aput d m k v) (k + 1) vs

/-- Read `n` consecutive keys. -/
def agets {α : Type} (d : α) (m : Assoc α) (k : Nat) : Nat → List α
  | 0 => []
  | n + 1 => aget d m k :: agets d m (k + 1) n

/-- Forget every key in `[lo, hi)`. -/
def acut {α : Type} (m : Assoc α) (lo hi : Nat) : Assoc α :=
  m.filter fun e => decide (e.1 < lo) || decide (hi ≤ e.1)

/-! ### Bytes -/

/-- A little-endian number from bytes (R5). -/
def leNat : List Byte → Nat
  | [] => 0
  | b :: bs => b.toNat + 256 * leNat bs

/-- `n` little-endian bytes of a number (R5). -/
def leBytes : Nat → Nat → List Byte
  | 0, _ => []
  | n + 1, v => BitVec.ofNat 8 v :: leBytes n (v / 256)

/-- `n` bytes at offset `o` of a record, as a number. -/
def at_ (bs : List Byte) (o n : Nat) : Nat := leNat ((bs.drop o).take n)

/-- A list cut or padded with zero bytes to length `n`. -/
def padTo (n : Nat) (bs : List Byte) : List Byte := (bs ++ List.replicate (n - bs.length) 0).take n

/-! ### The BAR0 map (R106, R456) -/

/-- The window base of instance `i` of a block. -/
def winBase (b : Blk) (i : Nat) : Nat :=
  match b with
  | .hst => 0x0
  | .rgs => 0x10000
  | .pwr => 0x20000
  | .pln => 0x30000
  | .cur => 0x40000
  | .fab => 0x50000
  | .pair => 0x60000
  | .gal => 0x70000
  | .vlt => 0x80000
  | .sto => 0x90000
  | .wng => 0x100000 + 0x10000 * i
  | .col => 0x140000 + 0x10000 * i
  | .lmp => 0x180000 + 0x10000 * i
  | .tile => 0x1000000 + 0x1000 * i

/-- The tile index of (row, column) (R106). -/
def tileIx (row col : Nat) : Nat := row * 64 + col

/-- Whether an index names a tile: 32 rows of 33 columns (R13). -/
def isTile (t : Nat) : Bool := decide (t < 2048) && decide (t % 64 < 33)

/-- All 1,056 tiles in row-major order. -/
def allTiles : List Nat := (List.range 2048).filter isTile

/-- The block, instance and window offset of a BAR0 address; `none` outside every window (R9, R456).
The four low singles fill the first ten 64 KiB windows in the order of R456. -/
def blkOf (a : Nat) : Option (Blk × Nat × Nat) :=
  let o := a % 0x10000
  match a / 0x10000 with
  | 0 => some (.hst, 0, o)
  | 1 => some (.rgs, 0, o)
  | 2 => some (.pwr, 0, o)
  | 3 => some (.pln, 0, o)
  | 4 => some (.cur, 0, o)
  | 5 => some (.fab, 0, o)
  | 6 => some (.pair, 0, o)
  | 7 => some (.gal, 0, o)
  | 8 => some (.vlt, 0, o)
  | 9 => some (.sto, 0, o)
  | n =>
    if 0x10 ≤ n ∧ n < 0x14 then some (.wng, n - 0x10, o)
    else if 0x14 ≤ n ∧ n < 0x18 then some (.col, n - 0x14, o)
    else if 0x18 ≤ n ∧ n < 0x1A then some (.lmp, n - 0x18, o)
    else if 0x100 ≤ n ∧ n < 0x180 then
      let t := (a - 0x1000000) / 0x1000
      if isTile t then some (.tile, t, a % 0x1000) else none
    else none

/-- The row of the register at a BAR0 address, with block, instance and index (R9). -/
def regRow (a : Nat) : Option (Blk × Nat × RegRow × Nat) :=
  match blkOf a with
  | none => none
  | some (b, i, o) =>
    match findRow (rowsOf b) o with
    | none => none
    | some (r, k) => some (b, i, r, k)

/-- The reset value of the register at a BAR0 address (R10); INC_POLICY by R432, BANK of
WNG_TX_SLOT_STAT by slot (R352). -/
def resetVal (a : Nat) : Word :=
  match regRow a with
  | none => 0
  | some (b, _, r, k) =>
    if r.off = rINC_POLICY then BitVec.ofNat 32 (incPolicyReset b k)
    else if b = .wng ∧ r.off = rWNG_TX_SLOT_STAT then BitVec.ofNat 32 (k % 36 * 2 ^ 7)
    else BitVec.ofNat 32 (fieldsReset r.fields)

/-! ### Registers -/

/-- The stored value of a register. -/
def State.rd (s : State) (a : Nat) : Word := aget (resetVal a) s.regs a

/-- Store a register's value. -/
def State.wr (s : State) (a : Nat) (v : Word) : State :=
  { s with regs := aput (resetVal a) s.regs a v }

/-- A register as a number. -/
def State.rn (s : State) (a : Nat) : Nat := (s.rd a).toNat

/-- Store a register from a number. -/
def State.wn (s : State) (a v : Nat) : State := s.wr a (BitVec.ofNat 32 v)

/-- Field `[lo+w-1:lo]` of a register. -/
def State.f (s : State) (a lo w : Nat) : Nat := fld (s.rn a) lo w

/-- Set a field of a register. -/
def State.setf (s : State) (a lo w v : Nat) : State := s.wn a (setFld (s.rn a) lo w v)

/-- A 32-bit counter raised by `n`, stopping at 0xFFFF_FFFF. -/
def State.bumpN (s : State) (a n : Nat) : State := s.wn a (min 0xFFFFFFFF (s.rn a + n))

/-- A 32-bit counter raised by one, stopping at 0xFFFF_FFFF. -/
def State.bump (s : State) (a : Nat) : State := s.bumpN a 1

/-- A 64-bit value over a LO and a HI register. -/
def State.rd64 (s : State) (lo hi : Nat) : Nat := s.rn lo + 2 ^ 32 * s.rn hi

/-- Store a 64-bit value over a LO and a HI register. -/
def State.wr64 (s : State) (lo hi v : Nat) : State := (s.wn lo v).wn hi (v / 2 ^ 32)

/-- Return to its reset value every field of a stored register that event class `ev` clears (R10). -/
def clearFields (fs : List RField) (rv v : Nat) (ev : Cls) : Nat :=
  fs.foldl (fun x f => if f.cls.clearedBy ev then setFld x f.lo f.width (fld rv f.lo f.width) else x) v

/-- One register under a reset event. -/
def clearOne (ev : Cls) (a : Nat) (v : Word) : Word :=
  match regRow a with
  | none => v
  | some (_, _, r, _) => BitVec.ofNat 32 (clearFields r.fields (resetVal a).toNat v.toNat ev)

/-- Apply a reset event of class `ev` to every register with address in `[lo, hi)` (R10). -/
def State.clearRange (s : State) (ev : Cls) (lo hi : Nat) : State :=
  s.regs.foldl (fun st e => if lo ≤ e.1 ∧ e.1 < hi then st.wr e.1 (clearOne ev e.1 (st.rd e.1)) else st) s

/-- The register at offset `off` of tile `t`. -/
def tr (t off : Nat) : Nat := winBase .tile t + off

/-- The register at offset `off` of Wing `w`. -/
def wg (w off : Nat) : Nat := winBase .wng w + off

/-! ### Tiles -/

/-- Tile `t`. -/
def State.tile (s : State) (t : Nat) : Tile := aget Tile.reset s.tiles t

/-- Replace tile `t`. -/
def State.setTile (s : State) (t : Nat) (x : Tile) : State := { s with tiles := aput Tile.reset s.tiles t x }

/-- Change tile `t`. -/
def State.mapTile (s : State) (t : Nat) (g : Tile → Tile) : State := s.setTile t (g (s.tile t))

/-- Whether tile `t`'s router has failed, or an ISOLATE treats it so (R15, R428). -/
def State.routerBad (s : State) (t : Nat) : Bool := (s.tile t).routerFailed || (s.tile t).isolated

/-- Whether every unit is idle. -/
def Tile.idle (x : Tile) : Bool :=
  x.moveU.isNone && x.crateU.isNone && x.matrixU.isNone && x.vectorU.isNone

/-- The state codes of R96. -/
def tsOFF : Nat := 0
def tsIDLE : Nat := 1
def tsRUN : Nat := 2
def tsWAIT : Nat := 3
def tsHANG : Nat := 4
def tsTRAP : Nat := 5

/-- TILE_STATE.STATE of tile `t` (R96). -/
def State.ts (s : State) (t : Nat) : Nat := s.f (tr t rTILE_STATE) 0 3

/-- Move tile `t` to a state. -/
def State.setTs (s : State) (t v : Nat) : State := s.setf (tr t rTILE_STATE) 0 3 v

/-- The tile of a BAR0 address that is a TILE_STATE register. -/
def stateTile (a : Nat) : Option Nat :=
  match blkOf a with
  | some (.tile, t, o) => if o = rTILE_STATE then some t else none
  | _ => none

/-- Tiles whose TILE_STATE is not at its reset value OFF. -/
def State.poweredTiles (s : State) : List Nat := s.regs.filterMap fun e => stateTile e.1

/-! ### Lockdown and time -/

/-- RGS_LOCK_STAT.ACTIVE (R437). -/
def State.locked (s : State) : Bool := s.f (winBase .rgs 0 + rRGS_LOCK_STAT) 0 1 == 1

/-- Whether the module is in A1 or below, or on its way from or to it: tiles hold issue and nothing is written into
them (R506, log entry 62). -/
def State.asleep (s : State) : Bool := s.f (winBase .pwr 0 + rPWR_STATE_STAT) 0 4 != 0

/-- Whether tiles hold issue for the whole module: Lockdown (R437) or a power state below A0 (R506). -/
def State.stopped (s : State) : Bool := s.locked || s.asleep

/-- The time base of a block's incident windows: a tile's island cycles, the Registrar timer
elsewhere (R418). -/
def State.nowOf (s : State) (b : Blk) (i : Nat) : Nat :=
  match b with
  | .tile => (s.tile i).cycles
  | _ => s.timer

/-- Periods of that time base per millisecond (R418). -/
def perMs (b : Blk) : Nat :=
  match b with
  | .tile => 1500000
  | _ => 200000

/-- Hold a tile's register write until the module leaves A1 or below (R506). -/
def State.holdWrite (s : State) (a v : Nat) (side : Side) : State :=
  { s with pwr := { s.pwr with heldWrites := s.pwr.heldWrites ++ [(a, v, side)] } }

/-! ### Logbook records (R433, R466 to R468) -/

/-- BLOCK codes of R433. -/
def Blk.code : Blk → Nat
  | .gal => 0 | .tile => 1 | .vlt => 2 | .sto => 3 | .wng => 4 | .lmp => 5 | .col => 6 | .fab => 7
  | .pln => 8 | .cur => 9 | .pair => 10 | .rgs => 11 | .hst => 12 | .pwr => 13

/-- INSTANCE of R433: a tile as row and column, others as their number. -/
def instCode (b : Blk) (i : Nat) : Nat :=
  match b with
  | .tile => i / 64 + 32 * (i % 64)
  | _ => i

/-- A tile in the [4:0] row, [10:5] column coding of R433. -/
def rc (t : Nat) : Nat := t / 64 + 32 * (t % 64)

/-- The 32 bytes of a record (R433). -/
def recordBytes (ty : Nat) (b : Blk) (i seq timer : Nat) (body : List Byte) : List Byte :=
  leBytes 1 ty ++ leBytes 1 b.code ++ leBytes 2 (instCode b i) ++ leBytes 4 seq ++ leBytes 8 timer ++ padTo 16 body

/-- Write bytes into host memory. -/
def State.hostWrite (s : State) (a : Nat) (bs : List Byte) : State :=
  { s with host := { s.host with mem := aputs 0 s.host.mem a bs } }

/-- Read bytes of host memory. -/
def State.hostRead (s : State) (a n : Nat) : List Byte := agets 0 s.host.mem a n

/-- Logbook register `off` of ring `l`. -/
def lg (off l : Nat) : Nat := winBase .hst 0 + off + 0x20 * l

/-- Docket or plan ring register `off` of ring `r`. -/
def rg (off r : Nat) : Nat := winBase .hst 0 + off + 0x20 * r

/-- Whether logbook ring `l` is enabled. -/
def State.logEnabled (s : State) (l : Nat) : Bool := s.f (lg rHST_LOG_CFG l) 8 1 == 1

/-- The owner of a ring from its OWNER bit (R458). -/
def ownerOf (b : Nat) : Side := if b = 1 then .pf1 else .pf0

/-- RGS_BOOT_STAT. -/
def bootStat : Nat := winBase .rgs 0 + rRGS_BOOT_STAT

/-- Whether the boot ROM runs without firmware (R478). -/
def State.inRecovery (s : State) : Bool := s.f bootStat 13 1 == 1

/-- RGS_LIFECYCLE.STATE: 0 BLANK, 1 PROVISIONED, 2 DEPLOYED, 3 RETURN, 4 SCRAPPED. -/
def State.lifecycle (s : State) : Nat := s.f (winBase .rgs 0 + rRGS_LIFECYCLE) 0 3

/-- Whether requests of a function can leave: the link is up and neither D3hot nor a cleared Bus
Master Enable stops it (R455); PF0 is not brought up in RECOVERY (R478). -/
def State.canMaster (s : State) (x : Side) : Bool :=
  s.host.linkUp && !(s.host.d3.contains x) && !(s.host.noMaster.contains x) && !(x == .pf0 && s.inRecovery)

/-- Whether a function's BARs decode: flit mode, D0, and PF0 not in BLANK, SCRAPPED or RECOVERY (R448, R455, R478, R480). -/
def State.barOpen (s : State) (side : Side) : Bool :=
  s.host.linkUp && s.host.flitMode && !s.host.d3.contains side
    && !(side == .pf0 && (s.lifecycle == 0 || s.lifecycle == 4)) && !(side == .pf0 && s.inRecovery)

/-- Whether the host reaches BAR0 through one of its functions. -/
def State.hostOpen (s : State) : Bool := s.barOpen .pf0 || s.barOpen .pf1

/-- Free entries of logbook ring `l` (R457). -/
def State.logFree (s : State) (l : Nat) : Nat :=
  2 ^ s.f (lg rHST_LOG_CFG l) 0 5 - (s.rn (lg rHST_LOG_PROD l) + 2 ^ 32 - s.rn (lg rHST_LOG_CONS l)) % 2 ^ 32

/-- Write the status block of ring `l` (R466). -/
def State.logStatus (s : State) (l : Nat) : State :=
  s.hostWrite (s.rd64 (lg rHST_LOG_STATUS_LO l) (lg rHST_LOG_STATUS_HI l))
    (leBytes 4 (s.rn (lg rHST_LOG_PROD l)) ++ leBytes 4 (s.rn (lg rHST_LOG_DROP_COUNT l)))

/-- Put a record into ring `l` and advance PRODUCER (R466). -/
def State.logPut (s : State) (l : Nat) (r : List Byte) : State :=
  let p := s.rn (lg rHST_LOG_PROD l)
  let base := s.rd64 (lg rHST_LOG_BASE_LO l) (lg rHST_LOG_BASE_HI l)
  let size := 2 ^ s.f (lg rHST_LOG_CFG l) 0 5
  ((s.hostWrite (base + p % size * 32) r).wn (lg rHST_LOG_PROD l) (p + 1)).logStatus l

/-- A record formed now with the next SEQ (R433). -/
def State.form (s : State) (ty : Nat) (b : Blk) (i : Nat) (body : List Byte) : List Byte × State :=
  (recordBytes ty b i s.host.seq s.timer body,
    { s with host := { s.host with seq := (s.host.seq + 1) % 2 ^ 32 } })

/-- Write the LOST_RECORDS marker of ring `l` (R468, R469). -/
def State.logMarker (s : State) (l : Nat) : State :=
  let (n, first) := aget (0, 0) s.host.lost l
  let (r, s) := s.form 0x11 .hst 0 (leBytes 4 n ++ leBytes 4 first)
  ({ s with host := { s.host with lost := aput (0, 0) s.host.lost l (0, 0) } }).logPut l r

/-- Drop a record of ring `l` (R468): counted in DROPPED and in the marker to come. -/
def State.logDropOnly (s : State) (l : Nat) (r : List Byte) : State :=
  let (n, first) := aget (0, 0) s.host.lost l
  let s := { s with host := { s.host with
    lost := aput (0, 0) s.host.lost l (n + 1, if n = 0 then at_ r 4 4 else first) } }
  s.bump (lg rHST_LOG_DROP_COUNT l)

/-- Whether records can be written to ring `l` at once: none waits for it in the Registrar's queue (R468). -/
def State.logOpen (s : State) (l : Nat) : Bool :=
  s.canMaster (ownerOf (s.f (lg rHST_LOG_CFG l) 7 1)) && !(s.host.queue.any fun e => e.1 == l)

/-- Deliver a formed record to enabled ring `l`: the answer says whether it was dropped. -/
def State.logDeliver (s : State) (l : Nat) (r : List Byte) : State × Bool :=
  if s.logOpen l then
    let lost := (aget (0, 0) s.host.lost l).1
    if lost = 0 ∧ 1 ≤ s.logFree l then (s.logPut l r, false)
    else if 0 < lost ∧ 2 ≤ s.logFree l then ((s.logMarker l).logPut l r, false)
    else (s.logDropOnly l r, true)
  else if s.host.queue.length < 4096 then
    ({ s with host := { s.host with queue := s.host.queue ++ [(l, r)] } }, false)
  else (s.logDropOnly l r, true)

/-- Route a record to ring `l`, or to ring 0, or drop it as unrouted (R467). -/
def State.logRoute (s : State) (l : Nat) (r : List Byte) : State × Bool :=
  if s.logEnabled l then s.logDeliver l r
  else if s.logEnabled 0 then s.logDeliver 0 r
  else (s.bump (winBase .hst 0 + rHST_UNROUTED_COUNT), false)

/-- The ring HST_LOG_ROUTE names for a block, two bits per BLOCK code (R467). -/
def State.routeOf (s : State) (b : Blk) : Nat :=
  s.f (winBase .hst 0 + rHST_LOG_ROUTE) (2 * b.code) 2

/-! ### Incidents (R419 to R424) -/

/-- The register `off` of the incident block of instance `i` of block `b`. -/
def ir (b : Blk) (i off : Nat) : Nat := winBase b i + off

/-- INC_STAT.HALTED of a block (R428, R429). -/
def State.halted (s : State) (b : Blk) (i : Nat := 0) : Bool := s.f (ir b i rINC_STAT) 30 1 == 1

/-- The key of source `k` of a block in IncState. -/
def ikey (b : Blk) (i k : Nat) : Nat := winBase b i + k

/-- An INCIDENT body (R434). -/
def incBody (k kind sev flags action total detail : Nat) : List Byte :=
  leBytes 1 k ++ leBytes 1 kind ++ leBytes 1 sev ++ leBytes 1 flags ++ leBytes 1 action ++ leBytes 3 total
    ++ leBytes 8 detail

/-- The element an event that names none carries: an injected one (its DETAIL reads 0). -/
def noElement : Nat := 2 ^ 64

/-- Whether R434 gives a block's records a DETAIL other than 0. -/
def detailed : Blk → Bool
  | .gal | .vlt | .sto | .wng | .lmp | .fab | .pln | .pair | .hst => true
  | .tile | .col | .cur | .rgs | .pwr => false

/-- SEVERITY and ACTION of a source's policy. -/
def State.sevOf (s : State) (b : Blk) (i k : Nat) : Nat := s.f (ir b i rINC_POLICY + 4 * k) 24 2
def State.actOf (s : State) (b : Blk) (i k : Nat) : Nat := s.f (ir b i rINC_POLICY + 4 * k) 26 2

/-- Sources of one cycle in the order in which the latch takes them: the more severe first, then the lower index (R422). -/
def State.bySeverity (s : State) (b : Blk) (i mask : Nat) : List Nat :=
  ([3, 2, 1, 0].map fun sev => (List.range 24).filter fun k => bit mask k && s.sevOf b i k == sev).flatten

/-- Form an incident record of source `k` from its registers as they stand, with the element `d`. -/
def State.incRecord (s : State) (b : Blk) (i k kind flags action d : Nat) : List Byte × State :=
  let pol := s.rn (ir b i rINC_POLICY + 4 * k)
  let ovf := s.f (ir b i rINC_FIRST) 8 1
  s.form 0x01 b i (incBody k kind (if kind = 0 then 0 else fld pol 24 2) (flags + 4 * ovf) action
    (s.f (ir b i rINC_COUNT + 4 * k) 8 24) (if detailed b then d else 0))

/-- Raise source `k` by an event that named element `d` (R420, R421): RAISED, the latch, and PENDING when a Major or Critical source
has an action and the module is not in Lockdown (R438).  While its action waits, one real raise makes it real
(R423); the action answers the first raise (R425), or that real one.  Answers the record. -/
def State.raise (s : State) (b : Blk) (i k : Nat) (inj : Bool) (d : Nat) : List Byte × State :=
  let pol := s.rn (ir b i rINC_POLICY + 4 * k)
  let sev := fld pol 24 2
  let act := fld pol 26 2
  let s := s.setf (ir b i rINC_STAT) k 1 1
  let waits := s.f (ir b i rINC_ACTION) k 1 == 1
  let key := ikey b i k
  let was := aget false s.inc.injected key
  let s := { s with inc := { s.inc with
    injected := aput false s.inc.injected key (inj && (!waits || was)),
    acting := if waits && !(was && !inj) then s.inc.acting else aput 0 s.inc.acting key d,
    forcedAt := if inj then aput 0 s.inc.forcedAt key (s.nowOf b i + 1) else s.inc.forcedAt } }
  let first := s.f (ir b i rINC_FIRST) 16 1 == 0
  let s := if first then s.wn (ir b i rINC_FIRST) (k + sev * 2 ^ 5 + b2n inj * 2 ^ 7 + 2 ^ 16)
    else s.setf (ir b i rINC_FIRST) 8 1 1
  let s := if 2 ≤ sev then { s with inc := { s.inc with lastRaise := s.timer } } else s
  let s := if 2 ≤ sev ∧ act ≠ 0 ∧ !s.locked then s.setf (ir b i rINC_ACTION) k 1 1 else s
  s.incRecord b i k 1 (b2n inj + 2 * b2n first) act d

/-- Note when an event of source `k` comes, and whether a raise that it completes is injected: not where a real event of the
source shares its cycle.  A real event makes real the injected raise of its cycle, in the latch as well (R422, R423).  Events of
one source at one reading of the block's time share a cycle (log entry 178). -/
def State.coincide (s : State) (b : Blk) (i k : Nat) (inj : Bool) (d : Nat) : Bool × State :=
  let key := ikey b i k
  let now := s.nowOf b i + 1
  if inj then (aget 0 s.inc.realAt key != now, s)
  else
    let forced := aget 0 s.inc.forcedAt key == now
    let s := { s with inc := { s.inc with
      detail := aput 0 s.inc.detail key d,
      realAt := aput 0 s.inc.realAt key now,
      acting := if forced then aput 0 s.inc.acting key d else s.inc.acting,
      injected := if forced then aput false s.inc.injected key false else s.inc.injected } }
    (false, if forced && s.f (ir b i rINC_FIRST) 0 5 == k then s.setf (ir b i rINC_FIRST) 7 1 0 else s)

/-- One event of source `k` (R419): counts, the window, a Note or a raise.  `note` is false where a
TRAP record stands in place of the Note (R435).  Answers the records to post. -/
def State.eventCore (s : State) (b : Blk) (i k : Nat) (inj note : Bool) (detail : Nat) : List (List Byte) × State :=
  if hasSource b k then
    let (forced, s) := s.coincide b i k inj detail
    let cnt := ir b i rINC_COUNT + 4 * k
    let pol := s.rn (ir b i rINC_POLICY + 4 * k)
    let now := s.nowOf b i
    let key := ikey b i k
    let open_ := s.f cnt 0 8
    let w := if open_ ≠ 0 ∧ aget 0 s.inc.winEnd key ≤ now then 0 else open_
    let s := if w = 0 then
        { s with inc := { s.inc with winEnd := aput 0 s.inc.winEnd key (now + fld pol 8 16 * perMs b) } } else s
    let s := s.setf cnt 8 24 (min 0xFFFFFF (s.f cnt 8 24 + 1))
    if w + 1 < fld pol 0 8 then
      let s := s.setf cnt 0 8 (w + 1)
      if w = 0 ∧ note then let (r, s) := s.incRecord b i k 0 (b2n inj) (fld pol 26 2) detail; ([r], s) else ([], s)
    else
      let s := s.setf cnt 0 8 0
      if fld pol 24 2 = 0 then ([], s) else let (r, s) := s.raise b i k forced detail; ([r], s)
  else ([], s)

/-- Keep a record in the incident history (R475): INCIDENT records but Notes, the Lockdown events and Warden
notices, with SEQ replaced by the history number. -/
def State.keepHistory (s : State) (r : List Byte) : State :=
  let ty := at_ r 0 1
  let ev := at_ r 0x10 2
  if (ty == 1 && at_ r 0x11 1 != 0) || (ty == 3 && (ev == 0xC || ev == 0xD || ev == 0xE)) || ty == 0x12 then
    let n := s.arch.histNo
    { s with arch := { s.arch with
      histNo := (n + 1) % 2 ^ 32,
      bytes := aputs 0xFF s.arch.bytes (5 * 2 ^ 27 + n % 1048576 * 32) (r.take 4 ++ leBytes 4 n ++ r.drop 8) } }
  else s

/-- Whether a record is of a tile whose router has failed: it cannot leave the tile (R15). -/
def State.cutOff (s : State) (r : List Byte) : Bool :=
  at_ r 1 1 == 1 && s.routerBad (tileIx (at_ r 2 2 % 32) (at_ r 2 2 / 32))

/-- Send a record to ring `l`, or where R467 sends it.  A dropped record is an event of HST source
LOGBOOK_DROP; the record of that event, dropped in its turn, is no further event (R468, log entry 12). -/
def State.logSend (s : State) (l : Nat) (r : List Byte) : State :=
  let (s, dropped) := s.logRoute l r
  if dropped then
    let (rs, s) := s.eventCore .hst 0 1 false true (if s.logEnabled l then l else 0)
    rs.foldl (fun st x => ((st.keepHistory x).logRoute (st.routeOf .hst) x).1) s
  else s

/-- Post a formed record to ring `l`. -/
def State.postTo (s : State) (l : Nat) (r : List Byte) : State :=
  if s.cutOff r then s else (s.keepHistory r).logSend l r

/-- Form and post a record of a type and block (R433, R467). -/
def State.post (s : State) (ty : Nat) (b : Blk) (i : Nat) (body : List Byte) : State :=
  let (r, s) := s.form ty b i body
  s.postTo (s.routeOf b) r

/-- An event of a source with its records posted (R417, R419). -/
def State.event (s : State) (b : Blk) (i k : Nat) (detail : Nat := 0) (inj : Bool := false) (note : Bool := true) : State :=
  let (rs, s) := s.eventCore b i k inj note detail
  rs.foldl (fun st x => st.postTo (st.routeOf b) x) s

/-- An EVENT record (R436). -/
def State.postEvent (s : State) (b : Blk) (code a bb : Nat) : State :=
  s.post 0x03 b 0 (leBytes 2 code ++ leBytes 6 a ++ leBytes 8 bb)

/-- A condition that persists as a level begins or ends to hold: its onset is an event (R417, R427). -/
def State.setLevel (s : State) (b : Blk) (i k : Nat) (on : Bool) (detail : Nat := 0) : State :=
  let key := ikey b i k
  if aget false s.inc.level key = on then s
  else
    let s := { s with inc := { s.inc with level := aput false s.inc.level key on } }
    if on then s.event b i k detail else s

/-! ### Condition records (R375, R376, R378) -/

/-- One bit of the reflected CRC-32C. -/
def crcBit (c : Nat) : Nat := if c % 2 = 1 then (c / 2) ^^^ 0x82F63B78 else c / 2

/-- One byte of the CRC-32C. -/
def crcByte (c b : Nat) : Nat := crcBit (crcBit (crcBit (crcBit (crcBit (crcBit (crcBit (crcBit (c ^^^ b))))))))

/-- CRC-32C of bytes (R253). -/
def crc32c (bs : List Nat) : Nat := (bs.foldl crcByte 0xFFFFFFFF) ^^^ 0xFFFFFFFF

/-- Write a condition record of a type: SEQ rises by 1, and the oldest record is overwritten (R375, R376). -/
def State.condRecord (s : State) (ty : Nat) (body : List Byte) : State :=
  let a := winBase .rgs 0 + rRGS_COND_SEQ
  let n := (s.rn a + 1) % 2 ^ 32
  let r := leBytes 1 ty ++ leBytes 1 1 ++ leBytes 2 128 ++ leBytes 4 n ++ leBytes 2 s.arch.powerOn ++ leBytes 6 0 ++ leBytes 8 s.timer
    ++ padTo 100 body
  let r := r ++ leBytes 4 (crc32c (r.map (·.toNat)))
  { s.wn a n with arch := { s.arch with bytes := aputs 0xFF s.arch.bytes (2 * 2 ^ 27 + n % 131072 * 128) r } }

/-- A condition event record (R378). -/
def State.condEvent (s : State) (ev action subject before after : Nat) : State :=
  s.condRecord 2 (leBytes 1 ev ++ leBytes 1 action ++ leBytes 6 subject ++ leBytes 4 before ++ leBytes 4 after)

/-! ### Plan slots (R169, R211) -/

/-- PLN_GEN. -/
def State.planGen (s : State) : Nat := s.rd64 (winBase .pln 0 + rPLN_GEN_LO) (winBase .pln 0 + rPLN_GEN_HI)

/-- STATE of a slot (R169). -/
def State.slotState (s : State) (k : Nat) : Nat := s.f (winBase .pln 0 + rPLN_SLOT_STAT + 0x20 * k) 0 3

/-- A slot. -/
def State.slot (s : State) (k : Nat) : Slot := aget Slot.empty s.cur.slots k

/-- GENERATION of a slot. -/
def State.slotGen (s : State) (k : Nat) : Nat :=
  s.rd64 (winBase .pln 0 + rPLN_SLOT_GEN_LO + 0x20 * k) (winBase .pln 0 + rPLN_SLOT_GEN_HI + 0x20 * k)

/-- Whether a side has the warden's rights (R7, R488): the warden side and the Registrar's firmware. -/
def wardenSide : Side → Bool
  | .warden => true
  | .firmware => true
  | _ => false

/-- Whether a command of a side that stands for an access to BAR0 reaches the module: a function's BARs decode (R448, R455, R480). -/
def State.reaches (s : State) (side : Side) : Bool := wardenSide side || s.barOpen side

/-- A write the message filter refuses counts in FILTER_REJECT of the Registrar (R7, R424, R431). -/
def State.filterReject (s : State) : State := s.event .rgs 0 0

end Sys2Proof.Machine
end

