-- ==== Sys2Proof/Machine/Memory.lean ====
section
/-! DEFINITION. The Vault and the Store (06_vault_and_store.md, R213 to R241): module memory
addresses, byte parity, the page code, reading with correction, writing with parity kept by delta,
poisoned pages and words, retirement of Store pages. -/

namespace Sys2Proof.Machine

/-! ### GF(2⁸) and RS(132,128) (R218) -/

/-- Multiplication by α in GF(2⁸) over x⁸ + x⁴ + x³ + x² + 1. -/
def gfX (a : Nat) : Nat := if 128 ≤ a then (2 * a) ^^^ 0x11D else 2 * a

/-- Product in GF(2⁸), over the low `n` bits of `b`. -/
def gfMulN : Nat → Nat → Nat → Nat
  | 0, _, _ => 0
  | n + 1, a, b => (if b % 2 = 1 then a else 0) ^^^ gfMulN n (gfX a) (b / 2)

/-- Product in GF(2⁸). -/
def gfMul (a b : Nat) : Nat := gfMulN 8 a b

/-- Inverse in GF(2⁸), as the 254th power. -/
def gfInv (a : Nat) : Nat :=
  let sq := fun x => gfMul x x
  let a2 := sq a
  let a4 := sq a2
  let a8 := sq a4
  let a16 := sq a8
  let a32 := sq a16
  let a64 := sq a32
  let a128 := sq a64
  gfMul a2 (gfMul a4 (gfMul a8 (gfMul a16 (gfMul a32 (gfMul a64 a128)))))

/-- α to a power. -/
def gfPow : Nat → Nat
  | 0 => 1
  | n + 1 => gfX (gfPow n)

/-- Multiply a polynomial (low coefficient first) by `x + r`. -/
def polyMulRoot (p : List Nat) (r : Nat) : List Nat :=
  let shifted := 0 :: p
  let scaled := p.map (gfMul r) ++ [0]
  (shifted.zip scaled).map fun (a, b) => a ^^^ b

/-- The polynomial with the given roots. -/
def polyOfRoots (rs : List Nat) : List Nat := rs.foldl polyMulRoot [1]

/-- XOR of the products of two lists. -/
def gfDot (a b : List Nat) : Nat := (a.zip b).foldl (fun x (p : Nat × Nat) => x ^^^ gfMul p.1 p.2) 0

/-- XOR of a list. -/
def xorAll (a : List Nat) : Nat := a.foldl (fun x y => x ^^^ y) 0

/-- Evaluate a polynomial, low coefficient first. -/
def polyEval (p : List Nat) (x : Nat) : Nat := p.foldr (fun c acc => c ^^^ gfMul acc x) 0

/-- The errors at given symbol positions that explain four syndromes, if some do. -/
def solveAt (syn : List Nat) (pos : List Nat) : Option (List (Nat × Nat)) :=
  let xs := pos.map gfPow
  let g := polyOfRoots xs
  let ok := (List.range (4 - pos.length)).all fun k => gfDot g (syn.drop k) == 0
  if ok && decide (pos.length ≤ 4) then
    some ((pos.zip xs).map fun (p, x) =>
      let lam := polyOfRoots (xs.filter fun y => y != x)
      (p, gfMul (gfDot lam syn) (gfInv (polyEval lam x))))
  else none

/-- Whether every extra position really is an error. -/
def allNonzero (es : List (Nat × Nat)) (extra : List Nat) : Bool :=
  es.all fun e => !(extra.contains e.1) || e.2 != 0

/-- The first answer of a search. -/
def firstSome {α β : Type} (f : α → Option β) : List α → Option β
  | [] => none
  | x :: xs => match f x with | some y => some y | none => firstSome f xs

/-- Decode one codeword from its syndromes and erasures: errors found, with e unknown errors and f
erasures where 2e + f ≤ 4 (R221, R224); `none` when it is uncorrectable. -/
def rsDecode (syn : List Nat) (erased : List Nat) : Option (List (Nat × Nat)) :=
  if 4 < erased.length then none else
  match solveAt syn erased with
  | some es => some es
  | none =>
    let tryExtra (ex : List Nat) : Option (List (Nat × Nat)) :=
      if ex.any (fun p => erased.contains p) then none
      else match solveAt syn (erased ++ ex) with
        | some es => if allNonzero es ex then some es else none
        | none => none
    if 2 < erased.length then none
    else
      match firstSome (fun p => tryExtra [p]) (List.range 132) with
      | some es => some es
      | none =>
        if erased.length = 0 then
          firstSome (fun p => firstSome (fun q => if p < q then tryExtra [p, q] else none) (List.range 132)) (List.range 132)
        else none

/-! ### Addresses (R213, R215, R16) -/

/-- Which memory an address lies in, and whether it exists (R213). -/
inductive Where where
  | vault
  | store
  | absent
  deriving DecidableEq, Repr

/-- The first byte of the Store data space (R213). -/
def storeBase : Nat := 0x8000000000

/-- The size of the Store data space: 440 GiB (R214). -/
def storeSize : Nat := 440 * 2 ^ 30

/-- The region of the Store that Registrar firmware alone uses, keyed above the data space (R214). -/
def reservedBase : Nat := storeBase + storeSize

/-- Size of the reserved region: plan store, firmware and spill, spare pool (R214). -/
def reservedSize : Nat := 2 * 2 ^ 30 + 2 ^ 29

/-- Where a module memory address lies (R213). -/
def whereIs (a : Nat) : Where :=
  if a < 0x200000000 then (if a / 2 ^ 22 % 64 < 33 then .vault else .absent)
  else if storeBase ≤ a ∧ a < storeBase + storeSize then .store
  else .absent

/-- The tile whose column a Vault address names. -/
def colTile (a : Nat) : Nat := tileIx (a / 2 ^ 28 % 32) (a / 2 ^ 22 % 64)

/-- The module address of an offset in tile `t`'s Vault column (R213). -/
def vaultAddr (t off : Nat) : Nat := t / 64 * 2 ^ 28 + t % 64 * 2 ^ 22 + off % 2 ^ 22

/-- The Vault die of an address: tier A 0 to 3, tier B 4 to 7; NW, NE, SW, SE (R16, R246). -/
def dieOf (a : Nat) : Nat :=
  let row := a / 2 ^ 28 % 32
  let col := a / 2 ^ 22 % 64
  let south := decide (16 ≤ row)
  let east := if col = 16 then decide (8 ≤ row % 16) else decide (16 < col)
  4 * (a / 2 ^ 21 % 2) + 2 * b2n south + b2n east

/-- The Vault bank of an address: one tier of one column (R236). -/
def bankOf (a : Nat) : Nat := 2 * colTile a + a / 2 ^ 21 % 2

/-- The page of an address. -/
def pageOf (a : Nat) : Nat := a / 4096

/-- The Store segment of an address of the data space (R215). -/
def segOf (a : Nat) : Nat := (a - storeBase) / 2 ^ 28

/-- The channel a Store page lies on, by its segment's mode (R215). -/
def chanOf (mode a : Nat) : Nat :=
  let p := (a - storeBase) / 4096
  if mode = 0 then p % 64 else 4 * (mode - 1) + p % 4

/-! ### One memory -/

/-- The memory of a side. -/
def State.mem (s : State) (v : Bool) : Mem := if v then s.vault else s.store

/-- Replace a memory. -/
def State.setMem (s : State) (v : Bool) (m : Mem) : State :=
  if v then { s with vault := m } else { s with store := m }

/-- The Vault's or the Store's block. -/
def mblk (v : Bool) : Blk := if v then .vlt else .sto

/-- A VLT_ register or its STO_ counterpart. -/
def mreg (v : Bool) (rv rs : Nat) : Nat := if v then winBase .vlt 0 + rv else winBase .sto 0 + rs

/-- The physical address after the redirect of a retired page (R230, R231). -/
def Mem.phys (m : Mem) (a : Nat) : Nat := aget (pageOf a) m.redirect (pageOf a) * 4096 + a % 4096

/-- Whether an even number of ones is in a byte's low 8 bits. -/
def evenParity (n : Nat) : Bool := (List.range 8).foldl (fun p i => p != bit n i) true

/-- Key of page-parity byte `i` of a page. -/
def ppKey (p i : Nat) : Nat := p * 128 + i

/-- The four page-parity bytes of the data polynomial with one symbol `x` at position `i`, as the
solution that makes all four syndromes zero (R218). -/
def parityOf (i x : Nat) : List Nat :=
  if x = 0 then [0, 0, 0, 0] else
  let sy := (List.range 4).map fun r => gfMul x (gfPow (r * i))
  match solveAt sy [128, 129, 130, 131] with
  | some es => es.map (·.2)
  | none => [0, 0, 0, 0]

/-- Add `x` into the parity difference of the codeword of byte `o` of page `p`. -/
def Mem.addDiff (m : Mem) (p o x : Nat) : Mem :=
  let j := o % 32
  let d := parityOf (o / 32) x
  { m with ppDiff := (List.range 4).foldl (fun t i =>
      aput 0 t (ppKey p (4 * j + i)) (aget 0 t (ppKey p (4 * j + i)) ^^^ BitVec.ofNat 8 (d.getD i 0))) m.ppDiff }

/-- The syndromes of codeword `j` of page `p`: by linearity only the parity difference shows. -/
def Mem.syndromes (m : Mem) (p j : Nat) : List Nat :=
  (List.range 4).map fun r =>
    xorAll ((List.range 4).map fun i => gfMul (aget 0 m.ppDiff (ppKey p (4 * j + i))).toNat (gfPow (r * (128 + i))))

/-- The symbol positions of codeword `j` of page `p` whose byte parity fails (R221). -/
def Mem.erasures (m : Mem) (p j : Nat) : List Nat :=
  ((acutIn m.parBad (p * 4096) (p * 4096 + 4096)).filter fun o => o % 32 == j).map (· / 32)
    ++ ((acutIn m.ppBad (p * 128) (p * 128 + 128)).filter fun o => o / 4 == j).map (fun o => 128 + o % 4)
where
  acutIn (t : Assoc Bool) (lo hi : Nat) : List Nat :=
    ((t.filter fun e => decide (lo ≤ e.1) && decide (e.1 < hi)).map fun e => e.1 - lo)

/-- Codewords of a page that hold an erasure or a non-zero parity difference. -/
def Mem.suspects (m : Mem) (p : Nat) : List Nat :=
  (List.range 32).filter fun j => m.erasures p j != [] || (m.syndromes p j).any (· != 0)

/-- Whether a byte's stored parity fails. -/
def Mem.bad (m : Mem) (a : Nat) : Bool := aget false m.parBad a

/-- Whether aligned word `w` (a physical address) is a poisoned word (R240). -/
def Mem.poisonWord (m : Mem) (w : Nat) : Bool :=
  let p := pageOf w
  (List.range 32).all (fun i => m.bad (w / 32 * 32 + i)) &&
  (List.range 32).all (fun j => (m.syndromes p j).all (· == 0) && m.erasures p j == [w % 4096 / 32])

/-- Whether codeword `j` of page `p` can be corrected, and by which errors. -/
def Mem.correct (m : Mem) (p j : Nat) : Option (List (Nat × Nat)) := rsDecode (m.syndromes p j) (m.erasures p j)

/-- The corrected value of a stored byte, `none` when its codeword is uncorrectable. -/
def Mem.correctedByte (m : Mem) (a : Nat) : Option Byte :=
  let p := pageOf a
  let j := a % 32
  let v := aget 0 m.cells a
  match m.correct p j with
  | none => none
  | some es =>
    match es.find? (fun e => e.1 == a % 4096 / 32) with
    | some (_, x) => some (v ^^^ BitVec.ofNat 8 x)
    | none => some v

/-- What a read of one byte finds: data, or poison of kind 1 uncorrectable, 2 read before write,
3 poisoned word (KIND of VLT_LAST_ERR_INFO, R246). -/
inductive ByteRes where
  | ok (b : Byte)
  | poison (kind : Nat)
  deriving DecidableEq, Repr

/-- Whether a page is POISONED (R236): its bank or segment came back so and it was not filled. -/
def Mem.pagePoisoned (m : Mem) (bank p : Nat) : Bool :=
  match aget none m.poisoned bank with
  | none => false
  | some filled => !filled.contains p


/-- One bank goes dark: what it held is lost (R236). -/
def Mem.dark (m : Mem) (bank : Nat) : Mem := { m with off := aput false m.off bank true, poisoned := aput none m.poisoned bank none }

/-- Power up a bank that is off: every page comes back poisoned (R236). -/
def Mem.powerUp (m : Mem) (bank : Nat) : Mem :=
  if aget false m.off bank then
    { m with off := aput false m.off bank false, poisoned := aput none m.poisoned bank (some []) } else m

/-- The mode of a Store segment, kept as a table by the plan in force (R215). -/
def State.segMode (s : State) (a : Nat) : Nat := aget 0 s.cur.segModes (segOf a)

/-- The key under which a Store segment's part on one channel loses its contents (R236, R243). -/
def partKey (seg chan : Nat) : Nat := 64 * seg + chan

/-- What loses its contents together at an address: a Vault bank, or a Store segment's part on its channel (R236). -/
def State.bankKey (s : State) (v : Bool) (a : Nat) : Nat := if v then bankOf a else partKey (segOf a) (chanOf (s.segMode a) a)

/-- The pages under one such key: 512 of a Vault bank; of a Store segment the 64th part, or the 4th part where it lies on one
device (R215, R236). -/
def State.bankPages (s : State) (v : Bool) (k : Nat) : Nat :=
  if v then 512 else if aget 0 s.cur.segModes (k / 64) = 0 then 1024 else 16384

/-- The number of pages now poisoned (VLT_POISON_PAGE_COUNT, STO_POISON_PAGE_COUNT). -/
def State.poisonCount (s : State) (v : Bool) : Nat :=
  (s.mem v).poisoned.foldl (fun n e => match e.2 with | none => n | some l => n + (s.bankPages v e.1 - l.length)) 0

/-- The two tiles a Store controller is attached to (R17). -/
def ctrlTiles (k : Nat) : List Nat :=
  let col := if k < 8 then 0 else 32
  [tileIx (4 * (k % 8) + 1) col, tileIx (4 * (k % 8) + 2) col]

/-- Whether a device of the Store has failed as a whole: a channel in state failed makes every page of its device
uncorrectable (R247), and a controller that has lost both its tiles makes its device unreachable (R19). -/
def State.deviceDead (s : State) (d : Nat) : Bool :=
  (List.range 4).any (fun k => s.f (winBase .sto 0 + rSTO_CHAN_STAT + 4 * (4 * d + k)) 0 3 == 4)
    || (ctrlTiles d).all s.routerBad

/-- Whether the element under an address has failed as a whole: a Vault die (R234), or a device of the Store. -/
def State.memDead (s : State) (v : Bool) (a : Nat) : Bool :=
  if v then s.vault.deadDies.contains (dieOf a)
  else if a < storeBase + storeSize then s.deviceDead (chanOf (s.segMode a) a / 4)
  else false

/-- Whether the page of a physical address holds nothing written: its bank is off, or the page is POISONED (R236). -/
def State.unwritten (s : State) (v : Bool) (ph : Nat) : Bool :=
  aget false (s.mem v).off (s.bankKey v ph) || (s.mem v).pagePoisoned (s.bankKey v ph) (pageOf ph)

/-- One byte as a read returns it (R221 to R224, R239, R240), without effects. `dec` says that the read decodes its page, so
errors that byte parity does not see are corrected with the rest (R224). -/
def State.peekAt (s : State) (v dec : Bool) (a : Nat) : ByteRes :=
  let m := s.mem v
  let ph := m.phys a
  if s.unwritten v ph then .poison 2
  else if s.memDead v ph then .poison 1
  else if dec || m.bad ph then
    if m.poisonWord ph then .poison 3
    else match m.correctedByte ph with
      | some b => .ok b
      | none => .poison 1
  else .ok (aget 0 m.cells ph)

/-- One byte as a read of it alone returns it. -/
def State.peek (s : State) (v : Bool) (a : Nat) : ByteRes := s.peekAt v false a

/-- READER codes of R246. -/
def rdTile : Nat := 0
def rdMove : Nat := 1
def rdCrate : Nat := 2
def rdDMA : Nat := 3
def rdBAR2 : Nat := 4
def rdCurator : Nat := 5
def rdScrub : Nat := 6

/-- Record the last error (R241, R246). -/
def State.lastErr (s : State) (v : Bool) (a kind reader : Nat) : State :=
  ((s.wn (mreg v rVLT_LAST_ERR_LO rSTO_LAST_ERR_LO) (a / 32 * 32)).wn
    (mreg v rVLT_LAST_ERR_HI rSTO_LAST_ERR_HI) (a / 2 ^ 32)).wn
    (mreg v rVLT_LAST_ERR_INFO rSTO_LAST_ERR_INFO) (kind + 8 * reader)

/-- The incident source of an error kind: UNCORRECTABLE, READ_BEFORE_WRITE, POISON_WORD, UNDETECTED. -/
def kindSource (kind : Nat) : Nat := kind

/-- Report one error a reader met: counts, LAST_ERR and an incident (R239, R241). -/
def State.memError (s : State) (v : Bool) (a kind reader : Nat) : State :=
  let s := if kind = 2 then s.bump (mreg v rVLT_POISON_READ_COUNT rSTO_POISON_READ_COUNT)
    else if kind = 1 then s.bump (mreg v rVLT_UNCORR_COUNT rSTO_UNCORR_COUNT) else s
  (s.lastErr v a kind reader).event (mblk v) 0 (kindSource kind) a

/-- Hold a page for a decode (R222). -/
def State.hold (s : State) (v : Bool) (p reader : Nat) : State :=
  let m := s.mem v
  if m.held.any (fun h => h.1 == p) then s else s.setMem v { m with held := m.held ++ [(p, reader)] }

/-- What a read returns: the bytes (poisoned ones as 0), which of them are poisoned, and the first
poisoned address with its kind. -/
structure RdRes where
  bytes : List Byte
  marks : List Bool
  poison : Option (Nat × Nat)
  deriving DecidableEq, Repr

/-- Count an access to an absent address (R213). -/
def State.absentAccess (s : State) (x : Nat) : State :=
  let a := winBase .vlt 0 + rVLT_STAT
  (s.setf a 16 16 (min 0xFFFF (s.f a 16 16 + 1))).event .vlt 0 6 x

/-- STO_CHAN_STAT of channel `c`. -/
def chanStat (c : Nat) : Nat := winBase .sto 0 + rSTO_CHAN_STAT + 4 * c

/-- A Store channel leaves self-refresh: what partial-array self-refresh dropped on it comes back poisoned (R236). -/
def State.wakeParts (s : State) (c : Nat) : State :=
  { s with store := ((s.store.off.map (·.1)).filter fun k => k % 64 == c).foldl Mem.powerUp s.store }

/-- A Store channel takes an access: it leaves self-refresh for it (R506, R509), and a retraining has ended (R243). -/
def State.wakeChan (s : State) (a : Nat) : State :=
  match whereIs a with
  | .store =>
    let c := chanOf (s.segMode a) a
    let v := s.f (chanStat c) 0 3
    if v = 3 || ((v = 1 || v = 2) && !s.locked) then (s.wakeParts c).setf (chanStat c) 0 3 0 else s
  | _ => s

/-- The channels of a Store range leave self-refresh. -/
def State.wakeSpan (s : State) (v : Bool) (a n : Nat) : State :=
  if v then s
  else (List.range ((a % 4096 + n + 4095) / 4096)).foldl (fun (u : State) i => u.wakeChan (a / 4096 * 4096 + 4096 * i)) s

/-! ### Decoding a held page (R221 to R231) -/

/-- Whether an address lies in a Keep window (R225). -/
def State.inKeep (s : State) (a : Nat) : Bool :=
  (List.range 8).any fun k =>
    let lo := winBase .vlt 0 + rVLT_KEEP_WINDOW_LO + 8 * k
    let hi := winBase .vlt 0 + rVLT_KEEP_WINDOW_HI + 8 * k
    s.f lo 31 1 == 1 && s.f lo 0 5 == a / 2 ^ 28 % 32 && s.f lo 5 6 == a / 2 ^ 22 % 64 &&
      decide (s.f lo 11 10 ≤ a / 4096 % 1024) && decide (a / 4096 % 1024 ≤ s.f hi 0 10)

/-- The tracker a physical address belongs to: its Vault die, or its Store controller (R228). -/
def State.trackerOf (s : State) (v : Bool) (ph : Nat) : Nat :=
  if v then dieOf ph else chanOf (s.segMode ph) ph / 4

/-- Remove a word's tracker entry on a write (R228). -/
def State.untrack (s : State) (v : Bool) (ph : Nat) : State :=
  let m := s.mem v
  let k := s.trackerOf v ph
  s.setMem v { m with tracker := aput [] m.tracker k ((aget [] m.tracker k).filter fun e => e.word != ph / 32 * 32) }

/-- The window of page events in Registrar periods: 10 ms per unit (R229, R246). -/
def State.pageWindow (s : State) (v : Bool) : Nat :=
  s.f (mreg v rVLT_PAGE_TIME rSTO_PAGE_TIME) 0 16 * 2000000

/-- Clear every stored check mark of a page: a full-page write computes them anew (R237). -/
def Mem.cleanPage (m : Mem) (p : Nat) : Mem :=
  { m with parBad := acut m.parBad (p * 4096) (p * 4096 + 4096),
           ppDiff := acut m.ppDiff (p * 128) (p * 128 + 128),
           ppBad := acut m.ppBad (p * 128) (p * 128 + 128) }

/-- A full-page write of bytes with poison marks: a word with a poisoned byte arrives as a poisoned word
(R237, R240). -/
def Mem.putPage (m : Mem) (p : Nat) (data : List (Byte × Bool)) : Mem :=
  let m := m.cleanPage p
  let bad := (List.range 128).filter fun i => ((data.drop (32 * i)).take 32).any (·.2)
  { m with cells := aputs 0 m.cells (p * 4096) (data.map (·.1)),
           parBad := bad.foldl (fun t i => aputs false t (p * 4096 + 32 * i) (List.replicate 32 true)) m.parBad }

/-- Mark a page filled (R237). -/
def Mem.fillPage (m : Mem) (bank p : Nat) : Mem :=
  match aget none m.poisoned bank with
  | none => m
  | some l => if l.contains p then m else { m with poisoned := aput none m.poisoned bank (some (l ++ [p])) }

/-- A full-page write over physical page `p` of a bank: it leaves the POISONED state, and no hold and no tracker entry of
it stays (R228, R237). -/
def Mem.placePage (m : Mem) (bank p : Nat) (data : List (Byte × Bool)) : Mem :=
  let m := ((m.powerUp bank).putPage p data).fillPage bank p
  { m with held := m.held.filter fun h => h.1 != p,
           tracker := (m.tracker.map fun t => (t.1, t.2.filter fun e => pageOf e.word != p)).filter fun t => t.2 != [] }

/-- Whether a byte of physical page `p` fails its parity. -/
def Mem.pageFails (m : Mem) (p : Nat) : Bool := m.parBad.any fun e => pageOf e.1 == p

/-- A page as a copy takes it, by its address before redirection: each byte corrected, poisoned ones as stored with a mark.
A copy decodes the page where a byte fails its parity; `dec` has it decoded whatever its parity shows (R221, R224). -/
def State.pageData (s : State) (v dec : Bool) (p : Nat) : List (Byte × Bool) :=
  let dec := dec || (s.mem v).pageFails (pageOf ((s.mem v).phys (p * 4096)))
  (List.range 4096).map fun i => match s.peekAt v dec (p * 4096 + i) with
    | .ok b => (b, false)
    | .poison _ => (aget 0 (s.mem v).cells ((s.mem v).phys (p * 4096 + i)), true)

/-- The page a physical page serves: itself, or the retired page it replaces (R230, R231). -/
def Mem.served (m : Mem) (p : Nat) : Nat := ((m.redirect.find? fun e => e.2 == p).map (·.1)).getD p

/-- Retire physical Store page `p` at once to the spare pool; with none free it stays in service, due (R231). -/
def State.storeRetire (s : State) (p : Nat) : State :=
  let a := winBase .sto 0 + rSTO_SPARE_FREE
  let free := s.f a 0 18
  if s.store.retired.contains p || s.store.due.contains p then s
  else if free = 0 then ({ s with store := { s.store with due := s.store.due ++ [p] } }).event .sto 0 7 (p * 4096)
  else
    let spare := (reservedBase + 2 * 2 ^ 30) / 4096 + (131072 - free)
    let m := s.store
    let l := m.served p
    let m := m.placePage (s.bankKey false (spare * 4096)) spare (s.pageData false true l)
    let m := { m with redirect := aput l m.redirect l spare, retired := m.retired ++ [p] }
    let n := winBase .sto 0 + rSTO_RETIRED_PAGE_COUNT
    let s := ((({ s with store := m }).setf a 0 18 (free - 1)).bump n)
    s.condEvent 1 0 (p * 4096 + 2 ^ 40) (s.rn n - 1) (s.rn n)

/-- A page falls due for retirement (R229): a Vault page waits for a hang (R230), past step 2 of one
for the hang after it (R242); a Store page is retired at once (R231). -/
def State.pageDue (s : State) (v : Bool) (p : Nat) : State :=
  if v then
    if s.vault.due.contains p || s.vault.retired.contains p then s
    else
      let s := { s with vault := { s.vault with due := s.vault.due ++ [p] } }
      if 2 ≤ s.f (winBase .pln 0 + rPLN_HANG_STAT) 0 3 then { s with cur := { s.cur with latePages := s.cur.latePages ++ [p] } } else s
  else s.storeRetire p

/-- The pages of Vault die `d`: one tier of 264 columns. -/
def diePages (d : Nat) : List Nat :=
  ((allTiles.filter fun t => dieOf (vaultAddr t (2097152 * (d / 4))) == d).map fun t =>
    (List.range 512).map fun i => vaultAddr t (2097152 * (d / 4)) / 4096 + i).flatten

/-- A Vault die is declared failed and recorded; its pages fall due (R230, R234). -/
def State.failDie (s : State) (die : Nat) : State :=
  if 8 ≤ die || s.vault.deadDies.contains die then s
  else
    let s := { s with vault := { s.vault with deadDies := s.vault.deadDies ++ [die] } }
    let s := (s.setf (winBase .vlt 0 + rVLT_SPARE_ROWS + 4 * die) 31 1 1).event .vlt 0 5 ((diePages die).headD 0 * 4096)
    (diePages die).foldl (fun (u : State) p => u.pageDue true p) s

/-- An uncorrectable codeword in page `p`: a Vault die that returns them from more than 16 columns within 1 ms has
failed (R234). -/
def State.noteUncorr (s : State) (v : Bool) (p : Nat) : State :=
  if !v then s
  else
    let d := dieOf (p * 4096)
    let l := (s.vault.uncorrTimes.filter fun e => decide (s.timer < e.2 + 200000)) ++ [(bankOf (p * 4096), s.timer)]
    let s := { s with vault := { s.vault with uncorrTimes := l } }
    let cols := ((l.map (·.1)).filter fun b => dieOf (vaultAddr (b / 2) (2097152 * (b % 2))) == d).eraseDups
    if 16 < cols.length then s.failDie d else s

/-- Count one event against a page (R229). Counts are kept for the 64 pages of a die or controller with the
most recent events. -/
def State.countPage (s : State) (v : Bool) (p : Nat) : State :=
  let m := s.mem v
  let w := s.pageWindow v
  let cs := (m.counted.filter fun c => c.1 != p || decide (s.timer < c.2 + w)) ++ [(p, s.timer)]
  let same := fun (q : Nat) => s.trackerOf v (q * 4096) == s.trackerOf v (p * 4096)
  let recent := ((((cs.map (·.1)).reverse.filter same)).eraseDups).take 64
  let cs := cs.filter fun c => !same c.1 || recent.contains c.1
  let s := s.setMem v { m with counted := cs }
  if s.f (mreg v rVLT_PAGE_THRESH rSTO_PAGE_THRESH) 0 8 ≤ (cs.filter fun c => c.1 == p).length then s.pageDue v p else s

/-- Whether a physical page serves an address in a Keep window (R225): windows name module addresses. -/
def State.keepPage (s : State) (v : Bool) (p : Nat) : Bool := v && s.inKeep (s.vault.served p * 4096)

/-- Track one corrected word with its erasure mask (R228). Nothing counts against the page where `counts` is off (R242). -/
def State.trackWord (s : State) (v counts : Bool) (w mask : Nat) : State :=
  let m := s.mem v
  let k := s.trackerOf v w
  let es := aget [] m.tracker k
  let keep := s.keepPage v (pageOf w)
  match es.find? (fun e => e.word == w) with
  | none =>
    let es := (if 256 ≤ es.length then es.drop 1 else es) ++ [⟨w, mask⟩]
    s.setMem v { m with tracker := aput [] m.tracker k es }
  | some e =>
    let fresh := (e.mask ||| mask) != e.mask
    let es := es.map fun x => if x.word == w then ⟨w, x.mask ||| mask⟩ else x
    let s := s.setMem v { m with tracker := aput [] m.tracker k es }
    if counts && (!keep || fresh) then s.countPage v (pageOf w) else s

/-- Write one corrected byte back with correct parity: the error leaves the difference too (R223). -/
def Mem.repair (m : Mem) (p j : Nat) (e : Nat × Nat) : Mem :=
  if e.1 < 128 then
    let a := p * 4096 + 32 * e.1 + j
    let m := { m with cells := aput 0 m.cells a (aget 0 m.cells a ^^^ BitVec.ofNat 8 e.2), parBad := aput false m.parBad a false }
    m.addDiff p (32 * e.1 + j) e.2
  else
    let k := ppKey p (4 * j + (e.1 - 128))
    { m with ppDiff := aput 0 m.ppDiff k (aget 0 m.ppDiff k ^^^ BitVec.ofNat 8 e.2), ppBad := aput false m.ppBad k false }

/-- A Keep page with two or more erasures in a codeword is queued for repair (R226). -/
def State.queueKeep (s : State) (v : Bool) (p : Nat) (er : List Nat) : State :=
  if s.keepPage v p && decide (2 ≤ er.length) && !s.vault.keepQueue.contains p then
    { s with vault := { s.vault with keepQueue := s.vault.keepQueue ++ [p] } }
  else s

/-- Decode codeword `j` of physical page `p`, which serves page `l`, with a reader's report: repairs outside Keep windows where
`back` allows a write-back, undetected errors counted (one in a page-parity byte by its codeword's first byte, log entry 182), an uncorrectable codeword counted and its page due (R221 to R229).
Answers the words corrected, each with the erasures corrected in it. -/
def State.decodeWord (s : State) (v back : Bool) (p l reader j : Nat) : List (Nat × Nat) × State :=
  let m := s.mem v
  let er := m.erasures p j
  let s := s.queueKeep v p er
  match m.correct p j with
  | none =>
    let s := s.memError v (l * 4096 + 32 * ((er.filter (· < 128)).headD 0) + j) 1 reader
    ([], (s.pageDue v p).noteUncorr v p)
  | some es =>
    let es := es.filter fun e => er.contains e.1 || e.2 != 0
    let unseen := es.filter fun e => !er.contains e.1 && e.2 != 0
    let s := if s.keepPage v p || !back then s else s.setMem v (es.foldl (fun m e => m.repair p j e) (s.mem v))
    let s := unseen.foldl (fun st e =>
      let a := l * 4096 + (if e.1 < 128 then 32 * e.1 + j else j)
      ((st.bump (mreg v rVLT_UNDETECTED_COUNT rSTO_UNDETECTED_COUNT)).lastErr v a 4 reader).event (mblk v) 0 4 a) s
    ((es.filter fun e => e.1 < 128).map fun e => (p * 4096 + 32 * e.1, if er.contains e.1 then 2 ^ j else 0), s)

/-- Merge corrected bytes of one word into one entry: each word once, with all its erasures. -/
def mergeWords (ws : List (Nat × Nat)) : List (Nat × Nat) :=
  (ws.map (·.1)).eraseDups.map fun w => (w, (ws.filter fun e => e.1 == w).foldl (fun x e => x ||| e.2) 0)

/-- The poisoned words of a physical page, by number (R240). -/
def Mem.poisonWords (m : Mem) (p : Nat) : List Nat :=
  (List.range 128).filter fun i => m.bad (p * 4096 + 32 * i) && m.poisonWord (p * 4096 + 32 * i)

/-- Decode a whole page (R221 to R229): each corrected word counts once in CORR_COUNT, is an event of
CORRECTED, and enters the tracker; on a Store page that found no spare page it is reported as such (R231).
Poisoned words are left (R240). -/
def State.decodePage (s : State) (v : Bool) (p reader : Nat) (back : Bool := true) (counts : Bool := true) : State :=
  let m := s.mem v
  let l := m.served p
  if m.poisonWords p ≠ [] then s
  else
    let (ws, s) := (m.suspects p).foldl (fun (acc : List (Nat × Nat) × State) j =>
      let (w, st) := acc.2.decodeWord v back p l reader j
      (acc.1 ++ w, st)) ([], s)
    (mergeWords ws).foldl (fun st e =>
      let st := (st.bump (mreg v rVLT_CORR_COUNT rSTO_CORR_COUNT)).event (mblk v) 0 0 (l * 4096 + e.1 % 4096)
      (if !v && st.store.due.contains p then st.event .sto 0 7 (l * 4096 + e.1 % 4096) else st).trackWord v counts e.1 e.2) s

/-- Release a page's hold. -/
def State.unhold (s : State) (v : Bool) (p : Nat) : State :=
  let m := s.mem v
  s.setMem v { m with held := m.held.filter fun h => h.1 != p }

/-- Finish the decode of a held page (R222). -/
def State.finishDecode (s : State) (v : Bool) (p : Nat) (counts : Bool := true) : State :=
  match (s.mem v).held.find? (fun h => h.1 == p) with
  | none => s
  | some (_, r) => (s.decodePage v p r true counts).unhold v p

/-- An access to held pages waits until their decodes are done (R222). -/
def State.settle (s : State) (v : Bool) (a n : Nat) : State :=
  (List.range ((a % 4096 + n + 4095) / 4096)).foldl (fun (u : State) i =>
    u.finishDecode v (pageOf ((u.mem v).phys (a / 4096 * 4096 + 4096 * i)))) s

/-- A page of an element that failed as a whole: every codeword counts (R234, R241, R247). -/
def State.deadPage (s : State) (v : Bool) (p reader : Nat) : State :=
  let l := (s.mem v).served p
  ((List.range 32).foldl (fun (u : State) j => u.memError v (l * 4096 + j) 1 reader) s).pageDue v p

/-- The pages that a read of `n` bytes from address `a` decodes: those with a byte that fails its parity (R221). -/
def State.failing (s : State) (v : Bool) (a n : Nat) : List Nat :=
  let m := s.mem v
  ((((List.range n).map fun i => m.phys (a + i)).filter fun ph => m.bad ph && !s.unwritten v ph && !s.memDead v ph).map pageOf).eraseDups

/-- The reports of `n` bytes of poison found from address `a` on: each POISONED page and each poisoned word once, at the first of its
bytes (R239, R241). -/
def State.tellPoison (s : State) (v : Bool) (a n reader : Nat) (got : Nat → ByteRes) : State :=
  (List.range n).foldl (fun (u : State) i => match got i with
    | .poison 2 => if i = 0 || (a + i) % 4096 == 0 then u.memError v (a + i) 2 reader else u
    | .poison 3 => if i = 0 || (a + i) % 32 == 0 then u.memError v (a + i) 3 reader else u
    | _ => u) s

/-- The pages of an element that failed as a whole among those that a read touches. -/
def State.deadIn (s : State) (v : Bool) (a n : Nat) : List Nat :=
  let m := s.mem v
  ((((List.range n).map fun i => m.phys (a + i)).filter fun ph => s.memDead v ph && !s.unwritten v ph).map pageOf).eraseDups

/-- Read `n` bytes of one memory from module address `a` for a reader: waits for held pages, powers banks up, holds
pages that fail their parity, and reports every poisoned page and word found; an uncorrectable codeword is reported by the
decode of its page. A page of a failed element has every codeword reported and falls due (R229). -/
def State.memRead (s : State) (v : Bool) (a n reader : Nat) : RdRes × State :=
  let s := s.settle v a n
  let m := s.mem v
  let pages := s.failing v a n
  let got := fun (i : Nat) => s.peekAt v (pages.contains (pageOf (m.phys (a + i)))) (a + i)
  let rs := (List.range n).map fun i => (a + i, got i)
  let bytes := rs.map fun r => match r.2 with | .ok b => b | .poison _ => 0
  let pois := firstSome (fun (r : Nat × ByteRes) => match r.2 with | .ok _ => none | .poison k => some (r.1, k)) rs
  let banks := (List.range ((n + 4095) / 4096 + 1)).map fun i => m.phys (a + min (4096 * i) (n - 1))
  let s' := if n = 0 then s else s.setMem v (banks.foldl (fun m ph => m.powerUp (s.bankKey v ph)) (s.mem v))
  let s' := pages.foldl (fun st p => st.hold v p reader) (s'.wakeSpan v a n)
  let s' := (s.deadIn v a n).foldl (fun st p => st.deadPage v p reader) (s'.tellPoison v a n reader got)
  (⟨bytes, rs.map fun r => (match r.2 with | .ok _ => false | .poison _ => true), pois⟩, s')

/-- A whole physical page as a copy reads it, with its reports (R222, R226, R230, R241, R412). -/
def State.copyPage (s : State) (v dec : Bool) (p reader : Nat) : List (Byte × Bool) × State :=
  let l := (s.mem v).served p
  let s := s.finishDecode v p
  let p := pageOf ((s.mem v).phys (l * 4096))
  let data := s.pageData v dec l
  let s := if s.unwritten v (p * 4096) then s.memError v (l * 4096) 2 reader
    else if s.memDead v (p * 4096) then s.deadPage v p reader
    else match (s.mem v).poisonWords p with
      | [] => if dec || (s.mem v).pageFails p then s.decodePage v p reader else s
      | ws => ws.foldl (fun (u : State) w => u.memError v (l * 4096 + 32 * w) 3 reader) s
  (data, s)

/-! ### Writing -/

/-- Write one byte with recomputed parity bit; the page parity follows by delta, so its difference
stands (R219). -/
def Mem.putByte (m : Mem) (ph : Nat) (b : Byte) : Mem :=
  { m with cells := aput 0 m.cells ph b, parBad := aput false m.parBad ph false }

/-- Copy a frozen page, given by module address, into a free COW page of the Store before its first write (R412): a read of the page
for the writer, and a full-page write. A write that finds none waits: `blocked` then makes its command do nothing but raise COW_FULL. -/
def State.cowFirst (s : State) (v : Bool) (p writer : Nat) : State :=
  match s.pair.freeze with
  | none => s
  | some z =>
    if !z.pages.contains p || z.copies.any (fun c => c.1 == p) then s
    else match z.cow with
      | [] => { s with pair := { s.pair with blocked := true } }
      | q :: rest =>
        let (data, s) := s.copyPage v false (pageOf ((s.mem v).phys (p * 4096))) writer
        let s := (s.finishDecode false (pageOf (s.store.phys (q * 4096)))).wakeSpan false (q * 4096) 4096
        let ph := s.store.phys (q * 4096)
        { s with store := s.store.placePage (s.bankKey false ph) (pageOf ph) data,
                 pair := { s.pair with freeze := some { z with copies := aput p z.copies p q, cow := rest } } }

/-- FAB_MODULE_ID. -/
def State.idReg (s : State) : Nat := s.rn (winBase .fab 0 + rFAB_MODULE_ID)

/-- Whether no module ID is in force. -/
def State.unset (s : State) : Bool := bit s.idReg 15

/-- The module ID in force; 0 while UNSET. -/
def State.myId (s : State) : Nat := if s.unset then 0 else fld s.idReg 0 15

/-- What a command that writes Store memory comes to (R412): the state after it, unless a write found no
COW page; then the state before it, with COW_FULL of the pairing block. -/
def State.orBlocked (s : State) (s' : State) : State :=
  if s'.pair.blocked then s.event .pair 0 7 s.myId else s'

/-- The COW page in the Store that holds the frozen contents of the page of a module address, if it was copied (R412). -/
def State.frozenPage (s : State) (a : Nat) : Option Nat :=
  match s.pair.freeze with
  | none => none
  | some z => (z.copies.find? fun c => c.1 == pageOf a).map (·.2)

/-- What a write of `n` bytes at offset `o` of a decoded page takes from the decode: its delta comes from the corrected bytes, so an
error left standing (in a Keep window) in a byte that it replaces, or in a page-parity byte that it updates, is made good (R219). -/
def Mem.foldErrors (m : Mem) (p o n : Nat) : Mem :=
  (List.range (min n 32)).foldl (fun (m : Mem) i =>
    let j := (o + i) % 32
    let hit := fun (e : Nat × Nat) => decide (128 ≤ e.1) || (decide (o ≤ 32 * e.1 + j) && decide (32 * e.1 + j < o + n))
    (((m.correct p j).getD []).filter hit).foldl (fun m e => m.repair p j e) m) m

/-- Write bytes within one page. `full` says the write presents the whole page at once (R237); a
write to a poisoned page that does not is discarded (R238).  A write to a held page waits for its decode, and a partial one
has nothing count against the page (R222, R242); one that meets a failing byte first has the page decoded (R219). -/
def State.writeInPage (s : State) (v : Bool) (a : Nat) (bs : List Byte) (full : Bool) (writer : Nat) : State :=
  let s := s.cowFirst v (pageOf a) writer
  if s.pair.blocked then s else
  let ph := (s.mem v).phys a
  let m := (s.mem v).powerUp (s.bankKey v ph)
  let s := s.setMem v m
  let p := pageOf ph
  if s.memDead v ph then s
  else if full then
    let s := s.finishDecode v p
    let ph := (s.mem v).phys a
    s.setMem v ((s.mem v).placePage (s.bankKey v ph) (pageOf ph) (bs.map fun b => (b, false)))
  else if m.pagePoisoned (s.bankKey v ph) p then s.bump (mreg v rVLT_POISON_DROP_COUNT rSTO_POISON_DROP_COUNT)
  else
    let needs := (List.range bs.length).any (fun i => m.bad (ph + i))
      || (List.range bs.length).any (fun i => (List.range 4).any fun k => aget false m.ppBad (ppKey p (4 * ((ph + i) % 32) + k)))
    let held := m.held.any fun h => h.1 == p
    let s := if held then s.finishDecode v p false
      else if needs then s.decodePage v p writer else s
    let m := s.mem v
    let ph := m.phys a
    let m := if needs || held then m.foldErrors (pageOf ph) (ph % 4096) bs.length else m
    let m := (List.range bs.length).foldl (fun m i => m.putByte (ph + i) (bs.getD i 0)) m
    let s := s.setMem v m
    (List.range ((bs.length + 62) / 32)).foldl (fun st i =>
      if 32 * i < bs.length + ph % 32 then st.untrack v (ph + 32 * i) else st) s

/-- Write bytes from module address `a`, page by page; whole aligned pages are full-page writes when
`full` is set (R145, R237). -/
def State.memWrite (s : State) (v : Bool) (a : Nat) (bs : List Byte) (full : Bool) (writer : Nat) : Nat → State
  | 0 => s
  | fuel + 1 =>
    if bs = [] then s
    else
      let n := min bs.length (4096 - a % 4096)
      let s := (s.wakeSpan v a n).writeInPage v a (bs.take n) (full && n == 4096) writer
      s.memWrite v (a + n) (bs.drop n) full writer fuel

/-- Write one aligned word as poisoned: all 32 parity bits inverted, page parity by the bytes as
written (R240). -/
def State.poisonWordAt (s : State) (v : Bool) (a : Nat) : State :=
  let ph := (s.mem v).phys (a / 32 * 32)
  let m := s.mem v
  if m.pagePoisoned (s.bankKey v ph) (pageOf ph) then s
  else s.setMem v { m with parBad := aputs false m.parBad ph (List.replicate 32 true) }

/-- Wipe a memory: zero data and parity; redirects, lists and failed dies stand (R235, R232). -/
def Mem.wipe (m : Mem) : Mem :=
  { Mem.wiped with redirect := m.redirect, retired := m.retired, softSpare := m.softSpare, deadDies := m.deadDies }

/-- The canonical form of a memory: every table's keys strictly rise and no entry equals what an unlisted key reads as. -/
def Mem.wf (m : Mem) : Bool :=
  awf 0 none m.cells && awf false none m.parBad && awf 0 none m.ppDiff && awf false none m.ppBad && awf false none m.off
    && awf none none m.poisoned && awf [] none m.tracker

end Sys2Proof.Machine
end

