-- ==== Sys2Proof/Machine/Retire.lean ====
section
/-! DEFINITION. Usable tiles (R14, R188), tiles due for retirement and the re-preparation of the READY slot
(05_hanging_plans.md R204, R205). -/

namespace Sys2Proof.Machine

open Sys2Proof

/-- The next free choice, below `n`, of the things the spec leaves open (log entry 4). -/
def State.draw (s : State) (n : Nat) : Nat × State := (Config.choice s.free % n, { s with free := s.free + 1 })

/-- Bytes that nothing fixes: contents that came back undefined or poisoned (log entry 4). -/
def State.freeBytes (s : State) (n : Nat) : List Byte × State :=
  ((List.range n).map fun i => BitVec.ofNat 8 (Config.choice (s.free + i)), { s with free := s.free + n })

/-- The reserve tile of a row: at the column the fuse map names, 16 where it records no repair (R14). -/
def State.reserveTile (s : State) (row : Nat) : Nat := tileIx row (aget 16 s.arch.fuseMap row)

/-- Whether a tile is the reserve tile of its row. -/
def State.isReserve (s : State) (t : Nat) : Bool := t == s.reserveTile (t / 64)

/-- Hops between two tiles (R183). -/
def hops (a b : Nat) : Nat :=
  (a / 64 - b / 64) + (b / 64 - a / 64) + ((a % 64 - b % 64) + (b % 64 - a % 64))

/-- Retired pages of a column. -/
def State.retiredPages (s : State) (t : Nat) : Nat := (s.vault.retired.filter fun p => colTile (p * 4096) == t).length

/-- Whether a tile's column holds CUR_PAGE_THRESH retired pages (R204, R232): judged anew whenever it is asked, so a reset and
a write of the threshold count at once. -/
def State.worn (s : State) (t : Nat) : Bool :=
  s.vault.retired != [] && decide (s.f (winBase .cur 0 + rCUR_PAGE_THRESH) 0 11 ≤ s.retiredPages t)

/-- Whether a tile is due for retirement (R204): marked, or its column worn; one on the list is due no more. -/
def State.dueNow (s : State) (t : Nat) : Bool := ((s.tile t).due || s.worn t) && !s.cur.retired.contains t

/-- Whether a tile is usable for an exhibit (R188, R205): its router sound, neither retired nor due. -/
def State.usable (s : State) (t : Nat) : Bool :=
  isTile t && !s.routerBad t && !s.dueNow t && !s.cur.retired.contains t

/-- The value an association list gives a key. -/
def lookup? (l : List (Nat × Nat)) (k : Nat) : Option Nat := (l.find? fun e => e.1 == k).map (·.2)

/-- The exhibit a placement gives a tile. -/
def Placement.exhibitOn (p : Placement) (t : Nat) : Option Nat := (p.tiles.find? fun e => e.2 == t).map (·.1)

/-- The tiles of a list nearest to a tile. -/
def nearest (t : Nat) (l : List Nat) : List Nat :=
  l.filter fun a => l.all fun b => decide (hops t a ≤ hops t b)

/-- The READY slot, if there is one (R170). -/
def State.readySlot (s : State) : Option Nat := (List.range 4).find? fun k => s.slotState k == 5

/-- Set STATE of a slot (R169). -/
def State.setSlotState (s : State) (k v : Nat) : State := s.setf (winBase .pln 0 + rPLN_SLOT_STAT + 0x20 * k) 0 3 v

/-- A slot becomes REJECTED with a code and a detail (R185). -/
def State.rejectSlot (s : State) (k code detail : Nat) : State :=
  let s := (s.setSlotState k 7).setf (winBase .pln 0 + rPLN_SLOT_STAT + 0x20 * k) 8 8 code
  s.wn (winBase .pln 0 + rPLN_SLOT_DETAIL + 0x20 * k) detail

/-- Change a slot. -/
def State.mapSlot (s : State) (k : Nat) (g : Slot → Slot) : State :=
  { s with cur := { s.cur with slots := aput Slot.empty s.cur.slots k (g (s.slot k)) } }

/-- Zero a tile's scratch (R73). -/
def State.zeroScratch (s : State) (t : Nat) : State :=
  s.mapTile t fun x => { x with scratch := [], scrPoison := [], scrErr := [] }

/-- Power a tile and its banks up (R95, R510): OFF becomes IDLE.  A tile that leaves OFF has its scratch zeroed (R73, log
entry 133), so no crate reads the last tenant's bytes from it before the hang. -/
def State.powerTile (s : State) (t : Nat) : State :=
  if s.ts t = tsOFF then
    (({ s with vault := (s.vault.powerUp (2 * t)).powerUp (2 * t + 1) }).zeroScratch t).setTs t tsIDLE
  else s

/-- Write an itinerary into the preloading half of a tile (R117, R118). -/
def State.preloadTile (s : State) (t : Nat) (steps : List Word64) : State :=
  let h := s.f (tr t rTILE_EXEC_POS) 16 1
  s.mapTile t fun x =>
    let x := { x with itinErr := acut x.itinErr (4096 * (1 - h)) (4096 * (1 - h) + 4096) }
    if h = 0 then { x with half1 := ⟨true, steps⟩ } else { x with half0 := ⟨true, steps⟩ }

/-- Post TILE_RETIRED (R436): tile, destination or 0x7FF, exhibit. -/
def State.postRetired (s : State) (t dest exhibit : Nat) : State := s.postEvent .cur 3 (rc t + dest * 2 ^ 16) exhibit

/-- A placement with exhibit `x` moved from tile `t` to tile `u`: Vault entries keep their offsets in the
new column, and their GEN is the plan's (R206, R524). -/
def Placement.move (p : Placement) (x t u gen : Nat) : Placement :=
  { p with
    tiles := p.tiles.map fun e => if e.1 == x then (x, u) else e,
    catalogue := p.catalogue.map fun (e : Nat × CatEntry) =>
      if e.2.owner = x ∧ e.2.tier = 0 then (e.1, { e.2 with address := vaultAddr u (e.2.address % 2 ^ 22), gen := gen % 2 ^ 32 }) else e,
    preload := (p.preload.filter (· != t)) ++ [u] }

/-- Re-prepare the exhibit that the READY slot gives a tile falling due (R205): on the reserve tile of the
row, or the nearest usable tile, ties by free choice; with none, the slot is REJECTED with TILES. -/
def State.reprepare (s : State) (k t x : Nat) (pl : Placement) (p : Plan) : State :=
  let free := allTiles.filter fun u => s.usable u && (pl.exhibitOn u).isNone
  let res := s.reserveTile (t / 64)
  let near := if free.contains res then [res] else nearest t free
  match near with
  | [] => ((s.rejectSlot k 0x20 (0xFF000000 + (allTiles.filter s.usable).length)).event .cur 0 0 k).postRetired t 0x7FF x
  | _ =>
    let (c, s) := if near.length = 1 then (0, s) else s.draw near.length
    let u := near.getD c 0
    let steps := match p.exhibits.find? (fun e => e.exhibit == x) with
      | some e => ((p.itins.find? fun i => i.1 == e.itinerary).map (·.2)).getD []
      | none => []
    let s := (s.powerTile u).preloadTile u steps
    s.mapSlot k fun sl => { sl with place := some (pl.move x t u p.gen) }

/-- What follows when a tile that has just fallen due for retirement did so (R205).  Past step 2 of a hang it is left to the
hang after. -/
def State.fallDue (s : State) (t : Nat) : State :=
  if 2 ≤ s.f (winBase .pln 0 + rPLN_HANG_STAT) 0 3 then { s with cur := { s.cur with lateTiles := s.cur.lateTiles ++ [t] } }
  else match s.readySlot with
    | none => s
    | some k =>
      match (s.slot k).place, (s.slot k).plan with
      | some pl, some p =>
        match pl.exhibitOn t with
        | some x => s.reprepare k t x pl p
        | none => s
      | _, _ => s

/-- A tile is marked as due for retirement (R204, R205). -/
def State.tileDue (s : State) (t : Nat) : State :=
  if s.cur.retired.contains t then s
  else
    let u := s.mapTile t fun x => { x with due := true }
    if s.dueNow t then u else u.fallDue t

/-- Columns that a change has worn, which were not so in `old`, make their tiles fall due (R204, R232). -/
def State.wornSince (s old : State) : State :=
  (((s.vault.retired.map fun p => colTile (p * 4096)).eraseDups).filter fun t => s.dueNow t && !old.dueNow t).foldl
    State.fallDue s

/-- Raise a tile's fault count; CUR_RETIRE_THRESH within CUR_RETIRE_TIME makes it due (R204). -/
def State.tileFault (s : State) (t : Nat) : State :=
  let w := s.f (winBase .cur 0 + rCUR_RETIRE_TIME) 0 16 * 2000000
  let ts := ((s.tile t).trapTimes.filter fun x => decide (s.timer < x + w)) ++ [s.timer]
  let s := s.mapTile t fun x => { x with trapTimes := ts }
  if s.f (winBase .cur 0 + rCUR_RETIRE_THRESH) 0 8 ≤ ts.length then s.tileDue t else s

end Sys2Proof.Machine
end

