-- ==== Sys2Proof/Machine/Corridors.lean ====
section
/-! DEFINITION. The corridors (01_architecture.md R12, R15, R19, R520; 03_tiles.md R77 to R79): the paths crates take, the
order they arrive in, what a failing router does to those on their way, and what the Registrar and a tile's steps reach
over them.  Beats, router buffers and arbitration are left out (log entry 130). -/

namespace Sys2Proof.Machine

open Sys2Proof

/-! ### Paths (R78) -/

/-- Coordinates from `a` (exclusive) to `b` (inclusive). -/
def lineTo (a b : Nat) : List Nat :=
  if a ≤ b then (List.range (b - a)).map (fun i => a + i + 1) else (List.range (a - b)).map (fun i => a - 1 - i)

/-- The routers after tile `a` on the normal channel to `b`: north or south first (R78). -/
def normalPath (a b : Nat) : List Nat :=
  (lineTo (a / 64) (b / 64)).map (fun r => tileIx r (a % 64)) ++ (lineTo (a % 64) (b % 64)).map (fun c => tileIx (b / 64) c)

/-- The routers after tile `a` on the detour channel to `b`: east or west first (R78). -/
def detourPath (a b : Nat) : List Nat :=
  (lineTo (a % 64) (b % 64)).map (fun c => tileIx (a / 64) c) ++ (lineTo (a / 64) (b / 64)).map (fun r => tileIx r (b % 64))

/-- The routers still ahead of a crate that stands at tile `cur` on the normal channel to `dst`, with the normal routers
`path` before it, when `bad` routers have failed; `none` when it is discarded. -/
def walkFrom (bad : Nat → Bool) (dst : Nat) : Nat → List Nat → Option (List Nat)
  | _, [] => some []
  | cur, n :: rest =>
    if bad n then (if (detourPath cur dst).any bad then none else some (detourPath cur dst))
    else (walkFrom bad dst n rest).map fun l => n :: l

/-- The routers after tile `a` that a crate to tile `b` takes. -/
def walk (bad : Nat → Bool) (a b : Nat) : Option (List Nat) := walkFrom bad b a (normalPath a b)

/-- Whether no router has failed. -/
def State.meshSound (s : State) : Bool := !(s.tiles.any fun e => e.2.routerFailed || e.2.isolated)

/-- Whether a crate can travel from tile `a` to tile `b` (R78). -/
def State.pathOk (s : State) (a b : Nat) : Bool :=
  s.meshSound || (!s.routerBad a && !s.routerBad b && (walk s.routerBad a b).isSome)

/-- Whether a crate from tile `a` to tile `b` leaves the normal channel on its way. -/
def State.onDetour (s : State) (a b : Nat) : Bool := !s.meshSound && (normalPath a b).any s.routerBad

/-- Put a crate on the corridors from tile `a` to its destination tile of this module; one that cannot
pass is discarded and counted as an incident of the Gallery (R78). -/
def State.toCorridor (s : State) (a : Nat) (c : Crate) : State :=
  if s.pathOk a c.destTile then
    { s with fab := { s.fab with
      corridor := s.fab.corridor ++ [{ c with entry := a, detour := s.onDetour a c.destTile, torn := false, since := none }] } }
  else s.event .gal 0 1 (rc c.destTile)

/-- The Wing a crate came in through: of the channel it arrived on (0 to 35), or the Wing of the Collator
that formed it (36 to 39). -/
def viaWing (a : Nat) : Nat := if a < 36 then a / 9 else a - 36

/-! ### Order (R79) -/

/-- What R79 orders crates by: the source tile, or the Wing a crate came in through (R520); the
destination tile; the class. -/
def Crate.lane (c : Crate) : Nat × Nat × Nat × Nat :=
  match c.via with
  | none => (0, c.srcTile, c.destTile, c.tc)
  | some j => (1, viaWing j, c.destTile, c.tc)

/-- Whether the crate at index `i` comes before every other one of its lane: crates of a lane that stay on the normal
channel keep their order (R79). -/
def State.isNext (s : State) (i : Nat) (c : Crate) : Bool :=
  c.detour || !((s.fab.corridor.take i).any fun d => d.lane == c.lane && !d.detour && !d.torn)

/-- Whether the crate at index `i` may arrive now: in its turn, whole, and not below A0, where routers hold what would be
written into tiles (R506). -/
def State.mayArrive (s : State) (i : Nat) (c : Crate) : Bool := !s.asleep && !c.torn && s.isNext i c

/-- Take crate `i` off the corridors. -/
def State.dropCorridor (s : State) (i : Nat) : State :=
  { s with fab := { s.fab with corridor := s.fab.corridor.eraseIdx i } }

/-- A tile reset discards the crates whose header has reached the tile and whose last beat has not: those of the crates
next to arrive there that a free draw names (R109, log entries 4 and 131). -/
def State.dropArriving (s : State) (t : Nat) : State :=
  let cs := s.fab.corridor.zipIdx
  if !(cs.any fun e => e.1.destTile == t) then s
  else
    let r := cs.foldl (fun (acc : List Crate × State) e =>
      if e.1.destTile == t && (e.1.torn || s.isNext e.2 e.1) then
        let (k, u) := acc.2.draw 2
        (if k = 0 then acc.1 ++ [e.1] else acc.1, u)
      else (acc.1 ++ [e.1], acc.2)) ([], s)
    { r.2 with fab := { r.2.fab with corridor := r.1 } }

/-! ### A router fails while crates are on their way (R15, R78) -/

/-- What becomes of a crate on its way when the router of tile `f` fails: `keep` leaves it as it is, `gone` takes it away, with
an incident of the Gallery where `told`. -/
inductive Fate where
  | keep (c : Crate)
  | gone (told : Bool)
  deriving DecidableEq, Repr

/-- The fate of a crate whose route, as it was, is `route` and passes the failed router at position `i`, by the draw `k`: past
that router already; in it, and so cut short at its receiver or never started there; or at one of the routers before it, from
where it goes on by R78. -/
def Crate.fate (c : Crate) (bad : Nat → Bool) (route : List Nat) (i k : Nat) : Fate :=
  if k % (i + 3) = 0 then .keep c
  else if k % (i + 3) = 1 then .keep { c with torn := true }
  else if k % (i + 3) = 2 then .gone false
  else
    let at_ := (c.entry :: route).getD (k % (i + 3) - 3) c.entry
    let turned := c.detour && !((normalPath c.entry c.destTile).take (k % (i + 3) - 3) == route.take (k % (i + 3) - 3))
    if turned then .gone true
    else match walk bad at_ c.destTile with
      | none => .gone true
      | some r => .keep { c with entry := at_, detour := c.detour || r != normalPath at_ c.destTile }

/-- The router of tile `f` has just failed: every crate on its way through it meets its fate, where it stands being a free
draw (R15, R78, log entry 131).  One on its way to `f` itself is discarded where it would arrive. -/
def State.reroute (s : State) (f : Nat) : State :=
  let before := fun t => t != f && s.routerBad t
  let r := s.fab.corridor.foldl (fun (acc : List Crate × State) c =>
    let route := (walk before c.entry c.destTile).getD []
    match (c.entry :: route).findIdx? (· == f) with
    | none => (acc.1 ++ [c], acc.2)
    | some i =>
      if c.destTile = f || c.torn then (acc.1 ++ [c], acc.2)
      else
        let (k, u) := acc.2.draw (i + 3)
        match c.fate s.routerBad route i k with
        | .keep d => (acc.1 ++ [d], u)
        | .gone told => (acc.1, if told then u.event .gal 0 1 (rc c.destTile) else u)) ([], s)
  { r.2 with fab := { r.2.fab with corridor := r.1 } }

/-! ### The Registrar bridge (R12, R15, R520) -/

/-- Both ports of the Registrar bridge enter the router of tile (31, 32) (R520). -/
def bridgeTile : Nat := tileIx 31 32

/-- Whether the Registrar reaches tile `t` and its answers come back: over the bridge and the corridors (R12). -/
def State.bridged (s : State) (t : Nat) : Bool := isTile t && s.pathOk bridgeTile t && s.pathOk t bridgeTile

/-- Whether register accesses reach a tile: over the bridge, its own router sound (R12, R15), and the Gallery powered
(R508). -/
def State.tileReached (s : State) (t : Nat) : Bool := s.bridged t && s.f (winBase .pwr 0 + rPWR_STATE_STAT) 0 3 != 4

/-! ### The Store over the corridors (R17, R19, R520) -/

/-- The tile a Store request from tile `t` goes to at controller `k`: the nearer, on a tie the one in the lower row; the other
when its router has failed; `none` when both have. -/
def State.storePort (s : State) (t k : Nat) : Option Nat :=
  match (ctrlTiles k).filter fun u => !s.routerBad u with
  | [a, b] => some (if hops t b < hops t a then b else a)
  | [a] => some a
  | _ => none

/-- Whether a Store request from tile `t` to device `k` passes, both ways.  A device that has lost both its tiles answers
every request as uncorrectable (R19). -/
def State.storeReach (s : State) (t k : Nat) : Bool :=
  match s.storePort t k with
  | none => true
  | some u => s.pathOk t u && s.pathOk u t

/-- The devices on which the pages of the Store addresses from `lo` to `hi` lie (R215). -/
def State.storeDevices (s : State) (lo hi : Nat) : List Nat :=
  ((List.range (segOf hi + 1 - segOf lo)).map fun g =>
    let first := max lo (storeBase + (segOf lo + g) * 2 ^ 28)
    let last := min hi (storeBase + (segOf lo + g) * 2 ^ 28 + (2 ^ 28 - 1))
    (List.range (min 64 (last / 4096 + 1 - first / 4096))).map fun i =>
      chanOf (s.segMode first) (first / 4096 * 4096 + 4096 * i) / 4).flatten.eraseDups

/-- Whether a request of tile `t` to Store addresses from `lo` to `hi` waits: the Store takes no request (R428), or no path of
the corridors leads to the tile R520 chooses (R15, log entry 132). -/
def State.storeWaits (s : State) (t lo hi : Nat) : Bool :=
  s.halted .sto || (!s.meshSound && !((s.storeDevices lo hi).all fun k => s.storeReach t k))

/-- Whether the host reaches `n` bytes at a module memory address, over the bridge and the corridors: the tiles of the Vault
columns, or the controllers' tiles (R12, R15, R19). -/
def State.hostReaches (s : State) (a n : Nat) : Bool :=
  s.meshSound || match whereIs a with
    | .vault => (List.range (n / 2 ^ 22 + 2)).all fun i => s.bridged (colTile (min (a + i * 2 ^ 22) (a + (n - 1))))
    | .store => (s.storeDevices a (a + (n - 1))).all fun k => s.storeReach bridgeTile k
    | .absent => true

/-- Read `n` bytes of one memory for the host, page by page: a page that was copied for a freeze is read from its copy (R412). -/
def State.frozenRead (s : State) (v : Bool) (a n reader : Nat) : Nat → RdRes × State
  | 0 => (⟨[], [], none⟩, s)
  | fuel + 1 =>
    let k := min n (4096 - a % 4096)
    let (r, s) := match s.frozenPage a with
      | none => s.memRead v a k reader
      | some q =>
        let (r, s) := s.memRead false (q * 4096 + a % 4096) k reader
        (⟨r.bytes, r.marks, r.poison.map fun (p : Nat × Nat) => (a / 4096 * 4096 + p.1 % 4096, p.2)⟩, s)
    if n ≤ k then (r, s)
    else
      let (x, s) := s.frozenRead v (a + k) (n - k) reader fuel
      (⟨r.bytes ++ x.bytes, r.marks ++ x.marks, r.poison.orElse fun _ => x.poison⟩, s)

/-- Read one memory for the host: page by page only while a freeze lasts. -/
def State.readFrozen (s : State) (v : Bool) (a n reader : Nat) : RdRes × State :=
  if s.pair.freeze.isNone then s.memRead v a n reader else s.frozenRead v a n reader (n / 4096 + 2)

/-- Read at a module memory address for BAR2 or DMA: absent addresses read 0 (R213); bytes that no path of the corridors leads
to come back as poison (log entry 146). -/
def State.modRead (s : State) (a n reader : Nat) : RdRes × State :=
  if !s.hostReaches a n then (⟨List.replicate n 0, List.replicate n true, some (a, 1)⟩, s)
  else match whereIs a with
    | .vault => s.readFrozen true a n reader
    | .store => s.readFrozen false a n reader
    | .absent => (⟨List.replicate n 0, List.replicate n false, none⟩, s.absentAccess a)

/-- Write at a module memory address: absent addresses ignore writes (R213), and so do those no path leads to. -/
def State.modWrite (s : State) (a : Nat) (bs : List Byte) (full : Bool) (writer : Nat) : State :=
  if !s.hostReaches a bs.length then s
  else match whereIs a with
    | .vault => s.memWrite true a bs full writer (bs.length + 1)
    | .store => s.memWrite false a bs full writer (bs.length + 1)
    | .absent => s.absentAccess a

end Sys2Proof.Machine
end

