-- ==== Sys2Proof/Machine/Fields.lean ====
section
/-! DEFINITION. What a write does to the fields of a register, whoever makes it (00_scope.md R7, R8, and the ranges the
field tables give). -/

namespace Sys2Proof.Machine

open Sys2Proof

/-- What a field does with a value outside its range. -/
inductive Limit where
  | clamp (lo hi : Nat)
  | nonzero (hi : Nat)
  | least (m : Nat)
  | notEqual (v : Nat)
  deriving DecidableEq, Repr

/-- The ranges of the field tables, by block, register offset and lowest bit. -/
def limits : List (Blk × Nat × Nat × Limit) :=
  [(.tile, rTILE_ARITH_CTRL, 0, .notEqual 3),
   (.cur, rCUR_RETIRE_THRESH, 0, .nonzero 255), (.cur, rCUR_RETIRE_TIME, 0, .nonzero 65535),
   (.cur, rCUR_PAGE_THRESH, 0, .nonzero 1024), (.cur, rCUR_THERMAL_THRESH, 0, .clamp 240 440),
   (.vlt, rVLT_PAGE_THRESH, 0, .nonzero 255), (.vlt, rVLT_PAGE_TIME, 0, .nonzero 6000), (.vlt, rVLT_SCRUB_TIME, 0, .least 10),
   (.sto, rSTO_PAGE_THRESH, 0, .nonzero 255), (.sto, rSTO_PAGE_TIME, 0, .nonzero 6000), (.sto, rSTO_SCRUB_TIME, 0, .least 60)]
  ++ [(.wng, rWNG_ACK_TIME, 0, .clamp 4 400), (.wng, rWNG_REPLAY_TIME, 0, .clamp 10 10000),
   (.wng, rWNG_LINK_DOWN_TIME, 0, .clamp 2 500), (.wng, rWNG_CREDIT_TIME, 0, .clamp 2 10000),
   (.wng, rWNG_CONGEST_TIME, 0, .nonzero 65535), (.wng, rWNG_MARGIN_THRESH, 0, .clamp 5 100),
   (.wng, rWNG_SPARE_EXP, 0, .clamp 5 12), (.wng, rWNG_STEER_TIME, 0, .clamp 10 1000),
   (.wng, rWNG_RETRAIN_TIME, 0, .clamp 1 1000), (.wng, rWNG_CAL_TEMP_THRESH, 0, .clamp 4 40),
   (.fab, rFAB_REQUEST_TIME, 0, .clamp 5 10000), (.col, rCOL_STALL_TIME, 0, .nonzero 65535)]
  ++ [(.lmp, rLMP_WATCH_THRESH, 0, .clamp 100 190), (.lmp, rLMP_SWAP_THRESH, 0, .clamp 0 198),
   (.lmp, rLMP_FADE_THRESH, 0, .clamp 5 30), (.pwr, rPWR_GOV_SLEW, 0, .clamp 5 60),
   (.pwr, rPWR_GOV_TEMP_LIMIT, 0, .clamp 340 440), (.rgs, rRGS_COND_TIME, 0, .clamp 1 1440),
   (.pair, rPAIR_BEACON_TIME, 0, .clamp 1 100), (.pair, rPAIR_LOST_THRESH, 0, .clamp 2 20),
   (.pair, rPAIR_COMPARE_TIME, 0, .clamp 1 1000), (.rgs, rRGS_LOCK_QUIET_TIME, 0, .clamp 10 10000),
   (.hst, rHST_BAR2_BASE, 0, .clamp 0 960), (.hst, rHST_RING_CFG, 0, .clamp 4 16), (.hst, rHST_LOG_CFG, 0, .clamp 8 20),
   (.rgs, rRGS_MEAS_INDEX, 0, .nonzero 7), (.pwr, rPWR_CAP, 0, .clamp 470 1600)]

/-- Ranges of the incident registers, which every block has (R445). -/
def incLimit (off lo : Nat) : Option Limit :=
  if off = rINC_CHANCE_TIME then some (.clamp 1 1000)
  else if off = rINC_POLICY then
    if lo = 0 then some (.nonzero 255) else if lo = 8 then some (.clamp 1 60000) else none
  else none

/-- The range of a field, if its table gives one. -/
def limitOf (b : Blk) (off lo : Nat) : Option Limit :=
  match incLimit off lo with
  | some l => some l
  | none => (limits.find? fun x => x.1 == b && x.2.1 == off && x.2.2.1 == lo).map (·.2.2.2)

/-- The value a field takes when `v` is written over `old`. -/
def Limit.take (l : Option Limit) (old v : Nat) : Nat :=
  match l with
  | none => v
  | some (.clamp lo hi) => max lo (min hi v)
  | some (.nonzero hi) => if v = 0 then old else min hi v
  | some (.least m) => if v = 0 then 0 else max m v
  | some (.notEqual x) => if v = x then old else v

/-- One field after a write of `w` under `mask` (R7). WO fields hold nothing. -/
def fieldAfter (b : Blk) (off : Nat) (side : Side) (w mask old : Nat) (f : RField) : Nat :=
  let o := fld old f.lo f.width
  let m := fld mask f.lo f.width
  let v := fld w f.lo f.width
  match f.acc with
  | .rw => if m = 0 then o else Limit.take (limitOf b off f.lo) o (((o ^^^ (o &&& m)) ||| (v &&& m)) % 2 ^ f.width)
  | .wdn => if m = 0 || !(wardenSide side) then o else Limit.take (limitOf b off f.lo) o (((o ^^^ (o &&& m)) ||| (v &&& m)) % 2 ^ f.width)
  | .w1c => (o ||| (v &&& m)) ^^^ (v &&& m)
  | .w1s => o ||| (v &&& m)
  | .ro => o
  | .wo => o

/-- A register's value after a write. -/
def valueAfter (b : Blk) (r : RegRow) (side : Side) (w mask old : Nat) : Nat :=
  r.fields.foldl (fun x f => setFld x f.lo f.width (fieldAfter b r.off side w mask old f)) old

/-- Whether a host write counts in FILTER_REJECT: it would change the stored value of a WDN field, within the field's limits, or writes
1 to a WDN bit that triggers (R7). -/
def filtered (b : Blk) (r : RegRow) (side : Side) (w old : Nat) (trigger : Nat) : Bool :=
  !(wardenSide side) && r.fields.any fun f => f.acc == .wdn &&
    (if f.lo = trigger then fld w f.lo f.width == 1
      else fieldAfter b r.off .warden w (2 ^ 32 - 1) old f != fld old f.lo f.width)

end Sys2Proof.Machine
end

