-- ==== Sys2Proof/Machine/Tile.lean ====
section
/-! DEFINITION. What every step of a tile shares (03_tiles.md R96 to R109, 04_itineraries.md R111 to
R126): fetch, step boundaries with waiting changes, hazards, traps, tickets, loop bookkeeping. -/

namespace Sys2Proof.Machine

open Sys2Proof

/-! ### Trap causes (R100) -/

def cILLEGAL : Nat := 1
def cITIN : Nat := 2
def cPOISON : Nat := 3
def cBOUNDS : Nat := 4
def cOVERFLOW : Nat := 5
def cTIMEOUT : Nat := 6
def cUNREACH : Nat := 7
def cHANGTIME : Nat := 8
def cARITH : Nat := 9

/-- The order of R101: lower comes first. -/
def causeRank (c : Nat) : Nat :=
  match c with
  | 2 => 0 | 3 => 1 | 4 => 2 | 1 => 3 | 9 => 4 | 5 => 5 | 7 => 6 | 6 => 7 | _ => 8

/-- The recorded cause among several (R101). -/
def topCause : List PendTrap → Option PendTrap
  | [] => none
  | p :: ps =>
    match topCause ps with
    | none => some p
    | some q => if causeRank q.cause < causeRank p.cause then some q else some p

/-- ALSO bits of every other cause of the same boundary (R101). -/
def alsoBits (ps : List PendTrap) (c : Nat) : Nat :=
  (List.range 9).foldl (fun n i => if ps.any (fun p => p.cause == i + 1) && i + 1 != c then n + 2 ^ i else n) 0

/-! ### Positions and counters -/

/-- The index of the next step (R117). -/
def State.pos (s : State) (t : Nat) : Nat := s.f (tr t rTILE_EXEC_POS) 0 15 / 8

/-- Move execution to a step index. -/
def State.setPos (s : State) (t i : Nat) : State := s.setf (tr t rTILE_EXEC_POS) 0 15 (8 * i)

/-- The active half (R118). -/
def State.halfOf (s : State) (t : Nat) : Nat := s.f (tr t rTILE_EXEC_POS) 16 1

/-- A half of a tile's itinerary store. -/
def Tile.half (x : Tile) (h : Nat) : Half := if h = 0 then x.half0 else x.half1

/-- The END word (R117). -/
def endWord : Word64 := 0x0100000000000000

/-- The step word at an index of a half: END beyond a loaded itinerary (R117). -/
def Half.step (h : Half) (i : Nat) : Word64 := h.steps.getD i (if h.loaded then endWord else 0)

/-- Add to a wrapping performance counter unless FREEZE holds it (R105, R110). -/
def State.perf (s : State) (t off n : Nat) : State :=
  if s.f (tr t rTILE_PERF_CTRL) 1 1 = 1 then s else s.wn (tr t off) (s.rn (tr t off) + n)

/-- A step completed (TILE_STEP_COUNT). -/
def State.stepDone (s : State) (t : Nat) : State := s.perf t rTILE_STEP_COUNT 1

/-- A corrected scratch or itinerary error (R72, R74): counted, and an event of SCRATCH_CORR. -/
def State.scratchCorr (s : State) (t : Nat) : State :=
  (s.bump (tr t rTILE_SCRATCH_CORR_COUNT)).event .tile t 0

/-- A crate discarded at a tile's ingress (R82, R85): counted, and an event of CRATE_DROP. -/
def State.crateDrop (s : State) (t : Nat) : State :=
  (s.bump (tr t rTILE_CRATE_DROP_COUNT)).event .tile t 10

/-- Units of the tile that are busy. -/
def Tile.unit (x : Tile) : Unit4 → Option Issued
  | .move => x.moveU
  | .crate => x.crateU
  | .matrix => x.matrixU
  | .vector => x.vectorU

/-- Set a unit's step. -/
def Tile.setUnit (x : Tile) (u : Unit4) (i : Option Issued) : Tile :=
  match u with
  | .move => { x with moveU := i }
  | .crate => { x with crateU := i }
  | .matrix => { x with matrixU := i }
  | .vector => { x with vectorU := i }

/-- Whether the units a FENCE names are idle; 0 names all four (R133). -/
def Tile.fenced (x : Tile) (units : Nat) : Bool :=
  if units = 0 then x.idle
  else (!bit units 0 || x.moveU.isNone) && (!bit units 1 || x.crateU.isNone) &&
    (!bit units 2 || x.matrixU.isNone) && (!bit units 3 || x.vectorU.isNone)

/-- Whether a step that completes now does so at a step boundary: the one that ends a run, or, where the next step may issue in
that very cycle, as a free draw says (log entry 136). -/
def State.atBoundary (s : State) (t : Nat) : Bool × State :=
  match (s.tile t).holding with
  | .trap | .stop | .ended => ((s.tile t).idle, s)
  | .none | .fence _ => let (k, s) := s.draw 2; (k == 1, s)
  | _ => (false, s)

/-- The counters that CLEAR of TILE_PERF_CTRL sets to 0 (R110). -/
def perfOffs : List Nat := [0x308, 0x30C, 0x310, 0x314, 0x318, 0x31C, 0x320, 0x324, 0x328, 0x32C, 0x330]

/-- What the counters at `offs` rose by from `s` to `u`. -/
def State.rise (s u : State) (t : Nat) (offs : List Nat) : List (Nat × Nat) :=
  offs.filterMap fun o =>
    let n := (u.rn (tr t o) + 2 ^ 32 - s.rn (tr t o)) % 2 ^ 32
    if n = 0 then none else some (o, n)

/-- Whether a change clears something that a completing step raises or counts. -/
def Deferred.isClear : Deferred → Bool
  | .statClear _ | .perfClear _ | .reset _ => true
  | _ => false

/-- Complete a step of tile `t` by `g`.  Where that is at the boundary for which a clear waits, the clear comes first: flags that
the step raises read 1 afterwards, and what it counts is counted after the clear, and SAT_COUNT and INVALID_COUNT after a tile
reset (R63, R110).  `sure`: the completion is that boundary. -/
def State.completing (s : State) (t : Nat) (g : State → State) (sure : Bool := false) : State :=
  if !(s.tile t).deferred.any (·.isClear) then g s
  else
    let a := tr t rTILE_ARITH_STAT
    let u := g (s.wn a 0)
    let fl := u.rn a
    let u := u.wn a (s.rn a ||| fl)
    let (now, u) := if sure then (true, u) else u.atBoundary t
    if !now then u
    else u.mapTile t fun x => { x with deferred := x.deferred.map fun d => match d with
      | .statClear m => .statClear (m ^^^ (m &&& fl))
      | .perfClear k => .perfClear (k ++ s.rise u t perfOffs)
      | .reset k => .reset (k ++ s.rise u t [rTILE_SAT_COUNT, rTILE_INVALID_COUNT])
      | d => d }

/-- Raise arithmetic flags and counters of a completed step (R62, R65). -/
def State.raiseFlags (s : State) (t : Nat) (fl : BitVec 8) (sat inv : Nat) : State :=
  let s := s.wn (tr t rTILE_ARITH_STAT) (s.rn (tr t rTILE_ARITH_STAT) ||| fl.toNat)
  (s.bumpN (tr t rTILE_SAT_COUNT) sat).bumpN (tr t rTILE_INVALID_COUNT) inv

/-! ### Waiting changes (R27, R29, R107) -/

/-- Count again what a clear came before (R63, R110). -/
def State.recount (s : State) (t : Nat) (after : List (Nat × Nat)) : State :=
  after.foldl (fun st k => st.wn (tr t k.1) (st.rn (tr t k.1) + k.2)) s

/-- The effect of a change at its step boundary: a register write takes its fields over what the register then holds (R107),
so that a field another write or a configuration step has set meanwhile stands where the mask leaves it. -/
def State.tileApply (s : State) (t : Nat) : Deferred → State
  | .write off v m side =>
    match regRow (tr t off) with
    | none => s
    | some (b, _, r, _) => s.wn (tr t off) (valueAfter b r side v m (s.rn (tr t off)))
  | .statClear m =>
    s.wn (tr t rTILE_ARITH_STAT) (s.rn (tr t rTILE_ARITH_STAT) &&& (0xFFFFFFFF ^^^ m))
  | .perfClear after =>
    let s := perfOffs.foldl (fun st o => st.wn (tr t o) 0) s
    (s.setf (tr t rTILE_CPM) 8 8 0xFF).recount t after
  | .clock fq v => (s.setf (tr t rTILE_CLOCK) 0 7 fq).setf (tr t rTILE_CLOCK) 8 7 v
  | .pace v => { s with light := { s.light with pace := aput 16 s.light.pace t v } }
  | .stop => s
  | .reset _ => s

/-- Whether a change is a register write. -/
def Deferred.isWrite : Deferred → Bool
  | .write _ _ _ _ => true
  | _ => false

/-- Whether a change is a RESET. -/
def Deferred.isReset : Deferred → Bool
  | .reset _ => true
  | _ => false

/-- What a change does in TRAP and OFF: writes are discarded and counted, clears and clock settings act at once (R29, R107).
R107 names RW and W1C fields; CLEAR of TILE_PERF_CTRL, a WO field, acts as the W1C writes do (log entry 134). -/
def State.tileApplyStopped (s : State) (t : Nat) (d : Deferred) : State :=
  if d.isWrite then s.bump (tr t rTILE_CFG_DROP_COUNT) else s.tileApply t d

/-- Forget how far the governor lowered a tile's clock. -/
def State.ungovern (s : State) (t : Nat) : State :=
  { s with light := { s.light with lowered := aput 0 s.light.lowered t 0, capped := aput 0 s.light.capped t 0 } }

/-- FREQ and VOLT of a tile after a reset: within the ceiling and with the offset that the condition reports keep (R379). -/
def State.margins (s : State) (t : Nat) : State :=
  let a := tr t rTILE_CLOCK
  (s.setf a 0 7 (min (s.f a 0 7) (aget 80 s.light.ceiling t))).setf a 8 7 (min 80 (s.f a 8 7 + aget 0 s.light.volt t))

/-- A tile reset (R109, R89, R116): crates part-way in, registers of class TILE and narrower, engines, control state; then what
waited for a boundary, as OFF takes it (R29), and the counts that a waiting RESET came before (R63). -/
def State.tileReset (s : State) (t : Nat) : State :=
  let s := s.dropArriving t
  let x := s.tile t
  let waiting := x.deferred.filter fun d => !d.isReset && d != .stop
  let after := (x.deferred.map fun d => match d with | .reset k => k | _ => []).flatten
  let s := s.setTile t { Tile.reset with
    cycles := x.cycles, routerFailed := x.routerFailed, isolated := x.isolated, due := x.due, trapTimes := x.trapTimes,
    holdIssue := x.holdIssue }
  let s := ((s.clearRange .tile (tr t 0) (tr t 0x1000)).ungovern t).margins t
  waiting.foldl (fun st d => st.tileApplyStopped t d) (s.recount t after)

/-- Apply every change that waits, in the state the tile has just entered (R29). -/
def State.applyStopped (s : State) (t : Nat) : State :=
  let ds := (s.tile t).deferred
  if ds.any (·.isReset) then s.tileReset t
  else
    let s := s.mapTile t fun x => { x with deferred := [] }
    if s.ts t = tsTRAP || s.ts t = tsOFF then ds.foldl (fun st d => st.tileApplyStopped t d) s
    else ds.foldl (fun st d => st.tileApply t d) s

/-- Enter IDLE by STOP or an end step (R97), abandoning a wait (R98). -/
def State.enterIdle (s : State) (t : Nat) : State :=
  let s := s.mapTile t fun x => { x with holding := .none }
  (s.setTs t tsIDLE).applyStopped t

/-- Stop by STOP or an end step, as `h` says: issue stops, issued steps complete, and the tile enters IDLE (R167). -/
def State.endTile (s : State) (t : Nat) (h : Holding) : State :=
  if (s.tile t).idle then s.enterIdle t else s.mapTile t fun x => { x with holding := h }

/-! ### Ledger exhibits (R384, R390) -/

/-- The shard of a ledger exhibit (R386): SHARD or BUDDY_SHARD by its role, of the module's own work or
of its adoption set; `none` for any other exhibit. -/
def Roles.shardOf (r : Roles) (exhibit : Nat) : Option Nat :=
  match r.exhibits.find? (fun e => e.exhibit == exhibit) with
  | none => none
  | some e =>
    if e.set = 0xFF then some (if e.role = 0 then r.shard else r.buddyShard)
    else match r.sets.find? (fun a => a.set == e.set) with
      | some a => some (if e.role = 0 then a.shard else a.buddyShard)
      | none => none

/-- The roles in force (R385). -/
def State.roles (s : State) : Option Roles :=
  match s.cur.now with
  | some p => p.roles
  | none => none

/-- The shard of the exhibit on tile `t`, if it is a ledger exhibit. -/
def State.ledgerShard (s : State) (t : Nat) : Option Nat :=
  match s.roles with
  | none => none
  | some r => r.shardOf (s.f (tr t rTILE_EXHIBIT) 0 16)

/-- Whether a HALT holds a tile's issue (R428): its own, of the Gallery or the Vault on every tile, of the pairing
block on tiles of ledger exhibits. -/
def State.haltHolds (s : State) (t : Nat) : Bool :=
  s.halted .gal || s.halted .vlt || s.halted .tile t || (s.halted .pair && (s.ledgerShard t).isSome)

/-- Whether the tile may issue: in RUN, nothing holding issue, no Lockdown or HALT on it (R428, R437). -/
def State.canIssue (s : State) (t : Nat) : Bool :=
  isTile t && s.ts t == tsRUN && !(s.tile t).holdIssue && !s.haltHolds t && !s.stopped

/-! ### Taking a trap (R99 to R104, R114) -/

/-- SPACE and flags of TILE_TRAP_INFO travel in `flags`: [3:0] SPACE, [4] READ_BEFORE_WRITE,
[23:16] ARITH_FLAGS. -/
def State.writeTrapRecord (s : State) (t : Nat) (p : PendTrap) (also : Nat) : State :=
  let s := s.wn (tr t rTILE_TRAP_CAUSE) (p.cause + also * 2 ^ 16)
  let s := s.wn (tr t rTILE_TRAP_POS) (s.rn (tr t rTILE_EXEC_POS))
  let s := s.wr64 (tr t rTILE_TRAP_STEP_LO) (tr t rTILE_TRAP_STEP_HI) p.word.toNat
  let s := s.wn (tr t rTILE_TRAP_INFO) p.flags
  let s := s.wr64 (tr t rTILE_TRAP_DATA_LO) (tr t rTILE_TRAP_DATA_HI) p.data
  let s := s.wn (tr t rTILE_TRAP_GEN) (s.rn (tr t rTILE_GEN))
  s.wn (tr t rTILE_TRAP_CYCLE) (s.rn (tr t rTILE_CYCLE_COUNT_LO))

/-- Post the TRAP record of a tile (R435). -/
def State.postTrap (s : State) (t : Nat) : State :=
  let c := s.rn (tr t rTILE_TRAP_CAUSE)
  s.post 0x02 .tile t (leBytes 1 (fld c 0 4) ++ leBytes 1 0 ++ leBytes 2 (fld c 16 9)
    ++ leBytes 4 (s.rn (tr t rTILE_TRAP_POS))
    ++ leBytes 8 (s.rd64 (tr t rTILE_TRAP_DATA_LO) (tr t rTILE_TRAP_DATA_HI)))

/-- Enter TRAP with the causes collected for this boundary (R99): the record, the TRAP logbook
record, one incident event per cause in the order of R422, the fault count of R204, and the changes that waited. -/
def State.enterTrap (s : State) (t : Nat) : State :=
  let ps := (s.tile t).pendTraps
  match topCause ps with
  | none => s
  | some p =>
    let s := s.writeTrapRecord t p (alsoBits ps p.cause)
    let s := s.mapTile t fun x => { x with holding := .none, pendTraps := [] }
    let s := (s.setTs t tsTRAP).postTrap t
    let s := (s.bySeverity .tile t (ps.foldl (fun m q => m ||| 2 ^ q.cause) 0)).foldl
      (fun st k => st.event .tile t k 0 false (k != p.cause)) s
    let s := if p.cause = cITIN || (p.cause = cPOISON && (p.flags % 16 = 0 || p.flags % 16 = 4)) then s.tileFault t else s
    s.applyStopped t

/-- Take the trap when nothing more has to complete: issue stops, issued steps run out, then TRAP
(R114). -/
def State.trapNow (s : State) (t : Nat) : State :=
  if (s.tile t).idle then s.enterTrap t
  else s.mapTile t fun x => { x with holding := .trap }

/-- A cause that arises (R99, R101): in TRAP it only sets its bit of ALSO; otherwise it waits for the
boundary, which for a waiting step is at once, by abandoning it (R98). -/
def State.addCause (s : State) (t : Nat) (p : PendTrap) : State :=
  if s.ts t = tsTRAP then
    let a := tr t rTILE_TRAP_CAUSE
    let s := s.wn a (s.rn a ||| 2 ^ (15 + p.cause))
    s.event .tile t p.cause
  else
    let s := s.mapTile t fun x => { x with pendTraps := x.pendTraps ++ [p] }
    match (s.tile t).holding with
    | .wait _ _ => (s.setTs t tsRUN).trapNow t
    | .hang => s.trapNow t
    | _ => s

/-! ### Tickets (R86 to R88) -/

/-- The register of ticket counter `k`. -/
def tk (t k : Nat) : Nat := tr t rTILE_TICKET + 4 * (k % 64)

/-- Record an amount lost to a ticket overflow: a new cause, or added to the one pending or recorded
(R88, R102). Its step word is that of the ADD that caused it (R114); an arrival has no step, and its word is free (log entry 4). -/
def State.ticketLoss (s : State) (t lost : Nat) (w : Option Word64) : State :=
  if s.ts t = tsTRAP then
    let lo := tr t rTILE_TRAP_DATA_LO
    let hi := tr t rTILE_TRAP_DATA_HI
    let s := if s.f (tr t rTILE_TRAP_CAUSE) 0 4 = cOVERFLOW then s.wr64 lo hi (s.rd64 lo hi + lost) else s
    s.addCause t ⟨cOVERFLOW, lost, 0, 0⟩
  else if (s.tile t).pendTraps.any (fun p => p.cause == cOVERFLOW) then
    s.mapTile t fun x => { x with pendTraps := x.pendTraps.map fun p =>
      if p.cause == cOVERFLOW then { p with data := p.data + lost } else p }
  else match w with
    | some w => s.addCause t ⟨cOVERFLOW, lost, w, 0⟩
    | none => (s.draw (2 ^ 64)).2.addCause t ⟨cOVERFLOW, lost, BitVec.ofNat 64 (s.draw (2 ^ 64)).1, 0⟩

/-- Add to a ticket counter, saturating at 65,535 with the overflow rule (R86, R88). -/
def State.ticketAdd (s : State) (t k n : Nat) (w : Option Word64 := none) : State :=
  let v := s.f (tk t k) 0 16
  if 65535 < v + n then (s.setf (tk t k) 0 16 65535).ticketLoss t (v + n - 65535) w
  else s.setf (tk t k) 0 16 (v + n)

/-! ### Loops (R129) -/

/-- Where execution goes after the step at index `p`, and the loop stack then: the innermost level
ending there counts one iteration, repeats or is popped, and so outward. -/
def loopNext : List LoopLevel → Nat → List LoopLevel × Nat
  | [], p => ([], p + 1)
  | l :: ls, p =>
    if l.start + l.body = p then
      if 1 < l.left then (⟨l.start, l.body, l.completed + 1, l.left - 1⟩ :: ls, l.start + 1)
      else loopNext ls p
    else (l :: ls, p + 1)

/-- Pop the levels whose body ends before a jump's target (R130). -/
def loopLeave (ls : List LoopLevel) (target : Nat) : List LoopLevel :=
  ls.dropWhile fun l => decide (l.start + l.body < target)

/-! ### Fetching and issuing -/

/-- A plain cause of a step: its word, its data and its INFO. -/
def causeOf (c : Nat) (w : Word64) (data : Nat := 0) (flags : Nat := 0) : PendTrap := ⟨c, data, w, flags⟩

/-- Whether a class and operation are defined (R126 and the encoding tables). -/
def opDefined (cls op : Nat) : Bool :=
  match cls with
  | 0 => decide (op ≤ 8)
  | 1 => decide (op ≤ 2)
  | 2 => decide (op ≤ 4)
  | 3 => decide (op ≤ 3)
  | 4 => decide (op ≤ 2)
  | 5 => true
  | 6 => decide (op ≤ 4)
  | _ => false

/-- What fetching the next step of a tile finds. -/
inductive Fetched where
  | word (w : Word64)
  | trap (p : PendTrap)
  deriving DecidableEq, Repr

/-- Fetch the step at EXEC_POS from the active half (R74): a double-bit error traps; a word whose
class or operation is not defined is illegal (R126). -/
def State.fetchStep (s : State) (t : Nat) : Fetched :=
  let i := s.pos t
  let h := s.halfOf t
  let w := ((s.tile t).half h).step i
  if aget 0 (s.tile t).itinErr (4096 * h + i) = 2 then .trap (causeOf cITIN w (8 * i))
  else if opDefined (fld w.toNat 60 4) (fld w.toNat 56 4) then .word w
  else .trap (causeOf cILLEGAL w)

/-- Correct a single-bit error of the step fetched (R74). -/
def State.correctFetch (s : State) (t : Nat) : State :=
  let k := 4096 * s.halfOf t + s.pos t
  if aget 0 (s.tile t).itinErr k = 1 then
    (s.mapTile t fun x => { x with itinErr := aput 0 x.itinErr k 0 }).scratchCorr t
  else s

/-- The step word at EXEC_POS. -/
def State.wordAt (s : State) (t : Nat) : Word64 := ((s.tile t).half (s.halfOf t)).step (s.pos t)

/-- How an operation's issue turns out: a cause, a hazard that holds it, or the state after it. -/
inductive Issue where
  | trap (ps : List PendTrap)
  | hold
  | go (s : State)
  deriving DecidableEq, Repr

/-- Take the step boundary before the next step (R27, R113): waiting changes apply; STOP and RESET
end the run there. -/
def State.boundary (s : State) (t : Nat) : State :=
  let ds := (s.tile t).deferred
  if ds.any (·.isReset) then s.applyStopped t
  else if ds.contains .stop then s.endTile t .stop
  else
    let s := s.mapTile t fun x => { x with deferred := [] }
    ds.foldl (fun st d => st.tileApply t d) s

/-- Count one execution of the step at an index (R54). -/
def Tile.countExec (x : Tile) (i : Nat) : Tile :=
  { x with execCount := aput 0 x.execCount i (aget 0 x.execCount i + 1) }

/-- The causes that checking a step finds. -/
def Issue.causes : Issue → List PendTrap
  | .trap ps => ps
  | _ => []

/-- Issue the next step of tile `t` as a step of class `cls` and operation `op`, by `body` (R111, R112): the tile must be
able to issue and the word must be of that kind.  The word fetched is corrected (R74).  Causes of the boundary are collected
and a trap is taken before anything of the step happens, and before the changes that wait there: those then meet the tile in
TRAP (R93, R99, R101, log entry 135).  Where a configuration step and a waiting host write reach one field, the host's value
stands (R166). -/
def State.issue (s0 : State) (t cls op : Nat) (body : State → Word64 → Nat → Issue) : State :=
  if !s0.canIssue t || (s0.tile t).holding != .none then s0 else
  let ds := (s0.tile t).deferred
  if ds.any (fun d => d == .stop || d.isReset) && (s0.tile t).pendTraps == [] then s0.boundary t else
  let s1 := s0.correctFetch t
  let trap := fun (ps : List PendTrap) => (s1.mapTile t fun x => { x with pendTraps := x.pendTraps ++ ps }).trapNow t
  match s0.fetchStep t with
  | .trap p => trap [p]
  | .word w =>
    if fld w.toNat 60 4 ≠ cls ∨ fld w.toNat 56 4 ≠ op then s0
    else
      let causes := (body s1 w (s1.pos t)).causes
      if causes ≠ [] ∨ (s1.tile t).pendTraps ≠ [] then trap causes
      else match body (s1.boundary t) w (s1.pos t) with
        | .trap ps => trap ps
        | .hold => s0
        | .go s =>
          let s := if cls = 6 then (ds.filter (·.isWrite)).foldl (fun u d => u.tileApply t d) s else s
          s.mapTile t fun x => x.countExec (s1.pos t)

/-- Go on to the step after index `p`, by the loop rules (R129); `none` past the end of the half
(R119). -/
def State.advance (s : State) (t p : Nat) : Option State :=
  let (ls, n) := loopNext (s.tile t).loops p
  if 4095 < n then none
  else some ((s.mapTile t fun x => { x with loops := ls }).setPos t n)

/-- An issue that only advances after a state change; past the end of the half it is illegal. -/
def State.goNext (s : State) (t p : Nat) (w : Word64) (g : State → State) : Issue :=
  match s.advance t p with
  | none => .trap [causeOf cILLEGAL w]
  | some s' => .go ((g s').stepDone t)

/-- Scalar register `n`; s0 reads 0 (R116). -/
def Tile.sreg (x : Tile) (n : Nat) : Word := if n = 0 then 0 else aget 0 x.s n

/-- Write a scalar register; writes to s0 are discarded (R116). -/
def Tile.setS (x : Tile) (n : Nat) (v : Word) : Tile :=
  if n = 0 then x else { x with s := aput 0 x.s n v }

/-- Descriptor `n`. -/
def Tile.desc (x : Tile) (n : Nat) : Desc := aget Desc.zero x.d n

/-! ### Hazards (R123) -/

/-- Resources by number: v registers 0 to 31, banks 32 to 35, descriptors 36 to 51. -/
def rV (n : Nat) : Nat := n % 32
def rBank (n : Nat) : Nat := 32 + n % 4
def rDesc (n : Nat) : Nat := 36 + n % 16

/-- Resources of one vector operand over its repetitions (R123, R161). -/
def vecRes (b rep : Nat) : List Nat :=
  match fld b 6 2 with
  | 0 => (List.range rep).map fun i => rV (fld b 0 5 + i)
  | 1 => (List.range rep).map fun i => rBank ((fld b 4 2 * 16 + fld b 0 4 + i) / 16)
  | 2 => [rDesc (fld b 0 4)]
  | _ => []

/-- How many sources a vector operation reads (R160, R162). -/
def vecSources (op : Nat) : Nat :=
  match op with
  | 1 => 2 | 2 => 2 | 3 => 2 | 4 => 3 | 5 => 2 | 6 => 2 | 7 => 2 | 8 => 3 | _ => 1

/-- The banks an MMA writes: one for FLOW 1; M rows in groups of 64 for FLOW 0 (R158). -/
def mmaBanks (flow bank m : Nat) : List Nat :=
  if flow = 1 then [rBank bank] else (List.range ((m + 63) / 64)).map fun i => rBank (bank + i)

/-- The descriptors a descriptor names in turn: its scale and group descriptors (R140). -/
def descNames (d : Desc) (n : Nat) : List Nat :=
  let f := fld d.w0.toNat 44 4
  [rDesc n] ++ (if isMX f then [rDesc (fld d.w3.toNat 0 4)] else [])
    ++ (if isGrouped f then [rDesc (fld d.w3.toNat 4 4)] else [])

/-- Expand descriptor resources by the scale and group descriptors they name. -/
def expandDescs (x : Tile) (rs : List Nat) : List Nat :=
  rs ++ (rs.map fun r => if 36 ≤ r then descNames (x.desc (r - 36)) (r - 36) else []).flatten

/-- Resources a step reads. -/
def readsOf (x : Tile) (w : Nat) : List Nat :=
  let op := fld w 56 4
  match fld w 60 4 with
  | 2 => expandDescs x (if op = 0 then [rDesc (fld w 52 4), rDesc (fld w 48 4)]
      else if op = 1 then [rDesc (fld w 52 4)] else if op = 2 then [] else [rDesc (fld w 52 4)])
  | 3 => if op = 1 then [] else expandDescs x [rDesc (fld w 52 4), rDesc (fld w 48 4)]
  | 4 =>
    if op = 0 then expandDescs x [rDesc (fld w 52 4)]
    else if op = 1 then
      expandDescs x ([rDesc (fld w 49 4)] ++ (if fld w 55 1 = 1 then [rDesc (fld w 45 4)] else []))
        ++ mmaBanks (fld w 55 1) (fld w 53 2) (fld (x.desc (fld w 49 4)).w1.toNat 16 16 + 1)
    else []
  | 5 =>
    let rep := fld w 13 8 + 1
    let n := vecSources op
    expandDescs x (vecRes (fld w 40 8) rep ++ (if 2 ≤ n then vecRes (fld w 32 8) rep else [])
      ++ (if 3 ≤ n then vecRes (fld w 24 8) rep else [])
      ++ (if fld w 54 2 = 2 then [rDesc (fld w 48 4)] else []))
  | _ => []

/-- Vector registers, banks and descriptors a step writes. -/
def writesOf (x : Tile) (w : Nat) : List Nat :=
  let op := fld w 56 4
  match fld w 60 4 with
  | 2 => if op = 2 then [rDesc (fld w 52 4)] else []
  | 4 =>
    if op = 1 then mmaBanks (fld w 55 1) (fld w 53 2) (fld (x.desc (fld w 49 4)).w1.toNat 16 16 + 1)
    else if op = 2 then ((List.range 4).filter fun b => bit w (52 + b)).map rBank
    else []
  | 5 => if fld w 54 2 = 2 then [] else vecRes (fld w 48 8) (fld w 13 8 + 1)
  | _ => []

/-- The steps now in the units. -/
def Tile.running (x : Tile) : List Issued :=
  x.moveU.toList ++ x.crateU.toList ++ x.matrixU.toList ++ x.vectorU.toList

/-- A view of the tile as a running step captured it (R113). -/
def Issued.view (i : Issued) (x : Tile) : Tile := { x with s := i.s, d := i.d }

/-- Whether two lists share an element. -/
def meets (a b : List Nat) : Bool := a.any fun x => b.contains x

/-- Whether a step with these reads and writes must wait for an unfinished step (R123).  Descriptors
carry no write-after-read hazard. -/
def Tile.hazard (x : Tile) (reads writes : List Nat) : Bool :=
  x.running.any fun i =>
    let y := i.view x
    meets reads (writesOf y i.word.toNat) ||
      meets (writes.filter (fun r => decide (r < 36))) (writesOf y i.word.toNat ++ readsOf y i.word.toNat)

/-- Capture a step for a unit at issue (R113). -/
def State.capture (s : State) (t : Nat) (w : Word64) (p : Nat) : Issued :=
  let x := s.tile t
  ⟨w, p, aget 0 x.execCount p, s.rd (tr t rTILE_ARITH_CTRL), s.f (tr t rTILE_ARITH_TRAP_EN) 0 8, s.f (tr t rTILE_CRATE_TIME) 0 16, x.s, x.d, x.tensors, x.corridors, 0, []⟩

/-- Issue a step to its unit: held while the unit is busy or a hazard stands (R112, R123), trapped by
`check`, otherwise placed and execution goes on. -/
def State.toUnit (s : State) (t : Nat) (u : Unit4) (w : Word64) (p : Nat) (check : List PendTrap) : Issue :=
  let x := s.tile t
  if (x.unit u).isSome || x.hazard (readsOf x w.toNat) (writesOf x w.toNat) then .hold
  else
    match s.advance t p with
    | none => .trap (causeOf cILLEGAL w :: check)
    | some s' =>
      if check ≠ [] then .trap check
      else .go (s'.mapTile t fun y => y.setUnit u (some (s.capture t w p)))

end Sys2Proof.Machine
end

