-- ==== Sys2Proof/Machine/Operands.lean ====
section
/-! DEFINITION. The operand forms of a step: stream descriptors and their patterns (R137 to R141),
range checks (R76, R115), reading and writing patterns with conversion (R48 to R54, R72, R83, R84,
R124, R139, R140, R144, R145). -/

namespace Sys2Proof.Machine

open Sys2Proof

/-! ### Descriptor fields (R137) -/

def Desc.base (d : Desc) : Nat := fld d.w0.toNat 0 40
def Desc.space (d : Desc) : Nat := fld d.w0.toNat 40 4
def Desc.format (d : Desc) : Nat := fld d.w0.toNat 44 4
def Desc.corridor (d : Desc) : Nat := fld d.w0.toNat 48 8
def Desc.target (d : Desc) : Nat := fld d.w0.toNat 56 2
def Desc.n0 (d : Desc) : Nat := fld d.w1.toNat 0 16 + 1
def Desc.n1 (d : Desc) : Nat := fld d.w1.toNat 16 16 + 1
def Desc.n2 (d : Desc) : Nat := fld d.w1.toNat 32 16 + 1
def Desc.tensor (d : Desc) : Nat := fld d.w1.toNat 48 14
def Desc.stride1 (d : Desc) : Int := sext 32 (fld d.w2.toNat 0 32)
def Desc.stride2 (d : Desc) : Int := sext 32 (fld d.w2.toNat 32 32)
def Desc.scaleDesc (d : Desc) : Nat := fld d.w3.toNat 0 4
def Desc.groupDesc (d : Desc) : Nat := fld d.w3.toNat 4 4

/-- Elements of the pattern (R138). -/
def Desc.elems (d : Desc) : Nat := d.n0 * d.n1 * d.n2

/-- Rows of the pattern. -/
def Desc.rows (d : Desc) : Nat := d.n1 * d.n2

/-- Bytes of a row of `n` elements (R139). -/
def rowBytes (bits n : Nat) : Nat :=
  if bits = 6 then (n + 3) / 4 * 3 else if bits = 4 then (n + 1) / 2 else n * bits / 8

/-- Bits per element: FORMAT's, or 8 in a scale or group descriptor (R138). -/
def Desc.bits (d : Desc) (aux : Bool) : Nat := if aux then 8 else fmtBits d.format

/-- The byte offset of each row in pattern order (R138). -/
def Desc.rowBases (d : Desc) : List Int :=
  ((List.range d.n2).map fun (p : Nat) => (List.range d.n1).map fun (r : Nat) =>
    (d.base : Int) + (p : Int) * d.stride2 + (r : Int) * d.stride1).flatten

/-- The lowest byte the pattern touches (R115). -/
def Desc.low (d : Desc) : Int :=
  (d.base : Int) + min 0 (((d.n2 : Int) - 1) * d.stride2) + min 0 (((d.n1 : Int) - 1) * d.stride1)

/-- The highest byte the pattern touches (R115). -/
def Desc.high (d : Desc) (aux : Bool) : Int :=
  (d.base : Int) + max 0 (((d.n2 : Int) - 1) * d.stride2) + max 0 (((d.n1 : Int) - 1) * d.stride1)
    + (rowBytes (d.bits aux) d.n0 : Int) - 1

/-- Blocks of 32 in a row of `k` elements (R140). -/
def blocksIn (k : Nat) : Nat := (k + 31) / 32

/-- Groups of 512 in a row of `k` elements (R140). -/
def groupsIn (k : Nat) : Nat := (k + 511) / 512

/-- Whether a descriptor's fields are legal (R137): reserved bits 0, SPACE 0 to 3, a defined FORMAT,
fields 0 where its SPACE or FORMAT does not use them; a scale or group descriptor has FORMAT 0. -/
def Desc.valid (d : Desc) (aux : Bool) : Bool :=
  fld d.w0.toNat 58 6 == 0 && fld d.w1.toNat 62 2 == 0 && fld d.w3.toNat 8 56 == 0 &&
  decide (d.space ≤ 3) && fmtValid d.format && (!aux || d.format == 0) &&
  (d.space == 3 || (d.corridor == 0 && d.target == 0)) && d.target != 3 &&
  (d.space == 2 || (d.space == 3 && d.target == 2) || d.tensor == 0) &&
  (isMX d.format || d.scaleDesc == 0) && (isGrouped d.format || d.groupDesc == 0)

/-! ### Where a pattern lies -/

/-- A resolved place: scratch, or a memory from a module address (R141). -/
inductive Place where
  | scratch
  | mem (v : Bool) (base : Nat)
  deriving DecidableEq, Repr

/-- Resolve a descriptor of SPACE 0 to 2 at tile `t` with the captured tensors: the place and the
size of its range (R76, R141, R178); `none` for a tensor the tile may not name. -/
def resolve (t exhibit : Nat) (tensors : Assoc CatEntry) (d : Desc) : Option (Place × Nat) :=
  match d.space with
  | 0 => some (.scratch, 0x40000)
  | 1 => some (.mem true (vaultAddr t 0), 0x400000)
  | 2 =>
    let e := aget ⟨3, 0, false, false, false, 0xFFFF, 0, 0, 0⟩ tensors d.tensor
    if e.tier = 0 then
      if colTile e.address = t then some (.mem true e.address, e.length) else none
    else if e.tier = 1 then
      if e.owner = exhibit || e.shared then some (.mem false (storeBase + e.address), e.length) else none
    else none
  | _ => none

/-- The SPACE code a trap shows for a descriptor and the address there of the descriptor's offset 0 (R102): a listed tensor
lies in the Vault or in the Store, and its addresses are those of the column or of the Store's data space (log entry 139). -/
def spaceOf (tensors : Assoc CatEntry) (d : Desc) : Nat × Nat :=
  if d.space = 2 then
    match tensors.find? (fun e => e.1 == d.tensor) with
    | some (_, e) => if e.tier = 0 then (1, e.address % 2 ^ 22) else if e.tier = 1 then (2, e.address) else (2, 0)
    | none => (2, 0)
  else (d.space, 0)

/-- The BOUNDS cause of a pattern that fails at offset `o`: the address in the space TILE_TRAP_INFO names, below 0 as a 64-bit
two's complement number (log entry 139); for a tensor that is not listed, its offset in 40 bits beside its ID (R102). -/
def boundsCause (w : Word64) (tensors : Assoc CatEntry) (d : Desc) (o : Int) : PendTrap :=
  if d.space = 2 ∧ !(tensors.any fun e => e.1 == d.tensor) then causeOf cBOUNDS w (wrapInt 40 o + d.tensor * 2 ^ 48) 2
  else causeOf cBOUNDS w (wrapInt 64 ((spaceOf tensors d).2 + o)) (spaceOf tensors d).1

/-- The BOUNDS cause of a pattern, if it leaves its range (R102, R115). -/
def boundsOf (w : Word64) (t exhibit : Nat) (tensors : Assoc CatEntry) (d : Desc) (aux : Bool) : List PendTrap :=
  match resolve t exhibit tensors d with
  | none => [boundsCause w tensors d d.low]
  | some (_, size) =>
    if d.low < 0 ∨ (size : Int) ≤ d.low then [boundsCause w tensors d d.low]
    else if (size : Int) ≤ d.high aux then [boundsCause w tensors d (d.high aux)]
    else []

/-- Whether a SPACE 2 descriptor's FORMAT is its tensor's (R141). -/
def formatAgrees (tensors : Assoc CatEntry) (d : Desc) : Bool :=
  d.space != 2 || (match tensors.find? (fun e => e.1 == d.tensor) with
    | some (_, e) => e.format == d.format
    | none => true)

/-- Whether the scale and group descriptors that a descriptor's FORMAT uses are legal, and walk one byte for each block and
each group of every row (R137, R140). -/
def scalesOk (x : Tile) (d : Desc) : Bool :=
  let ok := fun (a : Desc) (n : Nat) => a.valid true && a.elems == d.rows * n
  (!isMX d.format || ok (x.desc d.scaleDesc) (blocksIn d.n0)) && (!isGrouped d.format || ok (x.desc d.groupDesc) (groupsIn d.n0))

/-- The BOUNDS cause of a pattern in SPACE 0 to 2 of a defined FORMAT: beyond its range (R115), or a tensor in the Store where the
operand may not lie there (`inStore` false; R155). -/
def rangeCauses (s : State) (t : Nat) (x : Tile) (w : Word64) (inStore : Bool) (d : Desc) (aux : Bool) : List PendTrap :=
  if 2 < d.space ∨ !fmtValid d.format then []
  else
    let here := boundsOf w t (s.f (tr t rTILE_EXHIBIT) 0 16) x.tensors d aux
    if here = [] ∧ !inStore ∧ d.space = 2 ∧ (spaceOf x.tensors d).1 = 2 then [boundsCause w x.tensors d d.low] else here

/-- The scale and group descriptors that a descriptor's FORMAT uses. -/
def auxDescs (x : Tile) (d : Desc) : List Desc :=
  (if isMX d.format then [x.desc d.scaleDesc] else []) ++ (if isGrouped d.format then [x.desc d.groupDesc] else [])

/-- Causes of the local descriptor of a SEND or a READ, which move elements only: legality, the counts of the scale and group
descriptors it names and tensor format (R137, R140, R141), and the range of the elements (R115).  Both causes arise for one
boundary where both fail (R101). -/
def elementCauses (s : State) (t : Nat) (x : Tile) (w : Word64) (n : Nat) : List PendTrap :=
  let d := x.desc n
  (if d.valid false && d.space != 3 && formatAgrees x.tensors d && scalesOk x d then [] else [causeOf cILLEGAL w])
    ++ rangeCauses s t x w true d false

/-- Causes of one local operand descriptor with its scale and group descriptors, which the step reads or writes and which must
then lie in SPACE 0 to 2.  The ranges of the scale and group arrays are checked right after the elements they belong to, before
the next operand: they are no field of the step word, and R115 gives them no place (log entry 140). -/
def localCauses (s : State) (t : Nat) (x : Tile) (w : Word64) (n : Nat) (inStore : Bool := true) : List PendTrap :=
  let d := x.desc n
  let aux := auxDescs x d
  (if d.valid false && d.space != 3 && formatAgrees x.tensors d && scalesOk x d && aux.all (fun a => a.space != 3) then []
    else [causeOf cILLEGAL w])
    ++ rangeCauses s t x w inStore d false ++ (aux.map fun a => rangeCauses s t x w inStore a true).flatten

/-- Causes of a remote descriptor (SPACE 3): legality, the counts of the scale and group descriptors it names (R140), and a
CORRIDOR on the list (R137, R142). -/
def remoteCauses (x : Tile) (w : Word64) (n : Nat) : List PendTrap :=
  let d := x.desc n
  if d.valid false && d.space == 3 && decide (d.corridor < x.corridors.length) && scalesOk x d then [] else [causeOf cILLEGAL w]

/-- The causes of a step: ILLEGAL_STEP once, and the first BOUNDS alone (R101, R115). -/
def firstBounds (ps : List PendTrap) : List PendTrap :=
  (ps.filter fun p => p.cause != cBOUNDS).take 1 ++ (ps.filter fun p => p.cause == cBOUNDS).take 1

/-! ### Reading bytes -/

/-- Bytes read at a place with their poison marks, the first poisoned byte as (offset, read before
write), and the state after. -/
structure Got where
  bytes : List Byte
  marks : List Bool
  first : Option (Nat × Bool)

/-- Whether a byte of a space lies in a range others may be writing (R83, R124). -/
def inRaced (rs : List Raced) (space a : Nat) : Bool :=
  rs.any fun r => r.space == space && decide (r.lo ≤ a) && decide (a < r.hi)

/-- Replace bytes in raced ranges by free values (R83, R124: old bytes, new bytes or a mixture). -/
def raceBytes (rs : List Raced) (space : Nat) : Nat → Nat → List Byte → List Byte
  | _, _, [] => []
  | a, k, b :: bs =>
    (if inRaced rs space a then BitVec.ofNat 8 (Config.racedByte k) else b) :: raceBytes rs space (a + 1) (k + 1) bs

/-- Space number of a place for raced ranges. -/
def Place.space : Place → Nat
  | .scratch => 0
  | .mem v _ => if v then 1 else 2

/-- The address of an offset in its space. -/
def Place.at : Place → Nat → Nat
  | .scratch, o => o
  | .mem _ b, o => b + o

/-- Read scratch bytes (R72): a single-bit error is corrected, written back and counted; a poisoned
or uncorrectable word reads as poison. -/
def State.scratchRead (s : State) (t o n : Nat) : Got × State :=
  let x := s.tile t
  let words := if n = 0 then [] else (List.range ((o + n - 1) / 32 - o / 32 + 1)).map (· + o / 32)
  let single := words.filter fun w => aget 0 x.scrErr w == 1
  let badW := fun w => aget false x.scrPoison w || aget 0 x.scrErr w == 2
  let marks := (List.range n).map fun i => badW ((o + i) / 32)
  let first := firstSome (fun i => if badW ((o + i) / 32) then some (o + i, false) else none) (List.range n)
  let s := s.setTile t { x with scrErr := single.foldl (fun m w => aput 0 m w 0) x.scrErr }
  let s := single.foldl (fun st _ => st.scratchCorr t) s
  (⟨agets 0 x.scratch o n, marks, first⟩, s)

/-- Read bytes at a place for a reader. -/
def State.readAt (s : State) (t : Nat) (pl : Place) (rs : List Raced) (o n reader : Nat) : Got × State :=
  let (g, s) := match pl with
    | .scratch => s.scratchRead t o n
    | .mem v b =>
      let (r, s) := s.memRead v (b + o) n reader
      (⟨r.bytes, r.marks, r.poison.map fun (p : Nat × Nat) => (p.1 - b, p.2 == 2)⟩, s)
  let bs := raceBytes rs pl.space (pl.at o) s.free g.bytes
  (⟨bs, g.marks, g.first⟩, if rs = [] then s else { s with free := s.free + n })

/-- What a pattern read gives: element codes by row with poison marks, and the first poison. -/
structure Rows where
  rows : List (List (Nat × Bool))
  first : Option (Nat × Bool)

/-- Element `j` of a row of packed bytes (R42, R138). -/
def elemOf (bits num : Nat) (marks : List Bool) (j : Nat) : Nat × Bool :=
  let lo := j * bits
  (fld num lo bits, ((marks.drop (lo / 8)).take ((lo + bits - 1) / 8 - lo / 8 + 1)).any id)

/-- Read a descriptor's pattern row by row (R138). -/
def State.readPattern (s : State) (t : Nat) (i : Issued) (d : Desc) (aux : Bool) (reader : Nat) : Rows × State :=
  match resolve t (s.f (tr t rTILE_EXHIBIT) 0 16) i.tensors d with
  | none => (⟨[], none⟩, s)
  | some (pl, _) =>
    let bits := d.bits aux
    let r := d.rowBases.foldl (fun (acc : Rows × State) b =>
      let (g, st) := acc.2.readAt t pl i.raced b.toNat (rowBytes bits d.n0) reader
      let num := leNat g.bytes
      (⟨acc.1.rows ++ [(List.range d.n0).map fun j => elemOf bits num g.marks j],
        match acc.1.first with | some f => some f | none => g.first⟩, st)) ((⟨[], none⟩ : Rows), s)
    r

/-! ### Values of a pattern -/

/-- A source pattern read in full: its elements, its block scales and its group scales, all in
pattern order. -/
structure Src where
  rows : List (List (Nat × Bool))
  scales : List (Nat × Bool)
  groups : List (Nat × Bool)
  first : Option (Nat × Nat × Bool)

/-- The first poison met, with the SPACE it lies in and its address there (R102): elements, then scales, then groups. -/
def firstPoison (a : Option (Nat × Bool)) (sa : Nat × Nat) (b : Option (Nat × Nat × Bool)) : Option (Nat × Nat × Bool) :=
  match a with
  | some (o, f) => some (sa.1, sa.2 + o, f)
  | none => b

/-- Read an operand with its scale and group arrays (R42, R45, R140). -/
def State.readSrc (s : State) (t : Nat) (i : Issued) (n reader : Nat) : Src × State :=
  let x := i.view (s.tile t)
  let d := x.desc n
  let (e, s) := s.readPattern t i d false reader
  let (sc, s) := if isMX d.format then s.readPattern t i (x.desc d.scaleDesc) true reader else (⟨[], none⟩, s)
  let (gr, s) := if isGrouped d.format then s.readPattern t i (x.desc d.groupDesc) true reader else (⟨[], none⟩, s)
  (⟨e.rows, sc.rows.flatten, gr.rows.flatten,
    firstPoison e.first (spaceOf i.tensors d) (firstPoison sc.first (spaceOf i.tensors (x.desc d.scaleDesc))
      (firstPoison gr.first (spaceOf i.tensors (x.desc d.groupDesc)) none))⟩, s)

/-- One element's value, the flags of decoding it, and whether any byte it came from is poisoned. -/
structure Val where
  v : FpVal
  flags : BitVec 8
  poison : Bool
  deriving DecidableEq, Repr

/-- Decode element `j` of row `r` of a source of format `f` with `k` elements a row (R43, R46). -/
def Src.value (src : Src) (f k r j : Nat) (e : Nat × Bool) : Val :=
  if isGrouped f then
    let sc := src.scales.getD (r * blocksIn k + j / 32) (0, false)
    let g := src.groups.getD (r * groupsIn k + j / 512) (0, false)
    let v := groupDecode g.1 sc.1 e.1
    ⟨v.1, v.2, e.2 || sc.2 || g.2⟩
  else if isMX f then
    let sc := src.scales.getD (r * blocksIn k + j / 32) (0, false)
    ⟨mxDecode (elemFmt f) sc.1 e.1, scaleFlags sc.1, e.2 || sc.2⟩
  else ⟨(elemFmt f).decode e.1, 0, e.2⟩

/-- Decode a whole source in pattern order. -/
def Src.values (src : Src) (f k : Nat) : List Val :=
  (src.rows.zipIdx.map fun (row, r) => row.zipIdx.map fun (e, j) => src.value f k r j e).flatten

/-- A value as FP32, with the flags of an MX product beyond FP32 (R48). -/
def Val.f32 (x : Val) : Nat × BitVec 8 := let c := toF32 x.v; (c.code, c.flags ||| x.flags)

/-- How many values raised INVALID when they were decoded (R46, TILE_INVALID_COUNT). -/
def invVals (vs : List Val) : Nat := (vs.filter fun x => x.flags &&& fInvalid != 0).length

/-! ### Rounding of a step (R51, R54) -/

/-- The rounding mode a 2-bit field selects under a captured TILE_ARITH_CTRL (R51). -/
def roundMode (field : Nat) (ctrl : Word) : RMode :=
  match (if field = 0 then fld ctrl.toNat 0 2 + 1 else field) with
  | 1 => .rne
  | 2 => .rtz
  | _ => .stoch

/-- The noise of a step's output values (R54). -/
def State.noiseOf (s : State) (t : Nat) (i : Issued) : Nat → Nat :=
  let seed := stepSeed (s.rd64 (tr t rTILE_NOISE_SEED_LO) (tr t rTILE_NOISE_SEED_HI))
    (s.f (tr t rTILE_EXHIBIT) 0 16) (8 * i.index) i.count
  fun k => noiseByte seed k

/-- SAT of a captured TILE_ARITH_CTRL. -/
def satOf (ctrl : Word) : Bool := bit ctrl.toNat 2

/-! ### Encoding a destination -/

/-- A destination pattern ready to write: element codes by row, scale and group bytes, each with its
poison mark, and the results whose flags count. -/
structure Dst where
  rows : List (List (Nat × Bool))
  scales : List (Nat × Bool)
  groups : List (Nat × Bool)
  results : List Cv
  scaleFlags : BitVec 8

/-- Split a list into rows of `n`. -/
def rowsOf' {α : Type} (n : Nat) (xs : List α) : List (List α) := chunksOf n (xs.length + 1) xs

/-- Encode one row of values whose first has output index `i`. -/
def encodeRow (f : Nat) (mode : RMode) (sat : Bool) (noise : Nat → Nat) (i : Nat) (vs : List (FpVal × Bool)) : Dst :=
  let any (b : List (FpVal × Bool)) : Bool := b.any (·.2)
  if isGrouped f then
    let gs := rowsOf' 512 vs
    let enc := gs.zipIdx.map fun (g : List (FpVal × Bool) × Nat) =>
      (groupEncode mode noise (i + 512 * g.2) (g.1.map (fun v => v.1)), any g.1)
    let blks := (enc.map fun e => e.1.2.map fun b => (b, e.2)).flatten
    ⟨[(blks.map fun (b : MxBlock × Bool) => b.1.elems.map fun (c : Cv) => (c.code, b.2)).flatten],
      blks.map fun (b : MxBlock × Bool) => (b.1.scale, b.2), enc.map fun e => (e.1.1, e.2),
      (blks.map fun (b : MxBlock × Bool) => b.1.elems).flatten, (blks.map fun (b : MxBlock × Bool) => b.1.flags).foldl (fun a b => a ||| b) 0⟩
  else if isMX f then
    let bs := rowsOf' 32 vs
    let blks := bs.zipIdx.map fun (b : List (FpVal × Bool) × Nat) =>
      (mxEncode f mode noise (i + 32 * b.2) (b.1.map (fun v => v.1)), any b.1)
    ⟨[(blks.map fun (b : MxBlock × Bool) => b.1.elems.map fun (c : Cv) => (c.code, b.2)).flatten],
      blks.map fun (b : MxBlock × Bool) => (b.1.scale, b.2), [],
      (blks.map fun (b : MxBlock × Bool) => b.1.elems).flatten, (blks.map fun (b : MxBlock × Bool) => b.1.flags).foldl (fun a b => a ||| b) 0⟩
  else
    let cs := vs.zipIdx.map fun (v : (FpVal × Bool) × Nat) =>
      ((elemFmt f).narrow mode sat (noise (i + v.2)) v.1.1, v.1.2)
    ⟨[cs.map fun c => (c.1.code, c.2)], [], [], cs.map (·.1), 0⟩

/-- Join two encoded parts. -/
def Dst.append (a b : Dst) : Dst :=
  ⟨a.rows ++ b.rows, a.scales ++ b.scales, a.groups ++ b.groups, a.results ++ b.results, a.scaleFlags ||| b.scaleFlags⟩

/-- Encode values in destination pattern order, row by row (R49, R50, R47, R140). -/
def encodeAll (d : Desc) (mode : RMode) (sat : Bool) (noise : Nat → Nat) (vs : List (FpVal × Bool)) : Dst :=
  (rowsOf' d.n0 vs).zipIdx.foldl (fun acc (r : List (FpVal × Bool) × Nat) =>
    acc.append (encodeRow d.format mode sat noise (r.2 * d.n0) r.1)) ⟨[], [], [], [], 0⟩

/-! ### Writing bytes -/

/-- Pack a row's element codes, unused positions as zero codes (R139): the bytes and their marks. -/
def packRow (bits n : Nat) (es : List (Nat × Bool)) : List (Byte × Bool) :=
  let num := es.zipIdx.foldl (fun acc (e : (Nat × Bool) × Nat) => acc + (e.1.1 % 2 ^ bits) * 2 ^ (e.2 * bits)) 0
  let nb := rowBytes bits n
  (leBytes nb num).zipIdx.map fun (b, i) =>
    (b, es.zipIdx.any fun (e, j) => e.2 && decide (j * bits < 8 * i + 8) && decide (8 * i < j * bits + bits))

/-- Lay a row that is written later over the runs written so far, which are sorted and apart: where they overlap the row
stands, and runs it touches join it. -/
def addRun (a : Nat) (new : List (Byte × Bool)) : List (Nat × List (Byte × Bool)) → List (Nat × List (Byte × Bool))
  | [] => [(a, new)]
  | (b, old) :: rs =>
    if b + old.length < a then (b, old) :: addRun a new rs
    else if a + new.length < b then (a, new) :: (b, old) :: rs
    else addRun (min a b) (old.take (a - b) ++ new ++ old.drop (a + new.length - b)) rs

/-- The bytes of rows written in pattern order (R138), as runs by address. -/
def runsOf (rows : List (Nat × List (Byte × Bool))) : List (Nat × List (Byte × Bool)) :=
  rows.foldl (fun acc r => addRun r.1 r.2 acc) []

/-- Write scratch bytes (R72): whole words take a new code; a part of a word is merged, after a
single-bit error is corrected; a poisoned or uncorrectable word stays poisoned under a part. -/
def State.scratchWrite (s : State) (t o : Nat) (bs : List (Byte × Bool)) : State :=
  let n := bs.length
  if n = 0 then s else
  let words := (List.range ((o + n - 1) / 32 - o / 32 + 1)).map (· + o / 32)
  let whole := fun w => decide (o ≤ 32 * w) && decide (32 * w + 32 ≤ o + n)
  let poisoned := fun w => (bs.zipIdx.any fun (b, i) => b.2 && (o + i) / 32 == w)
  let s := words.foldl (fun st w =>
    let x := st.tile t
    let e := aget 0 x.scrErr w
    let was := aget false x.scrPoison w || e == 2
    let st := st.setTile t { x with
      scrErr := aput 0 x.scrErr w 0,
      scrPoison := aput false x.scrPoison w (poisoned w || (was && !whole w)) }
    if e = 1 && !whole w then st.scratchCorr t else st) s
  s.mapTile t fun x => { x with scratch := aputs 0 x.scratch o (bs.map (·.1)) }

/-- Note a written range to every other running unit of the tile (R83, R124). -/
def State.noteRace (s : State) (t : Nat) (r : Raced) : State :=
  s.mapTile t fun x =>
    let g := fun (i : Issued) => { i with raced := i.raced ++ [r] }
    { x with moveU := x.moveU.map g, crateU := x.crateU.map g, matrixU := x.matrixU.map g, vectorU := x.vectorU.map g }

/-- Write one run at a place; poisoned bytes poison the words they lie in (R72, R84, R240).  A move
step presents covered pages as full-page writes (R145). -/
def State.writeRun (s : State) (t : Nat) (pl : Place) (o : Nat) (bs : List (Byte × Bool)) (writer : Nat) : State :=
  let s := s.noteRace t ⟨pl.space, pl.at o, pl.at o + bs.length⟩
  match pl with
  | .scratch => s.scratchWrite t o bs
  | .mem v b =>
    let a := b + o
    let s := s.memWrite v a (bs.map (·.1)) (writer == rdMove) writer (bs.length + 1)
    (List.range ((a % 32 + bs.length + 31) / 32)).foldl (fun st w =>
      let lo := a / 32 * 32 + 32 * w
      if bs.zipIdx.any (fun (x, i) => x.2 && (a + i) / 32 * 32 == lo) then st.poisonWordAt v lo else st) s

/-- Write rows of element codes through a descriptor (R139, R145). -/
def State.writePattern (s : State) (t : Nat) (i : Issued) (d : Desc) (aux : Bool) (rows : List (List (Nat × Bool))) (writer : Nat) : State :=
  match resolve t (s.f (tr t rTILE_EXHIBIT) 0 16) i.tensors d with
  | none => s
  | some (pl, _) =>
    let bits := d.bits aux
    (runsOf ((d.rowBases.zip rows).map fun (b, es) => (b.toNat, packRow bits d.n0 es))).foldl
      (fun st r => st.writeRun t pl r.1 r.2 writer) s

/-- Write an encoded destination with its scale and group arrays (R140, R164). -/
def State.writeDst (s : State) (t : Nat) (i : Issued) (n : Nat) (o : Dst) (writer : Nat) : State :=
  let x := i.view (s.tile t)
  let d := x.desc n
  let s := s.writePattern t i d false o.rows writer
  let sd := x.desc d.scaleDesc
  let gd := x.desc d.groupDesc
  let s := if isMX d.format then s.writePattern t i sd true (rowsOf' sd.n0 o.scales) writer else s
  if isGrouped d.format then s.writePattern t i gd true (rowsOf' gd.n0 o.groups) writer else s

/-- Flags and counters of a destination's results, and of its sources, `inv` of which raised INVALID (R62, R65). -/
def State.raiseResults (s : State) (t : Nat) (cs : List Cv) (extra : BitVec 8) (inv : Nat) : State :=
  s.raiseFlags t (orFlags cs ||| extra) (satCount cs) (invCount cs + inv)

/-- An ARITH cause when the step raised a flag that was enabled as the step issued: a change of TILE_ARITH_TRAP_EN takes effect
for steps issued after it (R64, R113, R165). -/
def State.arithCause (s : State) (t : Nat) (i : Issued) (fl : BitVec 8) : State :=
  if fl.toNat &&& i.trapEn = 0 then s
  else s.addCause t (causeOf cARITH i.word 0 (fl.toNat * 2 ^ 16))

/-- The rows that an operand covers with its scale and group arrays, each a range of its space (R124). -/
def State.operandRows (s : State) (t : Nat) (i : Issued) (n : Nat) : List Raced :=
  let x := i.view (s.tile t)
  let d := x.desc n
  let rows := fun (d : Desc) (aux : Bool) => match resolve t (s.f (tr t rTILE_EXHIBIT) 0 16) i.tensors d with
    | none => []
    | some (pl, _) => d.rowBases.map fun b => (⟨pl.space, pl.at b.toNat, pl.at b.toNat + rowBytes (d.bits aux) d.n0⟩ : Raced)
  rows d false ++ ((auxDescs x d).map fun a => rows a true).flatten

/-- Ranges that steps still running in other units may be writing (R124). -/
def State.openRanges (s : State) (t : Nat) (u : Unit4) : List Raced :=
  let x := s.tile t
  let mv := if u = .move then [] else match x.moveU with
    | some i =>
      if fld i.word.toNat 56 4 ≤ 1 then s.operandRows t i (fld i.word.toNat 52 4)
      else if fld i.word.toNat 56 4 = 3 then
        let a := ((i.view x).sreg (fld i.word.toNat 48 4)).toNat + fld i.word.toNat 0 18
        [⟨0, a, a + 32⟩]
      else []
    | none => []
  let vc := if u = .vector then [] else match x.vectorU with
    | some i => if fld i.word.toNat 54 2 = 2 then s.operandRows t i (fld i.word.toNat 48 4) else []
    | none => []
  mv ++ vc

end Sys2Proof.Machine
end

