-- ==== Sys2Proof/Machine/TileFlow.lean ====
section
/-! DEFINITION. Flow steps (class 0x0, R127 to R133), ticket steps (class 0x1, R134 to R136; WAVE is
with the waves) and configuration steps (class 0x6, R165, R166). -/

namespace Sys2Proof.Machine

open Sys2Proof Host

/-- Whether every bit of a word outside `mask` is 0: reserved bits must be 0 (R126). -/
def resOk (w mask : Nat) : Bool := (w &&& mask) == w

/-- Mask of bits `[lo+n-1:lo]`. -/
def mk (lo n : Nat) : Nat := (2 ^ n - 1) * 2 ^ lo

/-- Class and operation bits, which every step has. -/
def opMask : Nat := mk 56 8

/-- An illegal step when `ok` is false; else go on. -/
def legalOr (ok : Bool) (w : Word64) (k : Issue) : Issue := if ok then k else .trap [causeOf cILLEGAL w]

/-- Whether a hang is armed for the tiles (R120, R195): PLN_HANG_STAT.STATE is ARMED or later. -/
def State.hangArmed (s : State) : Bool := decide (2 ≤ s.f (winBase .pln 0 + rPLN_HANG_STAT) 0 3)

/-- NOP: does nothing and completes in the cycle in which it issues (R127). -/
def execNop (t : Nat) (s : State) : Outcome State Fault Refusal :=
  .next (s.issue t 0 0 fun s w p => legalOr (resOk w.toNat opMask) w (s.goNext t p w id))

/-- END: the tile enters IDLE (R97, R117); the past-the-end rule does not apply to it (R119). -/
def execEndStep (t : Nat) (s : State) : Outcome State Fault Refusal :=
  .next (s.issue t 0 1 fun s w _ => legalOr (resOk w.toNat opMask) w (.go ((s.endTile t .ended).stepDone t)))

/-- Enter HANG: the armed hang point is reached with every unit idle (R120); execution stands past
the HANG step. -/
def State.enterHang (s : State) (t : Nat) : State :=
  (s.mapTile t fun x => { x with holding := .none }).setTs t tsHANG

/-- HANG: a no-operation when no hang is armed; otherwise it waits for the units (R119, R120).  A HANG
in the last position of the half is legal only when it stops the tile. -/
def execHangStep (t : Nat) (s : State) : Outcome State Fault Refusal :=
  .next (s.issue t 0 2 fun s w p => legalOr (resOk w.toNat opMask) w
    (if s.hangArmed then .go (s.mapTile t fun x => { x with holding := .hang })
     else s.goNext t p w id))

/-- An armed HANG step finds every unit idle, and the tile enters HANG (R120). The step completes. -/
def execHangPointReached (t : Nat) (s : State) : Outcome State Fault Refusal :=
  .next (
    if s.ts t = tsRUN && (s.tile t).holding = .hang && (s.tile t).idle && s.hangArmed then
      (match s.advance t (s.pos t) with
        | some s' => s'.enterHang t
        | none => s.enterHang t).stepDone t
    else s)

/-- Go to a target by JUMP or a taken BRANCH: levels it leaves are popped; past the half is illegal
(R119, R128, R130). -/
def State.jumpTo (s : State) (t target : Nat) (w : Word64) : Issue :=
  if 4095 < target then .trap [causeOf cILLEGAL w]
  else .go (((s.mapTile t fun x => { x with loops := loopLeave x.loops target }).setPos t target).stepDone t)

/-- JUMP: forward by DISP steps (R128). -/
def execJump (t : Nat) (s : State) : Outcome State Fault Refusal :=
  .next (s.issue t 0 3 fun s w p =>
    let d := fld w.toNat 0 12
    legalOr (resOk w.toNat (opMask + mk 0 12) && d != 0) w (s.jumpTo t (p + d) w))

/-- The comparison of BRANCH (R128). -/
def branchTaken (cond : Nat) (a b : Word) : Bool :=
  match cond with
  | 0 => a == b
  | 1 => a != b
  | 2 => decide (a.toNat < b.toNat)
  | 3 => decide (b.toNat ≤ a.toNat)
  | 4 => decide (a.toInt < b.toInt)
  | _ => decide (b.toInt ≤ a.toInt)

/-- BRANCH: forward when the comparison holds (R128); not taken, it ends like any step. -/
def execBranch (t : Nat) (s : State) : Outcome State Fault Refusal :=
  .next (s.issue t 0 4 fun s w p =>
    let n := w.toNat
    let d := fld n 0 12
    let x := s.tile t
    legalOr (resOk n (opMask + mk 45 11 + mk 0 12) && d != 0 && decide (fld n 45 3 < 6)) w
      (if branchTaken (fld n 45 3) (x.sreg (fld n 52 4)) (x.sreg (fld n 48 4)) then s.jumpTo t (p + d) w
       else s.goNext t p w id))

/-- LOOP: pushes a level, or skips its body when the count is 0 (R129, R130). -/
def execLoopStep (t : Nat) (s : State) : Outcome State Fault Refusal :=
  .next (s.issue t 0 5 fun s w p =>
    let n := w.toNat
    let body := fld n 0 12
    let reg := bit n 55
    let x := s.tile t
    let c := if reg then (x.sreg (fld n 48 4)).toNat else fld n 24 24
    let inside := match x.loops with
      | [] => true
      | l :: _ => decide (p + body ≤ l.start + l.body)
    legalOr (resOk n (opMask + mk 55 1 + mk 48 4 + mk 24 24 + mk 0 12) && body != 0
        && !(reg && fld n 24 24 != 0) && !(!reg && fld n 48 4 != 0)
        && decide (x.loops.length < 4) && inside && decide (p + body ≤ 4095)) w
      (if c = 0 then s.goNext t (p + body) w id
       else .go (((s.mapTile t fun x => { x with loops := ⟨p, body, 0, c⟩ :: x.loops }).setPos t (p + 1)).stepDone t)))

/-- The functions of SALU (R131). -/
def saluFn (f : Nat) (a b : Word) : Word :=
  match f with
  | 0x0 => a + b
  | 0x1 => a - b
  | 0x2 => a &&& b
  | 0x3 => a ||| b
  | 0x4 => a ^^^ b
  | 0x5 => a <<< (b.toNat % 32)
  | 0x6 => a >>> (b.toNat % 32)
  | 0x7 => a.sshiftRight (b.toNat % 32)
  | 0x8 => a * b
  | 0x9 => if a.toNat < b.toNat then a else b
  | 0xA => if a.toNat < b.toNat then b else a
  | _ => b

/-- SALU: RD = FUNC(RA, B) (R131). -/
def execSalu (t : Nat) (s : State) : Outcome State Fault Refusal :=
  .next (s.issue t 0 6 fun s w p =>
    let n := w.toNat
    let imm := bit n 39
    let x := s.tile t
    let b : Word := if imm then BitVec.ofNat 32 (fld n 0 32) else x.sreg (fld n 44 4)
    legalOr (resOk n (opMask + mk 39 17 + mk 0 32) && decide (fld n 40 4 < 12)
        && !(imm && fld n 44 4 != 0) && !(!imm && fld n 0 32 != 0)) w
      (s.goNext t p w fun s => s.mapTile t fun y =>
        y.setS (fld n 52 4) (saluFn (fld n 40 4) (x.sreg (fld n 48 4)) b)))

/-- The sources of SREAD (R132); `none` where INDEX is out of the source's range. -/
def State.sreadSource (s : State) (t src ix : Nat) : Option Word :=
  match src with
  | 0 => some (s.rd (tk t ix))
  | 1 => match ((s.tile t).loops.drop ix).head? with
    | some l => some (BitVec.ofNat 32 l.completed)
    | none => none
  | 2 => if ix = 0 then some (BitVec.ofNat 32 (s.f (tr t rTILE_EXHIBIT) 0 16)) else none
  | 3 => if ix = 0 then some (s.rd (tr t rTILE_GEN)) else none
  | 4 => if ix = 0 then some (s.rd (tr t rTILE_ARITH_STAT)) else none
  | _ => none

/-- SREAD: a ticket, loop count, exhibit, generation or status into RD (R132). -/
def execSread (t : Nat) (s : State) : Outcome State Fault Refusal :=
  .next (s.issue t 0 7 fun s w p =>
    let n := w.toNat
    match s.sreadSource t (fld n 40 8) (fld n 0 6) with
    | none => .trap [causeOf cILLEGAL w]
    | some v => legalOr (resOk n (opMask + mk 52 4 + mk 40 8 + mk 0 6)) w
        (s.goNext t p w fun s => s.mapTile t fun y => y.setS (fld n 52 4) v))

/-- FENCE: holds issue until the named units are idle; at once when they are (R133). -/
def execFence (t : Nat) (s : State) : Outcome State Fault Refusal :=
  .next (s.issue t 0 8 fun s w p =>
    let u := fld w.toNat 0 4
    legalOr (resOk w.toNat (opMask + mk 0 4)) w
      (match s.advance t p with
        | none => .trap [causeOf cILLEGAL w]
        | some s' => if (s.tile t).fenced u then .go (s'.stepDone t)
            else .go (s'.mapTile t fun x => { x with holding := .fence u })))

/-- The units a FENCE named have become idle: it completes (R133). -/
def execFenceComplete (t : Nat) (s : State) : Outcome State Fault Refusal :=
  .next (match (s.tile t).holding with
    | .fence u =>
      if s.ts t = tsRUN && (s.tile t).fenced u then
        (s.completing t fun s => s.stepDone t).mapTile t fun x => { x with holding := .none }
      else s
    | _ => s)

/-- The tile shows WAIT while a WAIT step holds issue and every unit is idle (R135).  A STOP or RESET given before, in RUN, goes
on waiting for the boundary that R29 gives a tile in WAIT or HANG (log entry 137). -/
def State.showWait (s : State) (t : Nat) : State :=
  match (s.tile t).holding with
  | .wait _ _ => if (s.tile t).idle && s.ts t = tsRUN then s.setTs t tsWAIT else s
  | _ => s

/-- WAIT: completes and consumes when tk ≥ n, otherwise holds issue (R86, R134, R135).  While it
holds, EXEC_POS still names it (R98). -/
def execWait (t : Nat) (s : State) : Outcome State Fault Refusal :=
  .next (s.issue t 1 0 fun s w p =>
    let n := w.toNat
    let reg := bit n 47
    let a := ((s.tile t).sreg (fld n 40 4)).toNat
    let amount := if reg then a else fld n 0 16
    let k := fld n 48 6
    legalOr (resOk n (opMask + mk 47 7 + mk 40 4 + mk 0 16) && !(reg && fld n 0 16 != 0)
        && !(!reg && fld n 40 4 != 0) && !(reg && decide (65535 < a))) w
      (match s.advance t p with
        | none => .trap [causeOf cILLEGAL w]
        | some s' =>
          let have_ := s.f (tk t k) 0 16
          if amount ≤ have_ then .go ((s'.setf (tk t k) 0 16 (have_ - amount)).stepDone t)
          else .go ((s.mapTile t fun x => { x with holding := .wait k amount }).showWait t)))

/-- A pending wait finds its amount: consumed, completed, and the tile runs on (R86, R97); the boundary that its completion is
takes the changes that waited (R29). -/
def execWaitSatisfied (t : Nat) (s : State) : Outcome State Fault Refusal :=
  .next (match (s.tile t).holding with
    | .wait k n =>
      let v := s.f (tk t k) 0 16
      if (s.ts t = tsWAIT || s.ts t = tsRUN) && decide (n ≤ v) && !(s.tile t).holdIssue && !s.haltHolds t && !s.stopped then
        let s := (s.setf (tk t k) 0 16 (v - n)).mapTile t fun x => { x with holding := .none }
        match (s.setTs t tsRUN).advance t (s.pos t) with
        | some s' => (s'.completing t (fun u => u.stepDone t) true).boundary t
        | none => s
      else s
    | _ => s)

/-- ADD: AMOUNT to the tile's own counter, with the overflow rule of R88 (R136). -/
def execAdd (t : Nat) (s : State) : Outcome State Fault Refusal :=
  .next (s.issue t 1 1 fun s w p =>
    let n := w.toNat
    legalOr (resOk n (opMask + mk 48 6 + mk 0 16)) w
      (s.goNext t p w fun s => s.ticketAdd t (fld n 48 6) (fld n 0 16) (some w)))

/-! ### Configuration steps (R165) -/

/-- ARITH: each field of TILE_ARITH_CTRL whose SET bit is 1; SEED_FIXED cannot be written. -/
def execArith (t : Nat) (s : State) : Outcome State Fault Refusal :=
  .next (s.issue t 6 0 fun s w p =>
    let n := w.toNat
    let a := tr t rTILE_ARITH_CTRL
    legalOr (resOk n (opMask + mk 53 3 + mk 0 4) && !(bit n 55 && fld n 0 2 == 3)) w
      (s.goNext t p w fun s =>
        let s := if bit n 55 then s.setf a 0 2 (fld n 0 2) else s
        let s := if bit n 54 then s.setf a 2 1 (fld n 2 1) else s
        if bit n 53 then s.setf a 3 1 (fld n 3 1) else s))

/-- STAT_CLEAR: the bits of TILE_ARITH_STAT in MASK, for steps that complete later to set again
(R165, R166). -/
def execStatClear (t : Nat) (s : State) : Outcome State Fault Refusal :=
  .next (s.issue t 6 1 fun s w p =>
    let n := w.toNat
    legalOr (resOk n (opMask + mk 0 8)) w
      (s.goNext t p w fun s => s.tileApply t (.statClear (fld n 0 8))))

/-- TRAP_ENABLE: TILE_ARITH_TRAP_EN bits [7:0] (R165). -/
def execTrapEnable (t : Nat) (s : State) : Outcome State Fault Refusal :=
  .next (s.issue t 6 2 fun s w p =>
    let n := w.toNat
    legalOr (resOk n (opMask + mk 0 8)) w
      (s.goNext t p w fun s => s.setf (tr t rTILE_ARITH_TRAP_EN) 0 8 (fld n 0 8)))

/-- PERF: as a host write of TILE_PERF_CTRL's fields would act (R165); the step itself is counted
after the clear (R110). -/
def execPerf (t : Nat) (s : State) : Outcome State Fault Refusal :=
  .next (s.issue t 6 3 fun s w p =>
    let n := w.toNat
    legalOr (resOk n (opMask + mk 55 1 + mk 0 2)) w
      (s.goNext t p w fun s =>
        let s := if bit n 0 then s.tileApply t (.perfClear []) else s
        if bit n 55 then s.setf (tr t rTILE_PERF_CTRL) 1 1 (fld n 1 1) else s))

/-- CRATE_TIME: writes TILE_CRATE_TIME (R165). -/
def execCrateTime (t : Nat) (s : State) : Outcome State Fault Refusal :=
  .next (s.issue t 6 4 fun s w p =>
    let n := w.toNat
    legalOr (resOk n (opMask + mk 0 16)) w
      (s.goNext t p w fun s => s.setf (tr t rTILE_CRATE_TIME) 0 16 (fld n 0 16)))

end Sys2Proof.Machine
end

