-- ==== Sys2Proof/Machine/TileMove.lean ====
section
/-! DEFINITION. Move steps, class 0x2 (R143 to R146): issue and completion. -/

namespace Sys2Proof.Machine

open Sys2Proof Host

/-- COPY issues to the move unit: both descriptors local, element counts equal (R143). -/
def execCopy (t : Nat) (s : State) : Outcome State Fault Refusal :=
  .next (s.issue t 2 0 fun s w p =>
    let n := w.toNat
    let x := s.tile t
    let a := fld n 52 4
    let b := fld n 48 4
    legalOr (resOk n (opMask + mk 46 10)) w
      (s.toUnit t .move w p (firstBounds (localCauses s t x w a ++ localCauses s t x w b ++
        (if (x.desc a).elems = (x.desc b).elems then [] else [causeOf cILLEGAL w])))))

/-- FILL issues to the move unit (R143). -/
def execFill (t : Nat) (s : State) : Outcome State Fault Refusal :=
  .next (s.issue t 2 1 fun s w p =>
    let n := w.toNat
    legalOr (resOk n (opMask + mk 46 10)) w
      (s.toUnit t .move w p (firstBounds (localCauses s t (s.tile t) w (fld n 52 4)))))

/-- The scratch address of DLOAD and DSTORE: sA + OFFSET (R146). -/
def descAddr (x : Tile) (n : Nat) : Nat := (x.sreg (fld n 48 4)).toNat + fld n 0 18

/-- The BOUNDS cause of a descriptor address: a multiple of 32 within scratch (R102, R146). -/
def descAddrCauses (x : Tile) (w : Word64) : List PendTrap :=
  let a := descAddr x w.toNat
  if a % 32 = 0 ∧ a + 32 ≤ 0x40000 then [] else [causeOf cBOUNDS w a]

/-- DLOAD issues to the move unit (R146). -/
def execDload (t : Nat) (s : State) : Outcome State Fault Refusal :=
  .next (s.issue t 2 2 fun s w p =>
    legalOr (resOk w.toNat (opMask + mk 48 8 + mk 0 18)) w
      (s.toUnit t .move w p (descAddrCauses (s.tile t) w)))

/-- DSTORE issues to the move unit (R146). -/
def execDstore (t : Nat) (s : State) : Outcome State Fault Refusal :=
  .next (s.issue t 2 3 fun s w p =>
    legalOr (resOk w.toNat (opMask + mk 48 8 + mk 0 18)) w
      (s.toUnit t .move w p (descAddrCauses (s.tile t) w)))

/-- A descriptor with a new BASE. -/
def Desc.withBase (d : Desc) (b : Nat) : Desc := { d with w0 := BitVec.ofNat 64 (setFld d.w0.toNat 0 40 b) }

/-- DADD: sA + IMM32 added to BASE modulo 2⁴⁰ in the cycle of issue (R146); it waits for a DLOAD of the same descriptor (R123).
Like DLOAD and DSTORE it names a descriptor without walking it, and R137's checks are made by the steps that walk it (log entry
145). -/
def execDadd (t : Nat) (s : State) : Outcome State Fault Refusal :=
  .next (s.issue t 2 4 fun s w p =>
    let n := w.toNat
    let x := s.tile t
    let d := fld n 52 4
    legalOr (resOk n (opMask + mk 48 8 + mk 0 32)) w
      (if x.hazard [rDesc d] [] then .hold
       else s.goNext t p w fun s => s.mapTile t fun y =>
        let b := ((y.desc d).base : Int) + (x.sreg (fld n 48 4)).toNat + sext 32 (fld n 0 32)
        { y with d := aput Desc.zero y.d d ((y.desc d).withBase (wrapInt 40 b)) }))

/-! ### Completion (R144 to R146) -/

/-- Whether a COPY is a bit copy: equal formats, and for MX formats equal COUNT0 (R144). -/
def bitCopy (a b : Desc) : Bool := a.format == b.format && (!isMX a.format || a.n0 == b.n0)

/-- The values a COPY converts: MX sources pass through FP32 (R144). Answers values, marks, flags, and how many values raised
INVALID. -/
def copyValues (src : Src) (d : Desc) : List (FpVal × Bool) × BitVec 8 × Nat :=
  let vs := src.values d.format d.n0
  if isMX d.format then
    (vs.map fun x => (ofF32 x.f32.1, x.poison), vs.foldl (fun f x => f ||| x.f32.2) 0, invVals vs)
  else (vs.map fun x => (x.v, x.poison), 0, 0)

/-! Where source and destination of a COPY share bytes, it moves in pattern order: an element reads what the elements before it
have written (R144).  A block of an MX destination is one unit of that order, and a group of a group-scaled one, since their
scales depend on every element in them; a block's scale goes with its first element, and a group's (log entry 141). -/

/-- What the units of a COPY have written so far: bits with their marks, by 2 ^ 48 × space + 8 × address + bit. -/
abbrev Laid := Assoc (Option (Bool × Bool))

/-- `w` bits at `a` that were read before as `e`, where a unit may have written since. -/
def Laid.read (m : Laid) (a w : Nat) (e : Nat × Bool) : Nat × Bool :=
  let bs := (List.range w).map fun b => (aget none m (a + b)).getD (bit e.1 b, e.2)
  (bs.zipIdx.foldl (fun n x => n + b2n x.1.1 * 2 ^ x.2) 0, bs.any (·.2))

/-- Write `w` bits at `a`. -/
def Laid.write (m : Laid) (a w : Nat) (e : Nat × Bool) : Laid :=
  aputs none m a ((List.range w).map fun b => some (bit e.1 b, e.2))

/-- Where the bits of one array of an operand lie: the key of offset 0, the byte offset of each row, elements a row, bits an
element. -/
structure BitRows where
  key : Nat
  bases : List Int
  n : Nat
  bits : Nat

/-- The bits of a descriptor's pattern (R138, R141). -/
def State.bitRows (s : State) (t : Nat) (i : Issued) (d : Desc) (aux : Bool) : BitRows :=
  match resolve t (s.f (tr t rTILE_EXHIBIT) 0 16) i.tensors d with
  | none => ⟨0, [], d.n0, d.bits aux⟩
  | some (pl, _) => ⟨2 ^ 48 * pl.space + 8 * pl.at 0, d.rowBases, d.n0, d.bits aux⟩

/-- The key of element `e`'s first bit. -/
def BitRows.at (b : BitRows) (e : Nat) : Nat := b.key + 8 * (b.bases.getD (e / b.n) 0).toNat + e % b.n * b.bits

/-- Write elements from index `e` on, and with the last of a row the unused positions of its last packing unit as zeros (R139). -/
def BitRows.write (b : BitRows) : Laid → Nat → List (Nat × Bool) → Laid
  | m, _, [] => m
  | m, e, x :: xs =>
    let m := m.write (b.at e) b.bits x
    let used := b.n * b.bits
    let m := if (e + 1) % b.n = 0 then m.write (b.at e + b.bits) (8 * rowBytes b.bits b.n - used) (0, x.2) else m
    b.write m (e + 1) xs

/-- An operand's three arrays: elements, block scales, group scales. -/
structure Arrays where
  els : BitRows
  scales : BitRows
  groups : BitRows

/-- Where an operand lies. -/
def State.arrays (s : State) (t : Nat) (i : Issued) (d : Desc) : Arrays :=
  let x := i.view (s.tile t)
  ⟨s.bitRows t i d false, s.bitRows t i (x.desc d.scaleDesc) true, s.bitRows t i (x.desc d.groupDesc) true⟩

/-- Elements from `k` on of a source as they now stand, with the scales they use, as a source of one row. -/
def Src.stand (src : Src) (f n0 : Nat) (a : Arrays) (m : Laid) (k n : Nat) : List ((Nat × Bool) × Src) :=
  (List.range n).map fun j =>
    let e := k + j
    let r := e / n0
    let sc := r * blocksIn n0 + e % n0 / 32
    let g := r * groupsIn n0 + e % n0 / 512
    let scale := if isMX f then [m.read (a.scales.at sc) 8 (src.scales.getD sc (0, false))] else []
    let group := if isGrouped f then [m.read (a.groups.at g) 8 (src.groups.getD g (0, false))] else []
    (m.read (a.els.at e) a.els.bits ((src.rows.getD r []).getD (e % n0) (0, false)), ⟨[], scale, group, none⟩)

/-- How many elements from index `k` of a destination form the unit of a COPY. -/
def unitOf (d : Desc) (bits : Bool) (k : Nat) : Nat :=
  let u := if bits then 1 else if isGrouped d.format then 512 else if isMX d.format then 32 else 1
  min (u - k % d.n0 % u) (d.n0 - k % d.n0)

/-- What a unit of a COPY leaves: its bits, or its values converted, with the flags of the sources and how many of them raised
INVALID. -/
def copyUnit (sd dd : Desc) (mode : RMode) (sat : Bool) (noise : Nat → Nat) (k : Nat) (es : List ((Nat × Bool) × Src)) :
    Dst × BitVec 8 × Nat :=
  if bitCopy dd sd then
    let first := fun (n : Nat) (l : List (Nat × Bool)) => if k % dd.n0 % n = 0 then l else []
    let sc := (es.map fun e => e.2.scales).flatten
    let gr := (es.map fun e => e.2.groups).flatten
    (⟨[es.map (·.1)], first 32 sc, first 512 gr, [], 0⟩, 0, 0)
  else
    let vs := es.map fun e => e.2.value sd.format 1 0 0 e.1
    if isMX sd.format then
      (encodeRow dd.format mode sat noise k (vs.map fun x => (ofF32 x.f32.1, x.poison)), vs.foldl (fun f x => f ||| x.f32.2) 0,
        invVals vs)
    else (encodeRow dd.format mode sat noise k (vs.map fun x => (x.v, x.poison)), 0, 0)

/-- A COPY in turn from element `k` on, `fuel` units at most: its destination, with the flags of its sources and how many of them
raised INVALID. -/
def Src.inTurn (src : Src) (sd dd : Desc) (a b : Arrays) (mode : RMode) (sat : Bool) (noise : Nat → Nat) :
    Nat → Nat → Laid → Dst × BitVec 8 × Nat → Dst × BitVec 8 × Nat
  | 0, _, _, acc => acc
  | fuel + 1, k, m, acc =>
    if dd.elems ≤ k then acc
    else
      let n := unitOf dd (bitCopy dd sd) k
      let (o, fl, inv) := copyUnit sd dd mode sat noise k (src.stand sd.format sd.n0 a m k n)
      let r := k / dd.n0
      let m := b.els.write m k o.rows.flatten
      let m := b.scales.write m (r * blocksIn dd.n0 + k % dd.n0 / 32) o.scales
      let m := b.groups.write m (r * groupsIn dd.n0 + k % dd.n0 / 512) o.groups
      src.inTurn sd dd a b mode sat noise fuel (k + n) m (acc.1.append o, acc.2.1 ||| fl, acc.2.2 + inv)

/-- Whether two operands share bytes. -/
def State.overlap (s : State) (t : Nat) (i : Issued) (a b : Nat) : Bool :=
  let q := s.operandRows t i b
  (s.operandRows t i a).any fun x => q.any fun y => x.space == y.space && decide (x.lo < y.hi) && decide (y.lo < x.hi)

/-- A COPY that reads its whole source first. -/
def copyWhole (src : Src) (sd dd : Desc) (mode : RMode) (sat : Bool) (noise : Nat → Nat) : Dst × BitVec 8 × Nat :=
  if bitCopy dd sd then (⟨src.rows, src.scales, src.groups, [], 0⟩, 0, 0)
  else
    let (vs, fl, inv) := copyValues src sd
    (encodeAll dd mode sat noise vs, fl, inv)

/-- COPY's effect: a bit copy, or a conversion in destination pattern order (R144). Poison is carried
and nothing traps (R84). -/
def State.doCopy (s : State) (t : Nat) (i : Issued) : State :=
  let n := i.word.toNat
  let a := fld n 52 4
  let b := fld n 48 4
  let x := i.view (s.tile t)
  let dd := x.desc a
  let sd := x.desc b
  let i := { i with raced := i.raced ++ s.openRanges t .move }
  let (src, s) := s.readSrc t i b rdMove
  let mode := roundMode (fld n 46 2) i.ctrl
  let (o, fl, inv) :=
    if s.overlap t i a b then
      src.inTurn sd dd (s.arrays t i sd) (s.arrays t i dd) mode (satOf i.ctrl) (s.noiseOf t i) dd.elems 0 [] (⟨[], [], [], [], 0⟩, 0, 0)
    else copyWhole src sd dd mode (satOf i.ctrl) (s.noiseOf t i)
  let fl := orFlags o.results ||| o.scaleFlags ||| fl
  let s := s.writeDst t i a { o with rows := rowsOf' dd.n0 o.rows.flatten } rdMove
  if bitCopy dd sd then s else ((s.raiseResults t o.results fl inv).arithCause t i fl)

/-- FILL's effect: the FP32 value in sA, converted, in every element (R144), a NaN as the canonical one of the format (R39). -/
def State.doFill (s : State) (t : Nat) (i : Issued) : State :=
  let n := i.word.toNat
  let a := fld n 52 4
  let x := i.view (s.tile t)
  let d := x.desc a
  let v := (x.sreg (fld n 48 4)).toNat
  if d.format = 0 then
    s.writeDst t i a ⟨rowsOf' d.n0 (List.replicate d.elems (canonF32 v, false)), [], [], [], 0⟩ rdMove
  else
    let o := encodeAll d (roundMode (fld n 46 2) i.ctrl) (satOf i.ctrl) (s.noiseOf t i)
      (List.replicate d.elems (ofF32 v, false))
    ((s.writeDst t i a o rdMove).raiseResults t o.results o.scaleFlags 0).arithCause t i (orFlags o.results ||| o.scaleFlags)

/-- A descriptor from 32 bytes (R137). -/
def descOf (bs : List Byte) : Desc :=
  ⟨BitVec.ofNat 64 (at_ bs 0 8), BitVec.ofNat 64 (at_ bs 8 8), BitVec.ofNat 64 (at_ bs 16 8), BitVec.ofNat 64 (at_ bs 24 8)⟩

/-- The 32 bytes of a descriptor (R137). -/
def Desc.bytes (d : Desc) : List Byte :=
  leBytes 8 d.w0.toNat ++ leBytes 8 d.w1.toNat ++ leBytes 8 d.w2.toNat ++ leBytes 8 d.w3.toNat

/-- A DATA_POISON cause of a step (R100, R102): space, first poisoned byte, read before write. -/
def poisonCause (w : Word64) (p : Nat × Nat × Bool) : PendTrap :=
  causeOf cPOISON w p.2.1 (p.1 + 16 * b2n p.2.2)

/-- DLOAD's effect; a poisoned word traps, since the step uses the data (R84, R146). -/
def State.doDload (s : State) (t : Nat) (i : Issued) : State :=
  let n := i.word.toNat
  let a := descAddr (i.view (s.tile t)) n
  let (g, s) := s.readAt t .scratch (i.raced ++ s.openRanges t .move) a 32 rdTile
  match g.first with
  | some (o, f) => s.addCause t (poisonCause i.word (0, o, f))
  | none => s.mapTile t fun y => { y with d := aput Desc.zero y.d (fld n 52 4) (descOf g.bytes) }

/-- DSTORE's effect: one whole scratch word (R146). -/
def State.doDstore (s : State) (t : Nat) (i : Issued) : State :=
  let n := i.word.toNat
  let x := i.view (s.tile t)
  s.writeRun t .scratch (descAddr x n) ((x.desc (fld n 52 4)).bytes.map fun b => (b, false)) rdMove

/-- The effect of the move unit's step (R111). -/
def State.doMove (s : State) (t : Nat) (i : Issued) : State :=
  match fld i.word.toNat 56 4 with
  | 0 => s.doCopy t i
  | 1 => s.doFill t i
  | 2 => s.doDload t i
  | _ => s.doDstore t i

end Sys2Proof.Machine
end

