-- ==== Sys2Proof/Machine/Plan.lean ====
section
/-! DEFINITION. The plan image (R174 to R184, R286 to R288, R310, R385, R386, R522): its header, sections
and records, and the merge of a delta with its base (R176). -/

namespace Sys2Proof.Machine

open Sys2Proof

/-- A section-table entry (R175). -/
structure SecEnt where
  ty : Nat
  offset : Nat
  length : Nat
  count : Nat
  deriving DecidableEq, Repr

/-- The header of an image (R175). -/
structure Hdr where
  magic : Nat
  minor : Nat
  major : Nat
  product : Nat
  headerLength : Nat
  imageLength : Nat
  gen : Nat
  base : Nat
  sizeClass : Nat
  flags : Nat
  minFfl : Nat
  count : Nat
  seed : Nat
  moduleId : Nat
  hangGroup : Nat
  deriving DecidableEq, Repr

def Hdr.delta (h : Hdr) : Bool := bit h.flags 0
def Hdr.signed (h : Hdr) : Bool := bit h.flags 1

/-- Bytes after the sections: the trailer, and the signature block when SIGNED (R174). -/
def Hdr.tail (h : Hdr) : Nat := 48 + (if h.signed then 112 else 0)

/-- Read the header. -/
def hdrOf (b : List Byte) : Hdr where
  magic := at_ b 0 4
  minor := at_ b 4 1
  major := at_ b 5 1
  product := at_ b 6 2
  headerLength := at_ b 8 4
  imageLength := at_ b 0xC 4
  gen := at_ b 0x10 8
  base := at_ b 0x18 8
  sizeClass := at_ b 0x20 1
  flags := at_ b 0x21 1
  minFfl := at_ b 0x22 1
  count := at_ b 0x23 1
  seed := at_ b 0x28 8
  moduleId := at_ b 0x30 2
  hangGroup := at_ b 0x34 1

/-- Whether bytes `[lo, hi)` are 0. -/
def zeros (b : List Byte) (lo hi : Nat) : Bool := ((b.drop lo).take (hi - lo)).all (· == 0)

/-- Reserved bytes and ranges of the header (R175). -/
def hdrOk (b : List Byte) (h : Hdr) : Bool :=
  zeros b 0x24 0x28 && zeros b 0x32 0x34 && zeros b 0x35 0x40 && decide (h.flags < 4) && decide (h.moduleId < 0x8000)
    && decide (h.sizeClass ≤ 3) && decide (1 ≤ h.count) && decide (h.count ≤ 12)

/-- Entry `i` of the section table. -/
def secEnt (b : List Byte) (i : Nat) : SecEnt :=
  let o := 0x40 + 16 * i
  ⟨at_ b o 2, at_ b (o + 4) 4, at_ b (o + 8) 4, at_ b (o + 12) 4⟩

/-! ### Records -/

/-- How many of the low `n` bits are set. -/
def popN (n w : Nat) : Nat := ((List.range n).filter (bit w ·)).length

/-- Numbers of `n` bytes each from offset `o`. -/
def readArr (b : List Byte) (o n k : Nat) : List Nat := (List.range k).map fun i => at_ b (o + n * i) n

/-- A raw record: what it holds, its DELETE bit, its length in bytes. -/
structure Raw (α : Type) where
  val : α
  delete : Bool
  size : Nat
  deriving DecidableEq, Repr

/-- An exhibit record (R177) with its TILE field, from the bytes that begin it. -/
def parseExhibit (b : List Byte) : Option (Raw (ExhRec × Nat)) :=
  let sm := at_ b 0x24 2
  let dm := at_ b 0x26 2
  let nk := at_ b 0x28 2
  let nt := at_ b 0x0C 2
  let nc := at_ b 0x0E 2
  let len := at_ b 0x2C 4
  let fl := at_ b 6 2
  let oD := 64 + 4 * popN 16 sm
  let oK := oD + 32 * popN 16 dm
  let oT := oK + 4 * nk
  let oC := oT + 2 * nt
  let fin := oC + 4 * nc
  let keys := readArr b oK 4 nk
  let ok := decide (64 ≤ b.length) && len == (fin + 7) / 8 * 8 && decide (len ≤ b.length) && zeros b fin len && zeros b 0x30 0x40
    && decide (fl < 8) && fl % 4 != 3 && !bit sm 0 && decide (at_ b 0x10 4 < 16) && decide (nk ≤ 64)
    && at_ b 8 4 % 4096 == 0 && decide (at_ b 8 4 ≤ 0x400000) && at_ b 0 2 != 0xFFFF
    && keys.all (fun k => decide (k % 65536 < 64))
  if ok then
    some ⟨(⟨at_ b 0 2, at_ b 2 2, at_ b 4 2, fl % 4, at_ b 8 4, readArr b oT 2 nt, readArr b oC 4 nc,
      at_ b 0x10 4, at_ b 0x14 4, at_ b 0x18 4, at_ b 0x1C 4, at_ b 0x20 4,
      ((List.range 16).filter (bit sm ·)).zip (readArr b 64 4 (popN 16 sm)),
      ((List.range 16).filter (bit dm ·)).zip ((List.range (popN 16 dm)).map fun i => descOf ((b.drop (oD + 32 * i)).take 32)),
      keys.map fun k => (k % 65536, k / 65536)⟩, at_ b 0x2A 2), bit fl 2, len⟩
  else none

/-- An itinerary record (R179). -/
def parseItin (b : List Byte) : Option (Raw (Nat × List Word64)) :=
  let st := at_ b 2 2
  let fl := at_ b 4 2
  if decide (8 + 8 * st ≤ b.length) && decide (fl < 2) && at_ b 6 2 == 0 &&
      (if fl = 1 then st == 0 else decide (1 ≤ st) && decide (st ≤ 4096)) then
    some ⟨(at_ b 0 2, (readArr b 8 8 st).map (BitVec.ofNat 64 ·)), bit fl 0, 8 + 8 * st⟩
  else none

/-- A corridor record (R180). -/
def parseCorr (b : List Byte) : Option (Raw CorrRec) :=
  let dm := at_ b 8 2
  if decide (at_ b 10 1 ≤ 2) && decide (at_ b 11 1 < 2) && at_ b 14 2 == 0 then
    some ⟨⟨at_ b 0 4, at_ b 4 2, at_ b 6 2, dm % 32768, bit dm 15, at_ b 10 1, at_ b 12 2⟩, bit (at_ b 11 1) 0, 16⟩
  else none

/-- A Catalogue hint record (R181) with its ADDRESS. -/
def parseHint (b : List Byte) : Option (Raw (HintRec × Nat)) :=
  let a := at_ b 4 1
  if decide (at_ b 0 2 < 16384) && decide (at_ b 2 1 < 16) && decide (a < 8) && zeros b 0x1A 32 then
    some ⟨(⟨at_ b 0 2, at_ b 2 1, at_ b 3 1, bit a 0, bit a 1, at_ b 5 1, at_ b 6 2, at_ b 8 8, at_ b 0x18 2⟩,
      at_ b 0x10 8), bit a 2, 32⟩
  else none

/-- A Wing policy record (R182). -/
def parsePolicy (b : List Byte) : Option (Raw PolicyRec) :=
  if at_ b 2 2 = 0 then some ⟨⟨at_ b 0 1, at_ b 1 1, at_ b 4 4, at_ b 8 4, at_ b 12 4⟩, false, 16⟩ else none

/-- A constraint record (R183); SAME_ROW's padding is left out. -/
def parseConstraint (b : List Byte) : Option (Raw ConstraintRec) :=
  let k := at_ b 0 1
  let fl := at_ b 1 1
  let ok := decide (fl < 2) && (match k with
    | 1 => decide (at_ b 6 1 < 4) && zeros b 7 16
    | 2 => decide (at_ b 6 1 < 16) && zeros b 7 16
    | 3 => zeros b 8 16
    | 4 => zeros b 8 16
    | 5 => zeros b 14 16
    | _ => false)
  let ops := match k with
    | 1 => [at_ b 4 2, at_ b 6 1]
    | 2 => [at_ b 4 2, at_ b 6 1]
    | 5 => (readArr b 4 2 5).filter (· != 0xFFFF)
    | _ => readArr b 4 2 2
  if ok then some ⟨⟨k, bit fl 0, at_ b 2 2, ops⟩, false, 16⟩ else none

/-- A channel map entry (R287) with its CHANNEL field. -/
def parseChan (b : List Byte) : Option (Raw (Nat × ChanRec)) :=
  if decide (at_ b 1 1 ≤ 3) && at_ b 3 1 == 0 && decide (at_ b 4 2 < 32768) && at_ b 6 2 == 0 then
    some ⟨(at_ b 0 1, ⟨at_ b 1 1, at_ b 2 1, at_ b 4 2⟩), false, 8⟩
  else none

/-- A route record (R288). -/
def parseRoute (b : List Byte) : Option (Raw RouteRec) :=
  let a := at_ b 3 1
  if decide (at_ b 2 1 ≤ 1) && decide (a < 32) && at_ b 4 4 == 0 then
    some ⟨⟨at_ b 0 2 % 32768, at_ b 2 1, a % 16, bit a 4, at_ b 8 8, at_ b 16 8⟩, bit (at_ b 0 2) 15, 24⟩
  else none

/-- A wave group record (R310, R314), for a plan of class `sc`. -/
def parseGroup (sc : Nat) (b : List Byte) : Option (Raw GroupRec) :=
  let off := at_ b 8 4
  if decide (at_ b 0 1 ≤ 63) && decide (at_ b 1 1 ≤ 6) && decide (at_ b 2 1 ≤ sc) && decide (at_ b 3 1 < 2)
      && decide (at_ b 4 2 ≤ 1024) && decide (at_ b 6 2 < 32768) && off % 16 == 0 && decide (off + 16 ≤ 0x40000)
      && at_ b 12 4 == 0 then
    some ⟨⟨at_ b 0 1, at_ b 1 1, at_ b 2 1, at_ b 4 2, at_ b 6 2, off⟩, bit (at_ b 3 1) 0, 16⟩
  else none

def parseAdopt (b : List Byte) : Option (Raw AdoptSet) :=
  if decide (at_ b 0 1 ≤ 3) && at_ b 1 1 == 0 && zeros b 10 16 then
    some ⟨⟨at_ b 0 1, at_ b 2 2, at_ b 4 2, at_ b 6 2, at_ b 8 2⟩, false, 16⟩
  else none

/-- Whether a SET field is one of R386. -/
def setOk (n : Nat) : Bool := decide (n ≤ 3) || n == 0xFF

def parseLedgerExh (b : List Byte) : Option (Raw LedgerExh) :=
  if decide (at_ b 2 1 ≤ 1) && setOk (at_ b 3 1) then some ⟨⟨at_ b 0 2, at_ b 2 1, at_ b 3 1⟩, false, 4⟩ else none

def parseLedgerTensor (b : List Byte) : Option (Raw LedgerTensor) :=
  if decide (at_ b 0 2 < 16384) && decide (at_ b 2 1 ≤ 1) && setOk (at_ b 3 1) && at_ b 6 2 == 0 then
    some ⟨⟨at_ b 0 2, at_ b 2 1, at_ b 3 1, at_ b 4 2⟩, false, 8⟩
  else none

def parseShard (b : List Byte) : Option (Raw ShardRec) :=
  if decide (at_ b 0 2 < 16384) && at_ b 6 2 == 0 then some ⟨⟨at_ b 0 2, at_ b 2 2, at_ b 4 2⟩, false, 8⟩ else none

/-- Parse `n` records one after another; the index of the first bad one otherwise. -/
def parseMany {α : Type} (p : List Byte → Option (Raw α)) : Nat → Nat → List Byte → Except Nat (List (Raw α) × List Byte)
  | 0, _, b => .ok ([], b)
  | n + 1, i, b =>
    match p b with
    | none => .error i
    | some r =>
      if b.length < r.size then .error i
      else match parseMany p n (i + 1) (b.drop r.size) with
        | .error e => .error e
        | .ok (rs, rest) => .ok (r :: rs, rest)

/-- Parse a section of exactly `n` records. -/
def parseAll {α : Type} (p : List Byte → Option (Raw α)) (n : Nat) (b : List Byte) : Except Nat (List (Raw α)) :=
  match parseMany p n 0 b with
  | .error e => .error e
  | .ok (rs, rest) => if rest = [] then .ok rs else .error n

/-- The ENDPOINTS_ROUTES section (R286). -/
structure Ends where
  chans : List (Raw (Nat × ChanRec))
  routes : List (Raw RouteRec)
  groups : List (Raw GroupRec)
  deriving DecidableEq, Repr

def parseEnds (sc count : Nat) (b : List Byte) : Except Nat Ends :=
  let nr := at_ b 4 4
  let ng := at_ b 8 4
  if at_ b 0 4 ≠ 36 ∨ at_ b 12 4 ≠ 0 ∨ 32768 < nr ∨ b.length ≠ 16 + 288 + 24 * nr + 16 * ng ∨ count ≠ 36 + nr + ng then .error 0
  else
    match parseMany parseChan 36 0 (b.drop 16) with
    | .error e => .error e
    | .ok (cs, b) => match parseMany parseRoute nr 36 b with
      | .error e => .error e
      | .ok (rs, b) => match parseMany (parseGroup sc) ng (36 + nr) b with
        | .error e => .error e
        | .ok (gs, _) => .ok ⟨cs, rs, gs⟩

/-- A module ID with its NONE bit (R385). -/
def noneBit (w : Nat) : Option Nat := if bit w 15 then none else some (w % 32768)

/-- The PAIR_ROLES section (R385, R386, R522). -/
def parseRoles (count : Nat) (b : List Byte) : Except Nat Roles :=
  let ne := at_ b 8 2
  let nt := at_ b 10 2
  let nh := at_ b 12 2
  let ns := at_ b 14 1
  let ok := decide (32 ≤ b.length) && b.length == 32 + 16 * ns + 4 * ne + 8 * nt + 8 * nh && count == ns + ne + nt + nh
    && decide (ns ≤ 4) && decide (nh ≤ 16384) && decide (at_ b 15 1 < 2) && zeros b 0x17 32
    && decide (at_ b 4 2 < 16384) && decide (at_ b 6 2 < 16384) && decide (at_ b 0x10 2 < 16384)
    && decide (at_ b 0x12 2 < 16384) && decide (at_ b 0x14 2 < 16384)
    && (!bit (at_ b 0 2) 15 || at_ b 0 2 == 32768) && (!bit (at_ b 2 2) 15 || at_ b 2 2 == 32768)
  if !ok then .error 0
  else match parseMany parseAdopt ns 0 (b.drop 32) with
    | .error e => .error e
    | .ok (as_, b1) => match parseMany parseLedgerExh ne ns b1 with
      | .error e => .error e
      | .ok (es, b2) => match parseMany parseLedgerTensor nt (ns + ne) b2 with
        | .error e => .error e
        | .ok (ts, b3) => match parseMany parseShard nh (ns + ne + nt) b3 with
          | .error e => .error e
          | .ok (hs, _) => .ok ⟨noneBit (at_ b 0 2), noneBit (at_ b 2 2), at_ b 4 2, at_ b 6 2, bit (at_ b 15 1) 0,
              at_ b 0x10 2, at_ b 0x12 2, at_ b 0x14 2, at_ b 0x16 1, as_.map (·.val), es.map (·.val),
              ts.map (·.val), hs.map (·.val)⟩

/-- The sections of one image, `none` where a section is not carried. -/
structure Sections where
  exhibits : Option (List (Raw (ExhRec × Nat)))
  itins : Option (List (Raw (Nat × List Word64)))
  corridors : Option (List (Raw CorrRec))
  hints : Option (List (Raw (HintRec × Nat)))
  ends : Option Ends
  policy : Option (List (Raw PolicyRec))
  roles : Option (Roles × Nat)
  constraints : Option (List (Raw ConstraintRec))
  deriving DecidableEq, Repr

/-- No sections. -/
def Sections.empty : Sections := ⟨none, none, none, none, none, none, none, none⟩

/-- Parse section `e` of an image into `acc`; the index of its first bad record otherwise. -/
def parseSection (img : List Byte) (sc : Nat) (e : SecEnt) (acc : Sections) : Except Nat Sections :=
  let b := (img.drop e.offset).take e.length
  match e.ty with
  | 1 => (parseAll parseExhibit e.count b).map fun r => { acc with exhibits := some r }
  | 2 => (parseAll parseItin e.count b).map fun r => { acc with itins := some r }
  | 3 => (parseAll parseCorr e.count b).map fun r => { acc with corridors := some r }
  | 4 => (parseAll parseHint e.count b).map fun r => { acc with hints := some r }
  | 5 => (parseEnds sc e.count b).map fun r => { acc with ends := some r }
  | 6 => (parseAll parsePolicy e.count b).map fun r => { acc with policy := some r }
  | 7 => (parseRoles e.count b).map fun r => { acc with roles := some (r, e.length) }
  | 8 => (parseAll parseConstraint e.count b).map fun r => { acc with constraints := some r }
  | _ => .error 0

/-! ### The effective plan (R176) -/

/-- Put a record into a list ordered by key, in place of the one with its key. -/
def putKey {α : Type} (key : α → Nat) (x : α) : List α → List α
  | [] => [x]
  | y :: ys => if key y < key x then y :: putKey key x ys else if key y = key x then x :: ys else x :: y :: ys

/-- Apply the records of a keyed section to the base's: added, replaced, or removed by DELETE. -/
def mergeKeyed {α β : Type} (key : α → Nat) (f : β → α) (base : List α) (rs : Option (List (Raw β))) : List α :=
  match rs with
  | none => base
  | some l => l.foldl (fun m r => if r.delete then m.filter (fun x => key x != key (f r.val)) else putKey key (f r.val) m) base

/-- A plan that carries nothing. -/
def Plan.empty : Plan where
  gen := 0
  sizeClass := 0
  minFfl := 0
  seed := 0
  moduleId := 0
  hangGroup := 0xFF
  exhibits := []
  itins := []
  corridors := []
  hints := []
  chans := List.replicate 36 ⟨0, 0, 0⟩
  routes := []
  groups := []
  policy := []
  constraints := []
  roles := none

/-- The effective plan of an image over its base (R176). -/
def effective (h : Hdr) (s : Sections) (base : Plan) : Plan where
  gen := h.gen
  sizeClass := h.sizeClass
  minFfl := h.minFfl
  seed := h.seed
  moduleId := h.moduleId
  hangGroup := h.hangGroup
  exhibits := mergeKeyed (·.exhibit) (·.1) base.exhibits s.exhibits
  itins := mergeKeyed (·.1) (fun (x : Nat × List Word64) => x) base.itins s.itins
  corridors := mergeKeyed (·.corridor) (fun (x : CorrRec) => x) base.corridors s.corridors
  hints := mergeKeyed (·.tensor) (·.1) base.hints s.hints
  chans := match s.ends with | some e => e.chans.map (fun c => c.val.2) | none => base.chans
  routes := mergeKeyed (·.dest) (fun (x : RouteRec) => x) base.routes (s.ends.map (·.routes))
  groups := mergeKeyed (·.group) (fun (x : GroupRec) => x) base.groups (s.ends.map (·.groups))
  policy := match s.policy with | some l => l.map (·.val) | none => base.policy
  constraints := match s.constraints with | some l => l.map (·.val) | none => base.constraints
  roles := match s.roles with | some r => some r.1 | none => base.roles

/-- An exhibit of a plan. -/
def Plan.exhibit? (p : Plan) (x : Nat) : Option ExhRec := p.exhibits.find? fun e => e.exhibit == x

/-- An itinerary of a plan. -/
def Plan.itin? (p : Plan) (k : Nat) : Option (List Word64) := (p.itins.find? fun i => i.1 == k).map (·.2)

/-- A tensor's hint. -/
def Plan.hint? (p : Plan) (k : Nat) : Option HintRec := p.hints.find? fun h => h.tensor == k

/-- A corridor. -/
def Plan.corr? (p : Plan) (k : Nat) : Option CorrRec := p.corridors.find? fun c => c.corridor == k

/-- A wave group. -/
def Plan.group? (p : Plan) (g : Nat) : Option GroupRec := p.groups.find? fun x => x.group == g

/-- The route entry of a module. -/
def Plan.route? (p : Plan) (d : Nat) : Option RouteRec := p.routes.find? fun r => r.dest == d

/-! ### Plan-store records (R168, R176) -/

/-- The records an image brings, as (section, key, bytes, deleted): keyed records by key, whole sections
under key 0, route entries and wave groups under sections 0x15 and 0x25. -/
def Sections.parts (s : Sections) : List (Nat × Nat × Nat × Bool) :=
  let keyed {α : Type} (sec : Nat) (key : α → Nat) (rs : Option (List (Raw α))) : List (Nat × Nat × Nat × Bool) :=
    match rs with
    | none => []
    | some l => l.map fun r => (sec, key r.val, r.size, r.delete)
  keyed 1 (fun (x : ExhRec × Nat) => x.1.exhibit) s.exhibits ++ keyed 2 (fun (x : Nat × List Word64) => x.1) s.itins
    ++ keyed 3 (fun (x : CorrRec) => x.corridor) s.corridors ++ keyed 4 (fun (x : HintRec × Nat) => x.1.tensor) s.hints
    ++ (match s.ends with
      | none => []
      | some e => [(5, 0, 304, false)] ++ keyed 0x15 (fun (x : RouteRec) => x.dest) (some e.routes)
          ++ keyed 0x25 (fun (x : GroupRec) => x.group) (some e.groups))
    ++ (match s.policy with | none => [] | some l => [(6, 0, 16 * l.length, false)])
    ++ (match s.roles with | none => [] | some r => [(7, 0, r.2, false)])
    ++ (match s.constraints with | none => [] | some l => [(8, 0, 16 * l.length, false)])

/-- The records of a slot after an image over its base's records, new ones numbered from `n`. -/
def mergeRecords (base : List (Nat × Nat × Nat × Nat)) : Nat → List (Nat × Nat × Nat × Bool) → List (Nat × Nat × Nat × Nat)
  | _, [] => base
  | n, (sec, key, size, del) :: rest =>
    let kept := base.filter fun r => !(r.1 == sec && r.2.1 == key)
    mergeRecords (if del then kept else kept ++ [(sec, key, n, size)]) (n + 1) rest

end Sys2Proof.Machine
end

