-- ==== Sys2Proof/Machine/Audit.lean ====
section
/-! DEFINITION. The audit of a plan (R185, R186, R387, R388): its checks in the order of R185, stopping at
the first failure, with the code and the place that PLN_SLOT_DETAIL[k] holds. -/

namespace Sys2Proof.Machine

open Sys2Proof

/-! ### Result codes (R185) -/

def aOK : Nat := 0x00
def aSIZE : Nat := 0x01
def aFORMAT : Nat := 0x02
def aMEASUREMENT : Nat := 0x03
def aSIGREQ : Nat := 0x04
def aSIGBAD : Nat := 0x05
def aSECTIONS : Nat := 0x06
def aGENERATION : Nat := 0x07
def aBASE : Nat := 0x08
def aFEATURE : Nat := 0x09
def aREFERENCE : Nat := 0x0A
def aPHYSICAL : Nat := 0x0B
def aITINERARY : Nat := 0x0C
def aCATALOGUE : Nat := 0x0D
def aCAPACITY : Nat := 0x0E
def aROUTE : Nat := 0x0F
def aDEADLOCK : Nat := 0x10
def aPAIR : Nat := 0x11
def aPOLICY : Nat := 0x12
def aTILES : Nat := 0x20
def aVAULT : Nat := 0x21
def aSTORE : Nat := 0x22
def aCONSTRAINT : Nat := 0x23
def aREMOTE : Nat := 0x24

/-- A failure: code, section-table index (0xFF: none) and place. -/
structure Fail where
  code : Nat
  sec : Nat
  place : Nat
  deriving DecidableEq, Repr

/-- The value of PLN_SLOT_DETAIL[k] (R185). -/
def Fail.detail (f : Fail) : Nat := f.sec % 256 * 2 ^ 24 + f.place % 2 ^ 24

/-- The first failure of a list of checks. -/
def firstFail (cs : List (Option Fail)) : Option Fail := firstSome id cs

/-- A check that fails where `bad` holds. -/
def failIf (bad : Bool) (code : Nat) (sec : Nat := 0xFF) (place : Nat := 0) : Option Fail :=
  if bad then some ⟨code, sec, place⟩ else none

/-- The first element of a list that `bad` holds of, as a failure at its key. -/
def failEach {α : Type} (l : List α) (bad : α → Bool) (key : α → Nat) (code sec : Nat) : Option Fail :=
  (l.find? bad).map fun x => ⟨code, sec, key x⟩

/-- The index of a section type in the section table; 0xFF where the image does not carry it. -/
def secIndex (img : List Byte) (n ty : Nat) : Nat :=
  ((List.range n).find? fun i => (secEnt img i).ty == ty).getD 0xFF

/-! ### Checks on the image -/

/-- SIZE (R185): lengths, and sections inside the image. -/
def checkSize (img : List Byte) (loaded : Nat) (h : Hdr) : Option Fail :=
  firstFail [
    failIf (decide (img.length < 256) || h.imageLength != loaded || h.imageLength != img.length || decide (2 ^ 28 < h.imageLength)
      || h.headerLength != 256 || decide (h.imageLength < 256 + h.tail)) aSIZE,
    failEach (List.range (min h.count 12)) (fun i => decide (h.imageLength < (secEnt img i).offset + (secEnt img i).length)) id aSIZE 0xFF
      |>.map fun f => ⟨aSIZE, f.place, 0⟩]

/-- FORMAT (R175, R185). -/
def checkFormat (h : Hdr) : Option Fail :=
  failIf (h.magic != 0x4C505641 || h.product != 0x9120 || h.major != 2 || decide (0 < h.minor)) aFORMAT

/-- The measured bytes: from offset 0 up to the trailer (R184). -/
def measured (img : List Byte) (h : Hdr) : List Byte := img.take (h.imageLength - h.tail)

/-- MEASUREMENT (R184, R185). -/
def checkMeasurement (img : List Byte) (h : Hdr) : Option Fail :=
  failIf (((img.drop (h.imageLength - h.tail)).take 48) != sha384 (measured img h)) aMEASUREMENT

/-- SIGNATURE_REQUIRED and SIGNATURE_INVALID (R184, R185). -/
def State.checkSignature (s : State) (img : List Byte) (h : Hdr) : Option Fail :=
  let pol := s.rn (winBase .pln 0 + rPLN_SIG_POLICY)
  let blk := (img.drop (h.imageLength - 112)).take 112
  let key := at_ blk 0 1
  firstFail [
    failIf (bit pol 0 && !h.signed) aSIGREQ,
    failIf (h.signed && (decide (3 < key) || !bit pol (4 + key) || !zeros blk 1 16
      || !Config.ecdsaVerify (16 + leNat (aget [] s.arch.tenantKeys key)) ((sha384 (measured img h)).map (·.toNat)) ((blk.drop 16).map (·.toNat)))) aSIGBAD]

/-- Whether entry `i` of the section table is misplaced: unknown or repeated type, reserved bytes,
misaligned, inside the header, or overlapping an entry or the trailer (R174, R176). -/
def secBad (img : List Byte) (h : Hdr) (i : Nat) : Bool :=
  let e := secEnt img i
  let clash := fun j => let o := secEnt img j
    decide (e.offset < o.offset + o.length) && decide (o.offset < e.offset + e.length)
  decide (e.ty < 1) || decide (8 < e.ty) || at_ img (0x40 + 16 * i + 2) 2 != 0 || e.offset % 64 != 0 || decide (e.offset < 256)
    || decide (h.imageLength - h.tail < e.offset + e.length)
    || (List.range i).any (fun j => (secEnt img j).ty == e.ty || clash j)

/-- Parse every section in table order; a bad record fails with SECTIONS at its index. -/
def parseSections (img : List Byte) (sc : Nat) : List Nat → Sections → Except Fail Sections
  | [], acc => .ok acc
  | i :: is, acc =>
    match parseSection img sc (secEnt img i) acc with
    | .error r => .error ⟨aSECTIONS, i, r⟩
    | .ok acc => parseSections img sc is acc

/-- SECTIONS (R185). -/
def checkSections (img : List Byte) (h : Hdr) : Except Fail Sections :=
  let n := h.count
  let pre := firstFail [
    failIf (!hdrOk img h) aSECTIONS,
    (failEach ((List.range 12).filter (fun i => decide (n ≤ i))) (fun i => !zeros img (0x40 + 16 * i) (0x50 + 16 * i)) id aSECTIONS 0).map
      fun f => ⟨aSECTIONS, f.place, 0⟩,
    (failEach (List.range n) (secBad img h) id aSECTIONS 0).map fun f => ⟨aSECTIONS, f.place, 0⟩,
    failIf (!h.delta && (secIndex img n 1 == 0xFF || secIndex img n 2 == 0xFF)) aSECTIONS]
  match pre with
  | some f => .error f
  | none => parseSections img h.sizeClass (List.range n) .empty

/-! ### Checks on the effective plan -/

/-- The first key that repeats. -/
def repeated : List Nat → Option Nat
  | [] => none
  | k :: ks => if ks.contains k then some k else repeated ks

/-- The key of a keyed section that repeats. -/
def repeatedKey {α : Type} (rs : Option (List (Raw α))) (key : α → Nat) : Option Nat :=
  rs.bind fun l => repeated (l.map fun r => key r.val)

/-- The index of the record with a key: in the image's section where that carries it, else among the effective plan's records
(R185, log entry 122). -/
def recIndex {α β : Type} (rs : Option (List (Raw α))) (key : α → Nat) (eff : List β) (keyE : β → Nat) (k : Nat) : Nat :=
  match (rs.getD []).findIdx? (fun r => key r.val == k) with
  | some i => i
  | none => eff.findIdx fun e => keyE e == k

/-- The record index of an itinerary. -/
def itinIndex (p : Plan) (q : Sections) : Nat → Nat := recIndex q.itins (·.1) p.itins (·.1)

/-- The record index of a corridor. -/
def corrIndex (p : Plan) (q : Sections) : Nat → Nat := recIndex q.corridors (·.corridor) p.corridors (·.corridor)

/-- The record index of a route: after the 36 records of the channel map (R522). -/
def routeIndex (p : Plan) (q : Sections) (d : Nat) : Nat := 36 + recIndex (q.ends.map (·.routes)) (·.dest) p.routes (·.dest) d

/-- The record index of a wave group: after the channel map and the routes (R522). -/
def groupIndex (p : Plan) (q : Sections) (g : Nat) : Nat :=
  let routes := match q.ends with | some e => e.routes.length | none => p.routes.length
  36 + routes + recIndex (q.ends.map (·.groups)) (·.group) p.groups (·.group) g

/-- A repeated key (REFERENCE), at the place `at_` gives it. -/
def repeatFail (k : Option Nat) (at_ : Nat → Nat) (sec : Nat) : Option Fail := k.map fun k => ⟨aREFERENCE, sec, at_ k⟩

/-- Whole pages of a length (R191). -/
def pages (n : Nat) : Nat := (n + 4095) / 4096

/-- REFERENCE (R185, R310). -/
def checkReference (p : Plan) (q : Sections) (sec : Nat → Nat) : Option Fail :=
  firstFail [
    repeatFail (repeatedKey q.exhibits (·.1.exhibit)) id (sec 1), repeatFail (repeatedKey q.itins (·.1)) (itinIndex p q) (sec 2),
    repeatFail (repeatedKey q.corridors (·.corridor)) (corrIndex p q) (sec 3), repeatFail (repeatedKey q.hints (·.1.tensor)) id (sec 4),
    repeatFail (repeatedKey (q.ends.map (·.routes)) (·.dest)) (routeIndex p q) (sec 5),
    repeatFail (repeatedKey (q.ends.map (·.groups)) (·.group)) (groupIndex p q) (sec 5),
    failEach p.exhibits (fun e => (p.itin? e.itinerary).isNone || e.tensors.any (fun t => (p.hint? t).isNone)
      || e.corridors.any (fun c => match p.corr? c with | none => true | some r => r.src != e.exhibit)) (·.exhibit) aREFERENCE (sec 1),
    failEach p.corridors (fun c => c.isLocal && (p.exhibit? c.dst).isNone) (fun c => corrIndex p q c.corridor) aREFERENCE (sec 3),
    (failEach p.constraints.zipIdx (fun c => (if c.1.kind ≤ 2 then c.1.ops.take 1 else c.1.ops).any fun x => (p.exhibit? x).isNone)
      (·.2) aREFERENCE (sec 8)),
    failEach p.hints (fun h => h.owner != 0xFFFF && (p.exhibit? h.owner).isNone) (·.tensor) aREFERENCE (sec 4),
    failIf (p.hangGroup != 0xFF && (match p.group? p.hangGroup with | some g => g.kind != 4 | none => true)) aREFERENCE (sec 5)
      (if (p.group? p.hangGroup).isSome then groupIndex p q p.hangGroup else 0)]

/-- PHYSICAL (R25, R185). -/
def checkPhysical (q : Sections) (sec : Nat → Nat) : Option Fail :=
  firstFail [
    (failEach (q.exhibits.getD []) (fun r => r.val.2 != 0xFFFF) (·.val.1.exhibit) aPHYSICAL (sec 1)),
    (failEach (q.hints.getD []) (fun r => r.val.2 != 0) (·.val.1.tensor) aPHYSICAL (sec 4))]

/-- Whether an itinerary breaks ITINERARY (R185): a target or body beyond it, no END or HANG at its end, a
step of class 0x7 to 0xF.  The target of a LOOP is the last step of its body, to which it comes back: where execution goes after
the body may lie beyond the itinerary, as END steps (R117, log entry 179). -/
def itinBad (st : List Word64) : Bool :=
  let last := fld (st.getLastD 0).toNat 56 8
  st == [] || !(last == 1 || last == 2) ||
  st.zipIdx.any fun (w, i) =>
    let op := fld w.toNat 56 8
    decide (7 ≤ fld w.toNat 60 4) || ((op == 3 || op == 4 || op == 5) && decide (st.length ≤ i + fld w.toNat 0 12))

/-- ITINERARY (R185). -/
def checkItinerary (p : Plan) (q : Sections) (sec : Nat → Nat) : Option Fail :=
  firstFail [
    failEach p.exhibits (fun e => decide (((p.itin? e.itinerary).getD []).length ≤ e.entry)) (·.exhibit) aITINERARY (sec 1),
    failEach p.itins (fun i => itinBad i.2) (fun i => itinIndex p q i.1) aITINERARY (sec 2)]

/-- Bytes of the private area of an exhibit; 0 for none. -/
def Plan.privateOf (p : Plan) (x : Nat) : Nat := ((p.exhibit? x).map (·.privateBytes)).getD 0

/-- 440 GiB. -/
def gib440 : Nat := 440 * 2 ^ 30

/-- CATALOGUE (R185). -/
def hintBad (p : Plan) (h : HintRec) : Bool :=
  !fmtValid h.format || decide (2 < h.tierHint) || decide (2 < h.place) || h.length == 0 || decide (gib440 < h.length)
    || (h.keep && h.tierHint == 2)
    || (h.owner == 0xFFFF && (!h.shared || h.keep || h.tierHint == 1))
    || (h.tierHint == 1 && decide (0x400000 - p.privateOf h.owner < 4096 * pages h.length))

def checkCatalogue (p : Plan) (sec : Nat → Nat) : Option Fail :=
  failEach p.hints (hintBad p) (·.tensor) aCATALOGUE (sec 4)

/-- The adoption set an exhibit belongs to; 0xFF for the module's own work (R386, R388). -/
def Plan.setOf (p : Plan) (x : Nat) : Nat :=
  match p.roles with
  | none => 0xFF
  | some r => ((r.exhibits.find? fun e => e.exhibit == x).map (·.set)).getD 0xFF

/-- TABLE_CAPACITY (R185, R388). -/
def checkCapacity (p : Plan) (sec : Nat → Nat) : Option Fail :=
  let vaultOnly := fun x => (p.hints.filter fun h => h.tierHint == 1 && h.owner == x).foldl (fun n h => n + 4096 * pages h.length) 0
  firstFail [
    (([0xFF, 0, 1, 2, 3].find? fun k => decide (1024 < (p.exhibits.filter fun e => p.setOf e.exhibit == k).length)).map
      fun _ => ⟨aCAPACITY, sec 1, 0⟩),
    failIf (decide (16384 < p.hints.length) || decide (8 < (p.hints.filter (·.keep)).length)
      || decide (gib440 < (p.hints.filter (·.tierHint == 2)).foldl (fun n h => n + 4096 * pages h.length) 0)) aCAPACITY (sec 4),
    failIf (decide (32768 < p.routes.length) || decide (64 < p.groups.length)) aCAPACITY (sec 5),
    failEach p.exhibits (fun e => decide (128 < e.tensors.length) || decide (256 < e.corridors.length)
      || decide (0x400000 < vaultOnly e.exhibit + e.privateBytes)) (·.exhibit) aCAPACITY (sec 1)]

/-- Whether a module ID lies within SIZE_CLASS of the module's own (R34, R185). -/
def inClass (sc own m : Nat) : Bool :=
  match sc with
  | 0 => m == own
  | 1 => m / 16 == own / 16
  | 2 => m / 512 == own / 512
  | _ => true

/-- Channels at most per level (R34). -/
def levelMost (l : Nat) : Nat := match l with | 1 => 15 | 2 => 10 | _ => 11

/-- Bits of the assigned channels. -/
def assignedMask (cs : List ChanRec) : Nat := cs.zipIdx.foldl (fun n c => if c.1.level = 0 then n else n + 2 ^ c.2) 0

/-- ROUTE (R185, R287). -/
def checkRoute (p : Plan) (q : Sections) (sec : Nat → Nat) : Option Fail :=
  let raw := ((q.ends.map (·.chans)).getD []).map (·.val.1)
  let ok := assignedMask p.chans
  firstFail [
    failEach raw.zipIdx (fun c => c.1 != c.2) (·.2) aROUTE (sec 5),
    failEach p.chans.zipIdx (fun c => c.1.level != 0 && (c.1.neighbour == p.moduleId || !inClass p.sizeClass p.moduleId c.1.neighbour
      || decide (levelMost c.1.level < ((p.chans.take (c.2 + 1)).filter fun d => d.level == c.1.level).length))) (·.2) aROUTE (sec 5),
    failEach p.routes (fun r => !inClass p.sizeClass p.moduleId r.dest || (r.mask ||| r.transitIn) &&& ok != r.mask ||| r.transitIn)
      (fun r => routeIndex p q r.dest) aROUTE (sec 5),
    failEach p.corridors (fun c => !c.isLocal && !inClass p.sizeClass p.moduleId c.dstModule) (fun c => corrIndex p q c.corridor)
      aROUTE (sec 3),
    failEach p.groups (fun g => g.kind == 3 && !inClass p.sizeClass p.moduleId g.rootModule) (fun g => groupIndex p q g.group) aROUTE (sec 5)]

/-- DEADLOCK: every transit must rise in rank (R186, R288). -/
def checkDeadlock (p : Plan) (sec : Nat → Nat) : Option Fail :=
  let rank := fun c => (p.chans.getD c ⟨0, 0, 0⟩).rank
  (firstSome (fun (r : RouteRec) => (List.range 36).find? fun a => bit r.transitIn a &&
    (List.range 36).any fun b => bit r.mask b && decide (rank b ≤ rank a)) p.routes).map fun a => ⟨aDEADLOCK, sec 5, a⟩

/-- PAIR for the head of PAIR_ROLES (R387). -/
def rolesBad (p : Plan) (r : Roles) : Bool :=
  let own := p.moduleId
  let storeOnly := fun t => match p.hint? t with | some h => h.tierHint == 2 | none => false
  decide (p.minFfl < 3)
    || (r.reserveRole && (r.buddy.isSome || r.reserve.isSome)) || (!r.reserveRole && (r.buddy.isNone || r.reserve.isNone))
    || r.buddy == some own || r.reserve == some own || (r.buddy.isSome && r.buddy == r.reserve)
    || !storeOnly r.cow || !storeOnly r.snapshot || decide (63 < r.rebuildTicket)
    || p.exhibits.any (fun e => e.tickets.any fun k => k.1 == r.rebuildTicket)
    || (!r.reserveRole &&
      (!(r.shards.any fun h => h.shard == r.shard && h.keeper == own) || !(r.shards.any fun h => h.shard == r.buddyShard && h.mirror == own)))

/-- Records with their index, each with a key that a later one repeats or not. -/
def withRepeats {α β : Type} [DecidableEq β] (key : α → β) (l : List α) : List (Nat × α × Bool) :=
  l.zipIdx.map fun x => (x.2, x.1, (l.drop (x.2 + 1)).any fun y => key y == key x.1)

/-- PAIR (R387): the head, then the records in the order of the section, counted as R522 counts them: adoption sets, ledger
exhibits, ledger tensors, shards. -/
def checkPair (p : Plan) (sec : Nat → Nat) : Option Fail :=
  match p.roles with
  | none => none
  | some r =>
    let own := fun (set : Nat) => r.reserveRole && set == 0xFF
    let n1 := r.sets.length
    let n2 := n1 + r.exhibits.length
    let n3 := n2 + r.tensors.length
    firstFail [
      failIf (rolesBad p r) aPAIR (sec 7),
      failIf (!r.reserveRole && r.sets != []) aPAIR (sec 7),
      failEach r.exhibits.zipIdx (fun e => own e.1.set || (p.exhibit? e.1.exhibit).isNone) (fun e => n1 + e.2) aPAIR (sec 7),
      failEach (withRepeats (fun (t : LedgerTensor) => (t.role, t.set, t.index)) r.tensors)
        (fun t => own t.2.1.set || (p.hint? t.2.1.tensor).isNone || t.2.2) (fun t => n2 + t.1) aPAIR (sec 7),
      failEach (withRepeats (fun (h : ShardRec) => h.shard) r.shards) (fun h => h.2.1.keeper == h.2.1.mirror || h.2.2)
        (fun h => n3 + h.1) aPAIR (sec 7)]

/-- Whether a Wing policy record names a plan-settable register (R182, R283, R326, R352, R380, R381, R431). -/
def settable (w : PolicyRec) : Bool :=
  let inc (b : Blk) := w.offset == rINC_CHANCE_TIME || (decide (rINC_POLICY ≤ w.offset) && decide (w.offset < rINC_POLICY + 0x60)
    && hasSource b ((w.offset - rINC_POLICY) / 4))
  w.offset % 4 == 0 && (match w.block with
  | 0 => decide (w.index < 4) && (inc .wng || [rWNG_MARGIN_THRESH, rWNG_SPARE_EXP, rWNG_STEER_TIME, rWNG_ACK_TIME, rWNG_REPLAY_TIME,
      rWNG_LINK_DOWN_TIME, rWNG_CREDIT_TIME, rWNG_CONGEST_TIME, rWNG_CREDIT_ADV, rWNG_CREDIT_ADV + 4, rWNG_CREDIT_ADV + 8,
      rWNG_CREDIT_ADV + 12, rWNG_CAL_TEMP_THRESH].contains w.offset)
  | 1 => decide (w.index < 2) && (inc .lmp || [rLMP_WATCH_THRESH, rLMP_SWAP_THRESH, rLMP_FADE_THRESH].contains w.offset)
  | 2 => decide (w.index < 4) && (inc .col || w.offset == rCOL_STALL_TIME || (decide (rCOL_RED_CFG ≤ w.offset) && decide (w.offset < rCOL_RED_CFG + 0x4000)))
  | _ => false)

def checkPolicy (p : Plan) (sec : Nat → Nat) : Option Fail :=
  failEach p.policy.zipIdx (fun w => !settable w.1) (·.2) aPOLICY (sec 6)

/-! ### The audit -/

/-- The base plan of a delta: that of a slot AUDITED, READY or ACTIVE with its generation (R185). -/
def State.basePlan (s : State) (k gen : Nat) : Option (Plan × Nat) :=
  firstSome (fun j => if j != k && [3, 5, 6].contains (s.slotState j) && s.slotGen j == gen then
    (s.slot j).plan.map fun p => (p, j) else none) (List.range 4)

/-- Bytes of records. -/
def recordSum (t : Assoc Nat) : Nat := t.foldl (fun n e => n + e.2) 0

/-- Whether the records of an effective plan exceed the 256 MiB that one slot takes (R168, log entry 155). -/
def State.overfull (s : State) (base : Option Nat) (q : Sections) : Bool :=
  let held := match base with | some j => (s.slot j).records | none => []
  decide (2 ^ 28 < recordSum ((mergeRecords held s.cur.nextRecord q.parts).map fun r => (r.2.2.1, r.2.2.2)))

/-- The module's feature level (R185, R262). -/
def State.ffl (s : State) : Nat := s.f (winBase .wng 0 + rWNG_FEATURE_CFG) 0 8

/-- FEATURE (R185, R317, R408). -/
def State.checkFeature (s : State) (h : Hdr) : Option Fail :=
  let c := winBase .fab 0 + rFAB_CENSUS_STAT
  failIf (decide (s.ffl < h.minFfl) || (decide (1 ≤ h.sizeClass) && s.f c 16 1 == 1 && decide (s.f c 0 8 < h.minFfl))) aFEATURE

/-- An audited image: its header, sections and effective plan. -/
structure Audited where
  hdr : Hdr
  sections : Sections
  plan : Plan
  baseSlot : Option Nat
  deriving DecidableEq, Repr

/-- The checks of the image of slot `k` up to its signature (R185). -/
def State.checkImage (s : State) (k : Nat) : Option Fail :=
  let img := (s.slot k).image
  let h := hdrOf img
  firstFail [checkSize img (s.slot k).length h, checkFormat h, checkMeasurement img h, s.checkSignature img h]

/-- The audit of slot `k`'s image (R185). -/
def State.audit (s : State) (k : Nat) : Except Fail Audited :=
  let img := (s.slot k).image
  let h := hdrOf img
  match s.checkImage k with
  | some f => .error f
  | none =>
    match checkSections img h with
    | .error f => .error f
    | .ok q =>
      let sec := secIndex img h.count
      let others := (List.range 4).filter fun j => j != k && s.slotState j != 0
      let base := if h.delta then s.basePlan k h.base else none
      let baseBad := if h.delta then (match base with
          | none => true
          | some (b, _) => b.moduleId != h.moduleId || b.sizeClass != h.sizeClass)
        else h.base != 0
      let p := effective h q (match base with | some (b, _) => b | none => Plan.empty)
      match firstFail [
        failIf (decide (h.gen ≤ s.planGen) || others.any (fun j => s.slotGen j == h.gen)) aGENERATION,
        failIf baseBad aBASE, failIf (s.overfull (base.map (·.2)) q) aSIZE, s.checkFeature h, checkReference p q sec,
        checkPhysical q sec, checkItinerary p q sec,
        checkCatalogue p sec, checkCapacity p sec, checkRoute p q sec, checkDeadlock p sec, checkPair p sec, checkPolicy p sec] with
      | some f => .error f
      | none => .ok ⟨h, q, p, base.map (·.2)⟩

end Sys2Proof.Machine
end

