-- ==== Sys2Proof/Machine/TileVector.lean ====
section
/-! DEFINITION. Vector steps, class 0x5 (R160 to R164): issue and completion. -/

namespace Sys2Proof.Machine

open Sys2Proof Host

/-- Whether an operand byte is well formed (R161). -/
def operandOk (b : Nat) (dst : Bool) : Bool :=
  match fld b 6 2 with
  | 0 => fld b 5 1 == 0
  | 1 => true
  | 2 => fld b 4 2 == 0
  | _ => !dst && fld b 4 2 == 0

/-- The source operand bytes a vector operation reads, in field order (R160, R162). -/
def vecSrcs (w : Nat) : List Nat :=
  [fld w 40 8, fld w 32 8, fld w 24 8].take (vecSources (fld w 56 4))

/-- Sub-operations that are legal (R162); other operations do not use SUB. -/
def subOk (op sub : Nat) : Bool :=
  match op with
  | 0x7 => decide (sub < 3)
  | 0xE => decide (sub < 2)
  | 0xF => decide (sub < 2)
  | _ => sub == 0

/-- Encoding rules of R160 and R161. -/
def vecWordOk (w : Nat) : Bool :=
  let op := fld w 56 4
  let n := vecSources op
  let dst := fld w 48 8
  resOk w (opMask + mk 13 43 + mk 0 2) && operandOk dst true && (vecSrcs w).all (fun b => operandOk b false) &&
  (decide (2 ≤ n) || fld w 32 8 == 0) && (decide (3 ≤ n) || fld w 24 8 == 0) &&
  (fld dst 6 2 == 2 || fld w 22 2 == 0) &&
  (fld w 21 1 == 0 || (vecSrcs w).any (fun b => fld b 6 2 == 1)) && subOk op (fld w 0 2)

/-- Causes of one vector operand that is a descriptor: it holds 256 × repetitions elements (R161). -/
def vecDescCauses (s : State) (t : Nat) (x : Tile) (w : Word64) (b rep : Nat) : List PendTrap :=
  if fld b 6 2 = 2 then
    let d := x.desc (fld b 0 4)
    localCauses s t x w (fld b 0 4) ++ (if d.elems = 256 * rep then [] else [causeOf cILLEGAL w])
  else []

/-- A group-scaled destination needs an even repetition count and whole groups in a row (R164). -/
def groupStoreOk (x : Tile) (w rep : Nat) : Bool :=
  let dst := fld w 48 8
  let d := x.desc (fld dst 0 4)
  fld dst 6 2 != 2 || !isGrouped d.format || (rep % 2 == 0 && d.n0 % 512 == 0)

/-- Issue a vector step of operation `op` (R160 to R164). -/
def State.issueVec (s : State) (t op : Nat) : State :=
  s.issue t 5 op fun s w p =>
    let n := w.toNat
    let rep := fld n 13 8 + 1
    let x := s.tile t
    let causes := ((fld n 48 8 :: vecSrcs n).map fun b => vecDescCauses s t x w b rep).flatten
    legalOr (vecWordOk n) w
      (s.toUnit t .vector w p (firstBounds (causes ++
        (if groupStoreOk x n rep then [] else [causeOf cILLEGAL w]))))

/-- MOVE (R162). -/
def execVecMove (t : Nat) (s : State) : Outcome State Fault Refusal := .next (s.issueVec t 0x0)
/-- ADD (R162). -/
def execVecAdd (t : Nat) (s : State) : Outcome State Fault Refusal := .next (s.issueVec t 0x1)
/-- SUB (R162). -/
def execVecSub (t : Nat) (s : State) : Outcome State Fault Refusal := .next (s.issueVec t 0x2)
/-- MUL (R162). -/
def execVecMul (t : Nat) (s : State) : Outcome State Fault Refusal := .next (s.issueVec t 0x3)
/-- FMA (R162). -/
def execVecFma (t : Nat) (s : State) : Outcome State Fault Refusal := .next (s.issueVec t 0x4)
/-- MIN (R162). -/
def execVecMin (t : Nat) (s : State) : Outcome State Fault Refusal := .next (s.issueVec t 0x5)
/-- MAX (R162). -/
def execVecMax (t : Nat) (s : State) : Outcome State Fault Refusal := .next (s.issueVec t 0x6)
/-- CMP (R162). -/
def execVecCmp (t : Nat) (s : State) : Outcome State Fault Refusal := .next (s.issueVec t 0x7)
/-- SELECT (R162). -/
def execVecSelect (t : Nat) (s : State) : Outcome State Fault Refusal := .next (s.issueVec t 0x8)
/-- RCP (R162). -/
def execVecRcp (t : Nat) (s : State) : Outcome State Fault Refusal := .next (s.issueVec t 0x9)
/-- RSQRT (R162). -/
def execVecRsqrt (t : Nat) (s : State) : Outcome State Fault Refusal := .next (s.issueVec t 0xA)
/-- SQRT (R162). -/
def execVecSqrt (t : Nat) (s : State) : Outcome State Fault Refusal := .next (s.issueVec t 0xB)
/-- EXP2 (R162). -/
def execVecExp2 (t : Nat) (s : State) : Outcome State Fault Refusal := .next (s.issueVec t 0xC)
/-- LOG2 (R162). -/
def execVecLog2 (t : Nat) (s : State) : Outcome State Fault Refusal := .next (s.issueVec t 0xD)
/-- SIGN (R162). -/
def execVecSign (t : Nat) (s : State) : Outcome State Fault Refusal := .next (s.issueVec t 0xE)
/-- REDUCE (R162, R163). -/
def execVecReduce (t : Nat) (s : State) : Outcome State Fault Refusal := .next (s.issueVec t 0xF)

/-! ### Completion -/

/-- What reading an operand gives: FP32 codes, flags of conversion or folding, and poison. -/
structure VSrc where
  vals : List Nat
  flags : BitVec 8
  inv : Nat
  first : Option (Nat × Nat × Bool)

/-- The accumulator elements of group `g` (R161): rows 4g to 4g + 3 of its bank, row-major. -/
def accGroup (x : Tile) (g : Nat) : List AccEl := agets ⟨0, 0⟩ x.acc (g % 64 * 256) 256

/-- Read one source operand over all repetitions (R60, R161). -/
def State.vecRead (s : State) (t : Nat) (i : Issued) (b rep : Nat) (fold : Bool) : VSrc × State :=
  let x := s.tile t
  match fld b 6 2 with
  | 0 =>
    (⟨((List.range rep).map fun k => (agets (0 : Word) x.v (256 * rV (fld b 0 5 + k)) 256).map (·.toNat)).flatten, 0, 0, none⟩, s)
  | 1 =>
    let els := ((List.range rep).map fun k => accGroup x (fld b 4 2 * 16 + fld b 0 4 + k)).flatten.map (accRead fold)
    (⟨els.map (·.1), els.foldl (fun f e => f ||| e.2) 0, 0, none⟩, s)
  | 2 =>
    let d := (i.view x).desc (fld b 0 4)
    let (src, s) := s.readSrc t i (fld b 0 4) rdTile
    if d.format = 0 then (⟨src.rows.flatten.map (·.1), 0, 0, src.first⟩, s)
    else
      let es := src.values d.format d.n0
      let vs := es.map (·.f32)
      (⟨vs.map (·.1), vs.foldl (fun f e => f ||| e.2) 0, invVals es, src.first⟩, s)
  | _ => (⟨List.replicate (256 * rep) ((i.view x).sreg (fld b 0 4)).toNat, 0, 0, none⟩, s)

/-- The lane results of an operation over all repetitions (R162, R163). -/
def vecResults (op sub : Nat) (a b c : List Nat) : List Cv × List Cv :=
  if op = 0xF then
    let rs := (rowsOf' 256 a).map fun xs => (vecReduce sub xs)
    ((rs.map fun r => List.replicate 256 (quiet r.1)).flatten, (rs.map (·.2)).flatten)
  else
    let rs := a.zipIdx.map fun (x, k) => vecLane op sub x (b.getD k 0) (c.getD k 0)
    (rs, rs)

/-- Write 256-value groups to their destination (R161): a v register, a bank's values with its
compensation terms cleared, or a descriptor by conversion (R164).  Answers the conversion's results. -/
def State.vecWrite (s : State) (t : Nat) (i : Issued) (vals : List Nat) : List Cv × BitVec 8 × State :=
  let n := i.word.toNat
  let b := fld n 48 8
  match fld b 6 2 with
  | 0 =>
    ([], 0, s.mapTile t fun x => { x with v := (rowsOf' 256 vals).zipIdx.foldl (fun m (r : List Nat × Nat) =>
      aputs (0 : Word) m (256 * rV (fld b 0 5 + r.2)) (r.1.map (BitVec.ofNat 32))) x.v })
  | 1 =>
    ([], 0, s.mapTile t fun x => { x with acc := (rowsOf' 256 vals).zipIdx.foldl (fun m (r : List Nat × Nat) =>
      aputs (⟨0, 0⟩ : AccEl) m ((fld b 4 2 * 16 + fld b 0 4 + r.2) % 64 * 256)
        (r.1.map fun v => ⟨BitVec.ofNat 32 v, 0⟩)) x.acc })
  | _ =>
    let d := (i.view (s.tile t)).desc (fld b 0 4)
    if d.format = 0 then
      ([], 0, s.writeDst t i (fld b 0 4) ⟨rowsOf' d.n0 (vals.map fun v => (v, false)), [], [], [], 0⟩ rdTile)
    else
      let o := encodeAll d (roundMode (fld n 22 2) i.ctrl) (satOf i.ctrl) (s.noiseOf t i)
        (vals.map fun v => (ofF32 v, false))
      (o.results, o.scaleFlags, s.writeDst t i (fld b 0 4) o rdTile)

/-- Island cycles an operation takes for 256 values (R71, R162). -/
def vecCycles (op : Nat) : Nat :=
  match op with
  | 0x9 => 4 | 0xA => 4 | 0xC => 4 | 0xD => 4 | 0xB => 8 | _ => 1

/-- The effect of a vector step (R160 to R164); poisoned data traps and no register is written.  Every source is read, over all
repetitions, before anything is written (log entry 144). -/
def State.doVector (s : State) (t : Nat) (i : Issued) : State :=
  let n := i.word.toNat
  let op := fld n 56 4
  let rep := fld n 13 8 + 1
  let fold := bit n 21
  let i := { i with raced := i.raced ++ s.openRanges t .vector }
  let k := vecSources op
  let (a, s) := s.vecRead t i (fld n 40 8) rep fold
  let (b, s) := if 2 ≤ k then s.vecRead t i (fld n 32 8) rep fold else (⟨[], 0, 0, none⟩, s)
  let (c, s) := if 3 ≤ k then s.vecRead t i (fld n 24 8) rep fold else (⟨[], 0, 0, none⟩, s)
  match (match a.first with | some f => some f | none => match b.first with | some f => some f | none => c.first) with
  | some f => s.addCause t (poisonCause i.word f)
  | none =>
    let (rs, all) := vecResults op (fld n 0 2) a.vals b.vals c.vals
    let (cs, sf, s) := s.vecWrite t i (rs.map (·.code))
    let fl := orFlags all ||| orFlags cs ||| sf ||| a.flags ||| b.flags ||| c.flags
    let s := s.raiseFlags t fl (satCount cs) (invCount all + invCount cs + a.inv + b.inv + c.inv)
    (s.perf t rTILE_VECTOR_COUNT (rep * vecCycles op)).arithCause t i fl

end Sys2Proof.Machine
end

