-- ==== Sys2Proof/Machine/TileMatrix.lean ====
section
/-! DEFINITION. Matrix steps, class 0x4 (R154 to R159): issue and completion. -/

namespace Sys2Proof.Machine

open Sys2Proof Host

/-- The held K of a B format (R69, R156). -/
def heldMax (f : Nat) : Nat := if f = 9 ∨ f = 0xA then 128 else 64

/-- Whether a format may be a matrix operand (R37, R56). -/
def matrixFmt (f : Nat) : Bool := decide (1 ≤ f) && decide (f ≤ 0xA)

/-- Causes of a matrix operand: local, and not a tensor in the Store (R155). -/
def matrixCauses (s : State) (t : Nat) (x : Tile) (w : Word64) (n : Nat) : List PendTrap := localCauses s t x w n false

/-- HOLD: shape and format of B (R156, R157). -/
def execHold (t : Nat) (s : State) : Outcome State Fault Refusal :=
  .next (s.issue t 4 0 fun s w p =>
    let n := w.toNat
    let x := s.tile t
    let d := x.desc (fld n 52 4)
    legalOr (resOk n (opMask + mk 52 4)) w
      (s.toUnit t .matrix w p (firstBounds (matrixCauses s t x w (fld n 52 4) ++
        (if matrixFmt d.format && decide (d.n0 ≤ heldMax d.format) && d.n1 == 64 && d.n2 == 1 then []
         else [causeOf cILLEGAL w])))))

/-- Whether the shapes and pairing of an MMA are those of R56 and R156. -/
def mmaShapeOk (x : Tile) (n : Nat) : Bool :=
  let a := x.desc (fld n 49 4)
  if bit n 55 then
    let b := x.desc (fld n 45 4)
    a.n1 == 64 && a.n2 == 1 && b.n0 == a.n0 && b.n1 == 64 && b.n2 == 1 && pairOk a.format b.format
  else
    match x.held with
    | none => false
    | some h => a.n0 == h.k && decide (a.n1 ≤ 256) && a.n2 == 1 && pairOk a.format h.fmt

/-- MMA: legality, operands, shapes (R154 to R158). A weight-stationary MMA needs a held block, which a
HOLD still running provides only when it completes: the matrix unit is then busy. -/
def execMma (t : Nat) (s : State) : Outcome State Fault Refusal :=
  .next (s.issue t 4 1 fun s w p =>
    let n := w.toNat
    let x := s.tile t
    legalOr (resOk n (opMask + mk 42 14) && fld n 43 2 != 3 && (bit n 55 || fld n 45 4 == 0)) w
      (if x.matrixU.isSome then .hold
       else s.toUnit t .matrix w p (firstBounds (matrixCauses s t x w (fld n 49 4) ++
        (if bit n 55 then matrixCauses s t x w (fld n 45 4) else []) ++
        (if mmaShapeOk x n then [] else [causeOf cILLEGAL w])))))

/-- CLEAR (R159). -/
def execMatrixClear (t : Nat) (s : State) : Outcome State Fault Refusal :=
  .next (s.issue t 4 2 fun s w p =>
    let n := w.toNat
    legalOr (resOk n (opMask + mk 52 4) && fld n 52 4 != 0) w (s.toUnit t .matrix w p []))

/-! ### Completion -/

/-- One matrix element with its scales apart (R43, R46, R57). -/
def Src.melem (src : Src) (f k r j : Nat) (e : Nat) : MElem :=
  let one : FpVal := .fin false 1 0
  if isGrouped f then
    let sc := (src.scales.getD (r * blocksIn k + j / 32) (0, false)).1
    let g := (src.groups.getD (r * groupsIn k + j / 512) (0, false)).1
    let v := groupDecode g sc e
    match v.1 with
    | .nan => ⟨.nan, 0, one, true, v.2 &&& fInvalid != 0⟩
    | v => if g = 0 then ⟨v, 0, one, false, false⟩ else ⟨fmtE2M1.decode e, (sc : Int) - 127, fmtE4M3.decode g, false, false⟩
  else if isMX f then
    let sc := (src.scales.getD (r * blocksIn k + j / 32) (0, false)).1
    if sc = 0xFF then ⟨.nan, 0, one, true, false⟩ else ⟨(elemFmt f).decode e, (sc : Int) - 127, one, false, false⟩
  else ⟨(elemFmt f).decode e, 0, one, false, false⟩

/-- All rows of a matrix operand. -/
def Src.matrix (src : Src) (f k : Nat) : List (List MElem) :=
  src.rows.zipIdx.map fun (row, r) => row.zipIdx.map fun (e, j) => src.melem f k r j e.1

/-- Pad a chunk with zero elements of its last block's scale (R44). -/
def padChunk (n : Nat) (c : List MElem) : List MElem :=
  match c with
  | [] => []
  | e :: _ => c ++ List.replicate (n - c.length) ⟨.fin false 0 0, e.sc, e.g, false, false⟩

/-- The chunks of a row along K (R56, R57). -/
def chunksOfRow (len : Nat) (r : List MElem) : List (List MElem) := (rowsOf' len r).map (padChunk len)

/-- One output element: all chunks of row `a` against row `b` added to `el`. -/
def dotInto (len : Nat) (comp : Bool) (a b : List MElem) (el : AccEl) : AccEl × BitVec 8 × Nat :=
  macChunks comp ((chunksOfRow len a).zip (chunksOfRow len b)) el 0 0

/-- One output row into 64 consecutive accumulator elements from `base` (R158). -/
def macRow (len : Nat) (comp zero : Bool) (a : List MElem) (bs : List (List MElem)) (base : Nat)
    (acc : Assoc AccEl × BitVec 8 × Nat) : Assoc AccEl × BitVec 8 × Nat :=
  bs.zipIdx.foldl (fun (st : Assoc AccEl × BitVec 8 × Nat) b =>
    let el := if zero then ⟨0, 0⟩ else aget ⟨0, 0⟩ st.1 (base + b.2)
    let r := dotInto len comp a b.1 el
    (aput ⟨0, 0⟩ st.1 (base + b.2) r.1, st.2.1 ||| r.2.1, st.2.2 + r.2.2)) acc

/-- Where output row `m` of an MMA goes (R158): bank BANK, wrapping every 64 rows. -/
def mmaBase (bank m : Nat) : Nat := (bank + m / 64) % 4 * 4096 + m % 64 * 64

/-- Multiply-accumulate A × Bᵀ into the banks (R57 to R59, R158). -/
def mmaAll (len : Nat) (comp zero : Bool) (bank : Nat) (a b : List (List MElem)) (acc : Assoc AccEl) : Assoc AccEl × BitVec 8 × Nat :=
  a.zipIdx.foldl (fun st r => macRow len comp zero r.1 b (mmaBase bank r.2) st) (acc, 0, 0)

/-- Island cycles an MMA keeps the array streaming (R69, R56): weight-stationary, a row of A each cycle, or every 2 cycles for
16-bit operands; output-stationary, a K-step of 128 bytes each cycle, over K padded to its chunk length: 2 cycles for 16-bit
operands, two K-steps in one for a pair of 4-bit formats. -/
def mmaCycles (flow1 : Bool) (fa fb k m : Nat) : Nat :=
  let wide := decide (fa ≤ 2)
  if !flow1 then (if wide then 2 * m else m)
  else
    let len := chunkLen fa
    let padded := (k + len - 1) / len * len
    let four := fun (f : Nat) => f == 9 || f == 0xA
    if wide then 2 * padded else if four fa && four fb then padded / 2 else padded

/-- The effect of a matrix step (R157 to R159); poisoned operands trap with nothing written. -/
def State.doMatrix (s : State) (t : Nat) (i : Issued) : State :=
  let n := i.word.toNat
  let i := { i with raced := i.raced ++ s.openRanges t .matrix }
  let x := i.view (s.tile t)
  match fld n 56 4 with
  | 0 =>
    let d := x.desc (fld n 52 4)
    let (src, s) := s.readSrc t i (fld n 52 4) rdTile
    match src.first with
    | some f => s.addCause t (poisonCause i.word f)
    | none => s.mapTile t fun y => { y with held := some ⟨d.n0, d.format, src.matrix d.format d.n0⟩ }
  | 1 =>
    let a := x.desc (fld n 49 4)
    let b := x.desc (fld n 45 4)
    let (sa, s) := s.readSrc t i (fld n 49 4) rdTile
    let (sb, s) := if bit n 55 then s.readSrc t i (fld n 45 4) rdTile else (⟨[], [], [], none⟩, s)
    match (match sa.first with | some f => some f | none => sb.first) with
    | some f => s.addCause t (poisonCause i.word f)
    | none =>
      let rowsB := if bit n 55 then sb.matrix b.format b.n0
        else match (s.tile t).held with | some h => h.rows | none => []
      let comp := match fld n 43 2 with | 0 => bit i.ctrl.toNat 3 | 1 => false | _ => true
      let r := mmaAll (chunkLen a.format) comp (bit n 42) (fld n 53 2) (sa.matrix a.format a.n0) rowsB (s.tile t).acc
      let s := s.mapTile t fun y => { y with acc := r.1 }
      let s := s.raiseFlags t r.2.1 0 r.2.2
      (s.perf t rTILE_MATRIX_COUNT (mmaCycles (bit n 55) a.format b.format a.n0 a.n1)).arithCause t i r.2.1
  | _ =>
    s.mapTile t fun y => { y with acc := (List.range 4).foldl (fun m b =>
      if bit n (52 + b) then acut m (4096 * b) (4096 * b + 4096) else m) y.acc }

end Sys2Proof.Machine
end

