-- ==== Sys2Proof/Machine/TileCrate.lean ====
section
/-! DEFINITION. Crate steps, class 0x3 (R147 to R153): issue and completion; sending a crate from a tile
(R77 to R82, R389, R390) over the corridors or to a Wing. -/

namespace Sys2Proof.Machine

open Sys2Proof Host

/-! ### Identity (R285) -/

/-- Bits [31:0] of the module's generation, the EPOCH of its crates (R389). -/
def State.epochNow (s : State) : Nat := s.rn (winBase .pln 0 + rPLN_GEN_LO)

/-- The reserve that stands in for a lost module (R402). -/
def State.substMod (s : State) (m : Nat) : Nat :=
  match (List.range 16).find? (fun k => s.f (winBase .pair 0 + rPAIR_SUBST + 4 * k) 31 1 == 1 &&
      s.f (winBase .pair 0 + rPAIR_SUBST + 4 * k) 0 15 == m) with
  | some k => s.f (winBase .pair 0 + rPAIR_SUBST + 4 * k) 16 15
  | none => m

/-- Send a formed crate from tile `t`: over the corridors to a tile of this module, to the Collator
(R303), to the request table of a Wing (R299), or to a Wing (R290). A module without an ID originates
no crate that leaves it (R285). -/
def State.sendCrate (s : State) (t : Nat) (c : Crate) : State :=
  let c := { c with destModule := s.substMod c.destModule }
  let s := s.perf t rTILE_CRATE_OUT_COUNT 1
  if c.op = 4 then
    if s.unset && c.destModule != s.myId then s else { s with fab := { s.fab with collIn := s.fab.collIn ++ [c] } }
  else if c.destModule = s.myId then s.toCorridor t c
  else if s.unset then s
  else if c.op = 1 then { s with fab := { s.fab with reqWait := s.fab.reqWait ++ [c] } }
  else { s with fab := { s.fab with outbound := s.fab.outbound ++ [c] } }

/-- Whether this module is rebuilding a shard as its destination (R395). -/
def State.rebuildingDest (s : State) (sh : Nat) : Bool :=
  s.pair.rebuilds.any fun r => r.shard == sh && r.running && r.dest == s.myId

/-! ### Issue -/

/-- Whether the crate unit's step is held: its router has failed (R15), a corridor it names is being
resolved again (R402), or a READ_REQ of the tile waits for a table entry (R299). -/
def State.crateHeld (s : State) (t : Nat) (i : Issued) : Bool :=
  let n := i.word.toNat
  let x := i.view (s.tile t)
  let k := if fld n 56 4 = 1 then fld n 48 8 else (x.desc (fld n 48 4)).corridor
  s.routerBad t || s.fab.reqWait.any (fun c => c.srcTile == t) ||
    (match i.corridors[k]? with | some e => !e.resolved | none => false)

/-- SEND issues to the crate unit (R147). -/
def execSend (t : Nat) (s : State) : Outcome State Fault Refusal :=
  .next (s.issue t 3 0 fun s w p =>
    let n := w.toNat
    let x := s.tile t
    let a := x.desc (fld n 52 4)
    let b := x.desc (fld n 48 4)
    legalOr (resOk n (opMask + mk 40 16 + mk 16 16)) w
      (s.toUnit t .crate w p (firstBounds (elementCauses s t x w (fld n 52 4) ++ remoteCauses x w (fld n 48 4) ++
        (if a.format = b.format ∧ a.elems = b.elems then [] else [causeOf cILLEGAL w])))))

/-- SIGNAL issues to the crate unit (R147, R151); CORRIDOR beyond the list is illegal (R142). -/
def execSignal (t : Nat) (s : State) : Outcome State Fault Refusal :=
  .next (s.issue t 3 1 fun s w p =>
    let n := w.toNat
    legalOr (resOk n (opMask + mk 42 14 + mk 16 16) && decide (fld n 48 8 < (s.tile t).corridors.length)) w
      (s.toUnit t .crate w p []))

/-- READ issues to the crate unit (R147, R152). -/
def execRead (t : Nat) (s : State) : Outcome State Fault Refusal :=
  .next (s.issue t 3 2 fun s w p =>
    let n := w.toNat
    let x := s.tile t
    let a := x.desc (fld n 52 4)
    let b := x.desc (fld n 48 4)
    legalOr (resOk n (opMask + mk 42 14 + mk 16 16)) w
      (s.toUnit t .crate w p (firstBounds (elementCauses s t x w (fld n 52 4) ++ remoteCauses x w (fld n 48 4) ++
        (if a.format = b.format ∧ a.elems = b.elems then [] else [causeOf cILLEGAL w])))))

/-- COLLATE issues to the crate unit (R147, R153). -/
def execCollate (t : Nat) (s : State) : Outcome State Fault Refusal :=
  .next (s.issue t 3 3 fun s w p =>
    let n := w.toNat
    let x := s.tile t
    legalOr (resOk n (opMask + mk 42 14 + mk 16 16 + mk 0 12)) w
      (s.toUnit t .crate w p (firstBounds (localCauses s t x w (fld n 52 4) ++ remoteCauses x w (fld n 48 4)))))

/-! ### Cutting patterns into runs (R149) -/

/-- Element positions of a row, unused ones included (R139). -/
def padCount (bits n : Nat) : Nat := rowBytes bits n * 8 / bits

/-- Join rows that are contiguous and consecutive in pattern order into runs. -/
def joinRuns : List (Int × List (Byte × Bool)) → List (Int × List (Byte × Bool))
  | [] => []
  | (a, bs) :: rs =>
    match joinRuns rs with
    | (b, cs) :: more => if b = a + bs.length then (a, bs ++ cs) :: more else (a, bs) :: (b, cs) :: more
    | [] => [(a, bs)]

/-- Cut a run into pieces of at most 4,064 bytes (R149). -/
def cutRun (r : Int × List (Byte × Bool)) : List (Int × List (Byte × Bool)) :=
  (chunksOf 4064 (r.2.length + 1) r.2).zipIdx.map fun (c, k) => (r.1 + 4064 * (k : Int), c)

/-- The crates' data of a pattern: destination offset and bytes with marks, in pattern order. -/
def piecesOf (rows : List (Int × List (Byte × Bool))) : List (Int × List (Byte × Bool)) :=
  ((joinRuns rows).map cutRun).flatten

/-- Rows of a source repacked into a destination pattern (R149): equal row lengths leave as stored. -/
def State.sendRows (s : State) (t : Nat) (i : Issued) (sd dd : Desc) : List (Int × List (Byte × Bool)) × State :=
  let bits := fmtBits dd.format
  if sd.n0 = dd.n0 then
    let k := padCount bits sd.n0
    let wide := { sd with w1 := BitVec.ofNat 64 (setFld sd.w1.toNat 0 16 (k - 1)) }
    let (r, s) := if k ≤ 65536 then s.readPattern t i wide false rdCrate else s.readPattern t i sd false rdCrate
    ((dd.rowBases.zip r.rows).map fun (b, es) => (b, packRow bits (if k ≤ 65536 then k else sd.n0) es), s)
  else
    let (r, s) := s.readPattern t i sd false rdCrate
    ((dd.rowBases.zip (rowsOf' dd.n0 r.rows.flatten)).map fun (b, es) => (b, packRow bits dd.n0 es), s)

/-! ### Forming crates (R81, R148, R389) -/

/-- A crate from tile `t` to a corridor entry, with everything else 0. -/
def State.newCrate (s : State) (t : Nat) (e : CorrEntry) (op tc : Nat) : Crate where
  srcModule := s.myId
  srcTile := t
  op := op
  target := 0
  ticket := 0
  length := 0
  ticketAdd := 0
  tensor := 0
  epoch := s.epochNow
  offset := 0
  request := 0
  data := []
  destModule := e.dstModule
  destTile := e.tile
  tc := tc
  tag := 0
  congested := false
  dup := false
  poison := false
  via := none

/-- The entry of the corridor list a step names; the check at issue makes sure there is one. -/
def Issued.entry (i : Issued) (k : Nat) : CorrEntry := i.corridors.getD k ⟨0, 0, 0, 0, true⟩

/-- SEND's crates (R149, R390) sent in pattern order. -/
def State.doSend (s : State) (t : Nat) (i : Issued) : State :=
  let n := i.word.toNat
  let x := i.view (s.tile t)
  let sd := x.desc (fld n 52 4)
  let dd := x.desc (fld n 48 4)
  let i := { i with raced := i.raced ++ s.openRanges t .crate }
  let (rows, s) := s.sendRows t i sd dd
  let ps := piecesOf rows
  let shard := if dd.target = 2 then s.ledgerShard t else none
  let stopped := match shard with
    | none => false
    | some sh => s.f (winBase .pair 0 + rPAIR_STAT) 0 3 == 5 || s.rebuildingDest sh
  let base := s.newCrate t (i.entry dd.corridor) (if shard.isSome then 0x12 else 0) (fld n 41 1)
  if stopped then s
  else ps.zipIdx.foldl (fun st (p : (Int × List (Byte × Bool)) × Nat) =>
    st.sendCrate t { base with
      target := dd.target, ticket := fld n 42 6, length := p.1.2.length,
      ticketAdd := if bit n 40 && p.2 + 1 != ps.length then 0 else fld n 16 16,
      tensor := if dd.target = 2 then dd.tensor else 0,
      offset := wrapInt 40 p.1.1, request := shard.getD 0, dup := shard.isSome,
      data := p.1.2.map (·.1), poison := p.1.2.any (·.2) }) s

/-- SIGNAL's one TICKET crate (R151). -/
def State.doSignal (s : State) (t : Nat) (i : Issued) : State :=
  let n := i.word.toNat
  s.sendCrate t { s.newCrate t (i.entry (fld n 48 8)) 3 2 with ticket := fld n 42 6, ticketAdd := fld n 16 16 }

/-- READ's requests (R152): each piece's offset in the target and its place in the concatenated source
rows. -/
def readPieces (sd : Desc) : List (Int × Nat × Nat) :=
  let rb := rowBytes (fmtBits sd.format) sd.n0
  let ps := piecesOf (sd.rowBases.map fun b => (b, List.replicate rb ((0 : Byte), false)))
  (ps.foldl (fun (acc : List (Int × Nat × Nat) × Nat) p =>
    (acc.1 ++ [(p.1, acc.2, p.2.length)], acc.2 + p.2.length)) ([], 0)).1

/-- The lowest tile-local request number not in use. -/
def Tile.freeRead (x : Tile) : Nat :=
  ((List.range 256).find? (fun k => !(x.reads.any fun r => r.id == k))).getD 0

/-- Send one READ_REQ and note it as outstanding (R152). -/
def State.sendRead (s : State) (t : Nat) (i : Issued) (sd : Desc) (p : Int × Nat × Nat) : State :=
  let n := i.word.toNat
  let id := (s.tile t).freeRead
  let s := s.mapTile t fun x => { x with reads := x.reads ++ [⟨id, i, p.2.1, p.2.2, fld n 42 6, fld n 16 16⟩] }
  s.sendCrate t { s.newCrate t (i.entry sd.corridor) 1 0 with
    target := sd.target, length := p.2.2, tensor := if sd.target = 2 then sd.tensor else 0,
    offset := wrapInt 40 p.1, request := id }

/-- READ: as many requests as the 256 outstanding allow; the answer says how many have now been sent
and whether all have. -/
def State.doRead (s : State) (t : Nat) (i : Issued) : State × Nat × Bool :=
  let sd := (i.view (s.tile t)).desc (fld i.word.toNat 48 4)
  let all := readPieces sd
  let room := 256 - (s.tile t).reads.length
  let now := (all.drop i.sent).take room
  (now.foldl (fun st p => st.sendRead t { i with sent := 0, raced := [] } sd p) s, i.sent + now.length,
    decide (all.length ≤ i.sent + now.length))

/-- Elements per COLLATE crate (R304).  FORMATs outside R304's table, which no rule makes illegal, are laid out after the same
pattern: as many whole elements, or blocks with their scales, as 4,064 bytes hold; group scales are not sent (log entry 142). -/
def collateMost (f : Nat) : Nat :=
  if isMX f then 32 * (4064 / (1 + 4 * fmtBits f)) else 4064 * 8 / fmtBits f

/-- The byte offset of element `e` of a pattern within its target, counted from 0 beyond the pattern: where a COLLATE crate whose
first element it is lands (log entry 143). -/
def Desc.elemOffset (d : Desc) (e : Nat) : Int :=
  d.rowBases.getD (e / d.n0) 0 + ((e % d.n0 * fmtBits d.format / 8 : Nat) : Int)

/-- The elements of a row as a COLLATE sends them: for an MX format, padded with zeros to whole blocks (R44, R140). -/
def collateRow (f : Nat) (row : List (Nat × Bool)) : List (Nat × Bool) :=
  if isMX f then row ++ List.replicate (32 * blocksIn row.length - row.length) (0, false) else row

/-- The element of a pattern with `n0` elements a row that stands at place `k` of rows sent with padding. -/
def collateIndex (f n0 k : Nat) : Nat :=
  let w := if isMX f then 32 * blocksIn n0 else n0
  k / w * n0 + k % w

/-- COLLATE's crates (R153, R304): elements in order, after their scales for an MX source. -/
def State.doCollate (s : State) (t : Nat) (i : Issued) : State :=
  let n := i.word.toNat
  let x := i.view (s.tile t)
  let sd := x.desc (fld n 52 4)
  let dd := x.desc (fld n 48 4)
  let i := { i with raced := i.raced ++ s.openRanges t .crate }
  let (src, s) := s.readSrc t i (fld n 52 4) rdCrate
  let most := collateMost sd.format
  let els := (src.rows.map (collateRow sd.format)).flatten
  let parts := chunksOf most (els.length + 1) els
  let scales := chunksOf (most / 32) (src.scales.length + 1) src.scales
  parts.zipIdx.foldl (fun st (p : List (Nat × Bool) × Nat) =>
    let sc := if isMX sd.format then (scales.getD p.2 []).map fun (v : Nat × Bool) => (BitVec.ofNat 8 v.1, v.2) else []
    let bytes : List (Byte × Bool) := sc ++ packRow (fmtBits sd.format) p.1.length p.1
    st.sendCrate t { st.newCrate t (i.entry dd.corridor) 4 1 with
      target := dd.target, ticket := fld n 42 6, ticketAdd := fld n 16 16,
      tensor := if dd.target = 2 then dd.tensor else 0, offset := wrapInt 40 (dd.elemOffset (collateIndex sd.format sd.n0 (most * p.2))),
      request := fld n 0 12, tag := fld n 0 12, mx := isMX sd.format, length := bytes.length,
      data := bytes.map (·.1), poison := bytes.any (·.2) }) s

/-- The effect of the crate unit's step; the step done, or the step that goes on (a READ that waits for
responses, R152). -/
def State.doCrate (s : State) (t : Nat) (i : Issued) : State × Option Issued :=
  match fld i.word.toNat 56 4 with
  | 0 => (s.doSend t i, none)
  | 1 => (s.doSignal t i, none)
  | 2 =>
    let (s, k, done) := s.doRead t i
    (s, if done then none else some { i with sent := k })
  | _ => (s.doCollate t i, none)

end Sys2Proof.Machine
end

