-- ==== Sys2Proof/Machine/Rings.lean ====
section
/-! DEFINITION. Docket and plan rings (13_host_and_security.md R457 to R470): the entry at HEAD, consuming
it, entries in progress and their completion records in ring order; halted blocks (R428). -/

namespace Sys2Proof.Machine

open Sys2Proof Host

/-- The ring the plan commands come on (R464). -/
def planRing : Nat := 32

/-- The owner of a docket or plan ring (R458). -/
def State.ringOwner (s : State) (r : Nat) : Side := ownerOf (s.f (rg rHST_RING_CFG r) 7 1)

/-- STATE of a docket or plan ring: 0 DISABLED, 1 IDLE, 2 BUSY, 3 ERROR (R491). -/
def State.ringState (s : State) (r : Nat) : Nat := s.f (rg rHST_RING_STAT r) 0 2

/-- Entries that the host has posted and the module has not consumed (R457). -/
def State.ringCount (s : State) (r : Nat) : Nat :=
  (s.rn (rg rHST_RING_TAIL r) + 2 ^ 32 - s.rn (rg rHST_RING_HEAD r)) % 2 ^ 32

/-- The 64 bytes of entry HEAD + k of a ring (R457, R459). -/
def State.ringEntry (s : State) (r k : Nat) : List Byte :=
  let size := 2 ^ s.f (rg rHST_RING_CFG r) 0 5
  s.hostRead (s.rd64 (rg rHST_RING_BASE_LO r) (rg rHST_RING_BASE_HI r) + (s.rn (rg rHST_RING_HEAD r) + k) % size * 64) 64

/-- Whether a ring is consumed: enabled, not in ERROR, its owner able to fetch (R455, R457); in RECOVERY ring 0 alone (R478). -/
def State.ringLive (s : State) (r : Nat) : Bool :=
  s.f (rg rHST_RING_CFG r) 8 1 == 1 && s.ringState r != 3 && s.canMaster (s.ringOwner r) && !(s.inRecovery && r != 0)

/-- Entries in progress on a ring, oldest first. -/
def State.inProgress (s : State) (r : Nat) : List Entry := s.host.entries.filter fun e => e.ring == r

/-- Whether entry HEAD + k exists and its OPCODE is `op`. -/
def State.headIs (s : State) (r k op : Nat) : Bool :=
  s.ringLive r && decide (k < s.ringCount r) && at_ (s.ringEntry r k) 0 1 == op

/-- Post a record of a type 0x10 to 0x13 to a ring's LOGBOOK (R467, R469). -/
def State.postRing (s : State) (r ty : Nat) (body : List Byte) : State :=
  let (rec, s) := s.form ty .hst 0 body
  s.postTo (s.f (rg rHST_RING_CFG r) 5 2) rec

/-- The completion record of an entry (R469). -/
def State.postCompletion (s : State) (e : Entry) : State :=
  s.postRing e.ring 0x10 (leBytes 1 (at_ e.bytes 0 1) ++ leBytes 1 e.result ++ leBytes 1 e.ring ++ leBytes 1 0
    ++ leBytes 4 (at_ e.bytes 4 4) ++ leBytes 6 e.detail ++ leBytes 2 e.count)

/-- STATE of a ring that is enabled and not in ERROR: BUSY while an entry is in progress. -/
def State.ringIdle (s : State) (r : Nat) : State :=
  if s.f (rg rHST_RING_CFG r) 8 1 = 1 && s.ringState r != 3 then
    s.setf (rg rHST_RING_STAT r) 0 2 (if s.inProgress r = [] then 1 else 2)
  else s

/-- Post the completion records of the finished entries at the front of a ring's entries in progress:
within one ring they appear in ring order (R469). -/
def State.flushDone (s : State) (r : Nat) : Nat → State
  | 0 => s.ringIdle r
  | n + 1 =>
    match s.inProgress r with
    | e :: _ =>
      if e.finished then
        (({ s with host := { s.host with entries := s.host.entries.erase e } }).postCompletion e).flushDone r n
      else s.ringIdle r
    | [] => s.ringIdle r

/-- Consume the entry at HEAD: HEAD advances and the entry is in progress. -/
def State.consume (s : State) (r : Nat) : State :=
  let h := s.rn (rg rHST_RING_HEAD r)
  let e : Entry := ⟨r, h, s.ringEntry r 0, 0, 0, 0, false⟩
  (({ s with host := { s.host with entries := s.host.entries ++ [e] } }).wn (rg rHST_RING_HEAD r) (h + 1)).ringIdle r

/-- Finish the entry in progress with count `h` of ring `r`. -/
def State.finish (s : State) (r h result detail : Nat) : State :=
  let s := { s with host := { s.host with entries := s.host.entries.map fun (e : Entry) =>
    if e.ring == r && e.count == h && !e.finished then { e with result := result, detail := detail, finished := true } else e } }
  s.flushDone r (s.host.entries.length + 1)

/-- Consume the entry at HEAD and finish it at once. -/
def State.answerHead (s : State) (r result detail : Nat) : State :=
  (s.consume r).finish r (s.rn (rg rHST_RING_HEAD r)) result detail

/-- RING_ERROR (R457, R469): the ring goes to ERROR and is not consumed until it is disabled and enabled. -/
def State.ringError (s : State) (r err : Nat) : State :=
  let s := (s.setf (rg rHST_RING_STAT r) 0 2 3).setf (rg rHST_RING_STAT r) 4 4 err
  s.postRing r 0x13 (leBytes 1 r ++ leBytes 1 err ++ leBytes 2 0 ++ leBytes 4 (s.rn (rg rHST_RING_HEAD r)))

/-! ### Office messages (R293, R397, R521) -/

/-- A crate that the Registrar sends (R293, R316): from its bridge to seat of the Registrar. -/
def State.officeCrate (s : State) (dest op tc : Nat) (data : List Byte) : Crate :=
  { s.newCrate bridge ⟨0, 0, dest, bridge, true⟩ op tc with data := data, length := data.length }
where
  bridge : Nat := tileIx 31 32

/-- Send an Office message of `n` bytes; a module without an ID sends none (R285). LOST is addressed to
its reserve (R402). -/
def State.sendOffice (s : State) (dest ty n : Nat) (body : List Byte) : State :=
  if s.unset then s
  else
    let q := s.cur.msgSeq
    let data := padTo n (leBytes 1 ty ++ leBytes 1 0 ++ leBytes 2 s.myId ++ leBytes 4 q ++ body)
    { s with cur := { s.cur with msgSeq := (q + 1) % 2 ^ 32 },
             fab := { s.fab with outbound := s.fab.outbound ++ [s.officeCrate (s.substMod dest) 0x10 3 data] } }

/-- Take message `ix` of type `ty` out of the Office's inbox (R293): its data. -/
def State.takeMsg (s : State) (ix ty : Nat) : Option (List Byte × State) :=
  match s.fab.inbox[ix]? with
  | none => none
  | some c =>
    if c.op = 0x10 && at_ c.data 0 1 = ty then
      some (c.data, { s with fab := { s.fab with inbox := s.fab.inbox.eraseIdx ix } })
    else none

/-- SENDER of a message. -/
def msgSender (b : List Byte) : Nat := at_ b 2 2 % 32768

end Sys2Proof.Machine
end

