-- ==== Sys2Proof/Machine/RegWrite.lean ====
section
/-! DEFINITION. Register writes with the checks of their chapters, whoever makes them (R7): WNG_CREDIT_ADV (R271),
COL_RED_CFG (R305) and INC_POLICY (R431); Wing policy records (R182). -/

namespace Sys2Proof.Machine

open Sys2Proof

/-- Whether the default action of source `k` of a block is LOCKDOWN (R431). -/
def lockdownSource (b : Blk) (k : Nat) : Bool := fld (incPolicyReset b k) 26 2 == 3

/-- INC_POLICY after a write that is not the warden side's (R431): of a source whose default action is
LOCKDOWN, SEVERITY is not lowered, ACTION not changed, THRESH and WINDOW not lowered. Each field is judged by
itself; the flag says whether any was refused. -/
def policyAfter (b : Blk) (k : Nat) (side : Side) (old new : Nat) : Nat × Bool :=
  if wardenSide side || !lockdownSource b k then (new, false)
  else
    let v := setFld new 0 8 (max (fld old 0 8) (fld new 0 8))
    let v := setFld v 8 16 (max (fld old 8 16) (fld new 8 16))
    let v := setFld v 24 2 (max (fld old 24 2) (fld new 24 2))
    let v := setFld v 26 2 (fld old 26 2)
    (v, v != new)

/-- Whether the four WNG_CREDIT_ADV registers of a Wing keep within the grants of R271. -/
def State.creditAdvOk (s : State) (w : Nat) : Bool :=
  let h := (List.range 4).map fun c => s.f (wg w (rWNG_CREDIT_ADV + 4 * c)) 0 12
  let d := (List.range 4).map fun c => s.f (wg w (rWNG_CREDIT_ADV + 4 * c)) 16 14
  decide (h.foldl (· + ·) 0 ≤ 2048) && decide (d.foldl (· + ·) 0 ≤ 8192) && h.all (fun x => decide (1 ≤ x)) && d.all (fun x => decide (16 ≤ x))

/-- The register of reduction `r` of Collator `w`. -/
def redCfg (w r : Nat) : Nat := winBase .col w + rCOL_RED_CFG + 4 * r

/-- The valid reduction entries of a Collator as (reduction, register). Reset leaves every entry invalid, so
only stored ones matter. -/
def State.validReds (s : State) (w : Nat) : List (Nat × Nat) :=
  (s.regs.filter fun e => decide (redCfg w 0 ≤ e.1) && decide (e.1 < redCfg w 4096) && bit e.2.toNat 9).map
    fun e => ((e.1 - redCfg w 0) / 4, e.2.toNat)

/-- Whether the reduction entries of a Collator stand by R305: at most 2,048 slots over the valid ones, and
1 to 16 inputs each. -/
def State.redsOk (s : State) (w : Nat) : Bool :=
  let v := s.validReds w
  decide (v.foldl (fun n e => n + fld e.2 16 12) 0 ≤ 2048) && v.all fun e => decide (1 ≤ fld e.2 0 5) && decide (fld e.2 0 5 ≤ 16)

/-- LMP_SWAP_THRESH at or below the watch value is taken as that value + 2 (R380). -/
def State.swapAbove (s : State) (b : Blk) (i : Nat) (off : Nat) : State :=
  if b = .lmp && off == rLMP_SWAP_THRESH then
    let w := s.f (winBase .lmp i + rLMP_WATCH_THRESH) 0 8
    let a := winBase .lmp i + rLMP_SWAP_THRESH
    if s.f a 0 8 ≤ w then s.setf a 0 8 (w + 2) else s
  else s

/-- Store a write into the RW, W1C, W1S and WDN fields of a register, with the checks of its chapter. -/
def State.regStore (s : State) (a w mask : Nat) (side : Side) : State :=
  match regRow a with
  | none => s
  | some (b, i, r, k) =>
    let old := s.rn a
    let new := valueAfter b r side w mask old
    if r.off = rINC_POLICY then
      let (v, rej) := policyAfter b k side old new
      let s := s.wn a v
      if rej then s.filterReject else s
    else
      let t := s.wn a new
      if b = .wng && decide (rWNG_CREDIT_ADV ≤ r.off) && decide (r.off < rWNG_CREDIT_ADV + 16) && !t.creditAdvOk i then s.bump (wg i rWNG_CFG_REJECT_COUNT)
      else if b = .col && r.off == rCOL_RED_CFG && !t.redsOk i then s.bump (winBase .col i + rCOL_CFG_REJECT_COUNT)
      else if b = .cur && r.off == rCUR_PAGE_THRESH then t.wornSince s
      else t.swapAbove b i r.off

/-! ### Wing policy (R182) -/

/-- The BAR0 address a policy record names. -/
def PolicyRec.addr (w : PolicyRec) : Nat :=
  winBase (match w.block with | 0 => .wng | 1 => .lmp | _ => .col) w.index + w.offset

/-- One record: the fields under MASK take VALUE, within R431; the totals are checked after all of them. -/
def State.policyOne (s : State) (w : PolicyRec) : State :=
  match regRow w.addr with
  | none => s
  | some (b, i, r, k) =>
    let old := s.rn w.addr
    let new := valueAfter b r .pf0 w.value w.mask old
    let new := if r.off = rINC_POLICY then (policyAfter b k .pf0 old new).1 else new
    (s.wn w.addr new).swapAbove b i r.off

/-- Put registers back to what they were in `s`. -/
def State.restore (s t : State) (as : List Nat) : State := as.foldl (fun u a => u.wr a (s.rd a)) t

/-- The Wing policy records of one hang taken together (R182, R271, R305). -/
def State.applyPolicy (s : State) (ps : List PolicyRec) : State :=
  let t := ps.foldl State.policyOne s
  let t := (List.range 4).foldl (fun u w =>
    if u.creditAdvOk w then u
    else (s.restore u ((List.range 4).map fun c => wg w (rWNG_CREDIT_ADV + 4 * c))).bump (wg w rWNG_CFG_REJECT_COUNT)) t
  (List.range 4).foldl (fun u w =>
    if u.redsOk w then u
    else (s.restore u ((ps.filter fun p => p.block == 2 && p.index == w && decide (rCOL_RED_CFG ≤ p.offset)).map PolicyRec.addr)).bump
      (winBase .col w + rCOL_CFG_REJECT_COUNT)) t

end Sys2Proof.Machine
end

