-- ==== Sys2Proof/Machine/Route.lean ====
section
/-! DEFINITION. Choosing a channel (08_fabric.md R286 to R292): channels and their registers, route entries
in force, usability, credits (R270), the choice by DIRECT and ADAPTIVE and the fallback. -/

namespace Sys2Proof.Machine

open Sys2Proof

/-- Channel `j` of the module, 0 to 35: channel j mod 9 of Wing j / 9 (R283). -/
def cr (j off : Nat) : Nat := wg (j / 9) (off + 0x40 * (j % 9))

/-- STATE of a channel: 0 DOWN, 1 TRAINING, 2 INIT, 3 UP, 4 DEGRADED, 5 FAULT_PEER. -/
def State.chanState (s : State) (j : Nat) : Nat := s.f (cr j rWNG_CHAN_STAT) 0 3

/-- A channel. -/
def State.chan (s : State) (j : Nat) : Chan := aget Chan.reset s.fab.chans j

/-- Change a channel. -/
def State.mapChan (s : State) (j : Nat) (g : Chan → Chan) : State :=
  { s with fab := { s.fab with chans := aput Chan.reset s.fab.chans j (g (s.chan j)) } }

/-- Class `c` of a channel. -/
def Chan.cls (x : Chan) (c : Nat) : ClassState := aget ClassState.reset x.classes c

/-- Change a class. -/
def Chan.mapCls (x : Chan) (c : Nat) (g : ClassState → ClassState) : Chan :=
  { x with classes := aput ClassState.reset x.classes c (g (x.cls c)) }

/-- Header and data credits available to the transmitter in a class (R270). -/
def ClassState.availH (c : ClassState) : Nat := (c.advH + c.freedH + 2 ^ 16 - c.usedH) % 2 ^ 16
def ClassState.availD (c : ClassState) : Nat := (c.advD + c.freedD + 2 ^ 16 - c.usedD) % 2 ^ 16

/-- Whether `a` comes before `b` in a 16-bit sequence space (R263). -/
def seqBefore (a b : Nat) : Bool := let d := (b + 2 ^ 16 - a) % 2 ^ 16; d != 0 && decide (d < 0x8000)

/-- The bridge tiles of a Wing (R17). -/
def wingPorts (w : Nat) : List Nat :=
  (List.range 16).map fun k => tileIx (if w < 2 then 0 else 31) (16 * (w % 2) + k)

/-- Whether a Wing still holds a bridge port (R19). -/
def State.wingBridged (s : State) (w : Nat) : Bool := (wingPorts w).any fun t => !s.routerBad t

/-- The channel map in force (R287). -/
def State.chanMap (s : State) (j : Nat) : ChanRec :=
  match s.cur.now with
  | some p => p.chans.getD j ⟨0, 0, 0⟩
  | none => ⟨0, 0, 0⟩

/-- Whether a channel's peer agrees with the plan (R281): with no plan active any peer is accepted. -/
def State.peerOk (s : State) (j : Nat) : Bool :=
  let peer := s.rn (cr j rWNG_CHAN_PEER)
  s.cur.now.isNone || (!bit peer 15 && fld peer 0 15 == (s.chanMap j).neighbour)

/-- Whether a feature is on for a channel (R273). -/
def State.feature (s : State) (j b : Nat) : Bool := s.f (cr j rWNG_CHAN_STAT) (24 + b) 1 == 1

/-- Whether a channel is in P1-compatible mode (R274). -/
def State.p1 (s : State) (j : Nat) : Bool := s.f (cr j rWNG_CHAN_STAT) 3 1 == 1

/-- Whether a crate belongs to a reduction in MXFP8 (R289). -/
def Crate.crateMX (c : Crate) : Bool := c.op == 4 && c.mx

/-- The class a crate travels in on channel `j` (R293): a TC3 crate goes in TC2 on a campus channel. -/
def State.classOn (s : State) (j : Nat) (c : Crate) : Nat :=
  if c.tc == 3 && (s.chanMap j).level == 3 then 2 else c.tc

/-- Whether channel `j` may be used for a crate (R289, R390); `cross` when it must cross the Wing's bridge. -/
def State.chanUsable (s : State) (j : Nat) (c : Crate) (cross : Bool) : Bool :=
  let st := s.chanState j
  (st == 3 || st == 4) && (s.chanMap j).level != 0 && s.peerOk j
    && (c.tc != 1 || (s.feature j 0 && (!c.crateMX || s.feature j 2)))
    && !((c.op == 0x10 || c.op == 0x11) && s.p1 j)
    && !(c.op == 0x12 && !s.feature j 3)
    && (!cross || s.wingBridged (j / 9))

/-- The route entry of a module in force, unless an ISOLATE took it out (R288, R428); no record sets the module's own. -/
def State.route (s : State) (d : Nat) : Option RouteRec :=
  if (!s.unset && d == s.myId) || s.cur.noRoute.contains d then none
  else match s.cur.now with
    | some p => p.route? d
    | none => none

/-- The route entry of module `d` for a crate that keeps to the routes of generation `gen` (R31), or goes by those in
force. -/
def State.routeAt (s : State) (gen : Option Nat) (d : Nat) : Option RouteRec :=
  match gen with
  | some g => (aget [] s.fab.oldRoutes g).find? fun r => r.dest == d
  | none => s.route d

/-- Flits of a crate: a 32-byte head and 224 bytes of data first, then 256 bytes each (R80). -/
def Crate.flits (c : Crate) : Nat := if c.data.length ≤ 224 then 1 else 1 + (c.data.length - 224 + 255) / 256

/-- Whether a crate must cross the bridge of the Wing of channel `j`: it does not when it came in on a
channel of the same Wing. -/
def Crate.crosses (c : Crate) (j : Nat) : Bool :=
  match c.via with
  | some a => viaWing a != j / 9
  | none => true

/-- Whether a crate can go from where it is to channel `j`: one that came in on another Wing crosses that Wing's
bridge as well (R19). -/
def State.bridges (s : State) (c : Crate) (j : Nat) : Bool :=
  match c.via with
  | some a => viaWing a == j / 9 || s.wingBridged (viaWing a)
  | none => true

/-- The best of a list by a measure, the first among equals. -/
def firstBest (f : Nat → Nat) : List Nat → Option Nat
  | [] => none
  | x :: xs => match firstBest f xs with
    | none => some x
    | some y => if f x < f y then some y else some x

/-- The choice of a route's policy among usable channels (R290): DIRECT the lowest, ADAPTIVE the one with the most data
credits for the crate's class. -/
def State.byPolicy (s : State) (r : RouteRec) (c : Crate) (js : List Nat) : Option Nat :=
  if r.policy = 0 then js.head? else firstBest (fun j => ((s.chan j).cls (s.classOn j c)).availD) js

/-- The channel a crate leaves by (R290 to R292): DIRECT the lowest usable of MASK, ADAPTIVE the one with
the most data credits; then the room channel to ALT_SEAT; never its arrival channel. `none`: no route. -/
def State.pickChannel (s : State) (c : Crate) : Option Nat :=
  match s.routeAt c.gen c.destModule with
  | none => none
  | some r =>
    let ok := fun j => s.chanUsable j c (c.crosses j) && c.via != some j && s.bridges c j
    match s.byPolicy r c ((List.range 36).filter fun j => bit r.mask j && ok j) with
    | some j => some j
    | none =>
      if !r.altValid then none
      else (List.range 36).find? fun j => ok j && (s.chanMap j).level == 1
        && (s.chanMap j).neighbour == s.myId / 16 * 16 + r.altSeat

/-- Discard a crate that has no route (R291). -/
def State.noRoute (s : State) (d : Nat) : State :=
  (s.bump (winBase .fab 0 + rFAB_NO_ROUTE_COUNT)).event .fab 0 0 d

/-- Whether a module was replaced by a substitution (R402). -/
def State.isLost (s : State) (m : Nat) : Bool :=
  (List.range 16).any fun k => s.f (winBase .pair 0 + rPAIR_SUBST + 4 * k) 31 1 == 1 &&
    s.f (winBase .pair 0 + rPAIR_SUBST + 4 * k) 0 15 == m

end Sys2Proof.Machine
end

