-- ==== Sys2Proof/Machine/Waves.lean ====
section
/-! DEFINITION. Ticket waves (08_fabric.md R310 to R317; the WAVE step of R136; the marker of R410). -/

namespace Sys2Proof.Machine

open Sys2Proof Host

/-! ### Groups and members -/

/-- A wave group of the generation in force; while a hang is in its wave, its group is one as the hung plan has it
(R199; log entry 21). -/
def State.group (s : State) (g : Nat) : Option GroupRec :=
  let own := match s.cur.now with
    | some p => p.group? g
    | none => none
  let h := winBase .pln 0 + rPLN_HANG_STAT
  match own with
  | some r => some r
  | none =>
    if s.f h 0 3 = 3 then
      match (s.slot (s.f h 4 2)).plan with
      | some p => if p.hangGroup = g then p.group? g else none
      | none => none
    else none

/-- Whether a group exists in the current generation (R325). -/
def State.groupNow (s : State) (g : Nat) : Bool :=
  match s.cur.now with
  | some p => (p.group? g).isSome
  | none => false

/-- A wave group's state. -/
def State.wave (s : State) (g : Nat) : WaveState := aget WaveState.idle s.fab.waves g

/-- Replace a wave group's state. -/
def State.setWave (s : State) (g : Nat) (w : WaveState) : State :=
  { s with fab := { s.fab with waves := aput WaveState.idle s.fab.waves g w } }

/-- Whether module `m` lies within SCOPE of the module (R310, R311). -/
def inScope (scope own m : Nat) : Bool :=
  match scope with
  | 0 => m == own
  | 1 => m / 16 == own / 16
  | 2 => m / 512 == own / 512
  | _ => true

/-- Whether a module is the AVM-7400 at the far end of a channel in P1-compatible mode (R274). -/
def State.isP1 (s : State) (m : Nat) : Bool :=
  (List.range 36).any fun j => s.p1 j && (s.chanMap j).level != 0 && (s.chanMap j).neighbour == m

/-- The other members of a group (R311): modules within SCOPE with a valid route entry, none that was
replaced (R402), and no AVM-7400 (R3, R317). -/
def State.members (s : State) (scope : Nat) : List Nat :=
  match s.cur.now with
  | none => []
  | some p => (p.routes.map (·.dest)).filter fun m =>
      m != s.myId && inScope scope s.myId m && !s.isLost m && (s.route m).isSome && !s.isP1 m

/-- The member room-mates (R312). -/
def State.mates (s : State) (scope : Nat) : List Nat := (s.members scope).filter fun m => m / 16 == s.myId / 16

/-- The Registrar kinds (R310). -/
def registrarKind (k : Nat) : Bool := decide (4 ≤ k)

/-- The combination of two values by a kind (R310, R313). Bitmaps join; rooms only within one hall. -/
def combine (kind : Nat) (a b : WaveVal) (sameHall : Bool) : WaveVal :=
  let rooms := if sameHall then a.rooms ||| b.rooms else a.rooms
  let halls := a.halls ||| b.halls
  match kind with
  | 0 => ⟨0, 0, rooms, halls⟩
  | 2 => ⟨a.low ||| b.low, a.low ||| b.low, rooms, halls⟩
  | 3 => ⟨max a.low b.low, max a.low b.low, rooms, halls⟩
  | _ => ⟨min a.low b.low, max a.high b.high, rooms, halls⟩

/-- The value that changes no combination. -/
def neutral (kind : Nat) : WaveVal := if kind = 0 || kind = 2 || kind = 3 then ⟨0, 0, 0, 0⟩ else ⟨2 ^ 64 - 1, 0, 0, 0⟩

/-- The value one contribution of `v` brings: a BROADCAST counts on ROOT_MODULE alone (R310). -/
def State.contribution (s : State) (r : GroupRec) (v : Nat) : WaveVal :=
  if r.kind = 0 then neutral 0
  else if r.kind = 3 && r.rootModule != s.myId then neutral 3
  else ⟨v, v, 0, 0⟩

/-! ### Messages (R316) -/

/-- The 48 bytes of a WAVE message. -/
def waveData (g kind phase wave gen : Nat) (v : WaveVal) : List Byte :=
  leBytes 1 g ++ leBytes 1 kind ++ leBytes 1 phase ++ leBytes 1 0 ++ leBytes 2 wave ++ leBytes 2 gen
    ++ leBytes 8 v.low ++ leBytes 8 v.high ++ leBytes 4 v.rooms ++ leBytes 4 0 ++ leBytes 8 v.halls ++ leBytes 8 0

/-- Send a WAVE message by route, or on channel `pin`; a module without an ID sends none (R285). -/
def State.sendWave (s : State) (dest : Nat) (pin : Option Nat) (data : List Byte) : State :=
  if s.unset then s
  else
    let c := s.officeCrate (s.substMod dest) 0x11 2 data
    match pin with
    | none => { s with fab := { s.fab with outbound := s.fab.outbound ++ [c] } }
    | some j => { s with fab := { s.fab with pinned := s.fab.pinned ++ [(j, c)] } }

/-- Usable channels of a level for a wave message (R289, R312), but for one to a lost module, which is no member (R402). -/
def State.levelChans (s : State) (level : Nat) : List Nat :=
  (List.range 36).filter fun j => (s.chanMap j).level == level && !s.isLost (s.chanMap j).neighbour && s.chanUsable j (s.officeCrate 0 0x11 2 []) true

/-- The value a phase has combined: the contribution and every message of this wave up to the phase. -/
def State.waveValue (s : State) (r : GroupRec) (w : WaveState) (phase : Nat) : WaveVal :=
  (w.got.filter fun m => m.wave == w.wave && decide (m.phase ≤ phase)).foldl
    (fun v m => combine r.kind v m.value (m.src / 512 == s.myId / 512)) w.value

/-- Enter a phase: the value combined so far goes to each peer of the phase (R312). -/
def State.enterPhase (s : State) (g : Nat) (r : GroupRec) (phase : Nat) : State :=
  let w := s.wave g
  let v := s.waveValue r w (phase - 1)
  let d := waveData g r.kind phase w.wave (s.rn (winBase .pln 0 + rPLN_GEN_LO)) v
  let s := s.setWave g { w with phase := phase }
  if phase % 2 = 1 then (s.mates r.scope).foldl (fun st m => st.sendWave m none d) s
  else (s.levelChans (if phase = 2 then 2 else 3)).foldl (fun st j => st.sendWave (st.chanMap j).neighbour (some j) d) s

/-- Messages of the current wave in a phase. -/
def WaveState.heard (w : WaveState) (phase : Nat) : List WaveMsg := w.got.filter fun m => m.wave == w.wave && m.phase == phase

/-- Whether every peer of a phase has been heard. -/
def State.peersHeard (s : State) (r : GroupRec) (w : WaveState) (phase : Nat) : Bool :=
  let from_ := (w.heard phase).map (·.src)
  if phase % 2 = 1 then (s.mates r.scope).all fun m => from_.contains m
  else (s.levelChans (if phase = 2 then 2 else 3)).all fun j => from_.contains (s.chanMap j).neighbour

/-- Seat 0 of each room of the hall, or of room 0 of each hall, whose values a room phase still lacks (R312). -/
def State.missing (s : State) (r : GroupRec) (v : WaveVal) (phase : Nat) : List Nat :=
  let ms := s.members r.scope
  if phase = 3 then
    ((List.range 32).filter fun k => !bit v.rooms k && ms.any fun m => m / 512 == s.myId / 512 && m / 16 % 32 == k).map
      fun k => s.myId / 512 * 512 + 16 * k
  else if phase = 5 then
    ((List.range 64).filter fun k => !bit v.halls k && ms.any fun m => m / 512 == k).map fun k => 512 * k
  else []

/-- A module asked, or answered, for coverage in a phase, as `asked` keeps it. -/
def askKey (phase m : Nat) : Nat := phase * 2 ^ 16 + m

/-- Answer the modules of other rooms that asked for coverage in room phase `phase`, which is complete here (R312). -/
def State.answerAsked (s : State) (g : Nat) (r : GroupRec) (phase : Nat) : State :=
  let w := s.wave g
  let ask := (((w.heard phase).map (·.src)).filter fun m =>
    phase % 2 == 1 && m / 16 != s.myId / 16 && !w.asked.contains (askKey phase m)).eraseDups
  let d := waveData g r.kind phase w.wave (s.rn (winBase .pln 0 + rPLN_GEN_LO)) (s.waveValue r w phase)
  ask.foldl (fun st m => st.sendWave m none d) (s.setWave g { w with asked := w.asked ++ ask.map (askKey phase) })

/-- The last phase of a SCOPE (R312). -/
def lastPhase (scope : Nat) : Nat := match scope with | 0 => 0 | 1 => 1 | 2 => 3 | _ => 5

/-! ### Completion (R314, R317, R410) -/

/-- The marker wave completes (R410). -/
def State.markerDone (s : State) (v : WaveVal) : State :=
  let a := winBase .pair 0 + rPAIR_STOCKTAKE_STAT
  if s.f a 0 3 ≠ 1 then s
  else if v.low / 2 ^ 48 ≠ v.high / 2 ^ 48 then (s.setf a 0 3 0).postEvent .pair 8 (s.f a 16 16) 0
  else
    let f := v.high % 2 ^ 48
    let s := (s.wn (winBase .pair 0 + rPAIR_STOCKTAKE_GEN_LO) f).wn (winBase .pair 0 + rPAIR_STOCKTAKE_GEN_HI) (f / 2 ^ 32)
    if f ≤ s.planGen then (s.setf a 0 3 0).event .pair 0 8 s.myId else s.setf a 0 3 2

/-- The result of a wave and its ticket at each tile that contributed (R314). -/
def State.landResult (s : State) (tiles : List (Nat × Nat)) (off : Nat) (bs : List Byte) : State :=
  let s := (tiles.map (·.1)).foldl (fun st t => st.writeRun t .scratch off (bs.map fun b => (b, false)) rdTile) s
  tiles.foldl (fun st e => st.ticketAdd e.1 e.2 1) s

/-- Whether a census is in progress (R325). -/
def State.censusRuns (s : State) : Bool :=
  s.fab.waves.any fun e => e.2.phase != 0 && (match s.group e.1 with | some r => r.kind == 5 | none => false)

/-- What a completed wave leaves (R314): results and tickets at the contributing tiles, or the result with
the firmware that started it. In A1 and below the tiles' routers hold the result (R506). -/
def State.waveResult (s : State) (r : GroupRec) (w : WaveState) (v : WaveVal) : State :=
  if r.kind = 4 then { s with cur := { s.cur with waveResult := some (v.low, v.high) } }
  else if r.kind = 5 then
    (s.wn (winBase .fab 0 + rFAB_CENSUS_STAT) (v.low % 256 + v.high % 256 * 2 ^ 8 + 2 ^ 16 + b2n s.censusRuns * 2 ^ 17))
  else if r.kind = 6 then s.markerDone v
  else
    let bytes := leBytes 8 v.low ++ leBytes 8 v.high
    if s.asleep then { s with pwr := { s.pwr with heldResults := s.pwr.heldResults ++ [(w.tiles, r.resultOffset, bytes)] } }
    else s.landResult w.tiles r.resultOffset bytes

/-- Take a contribution into the wave now forming: LOCAL_COUNT of them, or the Registrar's one, complete it
(R311). -/
def WaveState.take (kind tileCount : Nat) (w : WaveState) (t : Option (Nat × Nat)) (c : WaveVal) : WaveState × Bool :=
  let v := if w.count = 0 then combine kind (neutral kind) c true else combine kind w.value c true
  let w := { w with tiles := w.tiles ++ t.toList, count := w.count + 1, value := v }
  (w, decide (tileCount ≤ w.count))

/-- Begin the phases of a wave whose contribution is complete. -/
def State.beginWave (s : State) (g : Nat) (r : GroupRec) : State :=
  let w := s.wave g
  let v := { (if w.count = 0 then neutral r.kind else w.value) with rooms := 2 ^ (s.myId / 16 % 32), halls := 2 ^ (s.myId / 512) }
  let s := s.setWave g { w with value := v, since := s.timer, slow := false }
  s.enterPhase g r 1

/-- Complete a wave and number the next (R314, R315). -/
def State.endWave (s : State) (g : Nat) (r : GroupRec) : State :=
  let w := s.wave g
  let v := s.waveValue r w 5
  let next := (w.wave + 1) % 2 ^ 16
  let fresh : WaveState := { WaveState.idle with
    wave := next, got := w.got.filter (fun m => m.wave != w.wave), queued := w.queued, last := some (w.wave, v) }
  (s.setWave g fresh).waveResult r w v

/-- Whether a member without WAVE steps of its own joins the wave now forming: a message of it has come (R311). -/
def State.joins (s : State) (g : Nat) (r : GroupRec) : Bool :=
  let w := s.wave g
  w.phase == 0 && r.localCount == 0 && !registrarKind r.kind && w.got.any fun m => m.wave == w.wave

/-- Feed contributions that were held for the next wave (R315). -/
def State.feedQueued (s : State) (g : Nat) (r : GroupRec) : Nat → State
  | 0 => s
  | n + 1 =>
    let w := s.wave g
    match w.queued with
    | [] => if s.joins g r then s.beginWave g r else s
    | (t, k, v) :: rest =>
      if w.phase ≠ 0 then s
      else
        let (w, full) := { w with queued := rest }.take r.kind r.localCount (some (t, k)) (s.contribution r v)
        let s := s.setWave g w
        if full then s.beginWave g r else s.feedQueued g r n

/-- Go as far as the messages allow: a phase with every peer heard and full coverage leads to the next, the
last one completes the wave (R312). A request for coverage of Room 2 that comes later is answered then. -/
def State.progress (s : State) (g : Nat) (r : GroupRec) : Nat → State
  | 0 => s
  | n + 1 =>
    let w := s.wave g
    if w.phase = 0 then s
    else if r.scope = 0 then (((s.endWave g r).feedQueued g r (w.queued.length + 1))).progress g r n
    else
    let s := if 3 < w.phase then s.answerAsked g r 3 else s
    let w := s.wave g
    if !s.peersHeard r w w.phase then s
    else
      let s := s.answerAsked g r w.phase
      let w := s.wave g
      let v := s.waveValue r w w.phase
      let miss := s.missing r v w.phase
      if miss ≠ [] then
        let ask := miss.filter fun m => !w.asked.contains (askKey w.phase m)
        let d := waveData g r.kind w.phase w.wave (s.rn (winBase .pln 0 + rPLN_GEN_LO)) v
        ask.foldl (fun st m => st.sendWave m none d) (s.setWave g { w with asked := w.asked ++ ask.map (askKey w.phase) })
      else if w.phase < lastPhase r.scope then (s.enterPhase g r (w.phase + 1)).progress g r n
      else (((s.endWave g r).feedQueued g r (w.queued.length + 1))).progress g r n

/-- Steps enough for every phase of the waves that can complete at once. -/
def progressFuel (s : State) (g : Nat) : Nat := 8 * ((s.wave g).queued.length + 2)

/-- A contribution to group `g` from tile `t` with ticket `k` (R311, R315). -/
def State.contribute (s : State) (g : Nat) (r : GroupRec) (t k v : Nat) : State :=
  let w := s.wave g
  let s := s.setWave g { w with queued := w.queued ++ [(t, k, v)] }
  (s.feedQueued g r (w.queued.length + 2)).progress g r (progressFuel s g)

/-- The Registrar's contribution to a group of its kinds (R310). -/
def State.contributeFirmware (s : State) (g : Nat) (r : GroupRec) (v : Nat) : State :=
  let w := s.wave g
  if w.phase ≠ 0 then s
  else
    let (w, _) := w.take r.kind 1 none ⟨v, v, 0, 0⟩
    ((s.setWave g w).beginWave g r).progress g r (progressFuel s g)

/-! ### Commands -/

/-- WAVE: contributes sA to the group; an absent group, or one of a Registrar kind, is illegal (R134,
R136, R311). -/
def execWaveStep (t : Nat) (s : State) : Outcome State Fault Refusal :=
  .next (s.issue t 1 2 fun s w p =>
    let n := w.toNat
    let g := fld n 42 6
    match s.group g with
    | none => .trap [causeOf cILLEGAL w]
    | some r =>
      legalOr (resOk n (opMask + mk 38 16) && !registrarKind r.kind) w
        (s.goNext t p w fun s => s.contribute g r t (fld n 48 6) ((s.tile t).sreg (fld n 38 4)).toNat))

/-- A WAVE message from its crate (R316). -/
def waveMsgOf (c : Crate) : WaveMsg :=
  let b := c.data
  ⟨at_ b 0 1, at_ b 2 1, at_ b 4 2, at_ b 6 2, ⟨at_ b 8 8, at_ b 16 8, at_ b 24 4, at_ b 32 8⟩, c.srcModule⟩

/-- Combine a message of the module's own generation (R312, R315); one of the wave just completed that asks
for coverage is answered with its value. -/
def State.takeWave (s : State) (m : WaveMsg) : State :=
  match s.group m.group with
  | none => s
  | some r =>
    let w := s.wave m.group
    match w.last with
    | some (k, v) =>
      if k = m.wave then
        if m.src / 16 != s.myId / 16 && m.phase % 2 = 1 then
          s.sendWave m.src none (waveData m.group r.kind m.phase k (s.rn (winBase .pln 0 + rPLN_GEN_LO)) v)
        else s
      else go w r
    | none => go w r
where
  go (w : WaveState) (r : GroupRec) : State :=
    if seqBefore m.wave w.wave then s
    else
      let s := s.setWave m.group { w with got := w.got ++ [m] }
      let s := if s.joins m.group r then s.beginWave m.group r else s
      s.progress m.group r (progressFuel s m.group)

/-- WAVE_MESSAGE: crate `ix` at the Registrar is a WAVE message (R312 to R316): one for a later generation is
held, up to 64; one for an earlier is discarded. A module without an ID answers no wave (R285). -/
def execWaveMessage (ix : Nat) (s : State) : Outcome State Fault Refusal :=
  .next (match s.fab.regIn[ix]? with
    | none => s
    | some c =>
      if c.op ≠ 0x11 ∨ at_ c.data 1 1 = 0xFF then s
      else
        let m := waveMsgOf c
        let gen := s.rn (winBase .pln 0 + rPLN_GEN_LO) % 2 ^ 16
        let t := { s with fab := { s.fab with regIn := s.fab.regIn.eraseIdx ix } }
        if s.unset then t
        else if m.gen = gen then t.takeWave m
        else if seqBefore gen m.gen then
          if s.fab.heldWaves.length < 64 then { t with fab := { t.fab with heldWaves := t.fab.heldWaves ++ [m] } } else s
        else t)

/-- WAVE_SLOW: FAB_WAVE_TIME has passed in a wave of the group, reported once (R324, R432). 0 never reports. -/
def execWaveSlow (group : Nat) (s : State) : Outcome State Fault Refusal :=
  .next (
    let w := s.wave group
    if w.phase ≠ 0 && !w.slow && s.f (winBase .fab 0 + rFAB_WAVE_TIME) 0 16 != 0 then
      (s.setWave group { w with slow := true }).event .fab 0 4 s.myId
    else s)

/-- CENSUS on a group of KIND CENSUS (R317): the module contributes its FFL. -/
def execCensus (group : Nat) (_side : Side) (s : State) : Outcome State Fault Refusal :=
  .next (match s.group group with
    | none => s
    | some r =>
      if r.kind = 5 && (s.wave group).phase = 0 then
        ((s.setf (winBase .fab 0 + rFAB_CENSUS_STAT) 17 1 1).contributeFirmware group r (s.f (wg 0 rWNG_FEATURE_CFG) 0 8))
      else s)

/-- Messages held for the generation just applied (R315). -/
def State.releaseWaves (s : State) : State :=
  let gen := s.rn (winBase .pln 0 + rPLN_GEN_LO) % 2 ^ 16
  let now := s.fab.heldWaves.filter fun m => m.gen == gen
  now.foldl State.takeWave
    { s with fab := { s.fab with heldWaves := s.fab.heldWaves.filter fun m => seqBefore gen m.gen } }

/-- A wave group with no wave in progress, its number, messages and later contributions kept. -/
def WaveState.stopped (w : WaveState) : WaveState :=
  { WaveState.idle with wave := w.wave, got := w.got, queued := w.queued, last := w.last }

/-- A census or a marker wave that a hang finds in progress starts its phases again in the new generation, with the contribution that
firmware made; a group that is none of its kind any more ends it (R410, log entry 164). -/
def State.restartWave (s : State) (w : WaveState) (kind g : Nat) (r : Option GroupRec) : State :=
  match r with
  | some r =>
    if r.kind = kind then
      ((s.setWave g { s.wave g with count := w.count, value := w.value }).beginWave g r).progress g r (progressFuel s g)
    else s
  | none => s

/-- The wave groups after a hang: a group whose record changed is numbered from 0, another is numbered on (R315) with PHASE and
LOCAL at 0 (R325; log entry 164), and the waves of firmware go on. A census that ended so is no longer BUSY, and a stocktake no longer
in MARKER. -/
def State.renumberWaves (s : State) (old : Option Plan) (new : Plan) : State :=
  let s := (List.range 64).foldl (fun st g =>
    let before := match old with | some p => p.group? g | none => none
    let w := st.wave g
    let st := if before = new.group? g then st.setWave g w.stopped else st.setWave g WaveState.idle
    match before with
    | some b => if w.phase ≠ 0 && (b.kind == 5 || b.kind == 6) then st.restartWave w b.kind g (new.group? g) else st
    | none => st) s
  let s := if s.censusRuns then s else s.setf (winBase .fab 0 + rFAB_CENSUS_STAT) 17 1 0
  let a := winBase .pair 0 + rPAIR_STOCKTAKE_STAT
  if s.f a 0 3 = 1 && !(s.fab.waves.any fun e => s.pair.marker == some e.1 && e.2.phase != 0) then s.setf a 0 3 0 else s

/-- Waves in progress go on where what they wait for has changed without a message: a channel that is no longer usable, a member
that was replaced (R312; log entry 164). -/
def State.pushWaves (s : State) : State :=
  (s.fab.waves.filter fun e => e.2.phase != 0).foldl (fun u e =>
    match u.group e.1 with
    | some r => u.progress e.1 r (progressFuel u e.1)
    | none => u) s

end Sys2Proof.Machine
end

