-- ==== Sys2Proof/Machine/PairBase.lean ====
section
/-! DEFINITION. What pairing does at a hang (11_pairs.md R384 to R388, R395, R411): roles, peers, rebuild
tickets, the freeze of a rebuild or a stocktake. -/

namespace Sys2Proof.Machine

open Sys2Proof

/-- A pairing register. -/
def pr (off : Nat) : Nat := winBase .pair 0 + off

/-- PAIR_STAT.STATE: 0 UNPAIRED, 1 PAIRED, 2 STALE, 3 SWITCHING, 4 SOLE, 5 FENCED, 6 REPLACED, 7 RESERVE. -/
def State.pairState (s : State) : Nat := s.f (pr rPAIR_STAT) 0 3

/-- Set PAIR_STAT.STATE. -/
def State.setPair (s : State) (v : Nat) : State := s.setf (pr rPAIR_STAT) 0 3 v

/-- BUDDY and RESERVE in force (PAIR_PEERS). -/
def State.buddy (s : State) : Option Nat := if s.f (pr rPAIR_PEERS) 15 1 = 1 then none else some (s.f (pr rPAIR_PEERS) 0 15)
def State.reserveMod (s : State) : Option Nat :=
  if s.f (pr rPAIR_PEERS) 31 1 = 1 then none else some (s.f (pr rPAIR_PEERS) 16 15)

/-- A module ID or NONE as PAIR_PEERS codes it. -/
def peerCode (m : Option Nat) : Nat := match m with | some x => x | none => 2 ^ 15

/-- The shard records in force (R386, R402): where a member was lost, its reserve stands in and the
survivor is the Keeper. Answers (KEEPER, MIRROR). -/
def State.shardOf (s : State) (sh : Nat) : Option (Nat × Nat) :=
  match s.roles with
  | none => none
  | some r => match r.shards.find? (fun h => h.shard == sh) with
    | none => none
    | some h =>
      if s.isLost h.keeper then some (h.mirror, s.substMod h.keeper)
      else if s.isLost h.mirror then some (h.keeper, s.substMod h.mirror)
      else some (h.keeper, h.mirror)

/-- Ledger tensors of a role and set, by INDEX (R386). -/
def Roles.ledger (r : Roles) (role set : Nat) : List Nat :=
  ((r.tensors.filter fun t => t.role == role && t.set == set).foldl (fun (l : List (Nat × Nat)) t => insert1 (t.index, t.tensor) l) []).map (·.2)
where
  insert1 (x : Nat × Nat) : List (Nat × Nat) → List (Nat × Nat)
    | [] => [x]
    | y :: ys => if x.1 < y.1 then x :: y :: ys else y :: insert1 x ys

/-- The ledger tensors this module holds of a shard, by INDEX: its own Keeper or Mirror tensors, or those of
an adoption set. -/
def State.shardTensors (s : State) (sh : Nat) : List Nat :=
  match s.roles with
  | none => []
  | some r =>
    if !r.reserveRole && r.shard == sh then r.ledger 0 0xFF
    else if !r.reserveRole && r.buddyShard == sh then r.ledger 1 0xFF
    else match r.sets.find? (fun a => a.shard == sh || a.buddyShard == sh) with
      | some a => r.ledger (if a.shard = sh then 0 else 1) a.set
      | none => []

/-- The Catalogue entry of a tensor in the current generation. -/
def State.cat (s : State) (t : Nat) : CatEntry :=
  let none_ : CatEntry := ⟨3, 0, false, false, false, 0xFFFF, 0, 0, 0⟩
  match s.cur.place with
  | some p => aget none_ p.catalogue t
  | none => none_

/-- The module address at which a tensor in a Catalogue entry begins. -/
def CatEntry.base (e : CatEntry) : Nat := if e.tier = 0 then e.address else storeBase + e.address

/-- The pages of tensors in the Vault and the Store, by module address, in order. -/
def State.tensorPages (s : State) (ts : List Nat) : List Nat :=
  (ts.map fun t => let e := s.cat t
    if e.tier < 2 ∧ 0 < e.length then
      (List.range ((e.base % 4096 + e.length + 4095) / 4096)).map fun i => e.base / 4096 + i
    else []).flatten

/-- Begin a copy-on-write freeze of tensors (R412): copies go to the pages of the COW tensor, which lies in the Store (R387). -/
def State.beginFreeze (s : State) (sh : Nat) (rebuild : Bool) (ts : List Nat) : State :=
  let cow := match s.roles with | some r => if (s.cat r.cow).tier = 1 then s.tensorPages [r.cow] else [] | none => []
  { s with pair := { s.pair with freeze := some ⟨sh, rebuild, ts.map fun t => (t, s.cat t), s.tensorPages ts, [], cow⟩ } }

/-- Tiles that run ledger exhibits of a shard. -/
def State.ledgerTiles (s : State) (sh : Nat) : List Nat :=
  match s.cur.place with
  | none => []
  | some p => (p.tiles.map (·.2)).filter fun t => s.ledgerShard t == some sh

/-- Set REBUILD_TICKET in tiles (R395). -/
def State.setRebuildTicket (s : State) (ts : List Nat) (v : Nat) : State :=
  match s.roles with
  | none => s
  | some r => ts.foldl (fun st t => st.setf (tk t r.rebuildTicket) 0 16 v) s

/-- PAIR_STAT.REBUILD from the rebuilds due and running. -/
def State.showRebuild (s : State) : State :=
  let v := if s.pair.rebuilds.any (fun r => r.running && r.dest == s.myId) then 3
    else if s.pair.rebuilds.any (·.running) then 2
    else if s.pair.rebuilds ≠ [] then 1 else 0
  s.setf (pr rPAIR_STAT) 4 2 v

/-- A rebuild falls due (R395), in place of one of its shard that has not started; behind one that runs it waits. -/
def State.rebuildDue (s : State) (sh source dest : Nat) : State :=
  let kept := s.pair.rebuilds.filter fun r => r.shard != sh || r.running
  ({ s with pair := { s.pair with rebuilds := kept ++ [(⟨sh, source, dest, false⟩ : Rebuild)] } }).showRebuild

/-- Start the rebuilds that are due (R395), of one shard one at a time: a source freezes the shard while no freeze is held; a
destination holds its ledger exhibits by REBUILD_TICKET. While a stocktake holds its freeze neither starts (log entry 195). -/
def State.startRebuilds (s : State) : State :=
  (s.pair.rebuilds.foldl (fun st (r : Rebuild) =>
    if st.pair.rebuilds.any fun x => x.running && x.shard == r.shard then st
    else
      let run := fun (u : State) => { u with pair := { u.pair with
        rebuilds := u.pair.rebuilds.map fun x => if x == r then { x with running := true } else x } }
      if r.source = st.myId then
        if st.pair.freeze.isSome then st else run (st.beginFreeze r.shard true (st.shardTensors r.shard))
      else if st.f (pr rPAIR_STOCKTAKE_STAT) 0 3 = 3 then st
      else (run st).setRebuildTicket (st.ledgerTiles r.shard) 0) s).showRebuild

/-- Roles that name another buddy than the one lost end a takeover, and roles that are no reserve's an adoption: the plan then
gives the module its place itself (R385, R403, log entry 172). -/
def State.newRoles (s : State) (r : Roles) : State :=
  let s := if r.reserveRole then s else s.setf (pr rPAIR_STAT) 6 3 0
  if s.f (pr rPAIR_STAT) 3 1 = 0 || s.pair.lostBuddy == r.buddy then s
  else
    let s := ({ s with pair := { s.pair with takeover := false, lostBuddy := none } }).setf (pr rPAIR_STAT) 3 1 0
    if s.pairState = 3 || s.pairState = 4 then s.setPair 1 else s

/-- PAIR_PEERS and the pair's state from the roles in force: the buddy that a takeover or an adoption gave stays (R385, R403). -/
def State.takeRoles (s : State) (r : Roles) : State :=
  let adopted := r.reserveRole && s.f (pr rPAIR_STAT) 6 1 == 1 && s.buddy.isSome
  let st := s.pairState
  let buddy := if s.f (pr rPAIR_STAT) 3 1 = 1 || adopted then s.buddy else r.buddy
  let s := s.wn (pr rPAIR_PEERS) (peerCode (buddy.map s.substMod) + 2 ^ 16 * peerCode r.reserve)
  s.setPair (if 3 ≤ st && st ≤ 6 then st else if r.reserveRole && !adopted then 7 else if st = 2 then 2 else 1)

/-- Whether this module is a reserve that has adopted a set (R403). -/
def State.adopted (s : State) : Bool := s.f (pr rPAIR_STAT) 6 1 == 1

/-- Whether a shard's copy here is being rebuilt, or is to be after an adoption: its ledger exhibits hold at REBUILD_TICKET = 0 until
it is (R395, R403). -/
def State.rebuiltHere (s : State) (t : Nat) : Bool :=
  s.pair.rebuilds.any fun r => r.dest == s.myId && (r.running || s.adopted) && s.ledgerShard t == some r.shard

/-- The tensors of the shards that the buddy keeps, as this module holds them. -/
def State.mirrored (s : State) : List Nat :=
  match s.roles, s.buddy with
  | some r, some _ =>
    if s.adopted then r.ledger 0 (s.f (pr rPAIR_STAT) 7 2) ++ r.ledger 1 (s.f (pr rPAIR_STAT) 7 2) else r.ledger 1 0xFF
  | _, _ => []

/-- A stocktake expects the buddy's frozen ledger in SNAPSHOT: it is INCOMPLETE until its last byte has come (R413, log entry 76). -/
def State.expectSnapshot (s : State) : State :=
  let n := (s.mirrored.map fun t => (s.cat t).length).foldl (· + ·) 0
  ({ s with pair := { s.pair with snapshotLeft := n } }).setf (pr rPAIR_STOCKTAKE_STAT) 5 1 (b2n (n != 0))

/-- What a hang does to the pairing block once its tables are current (R385, R395, R411). -/
def State.pairAtHang (s : State) : State :=
  let st := s.pairState
  let s : State := match s.roles with
    | none => (s.wn (pr rPAIR_PEERS) 0x80008000).setPair (if st = 5 || st = 6 then st else 0)
    | some r => (s.newRoles r).takeRoles r
  let ledger := allTiles.filter fun t => (s.ledgerShard t).isSome
  let s := (s.setRebuildTicket (ledger.filter fun t => !s.rebuiltHere t) 1).setRebuildTicket (ledger.filter s.rebuiltHere) 0
  let a := pr rPAIR_STOCKTAKE_STAT
  let f : Nat := s.rd64 (pr rPAIR_STOCKTAKE_GEN_LO) (pr rPAIR_STOCKTAKE_GEN_HI)
  let s := if s.f a 0 3 = 2 && decide (f ≤ s.planGen) && s.pair.freeze.isNone then
      match s.roles with
      | none => s
      | some r =>
        let own := r.ledger 0 0xFF ++ (if s.f (pr rPAIR_STAT) 3 1 = 1 then r.ledger 1 0xFF else [])
        let s := ((s.beginFreeze r.shard false own).setf a 0 5 3).expectSnapshot
        ({ s with pair := { s.pair with draining := true } }).postEvent .pair 9 (s.f a 16 16) f
    else s
  s.startRebuilds

end Sys2Proof.Machine
end

