-- ==== Sys2Proof/Machine/Curator.lean ====
section
/-! DEFINITION. Plan commands of the Curator (05_hanging_plans.md R168 to R194, R464, R465, R521 to R524):
loading and auditing, preparing, discarding, reading back, and the placement exchange.  The placement
itself is the firmware's own (R523): it enters as operands and is checked against every rule it must meet. -/

namespace Sys2Proof.Machine

open Sys2Proof Host

/-! ### Slots -/

/-- PLN_SLOT_STAT[k] and its neighbours. -/
def slotReg (k off : Nat) : Nat := winBase .pln 0 + off + 0x20 * k

/-- The plan-store records other slots than `k` hold, each shared record once (R168). -/
def State.heldRecords (s : State) (k : Nat) : Assoc Nat :=
  ((List.range 4).filter (· != k)).foldl (fun t j =>
    (s.slot j).records.foldl (fun t r => aput 0 t r.2.2.1 r.2.2.2) t) []

/-- PLN_STORE_FREE: free 4 KiB units of the plan store (R168). -/
def State.showFree (s : State) : State :=
  s.setf (winBase .pln 0 + rPLN_STORE_FREE) 0 19 (0x40000 - (recordSum (s.heldRecords 4) + 4095) / 4096)

/-- A slot becomes EMPTY: its records go unless another slot holds them (R171). -/
def State.clearSlot (s : State) (k : Nat) : State :=
  let s := { s with cur := { s.cur with slots := aput Slot.empty s.cur.slots k Slot.empty,
                                        autoQueue := s.cur.autoQueue.filter (· != k) } }
  let s := [rPLN_SLOT_STAT, rPLN_SLOT_DETAIL, rPLN_SLOT_GEN_LO, rPLN_SLOT_GEN_HI, rPLN_SLOT_LENGTH].foldl
    (fun st o => st.wn (slotReg k o) 0) s
  ((List.range 12).foldl (fun st w => st.wn (winBase .pln 0 + rPLN_SLOT_HASH + 4 * (12 * k + w)) 0) s).showFree

/-! ### Plan-ring entries (R171, R464) -/

/-- An unfinished plan-ring entry with an opcode. -/
def State.planEntry (s : State) (op : Nat) : Option Entry :=
  (s.inProgress planRing).find? fun e => !e.finished && at_ e.bytes 0 1 == op

/-- Whether a HANG is outstanding. -/
def State.hangOut (s : State) : Bool := (s.planEntry 0x22).isSome

/-- Whether a command other than HANG is in progress: the next one does not start (R171). -/
def State.planBusy (s : State) : Bool := (s.inProgress planRing).any fun e => !e.finished && at_ e.bytes 0 1 != 0x22

/-- Finish the plan-ring entry in progress with an opcode. -/
def State.finishPlan (s : State) (op result detail : Nat) : State :=
  match s.planEntry op with
  | some e => s.finish planRing e.count result detail
  | none => s

/-- Whether an entry breaks R464: a reserved byte not 0, or a SLOT above 3. -/
def planBad (b : List Byte) (op : Nat) : Bool :=
  !zeros b 1 4 || !zeros b 0x22 64
    || (if op = 0x20 || op = 0x26 then decide (1 < at_ b 0x21 1) else at_ b 0x21 1 != 0)
    || ((op == 0x20 || op == 0x21 || op == 0x22 || op == 0x24) && decide (3 < at_ b 0x20 1))

/-- Complete the plan entry at HEAD without its effect.  R464 gives a HANG that applied nothing no DETAIL: it
is free (log entry 4); every other command has 0.  A HANG that waited there for its slot waits no more. -/
def State.planAnswer (s : State) (op result : Nat) : State :=
  if op = 0x22 then
    let s := { s with cur := { s.cur with waitingHang := none } }
    (s.draw (2 ^ 48)).2.answerHead planRing result (s.draw (2 ^ 48)).1
  else s.answerHead planRing result 0

/-- Start the plan command at HEAD when its OPCODE is `op`: BAD_OPERAND, BUSY of a halted block (R428) and
LOCKDOWN complete at once; PREPARE and HANG wait below A0 (R506); otherwise `body` with the entry's bytes. -/
def State.planStart (s : State) (op : Nat) (body : List Byte → State) : State :=
  if !s.headIs planRing 0 op || s.planBusy then s
  else
    let b := s.ringEntry planRing 0
    if planBad b op then s.planAnswer op 9
    else if s.halted .pln || s.halted .cur then s.planAnswer op 2
    else if s.locked && !(op == 0x24 || op == 0x25 || op == 0x26) then s.planAnswer op 6
    else if s.asleep && (op == 0x21 || op == 0x22) then s
    else body b

/-! ### The end of a hang (R195, R201) -/

/-- PLN_HANG_STAT. -/
def hangReg : Nat := winBase .pln 0 + rPLN_HANG_STAT

/-- STATE of the hang: 0 IDLE, 1 ARMING, 2 ARMED, 3 WAVE, 4 APPLYING. -/
def State.hangState (s : State) : Nat := s.f hangReg 0 3

/-- The slot being hung. -/
def State.hangSlot (s : State) : Nat := s.f hangReg 4 2

/-- Tiles and pages that were left to the hang after one that is withdrawn are the next hang's: the tiles fall due as R205 decides
for the READY slot that stays (R210). -/
def State.recallLate (s : State) : State :=
  s.cur.lateTiles.foldl State.fallDue { s with cur := { s.cur with lateTiles := [], latePages := [] } }

/-- Finish the HANG in progress with a result and a DETAIL, a free one where nothing was applied.  A slot whose record was lost
becomes EMPTY then, and the HANG completes with DMA_ERROR (R241). -/
def State.finishHang (s : State) (gen : Option Nat) (result : Nat := 0) : State :=
  let k := s.hangSlot
  let lost := s.cur.lostHang
  let result := if lost then 7 else result
  let s := { s.wn hangReg 0 with cur := { s.cur with lostHang := false } }
  let s := match gen with
    | some g => s.finishPlan 0x22 result (g % 2 ^ 48)
    | none => ((s.draw (2 ^ 48)).2.finishPlan 0x22 result (s.draw (2 ^ 48)).1).recallLate
  if lost then s.clearSlot k else s

/-- Disarm a tile (R201): from HANG it goes on past its hang point; a HANG step that waits for its units
completes as a no-operation. -/
def State.disarm (s : State) (t : Nat) : State :=
  if s.ts t = tsHANG then s.setTs t tsRUN
  else if (s.tile t).holding = .hang then
    match s.advance t (s.pos t) with
    | some s' => (s'.mapTile t fun x => { x with holding := .none }).stepDone t
    | none => s.addCause t (causeOf cILLEGAL (s.wordAt t))
  else s

/-- Withdraw the hang in progress without its record (R199, R201): tiles are disarmed, the slot stays READY. -/
def State.dropHang (s : State) : State :=
  (s.poweredTiles.foldl State.disarm s).bump (winBase .pln 0 + rPLN_WITHDRAW_COUNT)

/-- Withdraw the hang in progress (R201, R202). -/
def State.withdrawHang (s : State) : State :=
  let k := s.hangSlot
  let g := s.slotGen k
  (s.dropHang.postEvent .pln 2 k g).finishHang none

/-- Whether the hang in progress may still be withdrawn (R201). -/
def State.canWithdraw (s : State) : Bool :=
  s.hangState == 1 || s.hangState == 2 || (s.hangState == 3 && s.f hangReg 3 1 == 0)

/-! ### Records the plan store has lost (R241) -/

/-- Whether the Store holds nothing that fails a check and nothing that was dropped. -/
def State.storeSound (s : State) : Bool :=
  s.store.parBad == [] && s.store.poisoned == [] && s.store.off == [] && !((List.range 16).any s.deviceDead)

/-- The module addresses of the pages of a plan-store record (log entry 16): from the page `Config.recordPage` names on, in the
1 GiB of the plan store. -/
def recordPages (r : Nat × Nat × Nat × Nat) : List Nat :=
  (List.range (pages r.2.2.2)).map fun i => reservedBase + 4096 * ((Config.recordPage r.2.2.1 + i) % 2 ^ 18)

/-- Whether the Curator finds a page sound without a decode. -/
def State.recordSound (s : State) (a : Nat) : Bool :=
  let ph := s.store.phys a
  !s.store.pageFails (pageOf ph) && !s.unwritten false ph && !s.memDead false ph

/-- The Curator reads plan-store records; the numbers of those that come back poisoned (R241). -/
def State.readRecords (s : State) (rs : List (Nat × Nat × Nat × Nat)) : List Nat × State :=
  if s.storeSound then ([], s)
  else rs.foldl (fun acc r =>
    let (lost, u) := ((recordPages r).filter fun a => !s.recordSound a).foldl (fun (x : Bool × State) a =>
      let (res, u) := x.2.memRead false a 4096 rdCurator
      (x.1 || res.poison.isSome, u)) (false, acc.2)
    (if lost then acc.1 ++ [r.2.2.1] else acc.1, u)) ([], s)

/-- Records that are stored anew are full-page writes: what their pages held before does not stand against them (R237). -/
def State.keepRecords (s : State) (rs : List (Nat × Nat × Nat × Nat)) : State :=
  if s.storeSound then s
  else rs.foldl (fun u r => ((recordPages r).filter fun a => !u.recordSound a).foldl (fun (w : State) a =>
    let w := w.finishDecode false (pageOf (w.store.phys a))
    let p := pageOf (w.store.phys a)
    { w with store := w.store.placePage (w.bankKey false (p * 4096)) p (List.replicate 4096 (0, false)) }) u) s

/-- LOAD (R171): SLOT_STATE, SIZE and NO_SPACE complete at once; otherwise the slot's contents go and the copy
begins. -/
def execLoad (s : State) : Outcome State Fault Refusal :=
  .next (s.planStart 0x20 fun b =>
    let k := at_ b 0x20 1
    let len := at_ b 0x18 8
    let st := s.slotState k
    if !(st == 0 || st == 3 || st == 7) then s.answerHead planRing 1 0
    else if 2 ^ 28 < len then
      (((s.clearSlot k).rejectSlot k aSIZE 0xFF000000).setf (slotReg k rPLN_SLOT_STAT) 20 1 (at_ b 0x21 1)).answerHead planRing 5 0xFF000000
    else if 2 ^ 30 < recordSum (s.heldRecords k) + len then s.answerHead planRing 4 0
    else
      let s := (s.clearSlot k).consume planRing
      let s := s.mapSlot k fun x => { x with host := at_ b 8 8, length := len, records := [(0, 0, s.cur.nextRecord, len)] }
      let s := { s with cur := { s.cur with nextRecord := s.cur.nextRecord + 1 } }
      ((s.setSlotState k 1).setf (slotReg k rPLN_SLOT_STAT) 20 1 (at_ b 0x21 1)).showFree)

/-- LOAD_COPY_DONE: the copy of slot `k` has ended; `bad` is not 0 when a host completion was in error, and
the slot becomes EMPTY with DMA_ERROR (R171, R173). -/
def execLoadCopyDone (k bad : Nat) (s : State) : Outcome State Fault Refusal :=
  .next (
    if k < 4 ∧ s.slotState k = 1 ∧ (bad ≠ 0 ∨ s.canMaster (s.ringOwner planRing)) then
      if bad = 0 then
        let x := s.slot k
        ((s.mapSlot k fun y => { y with image := s.hostRead x.host x.length }).setSlotState k 2).keepRecords x.records
      else ((s.clearSlot k).bump (winBase .hst 0 + rHST_HOST_ERROR_COUNT)).finishPlan 0x20 7 0
    else s)

/-- What PLN_SLOT_STAT[k] and its neighbours show of an audited image (R211); `verified` says that its signature was. -/
def State.showImage (s : State) (k : Nat) (img : List Byte) (h : Hdr) (verified : Bool) : State :=
  let st := slotReg k rPLN_SLOT_STAT
  let s := (((s.setf st 16 1 (b2n h.delta)).setf st 17 1 (b2n (h.signed && verified))).setf st 18 2 h.sizeClass)
  let s := (s.wr64 (slotReg k rPLN_SLOT_GEN_LO) (slotReg k rPLN_SLOT_GEN_HI) h.gen).wn (slotReg k rPLN_SLOT_LENGTH) h.imageLength
  let d := sha384 (measured img h)
  (List.range 12).foldl (fun u w => u.wn (winBase .pln 0 + rPLN_SLOT_HASH + 4 * (12 * k + w)) (at_ d (4 * w) 4)) s

/-- A slot that holds a lost record becomes EMPTY with PLAN_STORE_ERROR, and its pending command completes with DMA_ERROR: the
PREPARE of the slot that prepares, the HANG that waits for it, or the hang in progress (R241).  A hang that can no longer be
withdrawn (R200) ends first (log entry 16). -/
def State.loseSlot (s : State) (k : Nat) : State :=
  let s := s.event .pln 0 2 k
  if s.hangOut && s.hangSlot == k then
    let s := { s with cur := { s.cur with lostHang := true } }
    if s.canWithdraw then s.dropHang.finishHang none else s
  else
    let s := if s.slotState k = 4 then s.finishPlan 0x21 7 0 else s
    let s := if s.cur.waitingHang = some k && s.headIs planRing 0 0x22 then s.planAnswer 0x22 7 else s
    s.clearSlot k

/-- The Curator reads the records that a slot rests on; every slot that holds a lost one is lost. -/
def State.checkRecords (s : State) (rs : List (Nat × Nat × Nat × Nat)) : State :=
  let (lost, s) := s.readRecords rs
  ((List.range 4).filter fun k => (s.slot k).records.any fun r => lost.contains r.2.2.1).foldl State.loseSlot s

/-- The records of the base that the image in slot `k` names (R185). -/
def State.baseRecords (s : State) (k : Nat) : List (Nat × Nat × Nat × Nat) :=
  let h := hdrOf (s.slot k).image
  if h.delta then (match s.basePlan k h.base with | some (_, j) => (s.slot j).records | none => []) else []

/-- AUDIT_DONE: the audit of slot `k` (R185), after the Curator has read the records of its base (R241); what it records (R211),
and the queue of R172. -/
def execAuditDone (k : Nat) (s : State) : Outcome State Fault Refusal :=
  .next (
    if k < 4 ∧ s.slotState k = 2 then
      let s := s.checkRecords (s.baseRecords k)
      let img := (s.slot k).image
      let signed := (s.checkImage k).isNone
      match s.audit k with
      | .error f =>
        let s := (s.mapSlot k fun x => { x with image := [] }).rejectSlot k f.code f.detail
        (s.showImage k img (hdrOf img) signed).showFree.finishPlan 0x20 5 f.detail
      | .ok a =>
        let base := match a.baseSlot with | some j => (s.slot j).records | none => []
        let recs := mergeRecords base s.cur.nextRecord a.sections.parts
        let s := s.keepRecords (recs.filter fun r => decide (s.cur.nextRecord ≤ r.2.2.1))
        let s := { s with cur := { s.cur with nextRecord := s.cur.nextRecord + a.sections.parts.length } }
        let s := s.mapSlot k fun x => { x with image := [], plan := some a.plan, records := recs }
        let st : Nat := slotReg k rPLN_SLOT_STAT
        let s := ((s.setSlotState k 3).setf st 8 8 0).showImage k img a.hdr true
        let s := if s.f st 20 1 = 1 then { s with cur := { s.cur with autoQueue := s.cur.autoQueue ++ [k] } } else s
        s.showFree.finishPlan 0x20 0 0
    else s)

/-! ### Preparing -/

/-- Whether a slot is PREPARING (R170). -/
def State.preparing (s : State) : Option Nat := (List.range 4).find? fun k => s.slotState k == 4

/-- The remote corridors of a plan (R180). -/
def Plan.remotes (p : Plan) : List CorrRec := p.corridors.filter fun c => !c.isLocal

/-- Whether a plan needs no placement exchange, with the tiles of its remote corridors (R193): a delta that changes no corridor of the
current generation and moves no exhibit that another module has ever asked for, which its corridors may still target. Exhibits that
modules said they move are where they said (R194). -/
def State.knownRemotes (s : State) (k : Nat) (p : Plan) (tiles : List (Nat × Nat)) : Option (List (Nat × Nat)) :=
  match s.cur.now, s.cur.place with
  | some q, some pl =>
    let moved := tiles.any fun e => (lookup? pl.tiles e.1).any (· != e.2) && s.cur.askers.any fun a => a.2.1 == e.1
    if s.f (slotReg k rPLN_SLOT_STAT) 16 1 == 1 && q.corridors == p.corridors && !moved
        && p.remotes.all (fun c => (lookup? pl.remote c.corridor).isSome) then
      some (p.remotes.map fun c =>
        (c.corridor, (((s.cur.told.find? fun m => m.1 == p.gen && m.2.1 == s.substMod c.dstModule && m.2.2.1 == c.dst).map (·.2.2.2)).orElse
          fun _ => lookup? pl.remote c.corridor).getD 0))
    else none
  | _, _ => none

/-- Send a PLACE_QUERY (R521). -/
def State.sendQuery (s : State) (gen : Nat) (q : Nat × Nat) : State :=
  s.sendOffice q.1 0x30 24 (leBytes 8 gen ++ leBytes 2 q.2)

/-- The questions of a slot that wait for an answer, each once. -/
def Slot.questions (x : Slot) : List (Nat × Nat) := (x.waiting.map fun w => (w.2.1, w.2.2)).eraseDups

/-- The thermal map (R189): of each tile the mean of its TILE_TEMP readings in the last 100 ms in lowest terms, or the value the
register holds where there was none (log entry 156); tiles at 0 are left out. -/
def State.thermalMap (s : State) : List (Nat × Int × Nat) :=
  let temps := s.cur.temps.filter fun e => decide (s.timer < e.2.1 + 20000000)
  allTiles.filterMap fun t =>
    let l := (temps.filter fun e => e.1 == t).map (·.2.2)
    let sum := if l = [] then sext 12 (s.f (tr t rTILE_TEMP) 0 12) else l.foldl (· + ·) 0
    let n := max 1 l.length
    let g := Nat.gcd sum.natAbs n
    if sum = 0 then none else some (t, sum / (g : Int), n / g)

/-- Start preparing slot `k` (R170, R171, R187, R189, R207). -/
def State.startPrepare (s : State) (k : Nat) : State :=
  let s := match s.readySlot with | some j => s.setSlotState j 3 | none => s
  let st := slotReg k rPLN_SLOT_STAT
  let s := ((s.setSlotState k 4).setf st 8 8 0).wn (slotReg k rPLN_SLOT_DETAIL) 0
  let s := { s with cur := { s.cur with autoQueue := s.cur.autoQueue.filter (· != k) } }
  let s := s.setf (winBase .cur 0 + rCUR_RETIRED_COUNT) 0 11 s.cur.retired.length
  s.mapSlot k fun x => { x with place := none, draft := none, remote := [], waiting := [], heat := s.thermalMap }

/-- Step 3 of PREPARE (R187): start the placement exchange of slot `k`, where one is needed (R193). -/
def State.startExchange (s : State) (k : Nat) (p : Plan) (tiles : List (Nat × Nat)) : State :=
  match s.knownRemotes k p tiles with
  | some known => s.mapSlot k fun x => { x with remote := known, waiting := [] }
  | none =>
    let s := s.mapSlot k fun x => { x with remote := [], waiting := p.remotes.map fun c => (c.corridor, c.dstModule, c.dst) }
    (s.slot k).questions.foldl (fun u q => u.sendQuery p.gen q) s

/-- PREPARE (R171): waits while a slot is PREPARING or a HANG is outstanding; otherwise starts. -/
def execPrepare (s : State) : Outcome State Fault Refusal :=
  .next (s.planStart 0x21 fun b =>
    let k := at_ b 0x20 1
    if s.preparing.isSome || s.hangOut then s
    else if s.slotState k ≠ 3 then s.answerHead planRing 1 0
    else (s.consume planRing).startPrepare k)

/-- AUTO_PREPARE_START: the first waiting slot is prepared once no slot is READY or PREPARING (R172), in A0 and out of
Lockdown. -/
def execAutoPrepareStart (s : State) : Outcome State Fault Refusal :=
  .next (match s.cur.autoQueue with
    | k :: _ => if s.preparing.isNone && s.readySlot.isNone && !s.stopped then s.startPrepare k else s
    | [] => s)

/-! ### What a placement must meet (R188, R189, R523) -/

/-- Whether a constraint holds for the tiles of a placement (R183). -/
def ConstraintRec.holds (c : ConstraintRec) (tiles : List (Nat × Nat)) : Bool :=
  let at1 := (c.ops.head?.bind (lookup? tiles ·)).getD 0
  let at2 := ((c.ops.drop 1).head?.bind (lookup? tiles ·)).getD 0
  let arg := (c.ops.drop 1).headD 0
  match c.kind with
  | 1 => (wingPorts arg).any fun u => decide (hops at1 u ≤ c.distance)
  | 2 => (ctrlTiles arg).any fun u => decide (hops at1 u ≤ c.distance)
  | 3 => decide (hops at1 at2 ≤ c.distance)
  | 4 => decide (c.distance ≤ hops at1 at2)
  | _ => c.ops.all fun x => (lookup? tiles x).getD 0 / 64 == at1 / 64

/-- The HARD constraints of a plan. -/
def Plan.hard (p : Plan) : List ConstraintRec := p.constraints.filter (·.hard)

/-- The tile an exhibit holds in the current generation. -/
def State.tileNow (s : State) (x : Nat) : Option Nat := s.cur.place.bind fun pl => lookup? pl.tiles x

/-- Whether step 2 of R189 keeps exhibits on their tiles: a delta plan or a re-prepared one, whose HARD constraints are those
of the current generation. -/
def State.keeps (s : State) (k : Nat) (p : Plan) : Bool :=
  (s.f (slotReg k rPLN_SLOT_STAT) 16 1 == 1 || (s.slot k).prepared)
    && (match s.cur.now with | some q => q.hard == p.hard | none => false)

/-- The tile on which step 2 of R189 keeps an exhibit. -/
def State.mustKeep (s : State) (k : Nat) (p : Plan) (x : Nat) : Option Nat :=
  if s.keeps k p then (s.tileNow x).filter s.usable else none

/-- Whether the tiles of a placement meet the HARD constraints, and no corridor between two exhibits of the module needs the detour
in either direction (R79, R189). -/
def State.tilesFit (s : State) (p : Plan) (tiles : List (Nat × Nat)) : Bool :=
  p.hard.all (·.holds tiles) && (s.meshSound || (p.corridors.filter (·.isLocal)).all fun c =>
    match lookup? tiles c.src, lookup? tiles c.dst with
    | some a, some b => !s.onDetour a b && !s.onDetour b a
    | _, _ => true)

/-- Whether an exhibit is of the heavy class (R177). -/
def Plan.heavy (p : Plan) (x : Nat) : Bool := match p.exhibit? x with | some r => r.power == 2 | none => false

/-- Whether a tile of the thermal map is above CUR_THERMAL_THRESH (R189). -/
def State.hotTile (s : State) (k t : Nat) : Bool :=
  let limit := s.f (winBase .cur 0 + rCUR_THERMAL_THRESH) 0 12
  (s.slot k).heat.any fun e => e.1 == t && decide ((limit : Int) * e.2.2 < e.2.1)

/-- Whether heavy exhibit `x`, on hot tile `t`, could have been put on cool tile `u`: free, or in exchange with an exhibit that is
neither heavy nor kept, with R188 and `tilesFit` still met (R189). -/
def State.couldCool (s : State) (k : Nat) (p : Plan) (tiles : List (Nat × Nat)) (x t u : Nat) : Bool :=
  !s.hotTile k u &&
  match (tiles.find? fun e => e.2 == u).map (·.1) with
  | none => (!s.isReserve u || s.isReserve t) && s.tilesFit p (tiles.map fun e => if e.1 == x then (x, u) else e)
  | some y => !p.heavy y && (s.mustKeep k p y).isNone
      && s.tilesFit p (tiles.map fun e => if e.1 == x then (x, u) else if e.1 == y then (y, t) else e)

/-- Whether the tiles of a placement are legal for slot `k` (R79, R188, R189, R523). -/
def State.tilesOk (s : State) (k : Nat) (p : Plan) (tiles : List (Nat × Nat)) : Bool :=
  let used := tiles.map (·.2)
  let usable := allTiles.filter s.usable
  let full := (usable.filter fun t => !s.isReserve t).all fun t => used.contains t
  tiles.map (·.1) == p.exhibits.map (·.exhibit) && (repeated used).isNone && used.all s.usable
    && tiles.all (fun e => match s.mustKeep k p e.1 with | some u => u == e.2 | none => true)
    && tiles.all (fun e => !s.isReserve e.2 || full || s.mustKeep k p e.1 == some e.2
        || (match s.tileNow e.1 with | some u => !s.usable u | none => false))
    && s.tilesFit p tiles
    && tiles.all (fun e => !p.heavy e.1 || (s.mustKeep k p e.1).isSome || !s.hotTile k e.2
        || !(usable.any (s.couldCool k p tiles e.1 e.2)))

/-! ### Tensors (R191, R524) -/

/-- Page intervals `[a, b)`. -/
def meetsIv (a b : Nat × Nat) : Bool := decide (a.1 < b.2) && decide (b.1 < a.2)

/-- Whether `n` pages in a row are free in `[lo, hi)`. -/
def fitsIn (n lo hi : Nat) (ivs : List (Nat × Nat)) : Bool :=
  (lo :: ivs.map (·.2)).any fun c => decide (lo ≤ c) && decide (c + n ≤ hi) && !(ivs.any fun v => meetsIv (c, c + n) v)

/-- A tensor as placed: its hint, tier and page in its column or in the Store data space. -/
structure Placed where
  hint : HintRec
  tier : Nat
  page : Nat
  deriving DecidableEq, Repr

/-- Its page interval. -/
def Placed.iv (x : Placed) : Nat × Nat := (x.page, x.page + pages x.hint.length)

/-- Pages of a column that replace retired pages (R230). -/
def State.replacements (s : State) (t : Nat) : List (Nat × Nat) :=
  (s.vault.redirect.filter fun e => colTile (e.2 * 4096) == t).map fun e => (e.2 % 1024, e.2 % 1024 + 1)

/-- What of an exhibit's column is taken before its tensors: private area and replacement pages. -/
def State.columnTaken (s : State) (p : Plan) (tiles : List (Nat × Nat)) (x : Nat) : List (Nat × Nat) :=
  (0, p.privateOf x / 4096) :: s.replacements ((lookup? tiles x).getD 0)

/-- The mode of a segment under new modes. -/
def State.modeOf (s : State) (segs : List (Nat × Nat)) (g : Nat) : Nat := (lookup? segs g).getD (aget 0 s.cur.segModes g)

/-- Store segments that pages `[lo, hi)` of the data space lie in (R215). -/
def segsOf (iv : Nat × Nat) : List Nat := (List.range ((iv.2 + 65535) / 65536)).filter fun g => decide (iv.1 / 65536 ≤ g)

/-- Whether every device that a segment of a mode lies on is alive (R19, R215, R247): mode 0 takes all of them. -/
def State.modeLives (s : State) (mode : Nat) : Bool :=
  if mode = 0 then !((List.range 16).any s.deviceDead) else !s.deviceDead (mode - 1)

/-- The place a tensor must keep by R524, as (tier, page); `none` where it is placed afresh. What the Store held on a device that
has failed is placed afresh too (R19, R247). -/
def State.carried (s : State) (p : Plan) (tiles : List (Nat × Nat)) (all : List Placed) (h : HintRec) : Option (Nat × Nat) :=
  match s.cur.now, s.cur.place with
  | some q, some pl =>
    match pl.catalogue.find? (fun e => e.1 == h.tensor) with
    | some (_, e) =>
      if q.hint? h.tensor ≠ some h then none
      else
        let page := if e.tier = 0 then e.address % 2 ^ 22 / 4096 else e.address / 4096
        let iv := (page, page + pages h.length)
        if e.tier = 0 && ((s.columnTaken p tiles h.owner).any (meetsIv iv)
            || all.any fun y => y.hint.keep && y.hint.tensor != h.tensor && y.hint.owner == h.owner && y.tier == 0 && meetsIv iv y.iv) then none
        else if e.tier = 1 && !((segsOf iv).all fun g => s.modeLives (aget 0 s.cur.segModes g)) then none
        else some (e.tier, page)
    | none => none
  | _, _ => none

/-- Whether a tensor fits in its owner's column in its turn (R191): beside what is taken there and the tensors placed before it: those
that keep their place, KEEP and Vault-only ones, and for another those of no lower SPILL_RANK. -/
def State.fitsColumn (s : State) (p : Plan) (tiles : List (Nat × Nat)) (all : List Placed) (h : HintRec) : Bool :=
  let first := h.keep || h.tierHint == 1
  let before := all.filter fun y => y.tier == 0 && y.hint.owner == h.owner && y.hint.tensor != h.tensor &&
    ((s.carried p tiles all y.hint).isSome || y.hint.keep || y.hint.tierHint == 1 || (!first && decide (h.spillRank ≤ y.hint.spillRank)))
  fitsIn (pages h.length) 0 1024 (s.columnTaken p tiles h.owner ++ before.map (·.iv))

/-- Whether a tensor can go to the Store only: Store-only, without a column, or not fitting its owner's in its turn (R191). -/
def State.storeOnly (s : State) (p : Plan) (tiles : List (Nat × Nat)) (all : List Placed) (h : HintRec) : Bool :=
  !h.keep && h.tierHint != 1 && (h.tierHint == 2 || h.owner == 0xFFFF || !s.fitsColumn p tiles all h)

/-- Whether one tensor's place is legal among all of them. -/
def State.tensorOk (s : State) (p : Plan) (tiles : List (Nat × Nat)) (all : List Placed) (x : Placed) : Bool :=
  let h := x.hint
  let same := all.filter fun y => y.tier == x.tier && y.hint.tensor != h.tensor && (x.tier == 1 || y.hint.owner == h.owner)
  !(same.any fun y => meetsIv x.iv y.iv)
    && (match s.carried p tiles all h with | some c => c == (x.tier, x.page) | none => true)
    && (if x.tier = 0 then
          h.owner != 0xFFFF && h.tierHint != 2 && decide (x.iv.2 ≤ 1024)
            && !((s.columnTaken p tiles h.owner).any fun v => meetsIv x.iv v)
        else
          x.tier == 1 && !h.keep && h.tierHint != 1 && decide (x.iv.2 * 4096 ≤ gib440)
            && ((s.carried p tiles all h).isSome || s.storeOnly p tiles all h))

/-- The controllers nearest to a tile (R191). -/
def nearControllers (t : Nat) : List Nat :=
  let d := fun k => (ctrlTiles k).foldl (fun m u => min m (hops t u)) 1000
  (List.range 16).filter fun k => (List.range 16).all fun j => decide (d k ≤ d j)

/-- Segments a Store tensor lies in (R215). -/
def Placed.segs (x : Placed) : List Nat := segsOf x.iv

/-- Whether the segment modes serve PLACE and the devices' room (R181, R191, R215), and no tensor lies on a device that has failed
(R19, R247). -/
def State.segsOk (s : State) (p : Plan) (tiles : List (Nat × Nat)) (all : List Placed) (segs : List (Nat × Nat)) : Bool :=
  let inStore := all.filter (·.tier == 1)
  let kept := inStore.filter fun x => (s.carried p tiles all x.hint).isSome
  segs.all (fun g => decide (g.1 < 1760) && decide (g.2 ≤ 16) &&
      (g.2 == aget 0 s.cur.segModes g.1 || !(kept.any fun x => x.segs.contains g.1)))
    && inStore.all (fun x => x.segs.all fun g => s.modeLives (s.modeOf segs g))
    && inStore.all (fun x =>
      if x.hint.place = 1 then x.segs.all fun g => s.modeOf segs g == 0
      else if x.hint.place = 2 && (s.carried p tiles all x.hint).isNone then
        match lookup? tiles x.hint.owner with
        | some t => x.segs.all fun g => decide (1 ≤ s.modeOf segs g) && (nearControllers t).contains (s.modeOf segs g - 1)
        | none => true
      else true)
    && (List.range 16).all fun d =>
      let dev := ((List.range 1760).filter fun g => s.modeOf segs g == d + 1).length
      let inter := ((List.range 1760).filter fun g => s.modeOf segs g == 0).length
      decide (256 * dev + 16 * inter ≤ 28160)

/-- The next Catalogue's entry of a placed tensor (R192, R524). -/
def State.entryOf (s : State) (p : Plan) (tiles : List (Nat × Nat)) (x : Placed) : CatEntry :=
  let h := x.hint
  let addr := if x.tier = 0 then vaultAddr ((lookup? tiles h.owner).getD 0) (4096 * x.page) else 4096 * x.page
  let old := s.cur.place.bind fun pl => (pl.catalogue.find? fun e => e.1 == h.tensor).map (·.2)
  let gen := match old with
    | some e => if e.tier = x.tier ∧ e.address = addr ∧ e.length = h.length then e.gen else p.gen % 2 ^ 32
    | none => p.gen % 2 ^ 32
  ⟨x.tier, h.format, h.keep, h.shared, x.tier == 1 && h.tierHint == 0, h.owner, addr, h.length, gen⟩

/-- The tensors operand as placed tensors, in the order of the plan's hints. -/
def placedOf (p : Plan) (tensors : List (Nat × Nat × Nat)) : Option (List Placed) :=
  if tensors.map (·.1) = p.hints.map (·.tensor) then
    some ((p.hints.zip tensors).map fun (h, _, tier, addr) => ⟨h, tier, addr / 4096⟩)
  else none

/-- The exhibit whose column cannot hold its private area, Vault-only and KEEP tensors (VAULT, R185, R191): not all their pages, or
not one that the search marked as not fitting. -/
def State.vaultFails (s : State) (p : Plan) (tiles : List (Nat × Nat)) (all : List Placed) : Option Nat :=
  let own := fun (h : HintRec) => h.tierHint == 1 || h.keep
  let crowded := tiles.find? fun e =>
    let need := (p.hints.filter fun h => h.owner == e.1 && own h).foldl (fun n h => n + pages h.length) 0
    decide (1024 - s.retiredPages e.2 < p.privateOf e.1 / 4096 + need)
  match crowded with
  | some e => some e.1
  | none => (all.find? fun x => x.tier == 2 && own x.hint && !s.fitsColumn p tiles all x.hint).map (·.hint.owner)

/-- Whether a tensor does not fit in the Store beside those placed there: no gap of its size, or more segments than the devices
that live have room for, or PLACE asks for all devices and one has failed (R19, R191, R215). -/
def State.storeFull (s : State) (all : List Placed) (h : HintRec) : Bool :=
  let inStore := all.filter (·.tier == 1)
  let dead := ((List.range 16).filter s.deviceDead).length
  let segs := ((inStore.map Placed.segs).flatten).eraseDups.length + (pages h.length + 65535) / 65536
  !fitsIn (pages h.length) 0 (gib440 / 4096) (inStore.map (·.iv))
    || (dead != 0 && (h.place == 1 || decide (110 * (16 - dead) < segs)))

/-- A tensor that can go to the Store only, which the search marked as not fitting there and which does not fit (STORE). -/
def State.storeFails (s : State) (p : Plan) (tiles : List (Nat × Nat)) (all : List Placed) : Option Nat :=
  (all.find? fun x => x.tier == 2 && s.storeOnly p tiles all x.hint && s.storeFull all x.hint).map (·.hint.tensor)

/-! ### Preload and READY (R187, R118, R388) -/

/-- Whether an exhibit's tile must be preloaded: a new exhibit there, or a changed itinerary. -/
def State.needsPreload (s : State) (p : Plan) (e : Nat × Nat) : Bool :=
  let steps := fun (q : Plan) => (q.exhibit? e.1).bind fun r => q.itin? r.itinerary
  let same := match s.cur.now with | some q => steps q == steps p | none => false
  !(same && s.tileNow e.1 == some e.2 && ((s.tile e.2).half (s.f (tr e.2 rTILE_EXEC_POS) 16 1)).loaded)

/-- Power and preload a tile for an exhibit. -/
def State.readyTile (s : State) (p : Plan) (e : Nat × Nat) : State :=
  let s := s.powerTile e.2
  if s.needsPreload p e then s.preloadTile e.2 (((p.exhibit? e.1).bind fun r => p.itin? r.itinerary).getD []) else s

/-- Answer a placement query from a slot that is READY or ACTIVE (R193, R521). -/
def State.answerQuery (s : State) (k sender gen x : Nat) : State :=
  let tile := (s.slot k).place.bind fun pl => lookup? pl.tiles x
  let s := s.sendOffice sender 0x31 24 (leBytes 8 gen ++ leBytes 2 x ++ leBytes 1 (b2n tile.isNone) ++ leBytes 1 0
    ++ leBytes 2 (match tile with | some t => rc t | none => 0))
  if tile.isSome && !s.cur.askers.contains (sender, x, gen) then
    { s with cur := { s.cur with askers := s.cur.askers ++ [(sender, x, gen)] } } else s

/-- Answer the held queries of a slot's generation. -/
def State.serveHeld (s : State) (k : Nat) : State :=
  let g := s.slotGen k
  let now := s.cur.heldQueries.filter fun q => q.2.1 == g
  now.foldl (fun (u : State) (q : Nat × Nat × Nat) => u.answerQuery k q.1 q.2.1 q.2.2)
    { s with cur := { s.cur with heldQueries := s.cur.heldQueries.filter fun (q : Nat × Nat × Nat) => q.2.1 != g } }

/-- Reject the slot that prepares (R185). -/
def State.failPrepare (s : State) (k code place : Nat) : State :=
  let d := 0xFF000000 + place % 2 ^ 24
  ((s.rejectSlot k code d).mapSlot k fun x => { x with waiting := [], draft := none }).finishPlan 0x21 5 d

/-- What the placement of slot `k` is a function of (R190). -/
def State.placeIn (s : State) (k : Nat) (p : Plan) : PlaceIn where
  plan := p
  keeps := s.keeps k p
  lost := allTiles.filter fun t => !s.usable t
  pages := s.vault.retired
  heat := (s.slot k).heat
  limit := s.f (winBase .cur 0 + rCUR_THERMAL_THRESH) 0 12
  place := s.cur.place.map fun pl =>
    { pl with remote := [], preload := [], catalogue := (pl.catalogue.filter fun e =>
      (s.cur.now.bind fun q => q.hint? e.1) == p.hint? e.1).map fun e => (e.1, { e.2 with gen := 0 }) }
  dead := (List.range 16).filter s.deviceDead
  firmware := (if s.arch.slotB.state = 4 then s.arch.slotB else s.arch.slotA).image

/-- Steps 1 and 2 of PREPARE (R187): what the placement of slot `k` comes to. -/
inductive PlaceRes where
  /-- It breaks a rule that it must meet. -/
  | bad
  /-- It fails with a code and a place (R185). -/
  | fails (code place : Nat)
  /-- It stands. -/
  | placed (pl : Placement)
  deriving DecidableEq, Repr

/-- Judge a placement of slot `k` (R185, R188, R189, R191, R523, R524). -/
def State.judge (s : State) (k : Nat) (p : Plan) (o : PlaceOut) : PlaceRes :=
  let n := (allTiles.filter s.usable).length
  if n < p.exhibits.length then .fails aTILES n
  else if o.broken ≠ 0 then
    match p.constraints[o.broken - 1]? with
    | some c => if c.hard then .fails aCONSTRAINT (o.broken - 1) else .bad
    | none => .bad
  else if !s.tilesOk k p o.tiles then .bad
  else match placedOf p o.tensors with
    | none => .bad
    | some all => match s.vaultFails p o.tiles all with
      | some x => .fails aVAULT x
      | none => match s.storeFails p o.tiles all with
        | some t => .fails aSTORE t
        | none =>
          if all.all (s.tensorOk p o.tiles all) && s.segsOk p o.tiles all o.segs then
            .placed ⟨o.tiles,
              all.foldl (fun m x => aput ⟨3, 0, false, false, false, 0xFFFF, 0, 0, 0⟩ m x.hint.tensor (s.entryOf p o.tiles x)) [],
              [], o.segs.foldl (fun m g => aput 0 m g.1 g.2) s.cur.segModes, []⟩
          else .bad

/-- Whether a placement is the one that the same inputs gave before, if they did (R190). -/
def State.samePast (s : State) (i : PlaceIn) (o : PlaceOut) : Bool :=
  match s.cur.past.find? (fun e => e.1 == i) with
  | some e => e.2 == o
  | none => true

/-- Whether an exhibit of a plan runs on its tile: one of an adoption set that was not adopted does not (R388, R403). -/
def State.runs (s : State) (p : Plan) (x : Nat) : Bool :=
  p.setOf x == 0xFF || (s.adopted && p.setOf x == s.f (pr rPAIR_STAT) 7 2)

/-- Steps 4 and 5 of PREPARE (R187): power the tiles of a draft and preload them; the slot becomes READY. -/
def State.becomeReady (s : State) (k : Nat) (p : Plan) (d : Placement) : State :=
  let own := d.tiles.filter fun e => s.runs p e.1
  let pre := (own.filter (s.needsPreload p)).map (·.2)
  let s := own.foldl (fun u e => u.readyTile p e) s
  let s := s.mapSlot k fun x => { x with place := some { d with remote := x.remote, preload := pre }, draft := none, prepared := true }
  ((s.setSlotState k 5).finishPlan 0x21 0 0).serveHeld k

/-- Steps 1 to 3 of PREPARE (R187) with the placement that the search answered: a failure rejects the slot; one that breaks a rule it
must meet, or differs from what the same inputs gave before, has no effect. The exchange starts with the first draft; one that is
made again because a tile fell due (R205) leaves it as it is. -/
def State.draftPlace (s : State) (k : Nat) (p : Plan) (o : PlaceOut) : State :=
  let i := s.placeIn k p
  if !s.samePast i o then s
  else
    let noted := { s with cur := { s.cur with past := (i, o) :: s.cur.past.filter fun e => e.1 != i } }
    match s.judge k p o with
    | .bad => s
    | .fails code place => noted.failPrepare k code place
    | .placed d =>
      let first := (s.slot k).draft.isNone
      let s := noted.mapSlot k fun x => { x with draft := some d }
      if first then s.startExchange k p o.tiles else s

/-- Whether the draft of a slot still stands: every tile of it is usable (R205), and no router that has failed since makes a
corridor need the detour (R79). -/
def State.draftStands (s : State) (k : Nat) (p : Plan) : Bool :=
  match (s.slot k).draft with
  | some d => d.tiles.all (fun e => s.usable e.2) && s.tilesFit p d.tiles
  | none => false

/-- PREPARE_DONE: a step of PREPARE of slot `k` is done (R187). Without a draft that stands it is the placement, with the tile of
each exhibit, the tier of each tensor (2: it did not fit) and, in the same order, their offsets, Store segment modes, and 1 + the index of a HARD
constraint the search could not meet (0: none). With a draft, and every remote corridor resolved, the tiles are powered and
preloaded and the slot becomes READY; the same command does so where no corridor waits. The Curator reads the slot's records first
(R241). -/
def execPrepareDone (k : Nat) (tiles tiers : List (Nat × Nat)) (offsets : List Nat) (segs : List (Nat × Nat))
    (broken : Nat) (s : State) : Outcome State Fault Refusal :=
  .next (
    if !(decide (k < 4) && s.slotState k == 4) then s
    else
      let s := s.checkRecords (s.slot k).records
      match s.slotState k == 4, (s.slot k).plan with
      | true, some p =>
        let s := if s.draftStands k p then s else s.draftPlace k p ⟨tiles, tiers.zipWith (fun e a => (e.1, e.2, a)) offsets, segs, broken⟩
        match (s.slot k).draft, (s.slot k).waiting with
        | some d, [] => if s.draftStands k p then s.becomeReady k p d else s
        | _, _ => s
      | _, _ => s)

/-- DISCARD (R171): not while the slot is ACTIVE, LOADING, AUDITING or PREPARING. That of the slot being hung waits behind its HANG
(log entry 123). -/
def execDiscard (s : State) : Outcome State Fault Refusal :=
  .next (s.planStart 0x24 fun b =>
    let k := at_ b 0x20 1
    let st := s.slotState k
    if s.hangOut && s.hangSlot == k then s
    else if st = 6 ∨ st = 1 ∨ st = 2 ∨ st = 4 then s.answerHead planRing 1 0
    else (s.clearSlot k).answerHead planRing 0 0)

/-! ### Reading back (R192, R208, R212, R465) -/

/-- CUR_PLACE_DATA of an exhibit with STALE at 0. -/
def State.placeData (s : State) (x : Nat) : Nat :=
  match s.tileNow x with
  | none => 0
  | some t => rc t + 2 ^ 11 + b2n (s.cur.moved.contains x) * 2 ^ 12 + b2n (s.isReserve t) * 2 ^ 13

/-- The 32 bytes of a Catalogue entry (R192). -/
def catBytes (t : Nat) (e : CatEntry) : List Byte :=
  leBytes 8 (t + e.tier * 2 ^ 14 + e.format * 2 ^ 16 + b2n e.keep * 2 ^ 20 + b2n e.shared * 2 ^ 21 + b2n e.spilled * 2 ^ 22
    + (if e.tier = 3 then 0 else e.owner) * 2 ^ 24)
  ++ leBytes 8 e.address ++ leBytes 8 e.length ++ leBytes 8 e.gen

/-- Write a dump: the head and the records that fit in LENGTH bytes; the answer is the bytes written. -/
def State.dump (s : State) (b : List Byte) (gen : Nat) (size : Nat) (recs : List (List Byte)) : State :=
  let len := at_ b 0x18 8
  if len < 16 then s.answerHead planRing 0 0
  else
    let fit := recs.take ((len - 16) / size)
    let bytes := leBytes 8 gen ++ leBytes 4 recs.length ++ leBytes 4 0 ++ fit.flatten
    (s.hostWrite (at_ b 8 8) bytes).answerHead planRing 0 bytes.length

/-- READ_PLACEMENT (R465). -/
def execReadPlacement (s : State) : Outcome State Fault Refusal :=
  .next (s.planStart 0x25 fun b =>
    let xs : List Nat := match s.cur.place with | some pl => pl.tiles.map (·.1) | none => []
    s.dump b s.planGen 8 (xs.map fun x => leBytes 2 x ++ leBytes 2 0 ++ leBytes 4 (s.placeData x)))

/-- READ_CATALOGUE (R465): of the current generation, or of the READY slot with NEXT. -/
def execReadCatalogue (s : State) : Outcome State Fault Refusal :=
  .next (s.planStart 0x26 fun b =>
    if at_ b 0x21 1 = 1 then
      match s.readySlot with
      | none => s.answerHead planRing 1 0
      | some k => s.dump b (s.slotGen k) 32 (((s.slot k).place.getD Placement.empty).catalogue.map fun e => catBytes e.1 e.2)
    else s.dump b s.planGen 32 ((s.cur.place.getD Placement.empty).catalogue.map fun e => catBytes e.1 e.2))

/-! ### The placement exchange (R193, R194, R521) -/

/-- The slot READY or ACTIVE with a generation. -/
def State.slotOfGen (s : State) (g : Nat) : Option Nat :=
  (List.range 4).find? fun k => (s.slotState k == 5 || s.slotState k == 6) && s.slotGen k == g

/-- PLACE_QUERY: message `ix` asks for an exhibit's tile; held until the generation is READY or ACTIVE here. -/
def execPlaceQuery (ix : Nat) (s : State) : Outcome State Fault Refusal :=
  .next (match s.takeMsg ix 0x30 with
    | none => s
    | some (b, s) =>
      let q := (msgSender b, at_ b 8 8, at_ b 16 2)
      match s.slotOfGen q.2.1 with
      | some k => s.answerQuery k q.1 q.2.1 q.2.2
      | none => if s.cur.heldQueries.contains q then s
          else { s with cur := { s.cur with heldQueries := s.cur.heldQueries ++ [q] } })

/-- Corridors of the generation in force that are resolved again (R402), as (corridor, module, exhibit). -/
def State.openCorridors (s : State) : List (Nat × Nat × Nat) :=
  ((s.tiles.map fun (e : Nat × Tile) => (e.2.corridors.filter fun (c : CorrEntry) => !c.resolved).map fun (c : CorrEntry) => (c.corridor, c.dstModule, c.dstExhibit)).flatten).eraseDups

/-- PLACE_QUERY_REPEAT: every 100 µs an unanswered query is repeated (R521). -/
def execPlaceQueryRepeat (s : State) : Outcome State Fault Refusal :=
  .next (
    let s : State := match s.preparing with
      | some k => (s.slot k).questions.foldl (fun (u : State) (q : Nat × Nat) => u.sendQuery (s.slotGen k) q) s
      | none => s
    ((s.openCorridors.map fun (q : Nat × Nat × Nat) => q.2).eraseDups).foldl (fun (u : State) (q : Nat × Nat) => u.sendQuery u.planGen q) s)

/-- Change the corridor entries a tile holds, those of the step in its crate unit included. -/
def Tile.mapCorr (x : Tile) (g : CorrEntry → CorrEntry) : Tile :=
  { x with corridors := x.corridors.map g, crateU := x.crateU.map fun (i : Issued) => { i with corridors := i.corridors.map g } }

/-- Set the tile of corridors to an exhibit of a module in the generation in force (R194, R402). -/
def State.retarget (s : State) (m x t : Nat) : State :=
  let fix := fun (c : CorrEntry) => if s.substMod c.dstModule == m && c.dstExhibit == x then { c with tile := t, resolved := true } else c
  let s := { s with tiles := s.tiles.map fun (e : Nat × Tile) => (e.1, e.2.mapCorr fix) }
  match s.cur.now, s.cur.place with
  | some p, some pl =>
    let cs := (p.remotes.filter fun (c : CorrRec) => s.substMod c.dstModule == m && c.dst == x).map (·.corridor)
    let rest := pl.remote.filter fun (e : Nat × Nat) => !cs.contains e.1
    { s with cur := { s.cur with place := some { pl with remote := rest ++ cs.map fun c => (c, t) } } }
  | _, _ => s

/-- A tile coded as row and column (R521). -/
def tileOf (v : Nat) : Nat := tileIx (v % 32) (v / 32 % 64)

/-- PLACE_ANSWER: message `ix` answers a query; one that matches none is discarded; RESULT 1 fails the
placement with REMOTE. -/
def execPlaceAnswer (ix : Nat) (s : State) : Outcome State Fault Refusal :=
  .next (match s.takeMsg ix 0x31 with
    | none => s
    | some (b, s) =>
      let m := msgSender b
      let g := at_ b 8 8
      let x := at_ b 16 2
      let t := tileOf (at_ b 20 2)
      let s := match s.preparing with
        | none => s
        | some k =>
          let mine := (s.slot k).waiting.filter fun w => s.substMod w.2.1 == m && w.2.2 == x
          if s.slotGen k ≠ g then s
          else match mine with
          | [] => s
          | w :: _ =>
            if at_ b 18 1 = 0 then
              s.mapSlot k fun y => { y with waiting := y.waiting.filter (fun v => !mine.contains v),
                                            remote := y.remote ++ mine.map fun v => (v.1, t) }
            else s.failPrepare k aREMOTE w.1
      if g = s.planGen && at_ b 18 1 = 0 && s.openCorridors.any (fun w => s.substMod w.2.1 == m && w.2.2 == x) then s.retarget m x t
      else s)

/-- PLACE_MOVED: message `ix` gives the new tile of an exhibit that moved (R194); for a generation still to come it is kept, whatever
its slot is at. -/
def execPlaceMoved (ix : Nat) (s : State) : Outcome State Fault Refusal :=
  .next (match s.takeMsg ix 0x32 with
    | none => s
    | some (b, s) =>
      let m := msgSender b
      let g := at_ b 8 8
      let x := at_ b 16 2
      let t := tileOf (at_ b 20 2)
      let s := (List.range 4).foldl (fun (u : State) k =>
        match (u.slot k).plan with
        | some p =>
          let cs := (p.remotes.filter fun c => u.substMod c.dstModule == m && c.dst == x).map (·.corridor)
          if p.gen = g && (u.slotState k == 4 || u.slotState k == 5) then
            let fix := fun (l : List (Nat × Nat)) => l.map fun (e : Nat × Nat) => if cs.contains e.1 then (e.1, t) else e
            u.mapSlot k fun y => { y with remote := fix y.remote, place := y.place.map fun pl => { pl with remote := fix pl.remote } }
          else u
        | none => u) s
      let s := if g ≤ s.planGen then s else { s with cur := { s.cur with
        told := (s.cur.told.filter fun w => !(w.1 == g && w.2.1 == m && w.2.2.1 == x)) ++ [(g, m, x, t)] } }
      if g = s.planGen then s.retarget m x t else s)

/-- PLACE_EXCHANGE_TIMEOUT: PLN_EXCHANGE_TIME has passed with a corridor unresolved: REMOTE (R193). -/
def execPlaceExchangeTimeout (s : State) : Outcome State Fault Refusal :=
  .next (match s.preparing with
    | none => s
    | some k => match (s.slot k).waiting with
      | [] => s
      | w :: _ => s.failPrepare k aREMOTE w.1)

end Sys2Proof.Machine
end

