-- ==== Sys2Proof/Machine/MemCmds.lean ====
section
/-! DEFINITION. What happens to the Vault and the Store by themselves (06_vault_and_store.md R221 to R247):
decodes, the scrub, failed dies and channels, march tests, raw mode, and the LPDDR5X housekeeping of R243. -/

namespace Sys2Proof.Machine

open Sys2Proof Host

/-- WIPE_BUSY of a memory. -/
def State.wiping (s : State) (v : Bool) : Bool := s.f (mreg v rVLT_STAT rSTO_STAT) 0 1 == 1

/-- PAGE_DECODE_DONE: a held page of memory `mem` (1 the Vault) is decoded and released (R221 to R224). -/
def execPageDecodeDone (mem page : Nat) (s : State) : Outcome State Fault Refusal :=
  .next (s.finishDecode (mem == 1) page)

/-! ### The scrub (R227) -/

/-- Pages in a scrub pass: 1,056 columns of 1,024 pages, or the Store with its reserved region. -/
def scrubPages (v : Bool) : Nat := if v then 1056 * 1024 else (storeSize + reservedSize) / 4096

/-- Page `n` of a pass. -/
def scrubPage (v : Bool) (n : Nat) : Nat :=
  if v then vaultAddr (tileIx (n / 1024 / 33) (n / 1024 % 33)) 0 / 4096 + n % 1024 else storeBase / 4096 + n

/-- The scrub's place moves to the next page; the end of a pass is counted. -/
def State.scrubOn (s : State) (v : Bool) : State :=
  let n := (s.mem v).scrubNext + 1
  if n < scrubPages v then s.setMem v { s.mem v with scrubNext := n }
  else (s.setMem v { s.mem v with scrubNext := 0 }).bump (mreg v rVLT_SCRUB_PASS_COUNT rSTO_SCRUB_PASS_COUNT)

/-- The scrub reads and decodes a page in full, and reports the poisoned words it meets (R227, R241). -/
def State.scrubRead (s : State) (v : Bool) (p : Nat) : State :=
  match (s.mem v).poisonWords p with
  | [] => s.decodePage v p rdScrub
  | ws => ws.foldl (fun (u : State) w => u.memError v ((s.mem v).served p * 4096 + 32 * w) 3 rdScrub) s

/-- SCRUB_PAGE: the scrub reads and decodes the next page in full, but skips poisoned pages and banks that are off
(R227). It waits for a held page and a wipe, and stands still when stopped: SCRUB_TIME 0, or Lockdown (R437). -/
def execScrubPage (mem : Nat) (s : State) : Outcome State Fault Refusal :=
  let v := mem == 1
  let m := s.mem v
  let p := scrubPage v m.scrubNext
  .next (
    if s.f (mreg v rVLT_SCRUB_TIME rSTO_SCRUB_TIME) 0 16 = 0 || s.locked || s.wiping v || m.held.any (fun h => h.1 == p) then s
    else if s.unwritten v (p * 4096) then s.scrubOn v
    else if s.memDead v (p * 4096) then (s.deadPage v p rdScrub).scrubOn v
    else (s.scrubRead v p).scrubOn v)

/-! ### Hard faults -/

/-- VAULT_DIE_FAIL: die `d` is declared failed and recorded; its pages fall due (R230, R234). -/
def execVaultDieFail (die : Nat) (s : State) : Outcome State Fault Refusal := .next (s.failDie die)

/-- Soft-spare entries of die `d` in the Archive flash. -/
def Mem.spares (m : Mem) (d : Nat) : Nat := (m.softSpare.filter fun e => e.1 % 8 == d).length

/-- MARCH_TEST: firmware tests the rows of a retired page; each failing row becomes a soft-spare entry (SUBJECT of R378) with the
retired pages it explains, while the die has a spare row left (R233). -/
def execMarchTest (page : Nat) (rows : List (Nat × List Nat)) (s : State) : Outcome State Fault Refusal :=
  let d := dieOf (page * 4096)
  .next (
    if !s.vault.retired.contains page then s
    else rows.foldl (fun (u : State) (r : Nat × List Nat) =>
      let n := u.vault.spares d
      if 64 ≤ n then u
      else ({ u with vault := { u.vault with softSpare := u.vault.softSpare ++ [(d + 8 * (r.1 % 8192), r.2)] } }).condEvent 8 0 (d + 8 * (r.1 % 8192)) n (n + 1)) s)

/-- Channel `c` enters state failed (R247); the incident names the first page that R215 places on it in mode 0. -/
def State.failChannel (s : State) (c : Nat) : State :=
  if 64 ≤ c || s.f (chanStat c) 0 3 = 4 then s
  else (s.setf (chanStat c) 0 3 4).event .sto 0 6 (storeBase + 4096 * c)

/-- STORE_CHANNEL_FAIL: channel `chan` fails. -/
def execStoreChannelFail (chan : Nat) (s : State) : Outcome State Fault Refusal := .next (s.failChannel chan)

/-! ### LPDDR5X housekeeping (R243) -/

/-- Whether a Store channel runs: it is active, or was left in a retraining, which has then ended. -/
def State.chanRuns (s : State) (c : Nat) : Bool := s.f (chanStat c) 0 3 == 0 || s.f (chanStat c) 0 3 == 3

/-- STORE_REFRESH: a per-bank refresh on a channel, at the rate its temperature asks for: the device gives that
temperature in its mode register (R247). The bank's interruption is timing. -/
def execStoreRefresh (chan temp : Nat) (s : State) : Outcome State Fault Refusal :=
  .next (if 64 ≤ chan || !s.chanRuns chan then s else (s.setf (chanStat chan) 0 3 0).setf (chanStat chan) 8 8 (min 125 temp))

/-- Put every Store channel that runs into self-refresh. -/
def State.storeSleep (s : State) : State :=
  (List.range 64).foldl (fun (u : State) c => if u.chanRuns c then u.setf (chanStat c) 0 3 1 else u) s

/-- Whether every unit of every tile is idle (TILES_QUIET). -/
def State.tilesQuiet (s : State) : Bool := s.tiles.all fun e => e.2.idle

/-- Step 6 of Lockdown's entry: with the tiles quiet, every Store channel in use enters self-refresh (R437). -/
def State.storeRest (s : State) : State :=
  if s.locked && s.tilesQuiet then s.storeSleep else s

/-- STORE_RFM: refresh management interrupts one bank; nothing that the module holds changes. -/
def execStoreRfm (_chan _bank : Nat) (s : State) : Outcome State Fault Refusal := .next s

/-- A retraining of channel `c` ends. -/
def State.retrained (s : State) (c : Nat) : State := if s.f (chanStat c) 0 3 = 3 then s.setf (chanStat c) 0 3 0 else s

/-- The errors that the link ECC corrected on a channel since its oscillator was last read join STO_LINK_ECC_COUNT, each an event of
LINK_ECC; how many there were is free (log entry 147). -/
def State.countLinkEcc (s : State) (c : Nat) : State :=
  let n := Config.choice s.free
  (List.range n).foldl (fun (u : State) _ => u.event .sto 0 5 (storeBase + 4096 * c))
    (({ s with free := s.free + 1 }).bumpN (winBase .sto 0 + rSTO_LINK_ECC_COUNT) n)

/-- A read whose transfer failed and failed again meets a byte that fails its parity: its page is decoded (R221, R243). What is
stored with the byte stays. -/
def State.linkFailure (s : State) (a reader : Nat) : State :=
  let s := s.settle false a 1
  let ph := s.store.phys a
  if s.unwritten false ph || s.memDead false ph then s
  else
    let was := s.store.bad ph
    let s := ({ s with store := { s.store with parBad := aput false s.store.parBad ph true } }).decodePage false (pageOf ph) reader
    if was then s else { s with store := { s.store with parBad := aput false s.store.parBad ph false } }

/-- Whether a read of channel `c` since its oscillator was last read had a transfer that failed twice, which byte of the Store it was
and who read it, is free (log entry 147). -/
def State.linkFails (s : State) (c : Nat) : State :=
  let a := storeBase + Config.choice (s.free + 1) % storeSize
  let u := { s with free := s.free + 3 }
  if Config.choice s.free % 2 = 1 ∧ chanOf (s.segMode a) a = c then u.linkFailure a (Config.choice (s.free + 2) % 6) else u

/-- WCK2DQ_OSC_READ: a drift beyond 1/16 UI, in 1/256 UI, retrains the channel, one of a device at a time; the channel shows the
retraining until it next takes an access or another channel of its device is read. -/
def execWck2dqOscRead (chan drift : Nat) (s : State) : Outcome State Fault Refusal :=
  .next (
    if 64 ≤ chan || !s.chanRuns chan then s
    else
      let s := (((List.range 4).foldl (fun (u : State) k => u.retrained (chan / 4 * 4 + k)) s).countLinkEcc chan).linkFails chan
      if drift ≤ 16 then s else (s.setf (chanStat chan) 0 3 3).bump (winBase .sto 0 + rSTO_RETRAIN_COUNT))

/-- ZQ_LATCH: the channel latches its background calibration; nothing that the module holds changes. -/
def execZqLatch (_chan : Nat) (s : State) : Outcome State Fault Refusal := .next s

/-- Whether a Store segment holds a tensor of the Catalogue (R215). -/
def State.segInUse (s : State) (g : Nat) : Bool :=
  match s.cur.place with
  | none => false
  | some p => p.catalogue.any fun (e : Nat × CatEntry) =>
      e.2.tier == 1 && decide (e.2.address / 2 ^ 28 ≤ g) && decide (g * 2 ^ 28 < e.2.address + e.2.length)

/-- Whether a part of Store segment `g` lies on channel `c` (R215). -/
def State.partOn (s : State) (g c : Nat) : Bool :=
  let m := aget 0 s.cur.segModes g
  m == 0 || c / 4 == m - 1

/-- SELF_REFRESH_ENTRY: an idle channel enters self-refresh in A2 or deeper, or in Lockdown once the tiles are quiet. With partial-array
self-refresh the channel's parts of the segments named, which hold no data, are dropped: they come back poisoned (R236). A change
of power state that put the channel into self-refresh leaves its segments to be dropped. -/
def execSelfRefreshEntry (chan : Nat) (segs : List Nat) (s : State) : Outcome State Fault Refusal :=
  let deep := decide (2 ≤ s.f (winBase .pwr 0 + rPWR_STATE_STAT) 0 3)
  .next (
    if 64 ≤ chan || !(deep || (s.locked && s.tilesQuiet)) || (!s.chanRuns chan && !(deep && s.f (chanStat chan) 0 3 == 1)) then s
    else
      let drop := if deep then segs.filter fun g => decide (g < 1760) && !s.segInUse g && s.partOn g chan else []
      let m := drop.foldl (fun (m : Mem) g => m.dark (partKey g chan)) s.store
      ({ s with store := m }).setf (chanStat chan) 0 3 (if drop = [] then 1 else 2))

/-! ### Raw mode (R245, R246) -/

/-- A raw register of a memory: VLT_RAW_ or its STO_RAW_ counterpart, which lies 0x100 higher. -/
def rawReg (v : Bool) (off : Nat) : Nat := if v then winBase .vlt 0 + off else winBase .sto 0 + off + 0x100

/-- Whether a raw command may act (R245), through PF1 or from the warden side (R488). For both memories the rule names GRANT of
VLT_RAW_AUTH. -/
def State.rawAllowed (s : State) (side : Side) : Bool :=
  (side == .pf1 || wardenSide side) && (s.f (winBase .rgs 0 + rRGS_LIFECYCLE) 0 3 == 3 || s.f (rawReg true rVLT_RAW_AUTH) 0 1 == 1)
    && (List.range 4).all fun k => s.slotState k != 6

/-- The address the raw registers hold, by word: in the Vault, in the Store, or in the reserved region; `none`
where it names no byte of that memory (R213, R245). -/
def State.rawAddr (s : State) (v : Bool) (reserved : Nat) : Option Nat :=
  let a := (s.rn (rawReg v rVLT_RAW_ADDR_LO) / 32 * 32) + 2 ^ 32 * s.f (rawReg v rVLT_RAW_ADDR_HI) 0 8
  if v then (if whereIs a = .vault then some a else none)
  else if reserved % 2 = 1 then (if a < reservedSize then some (reservedBase + a) else none)
  else if whereIs a = .store then some a else none

/-- The eight RAW_DATA registers as 32 bytes. -/
def State.rawData (s : State) (v : Bool) : List Byte :=
  ((List.range 8).map fun k => leBytes 4 (s.rn (rawReg v rVLT_RAW_DATA + 4 * k))).flatten

/-- Put 32 bytes into the RAW_DATA registers. -/
def State.setRawData (s : State) (v : Bool) (bs : List Byte) : State :=
  (List.range 8).foldl (fun (u : State) k => u.wn (rawReg v rVLT_RAW_DATA + 4 * k) (at_ bs (4 * k) 4)) s

/-- The parity bit stored with a byte (R217). -/
def Mem.parityBit (m : Mem) (ph : Nat) : Bool := (!evenParity (aget 0 m.cells ph).toNat) != m.bad ph

/-- Page-parity byte `k` of a page as stored (R218). -/
def Mem.ppByte (m : Mem) (p k : Nat) : Byte :=
  let j := k / 4
  let x := xorAll ((List.range 128).map fun i => (parityOf i (aget 0 m.cells (p * 4096 + 32 * i + j)).toNat).getD (k % 4) 0)
  BitVec.ofNat 8 x ^^^ aget 0 m.ppDiff (ppKey p k)

/-- Whether the page of a physical address is POISONED. -/
def State.poisonedAt (s : State) (v : Bool) (ph : Nat) : Bool := (s.mem v).pagePoisoned (s.bankKey v ph) (pageOf ph)

/-- A raw write of one word or page-parity byte; a write to a poisoned page is discarded and counted (R238). -/
def State.rawWrite (s : State) (v : Bool) (ph : Nat) (g : Mem → Mem) : State :=
  if s.poisonedAt v ph then s.bump (mreg v rVLT_POISON_DROP_COUNT rSTO_POISON_DROP_COUNT) else s.setMem v (g (s.mem v))

/-- One data byte replaced; its parity bit and the page parity stay as they are stored. -/
def Mem.rawByte (m : Mem) (ph : Nat) (b : Byte) : Mem :=
  let x := (aget 0 m.cells ph ^^^ b).toNat
  let m := { m with cells := aput 0 m.cells ph b, parBad := aput false m.parBad ph (m.bad ph != !evenParity x) }
  m.addDiff (pageOf ph) (ph % 4096) x

/-- READ_RAW: data and parity bits without a check; a poisoned page's contents are undefined. -/
def State.readRaw (s : State) (v : Bool) (ph : Nat) : State :=
  if s.poisonedAt v ph then
    let (bs, s) := s.freeBytes 36
    (s.setRawData v (bs.take 32)).wn (rawReg v rVLT_RAW_PARITY) (leNat (bs.drop 32))
  else
    let m := s.mem v
    (s.setRawData v (agets 0 m.cells ph 32)).wn (rawReg v rVLT_RAW_PARITY)
      ((List.range 32).foldl (fun x i => x + b2n (m.parityBit (ph + i)) * 2 ^ i) 0)

/-- WRITE_DATA: the 32 data bytes only. As a write to the word it removes the tracker's entry (R228). -/
def State.writeData (s : State) (v : Bool) (ph : Nat) : State :=
  let t := s.rawWrite v ph fun m => (List.range 32).foldl (fun (m : Mem) i => m.rawByte (ph + i) ((s.rawData v).getD i 0)) m
  if s.poisonedAt v ph then t else t.untrack v ph

/-- WRITE_PARITY: the 32 byte-parity bits only. -/
def State.writeParity (s : State) (v : Bool) (ph : Nat) : State :=
  s.rawWrite v ph fun m =>
    let w := s.rn (rawReg v rVLT_RAW_PARITY)
    { m with parBad := (List.range 32).foldl (fun (t : Assoc Bool) i =>
        aput false t (ph + i) (bit w i != !evenParity (aget 0 m.cells (ph + i)).toNat)) m.parBad }

/-- READ_PAGE_PARITY: page-parity byte `k`; 0xA5 in a poisoned page (R236). -/
def State.readPageParity (s : State) (v : Bool) (k ph : Nat) : State :=
  s.setf (rawReg v rVLT_RAW_DATA) 0 8 (if s.poisonedAt v ph then 0xA5 else ((s.mem v).ppByte (pageOf ph) k).toNat)

/-- WRITE_PAGE_PARITY: page-parity byte `k`, with its own parity bit recomputed and no delta. -/
def State.writePageParity (s : State) (v : Bool) (k ph : Nat) : State :=
  s.rawWrite v ph fun m =>
    let key := ppKey (pageOf ph) k
    let new : Byte := BitVec.ofNat 8 (s.f (rawReg v rVLT_RAW_DATA) 0 8)
    { m with ppDiff := aput 0 m.ppDiff key (aget 0 m.ppDiff key ^^^ (m.ppByte (pageOf ph) k ^^^ new)),
             ppBad := aput false m.ppBad key false }

/-- CHECKED_READ: the normal path without write-back. Its counts, reports and tracker are those of a read; the
word is delivered unless poison is found, in which case nothing says what RAW_DATA holds. -/
def State.checkedRead (s : State) (v : Bool) (ph : Nat) : State :=
  let bad := (List.range 32).any fun i => (s.mem v).bad (ph + i)
  let rs := (List.range 32).map fun i => s.peekAt v bad (ph + i)
  let pois := firstSome (fun (r : ByteRes) => match r with | .ok _ => none | .poison k => some k) rs
  let res := match pois with
    | some 1 => 2
    | some 2 => 3
    | some _ => 4
    | none => if bad then 1 else 0
  let s := match pois with
    | some k =>
      let t := if k ≠ 1 then s.memError v ((s.mem v).served (pageOf ph) * 4096 + ph % 4096) k rdCurator
        else if s.memDead v ph then s.deadPage v (pageOf ph) rdCurator
        else s.decodePage v (pageOf ph) rdCurator false
      let (bs, s) := t.freeBytes 32
      s.setRawData v bs
    | none =>
      let t := if bad then s.decodePage v (pageOf ph) rdCurator false else s
      t.setRawData v (rs.map fun (r : ByteRes) => match r with | .ok b => b | .poison _ => 0)
  s.setf (rawReg v rVLT_RAW_CMD) 18 3 res

/-- What a raw command of code `op` does to the word at a physical address (R246). -/
def State.rawAct (s : State) (v : Bool) (op pp ph : Nat) : State :=
  match op with
  | 0 => s.readRaw v ph
  | 1 => s.writeData v ph
  | 2 => s.writeParity v ph
  | 3 => s.readPageParity v (pp % 128) ph
  | 4 => s.writePageParity v (pp % 128) ph
  | _ => s.checkedRead v ph

/-- A raw command completes: refused by R245, or with its effect. It waits for the
decode of a held page (R222). An access to a bank that is off powers it (R236); an address
that does not exist reads 0 and ignores writes, and counts (R213). -/
def State.rawRun (s : State) (v : Bool) (op pp reserved : Nat) (side : Side) : State :=
  let a := rawReg v rVLT_RAW_CMD
  let s := if !s.rawAllowed side then s.setf a 17 1 1
    else match s.rawAddr v reserved with
      | none =>
        let s := s.absentAccess (s.rn (rawReg v rVLT_RAW_ADDR_LO) / 32 * 32 + 2 ^ 32 * s.f (rawReg v rVLT_RAW_ADDR_HI) 0 8)
        if op = 0 then (s.setRawData v (List.replicate 32 0)).wn (rawReg v rVLT_RAW_PARITY) 0
        else if op = 3 then s.wn (rawReg v rVLT_RAW_DATA) 0
        else if op = 5 then s.setRawData v (List.replicate 32 0)
        else s
      | some x =>
        let s := s.settle v x 32
        let ph := (s.mem v).phys x
        (s.setMem v ((s.mem v).powerUp (s.bankKey v ph))).rawAct v op pp ph
  s.setf a 16 1 1

/-- A raw command: its fields are stored and GO clears DONE; it completes at once, or when the wipe of its memory is over (R246). -/
def State.raw (s : State) (v : Bool) (op pp reserved : Nat) (side : Side) : State :=
  let a := rawReg v rVLT_RAW_CMD
  let s := (((s.setf a 0 3 op).setf a 4 7 pp).setf a 11 1 (if v then 0 else reserved)).setf a 16 5 0
  if s.wiping v then { s with pwr := { s.pwr with memWait := s.pwr.memWait ++ [.raw v op pp reserved side] } }
  else s.rawRun v op pp reserved side

/-- READ_RAW: data and parity bits of a word. -/
def execReadRaw (mem pp reserved : Nat) (side : Side) (s : State) : Outcome State Fault Refusal := .next (s.raw (mem == 1) 0 pp reserved side)

/-- WRITE_DATA: the data bytes of a word. -/
def execWriteData (mem pp reserved : Nat) (side : Side) (s : State) : Outcome State Fault Refusal := .next (s.raw (mem == 1) 1 pp reserved side)

/-- WRITE_PARITY: the byte-parity bits of a word. -/
def execWriteParity (mem pp reserved : Nat) (side : Side) (s : State) : Outcome State Fault Refusal := .next (s.raw (mem == 1) 2 pp reserved side)

/-- READ_PAGE_PARITY: page-parity byte PP_INDEX. -/
def execReadPageParity (mem pp reserved : Nat) (side : Side) (s : State) : Outcome State Fault Refusal := .next (s.raw (mem == 1) 3 pp reserved side)

/-- WRITE_PAGE_PARITY: page-parity byte PP_INDEX. -/
def execWritePageParity (mem pp reserved : Nat) (side : Side) (s : State) : Outcome State Fault Refusal := .next (s.raw (mem == 1) 4 pp reserved side)

/-- CHECKED_READ: a word on the normal path. -/
def execCheckedRead (mem pp reserved : Nat) (side : Side) (s : State) : Outcome State Fault Refusal := .next (s.raw (mem == 1) 5 pp reserved side)

end Sys2Proof.Machine
end

