-- ==== Sys2Proof/Machine/Bar2.lean ====
section
/-! DEFINITION. Accesses of the host to module memory through BAR2 (13_host_and_security.md R454): spans over pages, what holds an
access (06_vault_and_store.md R246, 12_incidents.md R428), and carrying it out. -/

namespace Sys2Proof.Machine

open Sys2Proof

/-- The module address of a BAR2 offset. -/
def State.bar2Addr (s : State) (off : Nat) : Nat := s.f (winBase .hst 0 + rHST_BAR2_BASE) 0 10 * 2 ^ 30 + off

/-- Read `n` bytes page by page: the bytes and whether any was poisoned. -/
def State.readSpan (s : State) (a n reader : Nat) : Nat → List Byte × Bool × State
  | 0 => ([], false, s)
  | fuel + 1 =>
    if n = 0 then ([], false, s)
    else
      let k := min n (4096 - a % 4096)
      let (x, s) := s.modRead a k reader
      let (bs, p, s) := s.readSpan (a + k) (n - k) reader fuel
      (x.bytes ++ bs, x.poison.isSome || p, s)

/-- Write bytes page by page as partial writes (R237). -/
def State.writeSpan (s : State) (a : Nat) (bs : List Byte) : Nat → State
  | 0 => s
  | fuel + 1 =>
    if bs = [] then s
    else
      let k := min bs.length (4096 - a % 4096)
      (s.modWrite a (bs.take k) false rdBAR2).writeSpan (a + k) (bs.drop k) fuel

/-- Whether a range of module addresses touches the Store. -/
def touchesStore (a n : Nat) : Bool := decide (a < storeBase + storeSize) && decide (storeBase < a + n)

/-- A BAR2 read completion, at 2 ^ 36 + offset in what the module sends. -/
def State.bar2Out (s : State) (off : Nat) (bs : List Byte) (how : Completion) : State :=
  { s with out := s.out ++ [.read (2 ^ 36 + off) bs how] }

/-- Whether the Store takes no request of a range: its block is halted (R428). -/
def State.storeShut (s : State) (a n : Nat) : Bool := s.halted .sto && touchesStore a n

/-- Whether an access to a range waits, for the wipe of a memory it touches (R246) or for RESUME of the Store (R428). -/
def State.accessHeld (s : State) (a n : Nat) : Bool :=
  (s.wiping true && decide (a < 2 ^ 33)) || (s.wiping false && touchesStore a n) || s.storeShut a n

/-- A BAR2 read is carried out: a poisoned completion for poisoned data (R241). -/
def State.bar2Read (s : State) (off n : Nat) : State :=
  let (bs, p, s) := s.readSpan (s.bar2Addr off) n rdBAR2 3
  s.bar2Out off (if p then [] else bs) (if p then .poisoned else .data)

/-- A BAR2 write is carried out. -/
def State.bar2Write (s : State) (off : Nat) (bs : List Byte) : State := s.orBlocked (s.writeSpan (s.bar2Addr off) bs 2)

/-- An access that waited is carried out, or waits on where something still holds it. -/
def State.serveAccess (s : State) (x : MemAccess) : State :=
  let wait : State := { s with pwr := { s.pwr with memWait := s.pwr.memWait ++ [x] } }
  match x with
  | .raw v op pp res side => if s.wiping v then wait else s.rawRun v op pp res side
  | .read off n => if s.accessHeld (s.bar2Addr off) n then wait else s.bar2Read off n
  | .write off bs => if s.accessHeld (s.bar2Addr off) bs.length then wait else s.bar2Write off bs

/-- The accesses that wait are carried out in order, as far as nothing holds them any more. -/
def State.serveWaiting (s : State) : State :=
  s.pwr.memWait.foldl State.serveAccess { s with pwr := { s.pwr with memWait := [] } }

/-- The wipe of a memory is over: WIPE_BUSY reads 0 and the accesses that waited for it are carried out (R246). -/
def State.endWipe (s : State) (v : Bool) : State := (s.setf (mreg v rVLT_STAT rSTO_STAT) 0 1 0).serveWaiting

end Sys2Proof.Machine
end

