-- ==== Sys2Proof/Machine/TileEvents.lean ====
section
/-! DEFINITION. Events of a tile that are no steps: units completing (R111), timeouts (R85, R100),
crates arriving (R79, R82 to R85, R152), state commands (R97, R104, R109), clears, monitors (R90, R91)
and the island clock (R93); a router failing (R15). -/

namespace Sys2Proof.Machine

open Sys2Proof Host

/-! ### Units -/

/-- A unit has become idle: a trap that waited for the units is taken (R114), or a tile that stops enters IDLE (R167), or a
waiting tile shows WAIT (R135). -/
def State.afterUnit (s : State) (t : Nat) : State :=
  match (s.tile t).holding with
  | .trap => if (s.tile t).idle then s.enterTrap t else s
  | .stop | .ended =>
    if !(s.tile t).idle then s
    else if (s.tile t).pendTraps = [] then s.enterIdle t else s.enterTrap t
  | _ => s.showWait t

/-- The effect of a unit's step, and the step left in the unit when it has not finished. -/
def State.unitEffect (s : State) (t : Nat) (u : Unit4) (i : Issued) : State × Option Issued :=
  match u with
  | .move => (s.doMove t i, none)
  | .crate => s.doCrate t i
  | .matrix => (s.doMatrix t i, none)
  | .vector => (s.doVector t i, none)

/-- The memories a step's descriptors reach, scale and group arrays among them: whether Vault, and the range touched. -/
def State.memRanges (s : State) (t : Nat) (i : Issued) : List (Bool × Nat × Nat) :=
  let x := i.view (s.tile t)
  (readsOf x i.word.toNat).filterMap fun r =>
    let d := x.desc (r - 36)
    if r < 36 then none
    else match resolve t (s.f (tr t rTILE_EXHIBIT) 0 16) i.tensors d with
      | some (.mem v b, _) => some (v, b + d.low.toNat, b + (d.high false).toNat)
      | _ => none

/-- Whether a step in a unit waits on the Store: one that takes no request (R428), or that no path leads to (R15). -/
def State.storeHeld (s : State) (t : Nat) (i : Issued) : Bool :=
  (s.memRanges t i).any fun r => !r.1 && s.storeWaits t r.2.1 r.2.2

/-- The cycles a step was stalled on one memory, which nothing measures here, are a free number added to its counter when the
step completes (R105, R110, log entry 9). -/
def State.stalls (s : State) (t : Nat) (i : Issued) (v : Bool) : State :=
  if !((s.memRanges t i).any fun r => r.1 == v) then s
  else
    let (n, s) := s.draw (2 ^ 32)
    s.perf t (if v then rTILE_VAULT_STALL_COUNT else rTILE_STORE_STALL_COUNT) n

/-- UNIT_STEP_COMPLETE: the unit's step takes its effect and the unit is idle (R111).  A crate step
whose crates the router does not accept stays (R15, R152), as does a step that waits on the Store (R428) or
for a COW page (R412).  The unit stays busy until the effect is whole, so that a trap the step brings comes after it. -/
def execUnitStepComplete (t : Nat) (u : Unit4) (s : State) : Outcome State Fault Refusal :=
  .next (match (s.tile t).unit u with
    | none => s
    | some i =>
      if (u = .crate && s.crateHeld t i) || s.storeHeld t i then s
      else s.orBlocked <|
        (s.completing t fun s => match ((s.stalls t i true).stalls t i false).unitEffect t u i with
          | (s', none) => (s'.mapTile t fun x => x.setUnit u none).stepDone t
          | (s', some i') => s'.mapTile t fun x => x.setUnit u (some i')).afterUnit t)

/-! ### Timeouts (R100, R102) -/

/-- Whether a tile runs or waits, so that a trap can be taken (R97). -/
def State.traps (s : State) (t : Nat) : Bool := s.ts t == tsRUN || s.ts t == tsWAIT

/-- TILE_CRATE_TIMEOUT: TILE_CRATE_TIME has passed for a wait, which is abandoned, or for a crate step
whose crate the router has not accepted (R98, R100, R102). 0 disables it; a crate step keeps the value at its issue (R165). -/
def execTileCrateTimeout (t : Nat) (s : State) : Outcome State Fault Refusal :=
  .next (
    if !s.traps t || s.asleep then s
    else match (s.tile t).holding with
      | .wait k _ => if s.f (tr t rTILE_CRATE_TIME) 0 16 = 0 then s else s.addCause t (causeOf cTIMEOUT (s.wordAt t) (2 * k))
      | _ => match (s.tile t).crateU with
        | some i =>
          if i.crateTime = 0 then s
          else ((s.mapTile t fun x => { x with crateU := none }).addCause t (causeOf cTIMEOUT i.word 1)).trapNow t
        | none => s)

/-- The generation of the hang in progress. -/
def State.armedGen (s : State) : Nat :=
  let k := s.f (winBase .pln 0 + rPLN_HANG_STAT) 4 2
  s.rd64 (winBase .pln 0 + rPLN_SLOT_GEN_LO + 0x20 * k) (winBase .pln 0 + rPLN_SLOT_GEN_HI + 0x20 * k)

/-- TILE_HANG_TIMEOUT: TILE_HANG_TIME has passed with a hang armed and the hang point not reached: a
cause for the next boundary, and a waiting step is abandoned (R100, R102).  0 disables it, and an itinerary that has executed
END never takes it (R121). -/
def execTileHangTimeout (t : Nat) (s : State) : Outcome State Fault Refusal :=
  .next (
    if s.f (tr t rTILE_HANG_TIME) 0 16 = 0 || !s.traps t || !s.hangArmed || s.asleep || (s.tile t).holding == .ended then s
    else s.addCause t (causeOf cHANGTIME (s.wordAt t) s.armedGen))

/-! ### Crates at a tile -/

/-- The place and size a crate's target names at tile `t` (R76, R82); `none` for TARGET 3, a tensor the
exhibit may not reach, or a tile in OFF, which has no ranges (R109). -/
def State.target (s : State) (t : Nat) (c : Crate) : Option (Place × Nat) :=
  if s.ts t = tsOFF || c.target = 3 then none
  else resolve t (s.f (tr t rTILE_EXHIBIT) 0 16) (s.tile t).tensors
    { Desc.zero with w0 := BitVec.ofNat 64 (c.target * 2 ^ 40), w1 := BitVec.ofNat 64 (c.tensor * 2 ^ 48) }

/-- The place of a crate's target when its whole range lies inside. -/
def State.landing (s : State) (t : Nat) (c : Crate) : Option Place :=
  match s.target t c with
  | some (pl, size) => if c.offset + c.length ≤ size then some pl else none
  | none => none

/-- Whether a crate that moves data waits on the Store (R428, R15): its target, or for a response the destination of the READ
it answers, lies there. -/
def State.toStore (s : State) (t : Nat) (c : Crate) : Bool :=
  let place := fun (o : Option (Place × Nat)) (lo hi : Nat) => match o with
    | some (.mem false b, _) => s.storeWaits t (b + lo) (b + hi)
    | _ => false
  if c.op = 3 then false
  else if c.op = 2 then
    match (s.tile t).reads.find? (fun r => r.id == c.request % 256) with
    | none => false
    | some r =>
      let d := (r.issued.view (s.tile t)).desc (fld r.issued.word.toNat 52 4)
      place (resolve t (s.f (tr t rTILE_EXHIBIT) 0 16) (s.tile t).tensors d) d.low.toNat (d.high false).toNat
  else place (s.target t c) c.offset (c.offset + (c.length - 1))

/-- Whether a tile handles an OP (R82). -/
def tileOp (op : Nat) : Bool := op == 0 || op == 1 || op == 2 || op == 3 || op == 0x12

/-- Crate `i` of the corridors arrives at its tile as OP `op`: lost at a failed router (R78), discarded
where R82 says so, otherwise `body`. -/
def State.arrive (s : State) (i op : Nat) (body : State → Nat → Crate → State) : State :=
  match s.fab.corridor[i]? with
  | none => s
  | some c =>
    let t := c.destTile
    if !s.mayArrive i c then s
    else if s.routerBad t then (s.dropCorridor i).event .gal 0 1 (rc t)
    else if s.toStore t c then s
    else if !tileOp c.op then (s.dropCorridor i).crateDrop t
    else if c.op = op then s.orBlocked (body (s.dropCorridor i) t c)
    else s

/-- A crate completed at a tile: counted, and its ticket added after its data (R83). -/
def State.crateDone (s : State) (t k n : Nat) : State := (s.perf t rTILE_CRATE_IN_COUNT 1).ticketAdd t k n

/-- Write a crate's data at its target, poisoned where it carries POISON (R84). -/
def State.writeCrate (s : State) (t : Nat) (pl : Place) (c : Crate) : State :=
  s.writeRun t pl c.offset (c.data.map fun b => (b, c.poison)) rdCrate

/-- Bytes of the buddy's stocktake that arrive in SNAPSHOT; the last of them complete it (R413, log entry 76). -/
def State.noteSnapshot (s : State) (c : Crate) : State :=
  match s.roles with
  | none => s
  | some r =>
    if c.target = 2 ∧ c.tensor = r.snapshot ∧ c.srcModule = s.f (winBase .pair 0 + rPAIR_PEERS) 0 16 ∧ s.pair.snapshotLeft ≠ 0 then
      let n := s.pair.snapshotLeft - c.length
      ({ s with pair := { s.pair with snapshotLeft := n } }).setf (winBase .pair 0 + rPAIR_STOCKTAKE_STAT) 5 1 (b2n (n != 0))
    else s

/-- CRATE_WRITE (R82, R83, R84). -/
def execCrateWrite (i : Nat) (s : State) : Outcome State Fault Refusal :=
  .next (s.arrive i 0 fun s t c =>
    match s.landing t c with
    | none => s.crateDrop t
    | some pl => ((s.writeCrate t pl c).noteSnapshot c).crateDone t c.ticket c.ticketAdd)

/-- CRATE_TICKET: no data; the ticket is added (R82). -/
def execCrateTicket (i : Nat) (s : State) : Outcome State Fault Refusal :=
  .next (s.arrive i 3 fun s t c =>
    match s.target t c with
    | none => s.crateDrop t
    | some _ => s.crateDone t c.ticket c.ticketAdd)

/-- The response to a READ_REQ (R82): the data, poisoned if any of it is (R84). -/
def Crate.response (c : Crate) (me epoch : Nat) (bytes : List Byte) (poison : Bool) : Crate :=
  { c with srcModule := me, srcTile := c.destTile, op := 2, ticket := 0, ticketAdd := 0, epoch := epoch,
           data := bytes, length := bytes.length, destModule := c.srcModule, destTile := c.srcTile,
           tc := 0, tag := 0, congested := false, dup := false, poison := poison, via := none }

/-- CRATE_READ_REQ: LENGTH bytes of the target go back to the sender (R82). -/
def execCrateReadReq (i : Nat) (s : State) : Outcome State Fault Refusal :=
  .next (s.arrive i 1 fun s t c =>
    match s.landing t c with
    | none => s.crateDrop t
    | some pl =>
      let (g, s) := s.readAt t pl (s.openRanges t .crate) c.offset c.length rdCrate
      (s.perf t rTILE_CRATE_IN_COUNT 1).sendCrate t (c.response s.myId s.epochNow g.bytes (g.marks.any id)))

/-- Bit `b` of byte `k` of a row of a READ's destination: the bit of the source stream it comes from, or
`none` for an unused position (R139, R152). `e0` is the row's first element. -/
def readBit (bits sn0 dn0 e0 k b : Nat) : Option Nat :=
  let j := (8 * k + b) / bits
  if dn0 ≤ j then none
  else
    let e := e0 + j
    some (e / sn0 * (8 * rowBytes bits sn0) + e % sn0 * bits + (8 * k + b) % bits)

/-- One destination byte after the stream bytes `[start, start+data.length)` arrive; `none` where none of its bits did.  A
byte of the last packing unit that no element uses is written as zero with the row's last element (R139, log entry 138). -/
def readByte (bits sn0 dn0 e0 k start : Nat) (data : List Byte) (old : Byte) : Option Byte :=
  let src := (List.range 8).map fun b => readBit bits sn0 dn0 e0 k b
  let here := fun (p : Nat) => decide (8 * start ≤ p) && decide (p < 8 * (start + data.length))
  let last := dn0 * bits - 1
  let unused := src.all (·.isNone) && (match readBit bits sn0 dn0 e0 (last / 8) (last % 8) with | some p => here p | none => false)
  if unused || src.any (fun o => match o with | some p => here p | none => false) then
    some (BitVec.ofNat 8 (src.zipIdx.foldl (fun n (ob : Option Nat × Nat) =>
      let v := match ob.1 with
        | none => false
        | some p => if here p then bit (data.getD (p / 8 - start) 0).toNat (p % 8) else bit old.toNat ob.2
      n + b2n v * 2 ^ ob.2) 0))
  else none

/-- A byte of a place as it stands, for a merge. -/
def State.rawByte (s : State) (t : Nat) (pl : Place) (o : Nat) : Byte :=
  match pl with
  | .scratch => aget 0 (s.tile t).scratch o
  | .mem v b => match s.peek v (b + o) with
    | .ok x => x
    | .poison _ => 0

/-- Write a response into its READ's destination pattern (R152), by the ranges now in force (R198); `none`
when it would leave them. -/
def State.writeResponse (s : State) (t : Nat) (r : ReadOut) (c : Crate) : Option State :=
  let n := r.issued.word.toNat
  let x := r.issued.view (s.tile t)
  let dd := x.desc (fld n 52 4)
  let sd := x.desc (fld n 48 4)
  match resolve t (s.f (tr t rTILE_EXHIBIT) 0 16) (s.tile t).tensors dd with
  | none => none
  | some (pl, size) =>
    let bits := fmtBits dd.format
    let bytes := (dd.rowBases.zipIdx.map fun (b, row) =>
      (List.range (rowBytes bits dd.n0)).filterMap fun k =>
        (readByte bits sd.n0 dd.n0 (row * dd.n0) k r.start (c.data.take r.length) (s.rawByte t pl (b.toNat + k))).map
          fun v => (b.toNat + k, [(v, c.poison)])).flatten
    if bytes.any (fun (b : Nat × List (Byte × Bool)) => decide (size < b.1 + b.2.length)) then none
    else some ((runsOf bytes).foldl (fun st w => st.writeRun t pl w.1 w.2 rdCrate) s)

/-- CRATE_READ_RESP: the data goes where the request's descriptor points, then the ticket is added
(R82, R152); a response that matches no request of the tile is discarded, as is one with TARGET 3 or at a tile in OFF, which
has no ranges (R82, R109). -/
def execCrateReadResp (i : Nat) (s : State) : Outcome State Fault Refusal :=
  .next (s.arrive i 2 fun s t c =>
    if c.target = 3 || s.ts t = tsOFF then s.crateDrop t
    else match (s.tile t).reads.find? (fun r => r.id == c.request % 256) with
    | none => s.crateDrop t
    | some r =>
      let s := s.mapTile t fun x => { x with reads := x.reads.filter fun q => q.id != r.id }
      match s.writeResponse t r c with
      | some s => s.crateDone t r.ticket r.ticketAdd
      | none => s.crateDrop t)

/-- CRATE_INGRESS_TIMEOUT: the last beat of crate `i`, whose header reached tile `t`, has not come within
TILE_CRATE_TIME: what arrived is discarded and counted, no ticket added (R85).  0 disables it. -/
def execCrateIngressTimeout (t i : Nat) (s : State) : Outcome State Fault Refusal :=
  .next (match s.fab.corridor[i]? with
    | none => s
    | some c =>
      if c.destTile = t && s.f (tr t rTILE_CRATE_TIME) 0 16 != 0 && (c.torn || s.mayArrive i c) then (s.dropCorridor i).crateDrop t
      else s)

/-! ### State commands (R109) -/

/-- STOP of tile `t`: RUN at the next step boundary, WAIT at once by abandoning the wait; ignored elsewhere. -/
def State.stopCmd (s : State) (t : Nat) : State :=
  if !s.tileReached t then s
  else if s.ts t = tsWAIT then s.enterIdle t
  else if s.ts t = tsRUN then s.mapTile t fun x => { x with deferred := x.deferred ++ [.stop] }
  else s

/-- RELEASE of tile `t`: TRAP to IDLE at once; the record stays but CAUSE and ALSO clear (R104). -/
def State.releaseCmd (s : State) (t : Nat) : State :=
  if s.tileReached t && s.ts t = tsTRAP then (s.wn (tr t rTILE_TRAP_CAUSE) 0).enterIdle t else s

/-- RESET of tile `t`: RUN at the next step boundary, every other state at once (R109). -/
def State.resetCmd (s : State) (t : Nat) : State :=
  if !s.tileReached t then s
  else if s.ts t = tsRUN then s.mapTile t fun x => { x with deferred := x.deferred ++ [.reset []] }
  else s.tileReset t

/-- A write of `v` to register `off` of tile `t`, whose effect is `g`: held in A1 and below (R506). -/
def State.tileWrite (s : State) (t off v : Nat) (side : Side) (g : State → State) : State :=
  if s.asleep && s.tileReached t then s.holdWrite (tr t off) v side else g s

/-- STOP (R109). -/
def execStop (t : Nat) (side : Side) (s : State) : Outcome State Fault Refusal :=
  .next (s.tileWrite t rTILE_STATE_CTRL 1 side fun s => s.stopCmd t)

/-- RELEASE (R104, R109). -/
def execReleaseTrap (t : Nat) (side : Side) (s : State) : Outcome State Fault Refusal :=
  .next (s.tileWrite t rTILE_STATE_CTRL 2 side fun s => s.releaseCmd t)

/-- RESET (R109). -/
def execReset (t : Nat) (side : Side) (s : State) : Outcome State Fault Refusal :=
  .next (s.tileWrite t rTILE_STATE_CTRL 3 side fun s => s.resetCmd t)

/-! ### Clears and reads -/

/-- A change to a tile's registers at the time R107 gives its state. -/
def State.tileChange (s : State) (t : Nat) (d : Deferred) : State :=
  if s.ts t = tsIDLE then s.tileApply t d
  else if s.ts t = tsTRAP || s.ts t = tsOFF then s.tileApplyStopped t d
  else s.mapTile t fun x => { x with deferred := x.deferred ++ [d] }

/-- FREQ and VOLT of a tile once the changes that wait have taken effect. -/
def State.clockNext (s : State) (t : Nat) : Nat × Nat :=
  (s.tile t).deferred.foldl (fun c d => match d with | .clock f v => (f, v) | _ => c)
    (s.f (tr t rTILE_CLOCK) 0 7, s.f (tr t rTILE_CLOCK) 8 7)

/-- CLEAR of TILE_PERF_CTRL. -/
def State.perfClearCmd (s : State) (t : Nat) : State := if s.tileReached t then s.tileChange t (.perfClear []) else s

/-- PERF_CLEAR: the counters from 0x308 to 0x330 and MIN_SLACK, at the next step boundary (R110). -/
def execPerfClear (t : Nat) (side : Side) (s : State) : Outcome State Fault Refusal :=
  .next (s.tileWrite t rTILE_PERF_CTRL (1 + 2 * s.f (tr t rTILE_PERF_CTRL) 1 1) side fun s => s.perfClearCmd t)

/-- A W1C write of TILE_ARITH_STAT. -/
def State.statClearCmd (s : State) (t mask : Nat) : State :=
  if s.tileReached t then s.tileChange t (.statClear (fld mask 0 8)) else s

/-- TILE_ARITH_STAT_CLEAR: the flags in `mask`, at a step boundary, or at once in TRAP and OFF (R63,
R107). -/
def execTileArithStatClear (t mask : Nat) (side : Side) (s : State) : Outcome State Fault Refusal :=
  .next (s.tileWrite t rTILE_ARITH_STAT mask side fun s => s.statClearCmd t mask)

/-- CYCLE_COUNT_LO_READ: the high half is copied into the holding register (R105). The copy is what the
next read of TILE_CYCLE_COUNT_HI returns. Where no function's BARs decode the read is an Unsupported Request (R448, R453). -/
def execCycleCountLoRead (t : Nat) (s : State) : Outcome State Fault Refusal :=
  .next (
    if !s.hostOpen then { s with out := s.out ++ [.read (tr t rTILE_CYCLE_COUNT_LO) [] .unsupported] }
    else if s.tileReached t then
      let s := s.mapTile t fun x => { x with cycHold := s.rd (tr t rTILE_CYCLE_COUNT_HI) }
      { s with out := s.out ++ [.read (tr t rTILE_CYCLE_COUNT_LO) (leBytes 4 (s.rn (tr t rTILE_CYCLE_COUNT_LO))) .data] }
    else { s with out := s.out ++ [.read (tr t rTILE_CYCLE_COUNT_LO) (leBytes 4 0) .data] })

/-! ### Monitors and clock -/

/-- Whether a BAR0 address is a tile's TILE_TEMP. -/
def isTempReg (a : Nat) : Bool :=
  match blkOf a with
  | some (.tile, _, o) => o == rTILE_TEMP
  | _ => false

/-- Keep a reading of TILE_TEMP for the thermal map: those of the last 100 ms (R189). -/
def State.noteTemp (s : State) (t : Nat) (v : Int) : State :=
  { s with cur := { s.cur with
    temps := (s.cur.temps.filter fun e => decide (s.timer < e.2.1 + 20000000)) ++ [(t, s.timer, v)] } }

/-- THERMAL_CONVERSION: the sensor reports `temp`, a 12-bit two's complement code of 0.25 °C units,
limited to its range of −40 °C to 150 °C (R90); any tile at 110 °C is the level of GALLERY_OVERTEMP (R432). -/
def execThermalConversion (t temp : Nat) (s : State) : Outcome State Fault Refusal :=
  .next (
    if isTile t then
      let v := max (-160) (min 600 (sext 12 temp))
      let s := (s.setf (tr t rTILE_TEMP) 0 12 (wrapInt 12 v)).noteTemp t v
      let c := s.light.cond
      let s := { s with light := { s.light with cond := { c with galMax := max c.galMax (v + 160).toNat } } }
      s.setLevel .pwr 0 5 (s.regs.any fun e => decide (440 ≤ e.2.toNat) && decide (e.2.toNat ≤ 600) && isTempReg e.1)
    else s)

/-- CYCLE_STRETCH: the monitor measures `slack`; below 4/256 the next cycle is lengthened and counted
(R91). MIN_SLACK holds the lowest seen. The monitor runs with the island clock. -/
def execCycleStretch (t slack : Nat) (s : State) : Outcome State Fault Refusal :=
  .next (
    if isTile t && s.ts t != tsOFF && !s.asleep && decide (slack < 256) then
      let a := tr t rTILE_CPM
      let s := (s.setf a 0 8 slack).setf a 8 8 (min slack (s.f a 8 8))
      if slack < 4 then
        let c := s.light.cond
        ({ s with light := { s.light with cond := { c with stretch := aput 0 c.stretch t (aget 0 c.stretch t + 1) } } }).bump (tr t rTILE_STRETCH_COUNT)
      else s
    else s)

/-- Whether the Climate governor holds a tile's clock down: for its temperature (R371) or for the power cap (R36, R501). -/
def State.governed (s : State) (t : Nat) : Bool :=
  aget 0 s.light.lowered t != 0 || aget 0 s.light.capped t != 0
    || decide ((s.f (winBase .pwr 0 + rPWR_GOV_TEMP_LIMIT) 0 12 : Int) < sext 12 (s.f (tr t rTILE_TEMP) 0 12))

/-- ISLAND_CLOCK_CHANGE: firmware sets FREQ 0 to 80 and VOLT 20 to 80, in effect at a step boundary, at
once where none comes, within the tile's ceiling of R379 and the governor's bound (R21, R29, R92, R93): a clock that the governor
holds down is not raised, and one set below it is what the governor no longer raises again (log entry 162). The tile's offset of
R379 joins the supply that firmware sets. -/
def execIslandClockChange (t freq volt : Nat) (s : State) : Outcome State Fault Refusal :=
  .next (
    let now := (s.clockNext t).1
    if s.tileReached t && decide (freq ≤ aget 80 s.light.ceiling t) && decide (20 ≤ volt) && decide (volt ≤ 80)
        && (!s.governed t || decide (freq ≤ now)) then
      (if s.governed t && decide (freq < now) then s.ungovern t else s).tileChange t
        (.clock freq (min 80 (volt + aget 0 s.light.volt t)))
    else s)

/-! ### A router fails (R15, R19) -/

/-- ROUTER_FAIL: the tile is cut off, an incident of the Gallery, and due for retirement (R15, R204); crates on their way through
it are lost, pass or turn (R78); with the Registrar bridge's router both of its ports are lost (R19, R520). -/
def execRouterFail (t : Nat) (s : State) : Outcome State Fault Refusal :=
  .next (
    if isTile t && !(s.tile t).routerFailed then
      let s := s.mapTile t fun x => { x with routerFailed := true }
      let s := s.event .gal 0 0 (rc t)
      let s := if t = bridgeTile then s.event .gal 0 2 else s
      (s.reroute t).tileDue t
    else s)

end Sys2Proof.Machine
end

