-- ==== Sys2Proof/Machine/Fabric.lean ====
section
/-! DEFINITION. Crates between modules (08_fabric.md R289 to R308, R520): leaving by a channel, arriving from
one, remote requests, the Collators, Office crates. -/

namespace Sys2Proof.Machine

open Sys2Proof Host

/-! ### Bridge ports (R520) -/

/-- The bridge port of Wing `w` a crate between it and tile `t` uses: the nearest column whose router is sound,
the lower on a tie. -/
def State.portFor (s : State) (w t : Nat) : Option Nat :=
  firstBest (fun p => 64 - ((p % 64 - t % 64) + (t % 64 - p % 64))) ((wingPorts w).filter fun p => !s.routerBad p)

/-- A crate from Wing `w` enters the corridors; a Wing without a port discards it by R291 (R19). -/
def State.intoMesh (s : State) (w : Nat) (c : Crate) : State :=
  match s.portFor w c.destTile with
  | none => s.noRoute c.destModule
  | some p => s.toCorridor p c

/-! ### Leaving (R290 to R293) -/

/-- Whether a crate came in on a channel, and so is in transit when it waits to leave. -/
def Crate.inTransit (c : Crate) : Bool := match c.via with | some a => decide (a < 36) | none => false

/-- A crate as it leaves on a channel: its class there, and DUP_ELIGIBLE, which a crate in transit keeps (R256, R292, R390). -/
def Crate.onChannel (c : Crate) (s : State) (j : Nat) : Crate :=
  { c with tc := s.classOn j c, via := none, dup := if c.inTransit then c.dup else c.op == 0x12 }

/-- Cut a crate's bytes into flits (R80, R255 to R257); CONGESTION is on all where the crate waited, and each flit of a crate in
transit keeps the flags it arrived with (R258, R292). -/
def Crate.cut (c : Crate) (head : List Byte) : List Flit :=
  let bytes := head ++ c.data
  let parts := chunksOf 256 (bytes.length + 1) bytes
  parts.zipIdx.map fun (b, i) =>
    let m := c.marks.getD i (false, c.dup, c.poison)
    ⟨c.tc, c.destModule, c.destTile, c.tag, c.congested || m.1, m.2.1, m.2.2, i + 1 == parts.length, padTo 256 b, none⟩

/-- The 32-byte header of a crate (R81). -/
def Crate.header (c : Crate) : List Byte :=
  leBytes 2 (c.srcModule % 2 ^ 15) ++ leBytes 2 (rc c.srcTile) ++ leBytes 1 c.op ++ leBytes 1 (c.target + 4 * c.ticket)
    ++ leBytes 2 c.length ++ leBytes 2 c.ticketAdd ++ leBytes 2 c.tensor ++ leBytes 4 c.epoch ++ leBytes 8 (c.offset % 2 ^ 40)
    ++ leBytes 2 c.request ++ leBytes 6 0

/-- Read a crate back from the payloads of its flits; a READ_REQ has no data (R81, R152). -/
def crateOf (j : Nat) (fs : List Flit) : Option Crate :=
  match fs with
  | [] => none
  | f :: _ =>
    let b := (fs.map (·.payload)).flatten
    let n := at_ b 6 2 % 4096
    some { srcModule := at_ b 0 2 % 2 ^ 15, srcTile := tileIx (at_ b 2 2 % 32) (at_ b 2 2 / 32 % 64), op := at_ b 4 1,
           target := at_ b 5 1 % 4, ticket := at_ b 5 1 / 4, length := n, ticketAdd := at_ b 8 2, tensor := at_ b 10 2 % 2 ^ 14,
           epoch := at_ b 12 4, offset := at_ b 16 8 % 2 ^ 40, request := at_ b 24 2 % 2 ^ 14, data := if at_ b 4 1 = 1 then [] else padTo n (b.drop 32),
           destModule := f.destModule, destTile := f.destTile, tc := f.cls, tag := f.tag,
           congested := fs.any (·.congested), dup := fs.all (·.dup), poison := fs.any (·.poison), via := some j,
           gen := f.gen, marks := fs.map fun f => (f.congested, f.dup, f.poison) }

/-- Crates that wait at the Wings: those bound to a channel, then the others. -/
def State.waitingCrates (s : State) : List (Option Nat × Crate) :=
  s.fab.pinned.map (fun e => (some e.1, e.2)) ++ s.fab.outbound.map fun c => (none, c)

/-- Remove the waiting crate at index `ix`. -/
def State.dropWaiting (s : State) (ix : Nat) : State :=
  let n := s.fab.pinned.length
  if ix < n then { s with fab := { s.fab with pinned := s.fab.pinned.eraseIdx ix } }
  else { s with fab := { s.fab with outbound := s.fab.outbound.eraseIdx (ix - n) } }

/-- Change the waiting crate at index `ix`. -/
def State.mapWaiting (s : State) (ix : Nat) (g : Crate → Crate) : State :=
  let n := s.fab.pinned.length
  if ix < n then { s with fab := { s.fab with pinned := s.fab.pinned.modify ix fun e => (e.1, g e.2) } }
  else { s with fab := { s.fab with outbound := s.fab.outbound.modify (ix - n) g } }

/-- Whether crate `ix` may leave now: no earlier one of its source module, destination and class waits in front
of it (R294), among them the READ_REQ of its tile that has its channel, and a crate in transit only while the fabric is not
halted (R428). -/
def State.mayLeave (s : State) (ix : Nat) (pin : Option Nat) (c : Crate) : Bool :=
  let front := (s.waitingCrates.take ix).any fun e =>
    (e.1 == pin || (pin.isNone && e.2.op == 1 && e.2.srcTile == c.srcTile)) && e.2.srcModule == c.srcModule
      && e.2.destModule == c.destModule && e.2.tc == c.tc
  !front && !(c.inTransit && s.halted .fab)

/-- Whether a crate from a tile of this module reaches Wing `w` over the corridors. -/
def State.reachesWing (s : State) (w : Nat) (c : Crate) : Bool :=
  c.via.isSome || (match s.portFor w c.srcTile with | some p => s.pathOk c.srcTile p | none => true)

/-- The class state has the credits a crate of `n` flits needs (R270). -/
def ClassState.covers (x : ClassState) (n : Nat) : Bool := decide (1 ≤ x.availH) && decide (n ≤ x.availD)

/-- The TAG of a crate on a channel of Wing `w` (R256): a COLLATE crate's reduction, a label unchanged in transit, or
the Wing's next label of the class. -/
def State.label (s : State) (w : Nat) (c : Crate) (via : Option Nat) : Nat × State :=
  if c.tc = 1 || { c with via := via }.inTransit then (c.tag, s)
  else
    let n := aget 0 s.fab.labels (4 * w + c.tc)
    (n, { s with fab := { s.fab with labels := aput 0 s.fab.labels (4 * w + c.tc) ((n + 1) % 4096) } })

/-- Count a crate that is forwarded in transit (R292). -/
def State.countTransit (s : State) (c : Crate) : State :=
  if c.inTransit then s.bump (winBase .fab 0 + rFAB_TRANSIT_COUNT) else s

/-- A READ_REQ of this module that leaves on channel `j`: its entry times the request from now on, on its first sending by that
channel (R301). -/
def State.requestLeaves (s : State) (j : Nat) (c : Crate) : State :=
  match aget none s.fab.requests c.request with
  | some e =>
    if c.op = 1 && !c.inTransit && e.tries == 1 then
      { s with fab := { s.fab with requests := aput none s.fab.requests c.request (some { e with chan := j }) } }
    else s
  | none => s

/-- CRATE_TRANSMIT_START: waiting crate `ix` has full credit cover on its channel (R270, R290) and its flits queue
there; without a channel it is discarded (R291); without cover it waits, and notes the channel and since when (R258). -/
def execCrateTransmitStart (ix : Nat) (s : State) : Outcome State Fault Refusal :=
  .next (match s.waitingCrates[ix]? with
    | none => s
    | some (pin, c) =>
      if !s.mayLeave ix pin c then s
      else
        let pick := match pin with
          | some j => if s.chanUsable j c true then some j else if c.op = 1 then s.pickChannel c else none
          | none => s.pickChannel c
        match pick with
        | none => (s.dropWaiting ix).noRoute c.destModule
        | some j =>
          let d := c.onChannel s j
          let n := d.flits
          if s.halted .wng (j / 9) || (s.halted .col (j / 9) && d.tc == 1) then s
          else if !s.reachesWing (j / 9) c then (s.dropWaiting ix).event .gal 0 1 (rc c.srcTile)
          else if !((s.chan j).cls d.tc).covers n then
            if (c.since.map (·.1)) = some j then s
            else (s.bump (cr j rWNG_CREDIT_STALL_COUNT)).mapWaiting ix fun e => { e with since := some (j, s.timer) }
          else
            let t := s.f (wg (j / 9) rWNG_CONGEST_TIME) 0 16
            let late := match c.since with | some (k, n) => k == j && decide (n + 2 * t ≤ s.timer) | none => false
            let d := { d with congested := late }
            let (tag, s') := ((s.countTransit c).requestLeaves j c).label (j / 9) d c.via
            let d := { d with tag := tag }
            let fs := d.cut d.header
            (s'.dropWaiting ix).mapChan j fun x =>
              ({ x with queue := x.queue ++ fs }).mapCls d.tc fun k =>
                { k with usedH := (k.usedH + 1) % 2 ^ 16, usedD := (k.usedD + n) % 2 ^ 16 })

/-! ### Arriving (R292, R293, R390) -/

/-- Whether a crate is addressed to this module. -/
def State.forMe (s : State) (c : Crate) : Bool := !s.unset && c.destModule == s.myId

/-- Whether a twin crate is rejected (R390): DUP_ELIGIBLE 0, a source outside its shard, or a source LOST. -/
def State.twinRejected (s : State) (c : Crate) : Bool :=
  let known := match s.roles with
    | none => false
    | some r => r.shards.any fun h => h.shard == c.request && (s.substMod h.keeper == c.srcModule || s.substMod h.mirror == c.srcModule)
  !c.dup || s.isLost c.srcModule || !known

/-- Take a crate in transit (R292). -/
def State.takeTransit (s : State) (j : Nat) (c : Crate) : State :=
  let ok := match s.routeAt c.gen (s.substMod c.destModule) with
    | some r => bit r.transitIn j
    | none => false
  if ok then { s with fab := { s.fab with outbound := s.fab.outbound ++ [c] } }
  else (s.bump (winBase .fab 0 + rFAB_TRANSIT_REJECT_COUNT)).event .fab 0 1 c.destModule

/-- A crate as the Wing of channel `j` takes it: an Office crate from a campus channel returns to TC3 (R293), and a
crate for a lost module is addressed to its reserve (R402). -/
def State.landed (s : State) (j : Nat) (c : Crate) : Crate :=
  let c := { c with destModule := s.substMod c.destModule }
  if c.tc = 2 && c.op = 0x10 && (s.chanMap j).level = 3 then { c with tc := 3 } else c

/-- A crate for the Registrar crosses the corridors from a port of Wing `w` to the Registrar bridge (R293); with no path it is
discarded (R78). -/
def State.toRegistrar (s : State) (w : Nat) (c : Crate) : State :=
  match s.portFor w bridgeTile with
  | none => s.noRoute c.destModule
  | some p =>
    if s.pathOk p bridgeTile then { s with fab := { s.fab with regIn := s.fab.regIn ++ [c] } }
    else s.event .gal 0 1 (rc bridgeTile)

/-- A whole crate has arrived on channel `j`, as `landed` gives it, and goes where it is addressed. -/
def State.arriveModule (s : State) (j : Nat) (c : Crate) : State :=
  let mine := s.forMe c
  let s := if mine && c.congested then s.bump (winBase .fab 0 + rFAB_CONGEST_IN_COUNT) else s
  if c.op = 4 then { s with fab := { s.fab with collIn := s.fab.collIn ++ [c] } }
  else if !mine then s.takeTransit j c
  else if c.op = 0x12 && s.twinRejected c then s.bump (pr rPAIR_TWIN_REJECT_COUNT)
  else if !s.wingBridged (j / 9) then s.noRoute c.destModule
  else if c.tc = 3 || c.op = 0x10 || c.op = 0x11 then s.toRegistrar (j / 9) c
  else if c.op = 2 then { s with fab := { s.fab with respIn := s.fab.respIn ++ [c] } }
  else s.intoMesh (j / 9) c

/-- The Office messages this manual defines (R397, R521). -/
def officeTypes : List Nat := [0x30, 0x31, 0x32, 0x40, 0x41, 0x42, 0x43, 0x44, 0x45, 0x46]

/-- OFFICE_CRATE: crate `ix` at the Registrar bridge goes to the Office when its TYPE is defined; another TC3
crate, or a TYPE not defined, is discarded (R293, R521). -/
def execOfficeCrate (ix : Nat) (s : State) : Outcome State Fault Refusal :=
  .next (match s.fab.regIn[ix]? with
    | none => s
    | some c =>
      if c.op = 0x11 then s
      else
        let s := { s with fab := { s.fab with regIn := s.fab.regIn.eraseIdx ix } }
        if c.op = 0x10 && officeTypes.contains (at_ c.data 0 1) then { s with fab := { s.fab with inbox := s.fab.inbox ++ [c] } }
        else s)

/-! ### Remote requests (R299 to R301) -/

/-- The request ID of entry `k` of Wing `w`. -/
def reqId (w k : Nat) : Nat := w * 4096 + k

/-- A request entry. -/
def State.reqEntry (s : State) (id : Nat) : Option ReqEntry := aget none s.fab.requests id

/-- Set a request entry. -/
def State.setReq (s : State) (id : Nat) (e : Option ReqEntry) : State :=
  { s with fab := { s.fab with requests := aput none s.fab.requests id e } }

/-- The next free entry of a Wing's bank, round robin (R299). -/
def State.freeEntry (s : State) (w : Nat) : Option Nat :=
  let r := aget 0 s.fab.robin w
  ((List.range 4096).map fun i => (r + i) % 4096).find? fun k => (s.reqEntry (reqId w k)).isNone

/-- Whether READ_REQ `c` waits behind an earlier request, or another earlier crate of its class, from its tile to the
same module (R79, R294). -/
def State.behindReq (s : State) (ix : Nat) (c : Crate) : Bool :=
  (s.fab.reqWait.take ix ++ s.fab.outbound.filter fun d => d.via.isNone && d.tc == c.tc).any fun d =>
    d.srcTile == c.srcTile && d.destModule == c.destModule

/-- REQUEST_ENTRY_ALLOC: waiting READ_REQ `ix` takes an entry in the bank of the Wing it leaves by (R299); it waits
while the bank is full, and is discarded where it has no channel (R291). -/
def execRequestEntryAlloc (ix : Nat) (s : State) : Outcome State Fault Refusal :=
  .next (match s.fab.reqWait[ix]? with
    | none => s
    | some c =>
      if s.behindReq ix c then s
      else
        let t := { s with fab := { s.fab with reqWait := s.fab.reqWait.eraseIdx ix } }
        match s.pickChannel c with
        | none => t.noRoute c.destModule
        | some j =>
          let w := j / 9
          match s.freeEntry w with
          | none => s
          | some k =>
            let id := reqId w k
            let d := { c with request := id }
            let t := t.setReq id (some ⟨c.srcTile, c.request, d, j, 1, false⟩)
            { t with fab := { t.fab with robin := aput 0 t.fab.robin w ((k + 1) % 4096), pinned := t.fab.pinned ++ [(j, d)] } })

/-- RESPONSE_MATCH: READ_RESP `ix` is matched by the Wing that its REQUEST names, or discarded as late (R300); one that
cannot cross into that Wing is discarded by R19. -/
def execResponseMatch (ix : Nat) (s : State) : Outcome State Fault Refusal :=
  .next (match s.fab.respIn[ix]? with
    | none => s
    | some c =>
      let s := { s with fab := { s.fab with respIn := s.fab.respIn.eraseIdx ix } }
      match s.reqEntry c.request with
      | none => s.bump (winBase .fab 0 + rFAB_LATE_COUNT)
      | some e =>
        if e.quarantined then s.bump (winBase .fab 0 + rFAB_LATE_COUNT)
        else if !s.wingBridged (c.request / 4096) then s.noRoute c.destModule
        else
          let s := s.setReq c.request (if e.tries < 3 then none else some { e with quarantined := true })
          s.intoMesh (c.request / 4096) { c with destTile := e.tile, request := e.tileId, via := some (c.request / 4096 * 9) })

/-- REQUEST_TIMEOUT of entry `id` (R301): the first is left to firmware to retry; the second completes the request
as unreachable and its tile traps. The entry's timer starts once the READ_REQ has left the Wing. -/
def execRequestTimeout (id : Nat) (s : State) : Outcome State Fault Refusal :=
  .next (match s.reqEntry id with
    | none => s
    | some e =>
      if e.quarantined || e.tries = 2 || s.fab.pinned.any (fun p => p.2.op == 1 && p.2.request == id) then s
      else
        let s := s.event .fab 0 2 e.crate.destModule
        if e.tries = 1 then s.setReq id (some { e with tries := 2 })
        else
          let v := id + e.crate.destModule * 2 ^ 16
          let s := (s.setReq id (some { e with quarantined := true })).bump (winBase .fab 0 + rFAB_REQ_UNREACHABLE_COUNT)
          let s := s.event .fab 0 3 v
          match (s.tile e.tile).reads.find? (fun r => r.id == e.tileId) with
          | none => s
          | some r =>
            (s.mapTile e.tile fun x => { x with reads := x.reads.filter fun q => q.id != r.id }).addCause e.tile
              (causeOf cUNREACH r.issued.word v))

/-- The channel of a retry (R301): over ALT_SEAT when given and usable, else another channel of MASK, else the route as
before. -/
def State.retryChannel (s : State) (e : ReqEntry) : Option Nat :=
  match s.route e.crate.destModule with
  | none => none
  | some r =>
    let ok := fun j => s.chanUsable j e.crate true
    let alt := (List.range 36).find? fun j =>
      ok j && (s.chanMap j).level == 1 && (s.chanMap j).neighbour == s.myId / 16 * 16 + r.altSeat
    match (if r.altValid then alt else none) with
    | some j => some j
    | none => match s.byPolicy r e.crate ((List.range 36).filter fun j => bit r.mask j && j != e.chan && ok j) with
      | some j => some j
      | none => s.pickChannel e.crate

/-- REQUEST_RETRY: firmware sends a timed-out READ_REQ again with its ID (R301). -/
def execRequestRetry (id : Nat) (s : State) : Outcome State Fault Refusal :=
  .next (match s.reqEntry id with
    | none => s
    | some e =>
      if e.quarantined || e.tries ≠ 2 then s
      else
        let s := (s.setReq id (some { e with tries := 3 })).bump (winBase .fab 0 + rFAB_REQ_RETRY_COUNT)
        match s.retryChannel e with
        | none => s.noRoute e.crate.destModule
        | some j => { s with fab := { s.fab with pinned := s.fab.pinned ++ [(j, e.crate)] } })

/-- QUARANTINE_EXPIRY: FAB_REQUEST_TIME has passed for a quarantined entry, which is free again (R300). -/
def execQuarantineExpiry (id : Nat) (s : State) : Outcome State Fault Refusal :=
  .next (match s.reqEntry id with
    | some e => if e.quarantined then s.setReq id none else s
    | none => s)

/-! ### Collators (R303 to R308) -/

/-- The format code of R37 of a reduction's input or output format. -/
def redInFmt (f : Nat) : Nat := match f with | 0 => 0 | 1 => 1 | 2 => 5 | _ => 6

/-- Elements of a COLLATE crate of `n` bytes in input format `f` (R304). -/
def collElems (f n : Nat) : Nat := if f = 0 then n / 4 else if f = 1 then n / 2 else n / 33 * 32

/-- Decode a COLLATE crate's data to FP32 (R306): plain elements, or scales and then blocks. -/
def collDecode (f : Nat) (bs : List Byte) : List Nat :=
  if f = 0 then (List.range (bs.length / 4)).map fun i => at_ bs (4 * i) 4
  else if f = 1 then (List.range (bs.length / 2)).map fun i => widen (fmtBF16.decode (at_ bs (2 * i) 2))
  else
    let n := bs.length / 33
    (List.range (32 * n)).map fun i => widen (mxDecode (elemFmt (redInFmt f)) (at_ bs (i / 32) 1) (at_ bs (n + i) 1))

/-- Add inputs into slots, element by element (R306). -/
def addInputs (acc : List AccEl) (xs : List Nat) : List AccEl := (acc.zip xs).map fun (a, x) => (accAdd true x a).1

/-- An output of a chunk: its bytes, the values that saturated and the NaNs produced (R306). -/
structure ChunkOut where
  bytes : List Byte
  sat : Nat
  nan : Nat
  deriving DecidableEq, Repr

/-- Whether a decoded value is NaN. -/
def FpVal.isNan : FpVal → Bool
  | .nan => true
  | _ => false

/-- Fold a chunk and convert it to OUT_FORMAT 0, 1 or 2 (R60, R306): RNE with saturation; whole blocks of MXFP8, a last one
padded with zeros (R44, R304). -/
def chunkOut (inF outF : Nat) (acc : List AccEl) : ChunkOut :=
  let xs := acc.map fun a => (accRead true a).1
  if outF = 1 then
    let cs := xs.map fun x => fmtBF16.narrow .rne true 0 (ofF32 x)
    ⟨(cs.map fun c => leBytes 2 c.code).flatten, satCount cs, (cs.filter fun c => (fmtBF16.decode c.code).isNan).length⟩
  else if outF = 2 then
    let f := redInFmt inF
    let xs := xs ++ List.replicate ((32 - xs.length % 32) % 32) 0
    let bl := (rowsOf' 32 xs).map fun vs => mxEncode f .rne (fun _ => 0) 0 (vs.map ofF32)
    let nan := (bl.map fun b => (b.elems.filter fun c => (mxDecode (elemFmt f) b.scale c.code).isNan).length).foldl (· + ·) 0
    ⟨bl.map (fun b => BitVec.ofNat 8 b.scale) ++ (bl.map fun b => b.elems.map fun c => BitVec.ofNat 8 c.code).flatten,
      (bl.map fun b => satCount b.elems).foldl (· + ·) 0, nan⟩
  else ⟨(xs.map (leBytes 4)).flatten, 0, (xs.filter fun x => (ofF32 x).isNan).length⟩

/-- A Collator register. -/
def cl (w off : Nat) : Nat := winBase .col w + off

/-- A crate or chunk of reduction `r` discarded by Collator `w`: counted and an event of COLLATE_MISMATCH. -/
def State.collMismatch (s : State) (w r : Nat) : State := (s.bump (cl w rCOL_MISMATCH_COUNT)).event .col w 1 r

/-- The Wing that serves a reduction (R303). -/
def State.serving (s : State) (r : Nat) : Option Nat := (List.range 4).find? fun w => s.f (redCfg w r) 9 1 == 1

/-- Slots of a reduction that chunks hold at a Wing. -/
def State.slotsHeld (s : State) (w r : Nat) : Nat :=
  (s.fab.chunks.filter fun k => k.wing == w && k.red == r).foldl (fun n k => n + k.slots) 0

/-- Deliver a complete chunk on this module as WRITE crates (R307). -/
def State.deliverChunk (s : State) (w : Nat) (h : Crate) (bytes : List Byte) : State :=
  let parts := chunksOf 4064 (bytes.length + 1) bytes
  if s.portFor w h.destTile = none then s.noRoute h.destModule
  else parts.zipIdx.foldl (fun (u : State) (p : List Byte × Nat) =>
    u.intoMesh w { h with
      op := 0, request := 0, tag := 0, length := p.1.length, data := p.1, offset := (h.offset + 4064 * p.2) % 2 ^ 40,
      ticketAdd := if p.2 + 1 = parts.length then h.ticketAdd else 0, congested := false, marks := [], dup := false, via := some (36 + w) }) s

/-- A chunk is complete: folded, converted and sent on (R306, R307). The reserved OUT_FORMAT, and the element type of an
MXFP8 output of an input that has none, are free. -/
def State.endChunk (s : State) (k : Chunk) : State :=
  let cfg := s.rn (redCfg k.wing k.red)
  let mine := s.forMe k.head
  let (outF, s) := if fld cfg 7 2 = 3 then s.draw 3 else (fld cfg 7 2, s)
  let outF := if mine && outF == 2 then 0 else outF
  let (inF, s) := if outF = 2 ∧ fld cfg 5 2 < 2 then ((s.draw 2).1 + 2, (s.draw 2).2) else (fld cfg 5 2, s)
  let o := chunkOut inF outF k.acc
  let s := ((s.bump (cl k.wing rCOL_CHUNK_COUNT)).bumpN (cl k.wing rCOL_SAT_COUNT) o.sat).bumpN (cl k.wing rCOL_NAN_COUNT) o.nan
  if mine then s.deliverChunk k.wing k.head o.bytes
  else if 4064 < o.bytes.length then s.collMismatch k.wing k.red
  else
    let c := { k.head with length := o.bytes.length, data := o.bytes, congested := false, marks := [], mx := outF == 2, via := some (36 + k.wing) }
    { s with fab := { s.fab with outbound := s.fab.outbound ++ [c] } }

/-- Whether two COLLATE crates belong to one chunk (R305). -/
def sameChunk (w r : Nat) (c : Crate) (k : Chunk) : Bool :=
  k.wing == w && k.red == r && k.head.destModule == c.destModule && k.head.destTile == c.destTile
    && k.head.target == c.target && k.head.offset == c.offset

/-- Add crate `c` to its chunk at the serving Wing (R305, R306, R308); one of another length is discarded, and its chunk never
completes; a crate without free slots waits. -/
def State.collate (s : State) (w : Nat) (ix : Nat) (c : Crate) : State :=
  let r := c.request % 4096
  let cfg := s.rn (redCfg w r)
  let t := { s with fab := { s.fab with collIn := s.fab.collIn.eraseIdx ix } }
  let xs := collDecode (fld cfg 5 2) c.data
  match s.fab.chunks.find? (sameChunk w r c) with
  | some k =>
    if k.head.length ≠ c.length then
      { t with fab := { t.fab with chunks := t.fab.chunks.map fun (q : Chunk) => if q == k then { k with broken := true } else q } }.collMismatch w r
    else
      let k' := { k with inputs := k.inputs + 1, acc := addInputs k.acc xs, head := { k.head with poison := k.head.poison || c.poison } }
      let rest := t.fab.chunks.erase k
      if fld cfg 0 5 ≤ k'.inputs && !k.broken then ({ t with fab := { t.fab with chunks := rest } }).endChunk k'
      else { t with fab := { t.fab with chunks := t.fab.chunks.map fun (q : Chunk) => if q == k then k' else q } }
  | none =>
    let n := (collElems (fld cfg 5 2) c.length + 1015) / 1016
    if fld cfg 16 12 < s.slotsHeld w r + n then s
    else
      let k : Chunk := ⟨w, r, c, 1, addInputs (List.replicate xs.length ⟨0, 0⟩) xs, n, false, false⟩
      if fld cfg 0 5 ≤ 1 then t.endChunk k else { t with fab := { t.fab with chunks := t.fab.chunks ++ [k] } }

/-- Whether COLLATE crate `c` waits behind an earlier one of its channel, or of its tile (R308). -/
def State.behindColl (s : State) (ix : Nat) (c : Crate) : Bool :=
  (s.fab.collIn.take ix).any fun d => d.via == c.via && (c.via.isSome || d.srcTile == c.srcTile)

/-- Whether a COLLATE crate crosses to Wing `w`: both the Wing it came in on and `w` hold a bridge port, unless they are one
(R19). -/
def State.bridgesTo (s : State) (w : Nat) (c : Crate) : Bool :=
  match c.via with
  | some a => viaWing a == w || (s.wingBridged (viaWing a) && s.wingBridged w)
  | none => s.wingBridged w

/-- COLLATE_CRATE: COLLATE crate `ix` reaches the Wing that serves its reduction; with none it goes on unreduced,
or is discarded when addressed to this module (R303). -/
def execCollateCrate (ix : Nat) (s : State) : Outcome State Fault Refusal :=
  .next (match s.fab.collIn[ix]? with
    | none => s
    | some c =>
      if s.behindColl ix c then s
      else
        let t := { s with fab := { s.fab with collIn := s.fab.collIn.eraseIdx ix } }
        match s.serving (c.request % 4096) with
        | some w =>
          if s.halted .col w then s
          else if !s.bridgesTo w c then t.noRoute c.destModule
          else if !s.reachesWing w c then t.event .gal 0 1 (rc c.srcTile)
          else s.collate w ix c
        | none =>
          if s.forMe c then
            match c.via with
            | some j => t.collMismatch (viaWing j) (c.request % 4096)
            | none => (t.draw 4).2.collMismatch (t.draw 4).1 (c.request % 4096)
          else match c.via with
            | some j => t.takeTransit j c
            | none => { t with fab := { t.fab with outbound := t.fab.outbound ++ [c] } })

/-- COLLATE_STALL: chunk `ix` has held its slots for COL_STALL_TIME; reported once (R308). -/
def execCollateStall (ix : Nat) (s : State) : Outcome State Fault Refusal :=
  .next (match s.fab.chunks[ix]? with
    | none => s
    | some k =>
      if k.stalled then s
      else
        let s := { s with fab := { s.fab with chunks := s.fab.chunks.set ix { k with stalled := true } } }
        (s.bump (cl k.wing rCOL_STALL_COUNT)).event .col k.wing 0 k.red)

/-- COL_RED_CFG_WRITE: a write of reduction entry `r` of Collator `col`, within the totals of R305. -/
def execColRedCfgWrite (col r value : Nat) (side : Side) (s : State) : Outcome State Fault Refusal :=
  .next (if col < 4 ∧ r < 4096 then s.regStore (redCfg col r) value 0xFFFFFFFF side else s)

end Sys2Proof.Machine
end

