-- ==== Sys2Proof/Machine/Link.lean ====
section
/-! DEFINITION. The Pontonak link layer (07_pontonak_link.md): the flit codec (R252 to R254), links and their
slots, suspension and link down (R276 to R278), channel reset (R279), the start of an INIT exchange (R272). -/

namespace Sys2Proof.Machine

open Sys2Proof Host

/-! ### RS(140,134) (R253) -/

/-- The syndrome of symbols at root `x`: symbol i has the locator α^i. -/
def syndrome (x : Nat) (cs : List Nat) : Nat := cs.foldr (fun c a => c ^^^ gfMul a x) 0

/-- The six syndromes of an interleave. -/
def syndromes (cs : List Nat) : List Nat := (List.range 6).map fun j => syndrome (gfPow j) cs

/-- Determinant of three rows over GF(2⁸). -/
def gfDet3 (a b c d e f g h i : Nat) : Nat :=
  gfMul a (gfMul e i ^^^ gfMul f h) ^^^ gfMul b (gfMul d i ^^^ gfMul f g) ^^^ gfMul c (gfMul d h ^^^ gfMul e g)

/-- Coefficients of the recurrence S(i+ν) = σ1 S(i+ν−1) + … + σν S(i) for ν errors. -/
def recurrence (s : Nat → Nat) : Nat → List Nat
  | 1 => [gfMul (s 1) (gfInv (s 0))]
  | 2 =>
    let d := gfInv (gfMul (s 1) (s 1) ^^^ gfMul (s 0) (s 2))
    [gfMul d (gfMul (s 2) (s 1) ^^^ gfMul (s 0) (s 3)), gfMul d (gfMul (s 1) (s 3) ^^^ gfMul (s 2) (s 2))]
  | _ =>
    let d := gfInv (gfDet3 (s 2) (s 1) (s 0) (s 3) (s 2) (s 1) (s 4) (s 3) (s 2))
    [gfMul d (gfDet3 (s 3) (s 1) (s 0) (s 4) (s 2) (s 1) (s 5) (s 3) (s 2)),
     gfMul d (gfDet3 (s 2) (s 3) (s 0) (s 3) (s 4) (s 1) (s 4) (s 5) (s 2)),
     gfMul d (gfDet3 (s 2) (s 1) (s 3) (s 3) (s 2) (s 4) (s 4) (s 3) (s 5))]

/-- Right side of the recurrence at index `i` for a sequence. -/
def recurAt (s : Nat → Nat) (σ : List Nat) (i : Nat) : Nat :=
  (σ.zipIdx.map fun (c, k) => gfMul c (s (i + σ.length - 1 - k))).foldl (· ^^^ ·) 0

/-- Locators and positions of an interleave's 140 symbols. -/
def locators : List (Nat × Nat) := go 140 0 1
where
  go : Nat → Nat → Nat → List (Nat × Nat)
    | 0, _, _ => []
    | n + 1, p, x => (p, x) :: go n (p + 1) (gfX x)

/-- Whether locator `x` is a root of the recurrence's polynomial. -/
def isRoot (σ : List Nat) (x : Nat) : Bool :=
  σ.foldl (fun a c => gfMul a x ^^^ c) 1 == 0

/-- The error at locator `x` among the other locators `ys`, from the syndromes. -/
def errorAt (s : Nat → Nat) (x : Nat) (ys : List Nat) : Nat :=
  let p := ys.foldl polyMulRoot [1]
  let num := (p.zipIdx.map fun (c, k) => gfMul c (s k)).foldl (· ^^^ ·) 0
  gfMul num (gfInv ((ys.map (· ^^^ x)).foldl gfMul 1))

/-- Correct `ν` errors of an interleave, if that explains its syndromes. -/
def rsTry (cs : List Nat) (ν : Nat) : Option (List Nat × Nat) :=
  let ss := syndromes cs
  let s := fun i => ss.getD i 0
  let σ := recurrence s ν
  let roots := locators.filter fun e => isRoot σ e.2
  if (List.range (6 - ν)).all (fun i => recurAt s σ i == s (i + ν)) && roots.length == ν then
    some (roots.foldl (fun w e => w.set e.1 (w.getD e.1 0 ^^^ errorAt s e.2 ((roots.filter fun f => f.1 != e.1).map (·.2)))) cs, ν)
  else none

/-- Decode an interleave: at most 3 symbols corrected (R253). -/
def flitDecode (cs : List Nat) : Option (List Nat × Nat) :=
  if (syndromes cs).all (· == 0) then some (cs, 0)
  else match rsTry cs 1 with
    | some r => some r
    | none => match rsTry cs 2 with
      | some r => some r
      | none => rsTry cs 3

/-- Every second byte, from byte `k`. -/
def interleave (k : Nat) (bs : List Nat) : List Nat := (bs.zipIdx.filter fun e => e.2 % 2 == k).map (·.1)

/-- Bytes from two interleaves. -/
def weave : List Nat → List Nat → List Nat
  | a :: as, b :: bs => a :: b :: weave as bs
  | _, _ => []

/-- The generator for symbols with locator α^i in ascending order, x⁵ to x⁰: roots α^0 to α^−5. -/
def rsGen : List Nat := (((List.range 6).foldl (fun p j => polyMulRoot p (gfInv (gfPow j))) [1]).reverse).drop 1

/-- The six parity symbols of 134 data symbols (R253). -/
def rsParity (ds : List Nat) : List Nat :=
  ds.foldl (fun r c =>
    let f := c ^^^ r.headD 0
    ((r.drop 1 ++ [0]).zip rsGen).map fun (a, g) => a ^^^ gfMul f g) [0, 0, 0, 0, 0, 0]

/-- A flit from its header and payload: CRC and parity added (R252). -/
def sealFlit (h : Nat) (payload : List Byte) : List Nat :=
  let b := ((leBytes 8 h ++ padTo 256 payload)).map (·.toNat)
  let b := b ++ (leBytes 4 (crc32c b)).map (·.toNat)
  b ++ weave (rsParity (interleave 0 b)) (rsParity (interleave 1 b))

/-- What the checks of R254 make of 280 bytes. -/
inductive FlitCheck where
  | uncorr
  | crcFail (fixed : Nat)
  | good (fixed header : Nat) (payload : List Byte)
  deriving DecidableEq, Repr

/-- RS decoding, then the CRC (R254). -/
def checkFlit (raw : List Nat) : FlitCheck :=
  match flitDecode (interleave 0 raw), flitDecode (interleave 1 raw) with
  | some (a, m), some (b, n) =>
    let w := weave a b
    let body := w.take 264
    if crc32c body = at_ ((w.drop 264).map (BitVec.ofNat 8)) 0 4 then
      .good (m + n) (at_ (body.map (BitVec.ofNat 8)) 0 8) ((body.drop 8).map (BitVec.ofNat 8))
    else .crcFail (m + n)
  | _, _ => .uncorr

/-! ### Links -/

/-- A link of a channel. -/
def Chan.link (x : Chan) (l : Nat) : LinkState := if l = 0 then x.link0 else x.link1

/-- Change a link. -/
def Chan.mapLink (x : Chan) (l : Nat) (g : LinkState → LinkState) : Chan :=
  if l = 0 then { x with link0 := g x.link0 } else { x with link1 := g x.link1 }

/-- LINKl_STATE: 0 DOWN, 1 SUSPENDED, 2 UP, 3 WIDTH_CHANGE. -/
def State.linkState (s : State) (j l : Nat) : Nat := s.f (cr j rWNG_CHAN_STAT) (4 + 2 * l) 2

/-- Set LINKl_STATE. -/
def State.setLink (s : State) (j l v : Nat) : State := s.setf (cr j rWNG_CHAN_STAT) (4 + 2 * l) 2 v

/-- Set LINKl_WIDTH. -/
def State.setWidth (s : State) (j l v : Nat) : State := s.setf (cr j rWNG_CHAN_STAT) (8 + 2 * l) 2 v

/-- Lanes of a width code, and the code. -/
def widthOf (c : Nat) : Nat := match c with | 0 => 16 | 1 => 12 | 2 => 8 | _ => 0
def widthCode (w : Nat) : Nat := if w = 16 then 0 else if w = 12 then 1 else if w = 8 then 2 else 3

/-- The largest width that `n` lanes can carry on a channel (R275). -/
def State.widthFor (s : State) (j n : Nat) : Nat :=
  if 16 ≤ n then 16 else if 12 ≤ n && s.feature j 1 then 12 else if 8 ≤ n then 8 else 0

/-- Register `off` of link `l` of channel `j`, by pair (R352). -/
def lk (j l off : Nat) : Nat := wg (j / 9) (off + 4 * (2 * (j % 9) + l))

/-- BRINGUP of a link: 0 DARK, 1 TRAINING, 2 MARGIN, 3 ASSIGN, 4 DONE, 5 FAILED. -/
def State.bringup (s : State) (j l : Nat) : Nat := s.f (lk j l rWNG_LINK_STAT) 0 3

/-- The partner's number for a link (R338). -/
def State.peerLink (s : State) (j l : Nat) : Nat := s.f (lk j l rWNG_LINK_STAT) 3 1

/-- DETAIL of a Wing's sources (R434): slot, pair and local channel. -/
def wngDetail (j l slot : Nat) : Nat := slot + (2 * (j % 9) + l) * 2 ^ 16 + j % 9 * 2 ^ 24

/-- An event of a Wing's source about a link. -/
def State.linkEvent (s : State) (j l k : Nat) : State := s.event .wng (j / 9) k (wngDetail j l 0)

/-- STATE of a channel from its links (R272, R280, R281): UP, DEGRADED, or FAULT_PEER where every up link receives
FAULT; with none up, INIT while a link is on its way back, DOWN where every link is down. -/
def State.refreshChan (s : State) (j : Nat) : State :=
  let ups := [0, 1].filter fun l => s.linkState j l == 2
  let v :=
    if ups ≠ [] then
      if ups.all (fun l => ((s.chan j).link l).fault) then 5 else if ups.length = 2 then 3 else 4
    else if [0, 1].any (fun l => ((s.chan j).link l).init || s.linkState j l == 1 || s.linkState j l == 3) then 2
    else if [0, 1].any (fun l => 1 ≤ s.bringup j l && s.bringup j l ≤ 4) then 1 else 0
  s.setf (cr j rWNG_CHAN_STAT) 0 3 v

/-- Every unacknowledged flit last sent on a link is to be retransmitted (R268, R269, R276). -/
def Chan.resend (x : Chan) (l : Nat) : Chan :=
  let due := (x.replay.filter fun e => e.2.1 == l).map fun e => (e.2.2.cls, e.1)
  { x with retx := x.retx ++ due.filter fun e => !x.retx.contains e }

/-- Suspend a link that is up, changes its width or exchanges INIT (R276). -/
def State.suspend (s : State) (j l : Nat) : State :=
  if s.linkState j l ≠ 2 && s.linkState j l ≠ 3 && !((s.chan j).link l).init then s
  else
    let s := (s.setLink j l 1).mapChan j fun x =>
      { (x.resend l).mapLink l fun k => { k with init := false, gotInit := false, sentAcked := false, gotAcked := false, rxLsn := none, log := [], fault := false, widthDue := false, fell := true } with
        controlDue := true, naks := x.naks.filter fun n => n.1 != l }
    (((s.bump (cr j rWNG_FAILOVER_COUNT)).linkEvent j l 0)).refreshChan j

/-! ### Channel reset and link down (R278, R279) -/

/-- The lanes of a link. -/
def State.lane (s : State) (j l : Nat) : LaneLink := aget LaneLink.reset s.light.links (2 * j + l)

/-- Change the lanes of a link. -/
def State.mapLane (s : State) (j l : Nat) (g : LaneLink → LaneLink) : State :=
  { s with light := { s.light with links := aput LaneLink.reset s.light.links (2 * j + l) (g (s.lane j l)) } }

/-- The calibration that runs in a channel goes back to its queue. -/
def State.requeueCal (s : State) (j : Nat) : State :=
  match aget none s.light.calNow j with
  | none => s
  | some c => { s with light := { s.light with calNow := aput none s.light.calNow j none, cal := c :: s.light.cal } }

/-- The receive fibre a link uses: its pair's, or the sibling pair's (R338). -/
def State.rxFibre (s : State) (j l : Nat) : Nat := if s.f (lk j l rWNG_LINK_STAT) 4 1 = 1 then 1 - l else l

/-- Abandon the calibration that runs in a channel (R365): its trigger stays queued. -/
def State.abandonCal (s : State) (j : Nat) : State :=
  if (aget none s.light.calNow j).isNone then s else (s.requeueCal j).bump (wg (j / 9) rWNG_CAL_ABANDON_COUNT)

/-- Abandon the calibration that runs on receive fibre `k` of a channel (R365, R374). -/
def State.abandonOn (s : State) (j k : Nat) : State :=
  match aget none s.light.calNow j with
  | some c => if c.slot % 36 / 18 = k then s.abandonCal j else s
  | none => s

/-- Clear the CHN class of a channel's registers (R283, R352, R381). -/
def State.clearChan (s : State) (j : Nat) : State :=
  let w := j / 9
  let c := j % 9
  let cut := fun (u : State) (off n : Nat) => u.clearRange .chn (wg w off) (wg w (off + 4 * n))
  let s := cut s (rWNG_CHAN_STAT + 0x40 * c) 16
  let s := cut s (rWNG_LINK_STAT + 8 * c) 2
  let s := cut s (rWNG_RX_SLOT_STAT + 144 * c) 36
  let s := cut s (rWNG_RX_SLOT_QUAL + 144 * c) 36
  let s := cut s (rWNG_TX_SLOT_STAT + 144 * c) 36
  let s := cut s (rWNG_STEER_MAP + 128 * c) 32
  (List.range 36).foldl (fun u i =>
    let a := wg w (rWNG_CAL_RX + 4 * (36 * c + i))
    if u.f a 22 2 = 0 then u else u.setf a 22 2 0) s

/-- Reset a channel (R279): buffers discarded and counted, every sequence, credit and CHN field at its reset value;
its links go back to training. -/
def State.resetChan (s : State) (j : Nat) : State :=
  let x := s.chan j
  let n := x.replay.length + x.queue.length + x.held.length + x.ready.length
  let s := (s.abandonCal j).clearChan j
  let s := s.mapChan j fun _ => { Chan.reset with isolated := x.isolated }
  let keep := fun (u : State) (l : Nat) => u.mapLane j l fun k => { LaneLink.reset with interval := k.interval }
  let s := keep (keep s 0) 1
  let base := 324 * (j / 9) + 36 * (j % 9)
  let clearing := s.light.clearing.filter fun k => k < base || base + 36 ≤ k
  let s := { s with light := { s.light with bad := acut s.light.bad base (base + 36), clearing := clearing } }
  let s := if x.isolated then s else s.setf (cr j rWNG_CHAN_STAT) 0 3 1
  s.bumpN (cr j rWNG_DROP_COUNT) n

/-- The Wing raises CHANNEL_DOWN for a channel with both links down, and resets it (R278). -/
def State.chanDown (s : State) (j l : Nat) : State := (s.linkEvent j l 2).resetChan j

/-- A link goes down (R278, R342), which a CONTROL flit is to tell (R266); with its sibling down as well the channel is down. -/
def State.linkDown (s : State) (j l : Nat) : State :=
  if s.linkState j l = 0 then s
  else
    let s := ((s.abandonOn j (s.rxFibre j l)).setLink j l 0).setWidth j l 3
    let s := s.mapChan j fun x =>
      { (x.resend l).mapLink l fun k => { LinkState.reset with stamp := k.stamp, width := k.width, fell := true } with controlDue := true }
    let s := (s.setf (lk j l rWNG_LINK_STAT) 0 3 5).mapLane j l fun k => { LaneLink.reset with interval := k.interval }
    let s := (s.linkEvent j l 1).linkEvent j l 12
    if s.linkState j (1 - l) = 0 then s.chanDown j l else s.refreshChan j

end Sys2Proof.Machine
end

