-- ==== Sys2Proof/Machine/Measure.lean ====
section
/-! DEFINITION. The measurement registers and their log (13_host_and_security.md R472). -/

namespace Sys2Proof.Machine

open Sys2Proof

/-- Measurement register `ix`, 1 to 7. -/
def SecState.measReg (x : SecState) (ix : Nat) : List Byte := aget measZero x.meas ix

/-- The extensions of a register since the Registrar started. -/
def SecState.measCount (x : SecState) (ix : Nat) : Nat :=
  (((x.measLog.filter fun e => e.index == ix).getLast?).map (·.count)).getD 0

/-- Apply measurement `d` to register `ix` with a generation: M ← SHA-384(M ∥ D); the log keeps the latest
4,096 entries of index 7 and all others. -/
def State.extendMeas (s : State) (ix gen : Nat) (d : List Byte) : State :=
  let e : MeasEntry := ⟨ix, min 0xFFFFFFFF (s.sec.measCount ix + 1), gen, d⟩
  let log := s.sec.measLog ++ [e]
  let full := decide (4096 < (log.filter fun (x : MeasEntry) => x.index == 7).length)
  let log := if full then log.eraseP fun (x : MeasEntry) => x.index == 7 else log
  { s with sec := { s.sec with meas := aput measZero s.sec.meas ix (sha384 (s.sec.measReg ix ++ d)), measLog := log } }

end Sys2Proof.Machine
end

