-- ==== Sys2Proof/Machine/Tick.lean ====
section
/-! DEFINITION. What passes with time while no command waits (R20, R22, R92, R105, log entry 6): the
Registrar timer advances by one period of 5 ns, calibration records that fall due are written (R366), waves that wait for nothing any more go on (R312), the Store goes to rest in a
Lockdown whose tiles have fallen quiet (R437), and the island of every tile that is not OFF advances by as many cycles as its
frequency gives. -/

namespace Sys2Proof.Machine

/-- Sixteenths of a cycle that pass in 5 ns at FREQ: 800 MHz + 12.5 MHz × FREQ (R92). -/
def cyc16 (freq : Nat) : Nat := 64 + freq

/-- One timer period of tile `t` (R105): cycles, and the counters by state unless FREEZE holds them. -/
def State.tileTick (s : State) (t : Nat) : State :=
  let x := s.tile t
  let total := x.phase + cyc16 (s.f (tr t rTILE_CLOCK) 0 7)
  let n := total / 16
  let s := s.setTile t { x with phase := total % 16, cycles := x.cycles + n }
  if s.f (tr t rTILE_PERF_CTRL) 1 1 = 1 then s
  else
    let lo := tr t rTILE_CYCLE_COUNT_LO
    let hi := tr t rTILE_CYCLE_COUNT_HI
    let s := s.wr64 lo hi (s.rd64 lo hi + n)
    let st := s.ts t
    if st = tsRUN then s.wn (tr t rTILE_RUN_COUNT) (s.rn (tr t rTILE_RUN_COUNT) + n)
    else if st = tsWAIT || st = tsHANG then s.wn (tr t rTILE_WAIT_COUNT) (s.rn (tr t rTILE_WAIT_COUNT) + n)
    else s

/-- Ten seconds of the Registrar timer (R366). -/
def tenSeconds : Nat := 2 * 10 ^ 9

/-- Write the calibration records that are due: a slot's is rewritten at most once in 10 s (R366). -/
def State.writeCalRecs (s : State) : State :=
  let may := fun (n : Nat) => let t := aget 0 s.light.calWritten n
    t == 0 || decide (tenSeconds ≤ (s.timer + 1 + 2 ^ 64 - t) % 2 ^ 64)
  let now := s.light.calDue.filter fun e => may e.1
  if now = [] then s
  else
    { s with
      arch := { s.arch with calRecs := now.foldl (fun m e => aput [] m e.1 e.2) s.arch.calRecs,
                            staleCal := s.arch.staleCal.filter fun k => !now.any fun e => e.1 == k }
      light := { s.light with
        calWritten := now.foldl (fun m e => aput 0 m e.1 (s.timer + 1)) s.light.calWritten
        calDue := s.light.calDue.filter fun e => !may e.1 } }

/-- A hang that is ARMING and whose slot is READY has armed every tile: ARMED (R195 step 2, log entry 20). -/
def State.armed (s : State) : State :=
  let a := winBase .pln 0 + rPLN_HANG_STAT
  if s.f a 0 3 = 1 ∧ s.slotState (s.f a 4 2) = 5 then s.setf (winBase .pln 0 + rPLN_HANG_STAT) 0 3 2 else s

/-- One period of the Registrar timer with no command: the tiles of a hang are armed, waves go on, the Store of a Lockdown rests,
and the islands run unless the module is in A1 or below (R105). -/
def State.tick (s : State) : State :=
  let s := ({ s with timer := (s.timer + 1) % 2 ^ 64 }).writeCalRecs.armed.pushWaves.storeRest
  if s.asleep then s else s.poweredTiles.foldl (fun st t => st.tileTick t) s

end Sys2Proof.Machine
end

