-- ==== Sys2Proof/Machine/Hang.lean ====
section
/-! DEFINITION. The hang (05_hanging_plans.md R195 to R210; R73, R89, R95, R116 to R118 for what becomes of the
tiles; R225, R226, R230 for Keep windows and retired pages; R472 for the measured boot). -/

namespace Sys2Proof.Machine

open Sys2Proof Host

/-! ### Progress -/

/-- Tiles not yet at a hang point: in RUN or WAIT with a sound router (R195 step 2), whose itinerary has not executed END (R121). -/
def State.pendingTiles (s : State) : List Nat :=
  s.poweredTiles.filter fun t => (s.ts t == tsRUN || s.ts t == tsWAIT) && !s.routerBad t && (s.tile t).holding != .ended

/-- The plan and placement of the slot being hung. -/
def State.hanging (s : State) : Option (Plan × Placement) :=
  match (s.slot s.hangSlot).plan, (s.slot s.hangSlot).place with
  | some p, some pl => some (p, pl)
  | _, _ => none

/-- Start the hang of slot `k` (R195 step 1): the entropy is drawn, and the tiles are being armed. -/
def State.startHang (s : State) (k : Nat) : State :=
  let s := s.consume planRing
  let s := { s with
    free := s.free + 1,
    cur := { s.cur with nextEntropy := Config.entropy s.free % 2 ^ 64, hangStart := s.timer, hangReady := s.timer,
                        waveSlow := false, waveResult := none, waitingHang := none } }
  s.wn hangReg (1 + k * 2 ^ 4)

/-- HANG (R171, R195): BUSY while a hang is in progress; waits at the head of the ring while its slot prepares
or is queued to; then arms, or completes with REJECTED; SLOT_STATE in any other state. -/
def execHang (s : State) : Outcome State Fault Refusal :=
  .next (s.planStart 0x22 fun b =>
    let k := at_ b 0x20 1
    let st := s.slotState k
    if s.hangOut then s.planAnswer 0x22 2
    else if st = 5 then s.startHang k
    else if st = 4 ∨ (st = 3 ∧ s.cur.autoQueue.contains k) then { s with cur := { s.cur with waitingHang := some k } }
    else if st = 7 ∧ s.cur.waitingHang = some k then s.planAnswer 0x22 5
    else s.planAnswer 0x22 1)

/-- WITHDRAW (R171, R201): of the hang in progress, or of a HANG that waits at the head of the ring; in Lockdown and in a halted block
both complete with the result of R173. -/
def execWithdraw (s : State) : Outcome State Fault Refusal :=
  .next (
    match s.cur.waitingHang with
    | some k =>
      if !(s.headIs planRing 0 0x22 && s.headIs planRing 1 0x23 && !s.planBusy && !planBad (s.ringEntry planRing 1) 0x23) then s
      else if s.halted .pln || s.halted .cur then (s.planAnswer 0x22 2).answerHead planRing 2 0
      else if s.locked then (s.planAnswer 0x22 6).answerHead planRing 6 0
      else
        let s := (s.bump (winBase .pln 0 + rPLN_WITHDRAW_COUNT)).postEvent .pln 2 k (s.slotGen k)
        (s.planAnswer 0x22 0).answerHead planRing 0 0
    | none =>
      s.planStart 0x23 fun _ =>
        if !s.hangOut then s.answerHead planRing 1 0
        else if s.canWithdraw then s.withdrawHang.answerHead planRing 0 0
        else s.answerHead planRing 3 0)

/-- Send PLACE_MOVED for every exhibit the hang moves to each module that asked for it in the generation in force or in the one being
hung (R194, log entry 158). -/
def State.sendMoved (s : State) (p : Plan) (pl : Placement) : State :=
  (pl.tiles.filter fun e => s.tileNow e.1 != none && s.tileNow e.1 != some e.2).foldl (fun (u : State) (e : Nat × Nat) =>
    (((u.cur.askers.filter fun a => a.2.1 == e.1 && (a.2.2 == p.gen || a.2.2 == u.planGen)).map (·.1)).eraseDups).foldl (fun (w : State) (m : Nat) =>
      w.sendOffice m 0x32 24 (leBytes 8 p.gen ++ leBytes 2 e.1 ++ leBytes 2 0 ++ leBytes 2 (rc e.2))) u) s

/-- HANG_ARMED_ALL_AT_POINT: every tile is armed, and PENDING is 0 (R195 steps 2 and 3): the hang applies, or contributes to its wave.
A hang whose slot was REJECTED while it was ARMING (R205) ends with REJECTED, as one does that waits for its slot (R171, log entry
180). -/
def execHangArmedAllAtPoint (s : State) : Outcome State Fault Refusal :=
  .next (
    let s := s.armed
    if s.hangState = 1 then s.finishHang none 5
    else if s.hangState ≠ 2 ∨ s.pendingTiles ≠ [] then s
    else match s.hanging with
    | none => s
    | some (p, pl) =>
      let s := { s with cur := { s.cur with hangReady := s.timer } }
      let s := s.sendMoved p pl
      if p.hangGroup = 0xFF then s.setf hangReg 0 3 4
      else
        let s := s.setf hangReg 0 4 (3 + 8)
        match s.group p.hangGroup with
        | none => s
        | some r => s.contributeFirmware p.hangGroup r p.gen)

/-- HANG_WAVE_COMPLETE: the hang wave has completed (R199): both values equal to GENERATION let the hang apply;
otherwise it is withdrawn with HANG_MISMATCH. -/
def execHangWaveComplete (s : State) : Outcome State Fault Refusal :=
  .next (match s.cur.waveResult with
    | none => s
    | some (lo, hi) =>
      if s.hangState ≠ 3 then s
      else
        let g := s.slotGen s.hangSlot
        if lo = g ∧ hi = g then
          ({ s with cur := { s.cur with hangReady := s.timer } }).setf hangReg 0 3 4
        else (s.dropHang.event .pln 0 0 s.hangSlot).finishHang none)

/-- HANG_WAVE_SLOW: PLN_HANG_WAVE_TIME has passed since the contribution; reported once, never for 0 (R200). -/
def execHangWaveSlow (s : State) : Outcome State Fault Refusal :=
  .next (
    if s.hangState = 3 && s.f hangReg 3 1 == 1 && !s.cur.waveSlow && s.f (winBase .pln 0 + rPLN_HANG_WAVE_TIME) 0 16 != 0 then
      ({ s with cur := { s.cur with waveSlow := true } }).event .pln 0 1 s.hangSlot
    else s)

/-! ### Moving pages (R206, R230) -/

/-- The contents of a page of the Vault to be moved, by module address: corrected, or poisoned throughout where its router failed
(the data of such a page is free, log entry 4). -/
def State.movedPage (s : State) (lost : Bool) (a : Nat) : List (Byte × Bool) × State :=
  if lost then
    let (bs, s) := s.freeBytes 4096
    (bs.map fun b => (b, true), s)
  else s.copyPage true false (pageOf (s.vault.phys a)) rdCurator

/-- The Curator writes a whole page of the Vault at a physical address with marks: a full-page write, after the decode of a held
page (R222, R237). -/
def State.placeVault (s : State) (p : Nat) (data : List (Byte × Bool)) : State :=
  let s := s.finishDecode true p
  { s with vault := s.vault.placePage (bankOf (p * 4096)) p data }

/-- The page numbers of an exhibit's content that moves with it, as offsets in its column (R206). -/
def movedPages (q p : Plan) (old new_ : Assoc CatEntry) (x : Nat) : List Nat :=
  List.range (min (q.privateOf x) (p.privateOf x) / 4096) ++
    ((new_.filter fun (e : Nat × CatEntry) => e.2.owner == x && e.2.tier == 0).map fun (e : Nat × CatEntry) =>
      match old.find? (fun (o : Nat × CatEntry) => o.1 == e.1) with
      | some (_, o) =>
        if o.tier = 0 ∧ o.owner = x ∧ o.length = e.2.length ∧ o.address % 2 ^ 22 = e.2.address % 2 ^ 22 then
          (List.range (pages e.2.length)).map fun i => e.2.address % 2 ^ 22 / 4096 + i
        else []
      | none => []).flatten

/-- The moves of a hang: (exhibit, from, to) for exhibits that run now and in the new generation. -/
def State.moves (s : State) (p : Plan) (pl : Placement) : List (Nat × Nat × Nat) :=
  match s.cur.now with
  | none => []
  | some q => pl.tiles.filterMap fun (e : Nat × Nat) =>
      match s.tileNow e.1 with
      | some t => if t ≠ e.2 ∧ s.runs q e.1 ∧ s.runs p e.1 then some (e.1, t, e.2) else none
      | none => none

/-- Move every exhibit's content (R206); all pages are read before any is written. -/
def State.moveContents (s : State) (p : Plan) (pl : Placement) : State :=
  match s.cur.now, s.cur.place with
  | some q, some old =>
    let work := ((s.moves p pl).map fun (x, a, b) =>
      (movedPages q p old.catalogue pl.catalogue x).map fun o =>
        (vaultAddr b (4096 * o), s.routerBad a, vaultAddr a (4096 * o))).flatten
    let (read, s) := work.foldl (fun (acc : List (Nat × List (Byte × Bool)) × State) (w : Nat × Bool × Nat) =>
      let (d, u) := acc.2.movedPage w.2.1 w.2.2
      (acc.1 ++ [(w.1, d)], u)) ([], s)
    read.foldl (fun (u : State) (w : Nat × List (Byte × Bool)) =>
      let u := u.cowFirst true (pageOf w.1) rdCurator
      u.placeVault (pageOf (u.vault.phys w.1)) w.2) s
  | _, _ => s

/-- Pages of tile `t`'s column that the new generation uses, as offsets (R230). -/
def usedPages (p : Plan) (pl : Placement) (t : Nat) : List Nat :=
  match pl.exhibitOn t with
  | none => []
  | some x => List.range (p.privateOf x / 4096) ++
      ((pl.catalogue.filter fun (e : Nat × CatEntry) => e.2.tier == 0 && colTile e.2.address == t).map fun (e : Nat × CatEntry) =>
        (List.range (pages e.2.length)).map fun i => e.2.address % 2 ^ 22 / 4096 + i).flatten

/-- Retire physical Vault page `ph` (R230): to the highest page of its column that nothing uses and no failed die holds (R234);
with none free the tile falls due. -/
def State.retireVaultPage (p : Plan) (pl : Placement) (s : State) (ph : Nat) : State :=
  let m := s.vault
  let t := colTile (ph * 4096)
  let base := vaultAddr t 0 / 4096
  let used := usedPages p pl t
  let free := ((List.range 1024).reverse.map (base + ·)).filter fun q =>
    !used.contains (q - base) && !m.retired.contains q && q != ph && !(m.redirect.any fun e => e.2 == q)
      && !m.deadDies.contains (dieOf (q * 4096))
  match free with
  | [] => s.tileDue t
  | q :: _ =>
    let old := s
    let l := m.served ph
    let (data, s) := s.copyPage true true ph rdCurator
    let s := s.placeVault q data
    let m := s.vault
    let m := { m with redirect := aput l m.redirect l q, retired := m.retired ++ [ph], due := m.due.filter (· != ph),
                      keepQueue := m.keepQueue.filter (· != ph) }
    let n := winBase .vlt 0 + rVLT_RETIRED_PAGE_COUNT
    let s := ({ s with vault := m }).bump n
    (s.condEvent 1 0 (ph * 4096) (s.rn n - 1) (s.rn n)).wornSince old

/-- Repair at most 16 queued Keep pages in place (R226). -/
def State.repairKeep (s : State) : State :=
  let now := s.vault.keepQueue.take 16
  let s := now.foldl (fun (u : State) ph =>
    let (data, u) := u.copyPage true true ph rdCurator
    (u.placeVault ph data).bump (winBase .vlt 0 + rVLT_KEEP_REPAIR_COUNT)) s
  { s with vault := { s.vault with keepQueue := s.vault.keepQueue.filter fun p => !now.contains p } }

/-- Set the Keep windows from the KEEP tensors (R225). -/
def State.setKeep (s : State) (pl : Placement) : State :=
  let ks := pl.catalogue.filter fun (e : Nat × CatEntry) => e.2.keep && e.2.tier == 0
  (List.range 8).foldl (fun (u : State) k =>
    let lo := winBase .vlt 0 + rVLT_KEEP_WINDOW_LO + 8 * k
    let hi := winBase .vlt 0 + rVLT_KEEP_WINDOW_HI + 8 * k
    match ks[k]? with
    | none => (u.wn lo 0).wn hi 0
    | some (x, e) =>
      let a := e.address
      let first := a / 4096 % 1024
      (u.wn lo (a / 2 ^ 28 % 32 + a / 2 ^ 22 % 64 * 2 ^ 5 + first * 2 ^ 11 + 2 ^ 31)).wn hi (first + pages e.length - 1 + x * 2 ^ 16)) s

/-! ### Tiles at the hang (R73, R89, R116 to R118, R195) -/

/-- The corridor list of an exhibit as its tile holds it (R142, R180). -/
def corrList (me : Nat) (p : Plan) (pl : Placement) (r : ExhRec) : List CorrEntry :=
  r.corridors.map fun k =>
    match p.corr? k with
    | none => ⟨k, 0, 0, 0, false⟩
    | some c =>
      if c.isLocal then ⟨k, c.dst, me, (lookup? pl.tiles c.dst).getD 0, true⟩
      else ⟨k, c.dst, c.dstModule, (lookup? pl.remote k).getD 0, (lookup? pl.remote k).isSome⟩

/-- The Catalogue entries on an exhibit's tensor list (R178). -/
def tensorList (pl : Placement) (r : ExhRec) : Assoc CatEntry :=
  let none_ : CatEntry := ⟨3, 0, false, false, false, 0xFFFF, 0, 0, 0⟩
  r.tensors.foldl (fun (m : Assoc CatEntry) k => aput none_ m k (aget none_ pl.catalogue k)) []

/-- The GEN-class registers of a tile for its exhibit (R65, R177): cleared, then as SET_MASK gives them. -/
def State.setGenRegs (s : State) (t : Nat) (p : Plan) (r : ExhRec) : State :=
  let s := s.clearRange .gen (tr t 0) (tr t 0x1000)
  let put := fun (u : State) (b off v : Nat) => if bit r.setMask b then u.regStore (tr t off) v 0xFFFFFFFF .firmware else u
  let s := put s 0 rTILE_ARITH_CTRL r.arithCtrl
  let s := put s 1 rTILE_ARITH_TRAP_EN r.trapEn
  let s := put s 2 rTILE_CRATE_TIME r.crateTime
  let s := put s 3 rTILE_HANG_TIME r.hangTime
  let seed := if s.f (tr t rTILE_ARITH_CTRL) 8 1 = 1 then p.seed else p.seed ^^^ s.cur.entropy
  s.wr64 (tr t rTILE_NOISE_SEED_LO) (tr t rTILE_NOISE_SEED_HI) seed

/-- Start exhibit `r` on tile `t` in the new generation; a tile under HALT stands stopped at its entry (R428, R429, log entry 181). -/
def State.startTile (s : State) (p : Plan) (pl : Placement) (r : ExhRec) (t : Nat) : State :=
  let kept := s.ts t != tsOFF && s.f (tr t rTILE_EXHIBIT) 0 16 == r.exhibit
  let half := (s.halfOf t + b2n (pl.preload.contains t)) % 2
  let s := s.setGenRegs t p r
  let s := s.wn (tr t rTILE_EXHIBIT) r.exhibit
  let s := s.wn (tr t rTILE_EXEC_POS) (8 * r.entry + half * 2 ^ 16)
  let s := s.wn (tr t rTILE_GEN) p.gen
  let s := s.mapTile t fun x =>
    let x := if kept then x else { x with s := [], v := [], acc := [], d := [], scratch := [], scrPoison := [], scrErr := [], reads := [] }
    { x with
      s := r.svals.foldl (fun (m : Assoc Word) (e : Nat × Nat) => aput 0 m e.1 (BitVec.ofNat 32 e.2)) x.s,
      d := r.dvals.foldl (fun (m : Assoc Desc) (e : Nat × Desc) => aput Desc.zero m e.1 e.2) x.d,
      loops := [], held := none, execCount := [], holding := .none,
      moveU := none, crateU := none, matrixU := none, vectorU := none,
      tensors := tensorList pl r, corridors := corrList s.myId p pl r }
  let s := r.tickets.foldl (fun (u : State) (e : Nat × Nat) => u.setf (tk t e.1) 0 16 e.2) s
  if s.halted .tile t then s.enterIdle t else s.setTs t tsRUN

/-- The steps that the governor took from a tile's clock are given back as it loses its power (R371, log entry 53). -/
def State.giveBack (s : State) (t : Nat) : State :=
  let n := aget 0 s.light.lowered t + aget 0 s.light.capped t
  if n = 0 then s else (s.setf (tr t rTILE_CLOCK) 0 7 (min (aget 80 s.light.ceiling t) (s.f (tr t rTILE_CLOCK) 0 7 + n))).ungovern t

/-- A tile that the new generation does not use enters OFF, and its banks with it (R95, R236); one that loses its exhibit has
its scratch zeroed (R73). -/
def State.stopTile (s : State) (t : Nat) : State :=
  let s := if s.f (tr t rTILE_EXHIBIT) 0 16 = 0xFFFF then s else s.zeroScratch t
  let s := s.clearRange .gen (tr t 0) (tr t 0x1000)
  let s := s.mapTile t fun x => { x with
    loops := [], held := none, execCount := [], holding := .none, pendTraps := [], tensors := [], corridors := [],
    moveU := none, crateU := none, matrixU := none, vectorU := none }
  let s := ((s.setTs t tsOFF).applyStopped t).giveBack t
  { s with vault := (s.vault.dark (2 * t)).dark (2 * t + 1) }

/-- Retire a tile (R205 to R207): on the list, RETIRED set, and TILE_RETIRED with where its exhibit went. -/
def State.retireTile (s : State) (old : Option Placement) (pl : Placement) (t : Nat) : State :=
  let x := (old.bind fun o => o.exhibitOn t).getD 0xFFFF
  let dest := match lookup? pl.tiles x with | some u => rc u | none => 0x7FF
  let s := s.mapTile t fun y => { y with due := false }
  let s := { s with cur := { s.cur with retired := s.cur.retired ++ [t] } }
  let n := s.cur.retired.length
  ((s.setf (tr t rTILE_ID) 12 1 1).postRetired t dest x).condEvent 2 0 (rc t) (n - 1) n

/-! ### Applying (R195 steps 5 and 6) -/

/-- Whether step 5 may begin: no TC0 to TC2 crate on the corridors or at the bridges, and every unit idle.  A crate that lost
beats does not arrive, and a cut-off tile counts as having reached its hang point whatever its units hold (R15). -/
def State.drained (s : State) : Bool :=
  s.fab.corridor.all (fun c => c.torn || c.tc == 3) && (s.fab.outbound ++ s.fab.collIn).all (fun c => c.via.isSome || c.tc == 3)
    && s.fab.reqWait == [] && s.poweredTiles.all fun t => s.routerBad t || (s.tile t).idle

/-- What is in a Wing when the route table changes keeps to the routes it came under (R31, R323): crates that wait there, the heads
of chunks, and the flits of the reorder buffers. Routes are kept as long as something goes by them. -/
def State.keepRoutes (s : State) : State :=
  match s.cur.now with
  | none => s
  | some p =>
    let old := fun (g : Option Nat) => some (g.getD p.gen)
    let crate := fun (c : Crate) => { c with gen := old c.gen }
    let flit := fun (f : Flit) => { f with gen := old f.gen }
    let chan := fun (x : Chan) => { x with held := x.held.map fun (h : Nat × Flit) => (h.1, flit h.2), ready := x.ready.map flit }
    let fab : FabState := { s.fab with
      chans := s.fab.chans.map fun (e : Nat × Chan) => (e.1, chan e.2)
      outbound := s.fab.outbound.map crate, collIn := s.fab.collIn.map crate
      chunks := s.fab.chunks.map fun (k : Chunk) => { k with head := crate k.head }
      pinned := s.fab.pinned.map fun (e : Nat × Crate) => (e.1, crate e.2) }
    let used := (fab.outbound ++ fab.collIn ++ fab.chunks.map (·.head) ++ fab.pinned.map fun e => e.2).map Crate.gen
      ++ (fab.chans.map fun e => (e.2.held.map fun h => h.2.gen) ++ e.2.ready.map Flit.gen).flatten
    let routes := p.routes.filter fun r => r.dest != s.myId && !s.cur.noRoute.contains r.dest
    { s with fab := { fab with oldRoutes := (aput [] s.fab.oldRoutes p.gen routes).filter fun e => used.contains (some e.1) } }

/-- The tables of the new generation become current. -/
def State.applyTables (s : State) (k : Nat) (p : Plan) (pl : Placement) : State :=
  let old := s.cur.now
  let s := s.keepRoutes
  let s := { s with cur := { s.cur with now := some p, place := some pl, segModes := pl.segModes, noRoute := [],
                                        entropy := s.cur.nextEntropy, told := s.cur.told.filter fun w => decide (p.gen < w.1),
                                        moved := (s.moves p pl).map fun (e : Nat × Nat × Nat) => e.1 },
                    fab := { s.fab with chans := s.fab.chans.map fun (e : Nat × Chan) => (e.1, { e.2 with isolated := false }) } }
  let s := (s.setf (winBase .fab 0 + rFAB_MODULE_ID) 0 16 p.moduleId).setKeep pl
  let s := (s.wr64 (winBase .pln 0 + rPLN_GEN_LO) (winBase .pln 0 + rPLN_GEN_HI) p.gen).applyPolicy p.policy
  let s := s.renumberWaves old p
  let hash := ((List.range 12).map fun w => leBytes 4 (s.rn (winBase .pln 0 + rPLN_SLOT_HASH + 4 * (12 * k + w)))).flatten
  s.extendMeas 7 p.gen hash

/-- Every tile takes its part in the new generation; due tiles are retired. -/
def State.applyTiles (s : State) (before : Option Placement) (p : Plan) (pl : Placement) : State :=
  let own := pl.tiles.filter fun e => s.runs p e.1
  let idle := s.poweredTiles.filter fun t => !(own.any fun e => e.2 == t)
  let marked := ((s.tiles.filter fun (e : Nat × Tile) => e.2.due).map (·.1) ++ s.vault.retired.map fun p => colTile (p * 4096)).eraseDups
  let due := marked.filter fun t => s.dueNow t && !s.cur.lateTiles.contains t
  let s := idle.foldl State.stopTile s
  let s := own.foldl (fun (u : State) (e : Nat × Nat) =>
    match p.exhibit? e.1 with
    | some r => u.startTile p pl r e.2
    | none => u) s
  let s := due.foldl (fun (u : State) t => u.retireTile before pl t) s
  let s := s.cur.retired.foldl (fun (u : State) t => u.setf (tr t rTILE_ID) 12 1 1) s
  let s := { s with cur := { s.cur with lateTiles := [], latePages := [] } }
  s.setf (winBase .cur 0 + rCUR_RETIRED_COUNT) 0 11 s.cur.retired.length

/-- The channels whose INIT named the peer that the plan in force names (R281). -/
def State.peersMet (s : State) : List Nat := (List.range 36).filter fun j => (s.chan j).peerInstance.isSome && s.peerOk j

/-- PEER_MISMATCH begins on each of those channels for which the generation now in force names another peer (R281, R417). -/
def State.peersLost (s : State) (met : List Nat) : State :=
  (met.filter fun j => !s.peerOk j).foldl (fun (u : State) j => u.linkEvent j (if u.linkState j 0 = 0 then 1 else 0) 6) s

/-- HANG_APPLY: steps 5 and 6 of the hang, once the corridors and the bridges have drained. One whose moves find no COW page for a
frozen page waits (R412). -/
def execHangApply (s : State) : Outcome State Fault Refusal :=
  .next (
    if s.hangState ≠ 4 || !s.drained then s
    else match s.hanging with
    | none => s
    | some (p, pl) => s.orBlocked <|
      let k := s.hangSlot
      let before := s.cur.place
      let met := s.peersMet
      let s := s.moveContents p pl
      let s := (s.applyTables k p pl).peersLost met
      let s := (s.vault.due.filter fun x => !s.cur.latePages.contains x).foldl (State.retireVaultPage p pl) s
      let s := s.repairKeep
      let s := s.applyTiles before p pl
      let s := s.pairAtHang
      let s := (List.range 4).foldl (fun (u : State) j => if u.slotState j = 6 then u.setSlotState j 3 else u) s
      let s := s.setSlotState k 6
      let s := s.wn (winBase .pln 0 + rPLN_LAST_APPLY_COUNT) (min 0xFFFFFFFF (s.timer - s.cur.hangReady))
      let s := s.wn (winBase .pln 0 + rPLN_LAST_HANG_COUNT) (min 0xFFFFFFFF (s.timer - s.cur.hangStart))
      let s := s.bump (winBase .pln 0 + rPLN_HANG_COUNT)
      let s := (s.setf (winBase .cur 0 + rCUR_CAT_STAT) 1 1 1).setf (winBase .cur 0 + rCUR_PLACE_DATA) 14 1 1
      let s := s.releaseWaves
      ((s.postEvent .pln 1 k p.gen).finishHang (some p.gen)).serveHeld k)

end Sys2Proof.Machine
end

