-- ==== Sys2Proof/Machine/Frames.lean ====
section
/-! DEFINITION. The slots of a channel's fibres (09_wings_and_lanes.md R337 to R340, R352), training frames, the assignment of
lanes, and the INIT exchange of a link that has its lanes (07_pontonak_link.md R272, R275, R277). -/

namespace Sys2Proof.Machine

open Sys2Proof Host

/-! ### Slots and registers (R352) -/

/-- Register `off` of slot `x` (18 × fibre + slot, 0 to 35) of channel `j`. -/
def sl (j x off : Nat) : Nat := wg (j / 9) (off + 4 * (36 * (j % 9) + x))

/-- WNG_STEER_MAP of lane `b` of link `l`. -/
def steer (j l b : Nat) : Nat := wg (j / 9) (rWNG_STEER_MAP + 4 * (16 * (2 * (j % 9) + l) + b))

/-- The width a link runs at. -/
def State.linkWidth (s : State) (j l : Nat) : Nat := widthOf (s.f (cr j rWNG_CHAN_STAT) (8 + 2 * l) 2)

/-- USE of a receive slot: 0 FREE, 1 ACTIVE, 2 FAILED, 3 DARK; and of a transmit slot: 0 FREE, 1 ACTIVE,
2 DUPLICATE, 3 FAILED. -/
def State.rxUse (s : State) (j x : Nat) : Nat := s.f (sl j x rWNG_RX_SLOT_STAT) 0 2
def State.txUse (s : State) (j x : Nat) : Nat := s.f (sl j x rWNG_TX_SLOT_STAT) 0 2

/-- Whether a receive slot passes (R339): its margin is at least WNG_MARGIN_THRESH, and it is not Suspect (R364). -/
def State.rxPasses (s : State) (j x : Nat) : Bool :=
  decide (s.f (wg (j / 9) rWNG_MARGIN_THRESH) 0 8 ≤ s.f (sl j x rWNG_RX_SLOT_STAT) 16 8) && s.f (sl j x rWNG_RX_SLOT_STAT) 9 1 == 0

/-- LMP_LASER_STAT of position `i` of Lamp `p`. -/
def lz (p i : Nat) : Nat := winBase .lmp p + rLMP_LASER_STAT + 4 * i

/-- STATE of a position: 0 OFF, 1 LIT, 2 WATCH, 3 SWAP, 4 DEAD. -/
def State.laser (s : State) (p i : Nat) : Nat := s.f (lz p i) 16 3

/-- Whether the laser of a transmit slot is dead (R331, R360). -/
def State.slotDead (s : State) (j x : Nat) : Bool := s.laser (j / 18) (9 * (x % 18) + j % 9) == 4

/-- Whether a transmit slot passes: the partner passed it (R337 RX_PASS), and its laser has not failed it since (R360). -/
def State.txPasses (s : State) (j x : Nat) : Bool := bit (s.lane j (x / 18)).peerPass (x % 18) && !s.slotDead j x

/-- The receive slot of a lane, as 18 × fibre + slot. -/
def State.rxSlotOf (s : State) (j l b : Nat) : Nat :=
  let m := s.rn (steer j l b)
  let f := s.rxFibre j l
  18 * (if bit m 13 then 1 - f else f) + fld m 8 5

/-- The transmit slot of a lane. -/
def State.txSlotOf (s : State) (j l b : Nat) : Nat :=
  let m := s.rn (steer j l b)
  18 * (if bit m 5 then 1 - l else l) + fld m 0 5

/-- Whether a receive slot can carry a lane: it passes and holds symbol lock. -/
def State.rxTakes (s : State) (j x : Nat) : Bool := s.rxPasses j x && s.f (sl j x rWNG_RX_SLOT_STAT) 8 1 == 1

/-- The link that a receive fibre of a channel serves (R338). -/
def State.fibreLink (s : State) (j k : Nat) : Nat := if s.rxFibre j k = k then k else 1 - k

/-- Whether the link of a receive fibre is in bring-up (R341). -/
def State.fibreTrains (s : State) (j k : Nat) : Bool :=
  1 ≤ s.bringup j (s.fibreLink j k) && s.bringup j (s.fibreLink j k) ≤ 3

/-! ### Training frames (R337) -/

/-- The PRBS-31 generator x³¹ + x²⁸ + 1 (R333): `n` bits from state `st`, first bit lowest. -/
def prbs : Nat → Nat → Nat
  | 0, _ => 0
  | n + 1, st =>
    let k := (st / 2 ^ 30 + st / 2 ^ 27) % 2
    k + 2 * prbs n ((2 * st + k) % 2 ^ 31)

/-- CRC-16 with polynomial 0x1021 over `n` bits, first bit lowest. -/
def crc16 : Nat → Nat → Nat → Nat
  | 0, _, c => c
  | n + 1, w, c =>
    let c' := 2 * c % 2 ^ 16
    crc16 n (w / 2) (if (c / 2 ^ 15 + w) % 2 = 1 then c' ^^^ 0x1021 else c')

/-- SYNC of a training frame. -/
def frameSync : Nat := 0xE4B17A2D1BD8C5F0

/-- A frame as sent from its bits [239:64]. -/
def sealFrame (body : Nat) : Nat :=
  let b := body ^^^ prbs 176 0x7FFFFFFF
  frameSync + b * 2 ^ 64 + crc16 176 b 0xFFFF * 2 ^ 240

/-- The bits [239:64] of a frame with good SYNC and CRC, and whether it came inverted (R338). -/
def openFrame (frame : Nat) : Option (Nat × Bool) :=
  let inv := frame % 2 ^ 64 == 2 ^ 64 - 1 - frameSync
  let f := if inv then 2 ^ 256 - 1 - frame else frame
  let b := fld f 64 176
  if f % 2 ^ 64 = frameSync ∧ fld f 240 16 = crc16 176 b 0xFFFF then some (b ^^^ prbs 176 0x7FFFFFFF, inv) else none

/-- A NONCE drawn for a link that trains (R333). -/
def State.drawNonce (s : State) (j l : Nat) : State :=
  { s with free := s.free + 1 }.mapLane j l fun k => { k with nonce := Config.entropy s.free % 2 ^ 16 }

/-- The mask of passing slots of a receive fibre. -/
def State.rxMask (s : State) (j k : Nat) : Nat :=
  (((List.range 18).filter fun x => s.rxTakes j (18 * k + x)).map (2 ^ ·)).foldl (· + ·) 0

/-- The training frame of slot `x` of a link, as it stands (R337). It speaks of the receive fibre of its pair, in a width change of
the one that the link uses (log entry 129). -/
def State.frame (s : State) (j l x : Nat) (last : Bool) : Nat :=
  let r := if s.linkState j l = 3 then s.rxFibre j l else l
  let k := s.lane j r
  sealFrame (s.myId + j * 2 ^ 15 + l * 2 ^ 21 + x * 2 ^ 22 + (18 * l + x) * 2 ^ 27 + (s.lane j l).nonce * 2 ^ 33
    + (if k.rxDone then s.rxMask j r * 2 ^ 49 + 2 ^ 67 else 0)
    + (match k.heard with | some q => 2 ^ 68 + q * 2 ^ 69 | none => 0) + b2n last * 2 ^ 70)

/-- Send the frames of a link's 18 slots as they now stand. -/
def State.sendFrames (s : State) (j l : Nat) (last : Bool) : State :=
  { s with out := s.out ++ (List.range 18).map fun x => Out.training (j / 9) (2 * (j % 9) + l) (leBytes 32 (s.frame j l x last)) }

/-! ### The assignment of lanes (R340) -/

/-- Slots of a fibre in ascending order that a test passes. -/
def passing (f : Nat → Bool) (fibre : Nat) : List Nat := ((List.range 18).map fun x => 18 * fibre + x).filter f

/-- Whether a slot carries a lane of the sibling link of its fibre's (R345). -/
def State.rxForeign (s : State) (j x : Nat) : Bool := s.rxUse j x == 1 && s.f (sl j x rWNG_RX_SLOT_STAT) 6 1 == 1
def State.txForeign (s : State) (j x : Nat) : Bool := (s.txUse j x == 1 || s.txUse j x == 2) && s.f (sl j x rWNG_TX_SLOT_STAT) 6 1 == 1

/-- The slots of a link's two fibres that it can be assigned: they pass, and carry no lane of the sibling's (R340). -/
def State.rxAvail (s : State) (j l : Nat) : List Nat := passing (fun x => s.rxTakes j x && !s.rxForeign j x) (s.rxFibre j l)
def State.txAvail (s : State) (j l : Nat) : List Nat := passing (fun x => s.txPasses j x && !s.txForeign j x) l

/-- The width R340 gives a link from the passing slots of its two directions. -/
def State.assignWidth (s : State) (j l : Nat) : Nat := s.widthFor j (min (s.rxAvail j l).length (s.txAvail j l).length)

/-- Set USE, LANE and FIBRE of a receive slot, or of a transmit slot. -/
def State.setRx (s : State) (j x use lane : Nat) (other : Bool) : State :=
  let a := sl j x rWNG_RX_SLOT_STAT
  ((s.setf a 0 2 use).setf a 2 4 lane).setf a 6 1 (b2n other)
def State.setTx (s : State) (j x use lane : Nat) (other : Bool) : State :=
  let a := sl j x rWNG_TX_SLOT_STAT
  ((s.setf a 0 2 use).setf a 2 4 lane).setf a 6 1 (b2n other)

/-- Give up a receive slot: free where it passes and holds lock, failed otherwise; and a transmit slot, which goes back to filler:
free where it passes, failed otherwise (R345). -/
def State.releaseRx (s : State) (j x : Nat) : State := s.setRx j x (if s.rxTakes j x then 0 else 2) 0 false
def State.releaseTx (s : State) (j x : Nat) : State := s.setTx j x (if s.txPasses j x then 0 else 3) 0 false

/-- Assign `w` lanes of a link to its passing slots in ascending order (R340): slots of the sibling's fibre that carried lanes of it
are released, slots of its own that carry the sibling's lanes are left. What its slots were held for, and the updates counted
against them, is forgotten (R374). -/
def State.assignLanes (s : State) (j l w : Nat) : State :=
  let f := s.rxFibre j l
  let s := (passing (s.rxForeign j) (1 - f)).foldl (fun u x => u.releaseRx j x) s
  let s := (passing (s.txForeign j) (1 - l)).foldl (fun u x => u.releaseTx j x) s
  let rx := s.rxAvail j l
  let tx := s.txAvail j l
  let s := (passing (fun x => !s.rxForeign j x) f).foldl (fun (u : State) x => match rx.idxOf? x with
    | some b => if b < w then u.setRx j x 1 b false else u.setRx j x 0 0 false
    | none => u.setRx j x 2 0 false) s
  let s := (passing (fun x => !s.txForeign j x) l).foldl (fun (u : State) x => match tx.idxOf? x with
    | some b => if b < w then u.setTx j x 1 b false else u.setTx j x 0 0 false
    | none => u.setTx j x 3 0 false) s
  let base := 324 * (j / 9) + 36 * (j % 9) + 18 * f
  let s := { s with light := { s.light with
    bad := acut s.light.bad base (base + 18)
    swaps := s.light.swaps.map fun (e : Nat × SwapState) => (e.1, { e.2 with moved := e.2.moved.filter fun m => m.1 / 16 != 2 * j + l }) } }
  let s := (List.range 16).foldl (fun (u : State) b =>
    u.wn (steer j l b) (if b < w then tx.getD b 0 % 18 + 2 ^ 6 + rx.getD b 0 % 18 * 2 ^ 8 + 2 ^ 14 else 0)) s
  let s := s.mapLane j l fun k => { k with assignTx := tx.take w, assignRx := rx.take w, asked := [], moves := [], targets := [], lost := [] }
  s.mapChan j fun x => x.mapLink l fun k => { k with width := w }

/-! ### INIT (R272, R277) -/

/-- Whether this end sets feature `b` in the FEATURES of its INIT (R273). -/
def State.offers (s : State) (j b : Nat) : Bool :=
  let cfg := s.rn (wg (j / 9) rWNG_FEATURE_CFG)
  bit (fld cfg 8 5) b && decide ([1, 2, 2, 3, 3].getD b 0 ≤ fld cfg 0 8)

/-- The lanes an end can run where `n` slots pass, as its INIT shows them (R262): 12 where it offers WIDTH_12. -/
def State.widthOffered (s : State) (j n : Nat) : Nat :=
  if 16 ≤ n then 16 else if 12 ≤ n && s.offers j 1 then 12 else if 8 ≤ n then 8 else 0

/-- A link's part of an INIT exchange at its start: a new SLOT count, nothing sent or heard of it yet. -/
def LinkState.exchange (k : LinkState) (joins : Bool) : LinkState :=
  { k with init := true, rejoin := joins, gotInit := false, sentAcked := false, gotAcked := false, lsn := 0, rxLsn := none, log := [], sinceOther := 0 }

/-- Start the INIT exchange of a link whose lanes are deskewed: it opens the channel with a new INSTANCE and the
grants of WNG_CREDIT_ADV, or rejoins a channel that a link of it has opened or is opening. -/
def State.beginInit (s : State) (j l : Nat) : State :=
  let joins := s.linkState j l != 0 || s.linkState j (1 - l) != 0 || ((s.chan j).link (1 - l)).init
  let s : State := if joins then s
    else
      let n := Config.entropy s.free % 2 ^ 16
      let own := fun c => s.rn (wg (j / 9) (rWNG_CREDIT_ADV + 4 * c))
      { s with free := s.free + 1 }.mapChan j fun x =>
        (List.range 4).foldl (fun (y : Chan) c => y.mapCls c fun k => { k with ownH := fld (own c) 0 12, ownD := fld (own c) 16 14 })
          { x with instance_ := n, peerInstance := none }
  (s.mapChan j fun x => x.mapLink l fun k => k.exchange joins).refreshChan j

/-- The moves of a link's lanes are abandoned (R351): their new slots go back to filler. -/
def State.dropMoves (s : State) (j l : Nat) : State :=
  let s := (s.lane j l).moves.foldl (fun (u : State) m => if u.txUse j m.2 = 2 then u.releaseTx j m.2 else u) s
  let s := (List.range 16).foldl (fun (u : State) b => u.setf (steer j l b) 15 1 0) s
  s.mapLane j l fun k => { k with asked := [], moves := [], targets := [] }

/-- Both ends of a link stop for a width change to code `w` (R275): its moves and a calibration on its fibre are abandoned (R351,
R374) and its lanes retrain with a new NONCE (R335), their margins to be measured anew; the exchange of INIT with REJOIN and the new
WIDTH follows. The end that asks first sends its request on both links. -/
def State.startWidth (s : State) (j l w : Nat) (ask : Bool) : State :=
  if s.linkState j l ≠ 2 || (s.f (cr j rWNG_CHAN_STAT) (8 + 2 * l) 2 = w) || (w = 1 && !s.feature j 1) then s
  else
    let f := s.rxFibre j l
    let s := (s.abandonOn j f).dropMoves j l
    let due := fun (k : LinkState) (up : Bool) => { k with widthDue := k.widthDue || (ask && up) }
    let sib := s.linkState j (1 - l) == 2
    let s := ((s.setLink j l 3).mapChan j fun x =>
      { ((x.resend l).mapLink l fun k => due { k.exchange true with init := false, lsn := k.lsn, width := widthOf w, fault := false } true).mapLink (1 - l)
          fun k => due k sib with
        widthReq := if ask then some (l, w) else x.widthReq, controlDue := x.controlDue || ask,
        naks := x.naks.filter fun n => n.1 != l }).refreshChan j
    let s := (s.mapLane j f fun k => { k with rxDone := false }).mapLane j l fun k => { k with peerDone := false }
    (s.drawNonce j l).sendFrames j l false

/-- A link short of lanes narrows by R275, or is suspended below 8. -/
def State.narrow (s : State) (j l : Nat) : State :=
  if s.linkState j l ≠ 2 then s
  else
    let n := s.linkWidth j l - (s.lane j l).lost.length
    let w := s.widthFor j n
    if w = 0 then s.suspend j l else s.startWidth j l (widthCode w) true

/-- A link whose exchange is complete is up (R272 step 3), which a CONTROL flit is to tell (R266), its lanes assigned anew where INIT
gave it another width; lanes lost since narrow it. One that changes its width waits for its lanes (R275). -/
def State.finishInit (s : State) (j l : Nat) : State :=
  let k := (s.chan j).link l
  if k.init && k.gotInit && k.sentAcked && k.gotAcked && s.linkState j l != 3 then
    let n := (s.lane j l).assignTx.length
    let s := if n != 0 && n != s.linkWidth j l then s.assignLanes j l (s.linkWidth j l) else s
    let s := ((s.setLink j l 2).mapChan j fun x =>
      { x.mapLink l fun k => { k with init := false, fault := false, sinceOther := 0 } with controlDue := true }).refreshChan j
    if (s.lane j l).lost = [] then s else s.narrow j l
  else s

end Sys2Proof.Machine
end

