-- ==== Sys2Proof/Machine/LinkFlit.lean ====
section
/-! DEFINITION. Flits sent and received on a link (07_pontonak_link.md R249 to R284): what a slot carries, each
kind of flit taken, acknowledgement, replay, credits, INIT, suspension and the timers. -/

namespace Sys2Proof.Machine

open Sys2Proof Host

/-! ### Receiving (R249, R250, R254) -/

/-- Whether a link receives flits: it is up, or its INIT exchange runs. -/
def State.receives (s : State) (j l : Nat) : Bool :=
  decide (j < 36) && decide (l < 2) && (s.linkState j l == 2 || ((s.chan j).link l).init)

/-- The receiver's slot count advances by one (R249). -/
def State.rxAdvance (s : State) (j l : Nat) : State :=
  s.mapChan j fun x => x.mapLink l fun k => { k with rxLsn := k.rxLsn.map fun n => (n + 1) % 2 ^ 16 }

/-- A good flit whose header or fields break the rules (R254 step 3). -/
def State.protocol (s : State) (j l : Nat) : State := (s.bump (cr j rWNG_DROP_COUNT)).linkEvent j l 4

/-- Take a good flit of one of `kinds`: its corrections count, its slot passes, a flit out of form is discarded, and the SLOT of
one other than DATA is compared (R250); a flit that passes both is taken by `body`. -/
def State.onFlit (s : State) (j l : Nat) (raw : List Nat) (kinds : Nat → Bool) (ok : Nat → List Byte → Bool)
    (body : State → Nat → List Byte → State) : State :=
  if !s.receives j l || raw.length ≠ 280 then s
  else match checkFlit raw with
    | .good n h p =>
      if !kinds (fld h 60 4) then s
      else
        let slot := ((s.chan j).link l).rxLsn
        let s := (s.bumpN (cr j rWNG_FEC_CORR_COUNT) n).rxAdvance j l
        let other := 2 ≤ fld h 60 4 && fld h 60 4 ≤ 5
        let slips := other && (match slot with | some e => fld h 26 16 != e | none => false)
        let formed := (fld h 60 4 == 1 || (other && fld h 42 18 == 0)) && ok h p
        let s := if formed then s else s.protocol j l
        if slips then (s.linkEvent j l 3).suspend j l
        else if formed then body s h p
        else s
    | _ => s

/-- Whether every byte of a payload in `[lo, hi)` is 0. -/
def zeroIn (p : List Byte) (lo hi : Nat) : Bool := ((p.take hi).drop lo).all (· == 0)

/-! ### DATA (R256, R265) -/

/-- The DATA flit a header and payload spell; on a channel where a flag's feature is off the flag is ignored. -/
def State.flitOf (s : State) (j h : Nat) (p : List Byte) : Flit where
  cls := fld h 58 2
  destModule := fld h 27 15
  destTile := tileIx (fld h 22 5) (fld h 16 6)
  tag := fld h 4 12
  congested := bit h 3 && s.feature j 4
  dup := bit h 2 && s.feature j 3
  poison := bit h 1
  last := bit h 0
  payload := p

/-- Whether a flit of a class and SEQ is held. -/
def Chan.isHeld (x : Chan) (c q : Nat) : Bool := x.held.any fun e => e.1 == q && e.2.cls == c

/-- Mark held flits in order as far as they go (R265). -/
def Chan.markInOrder (x : Chan) (c : Nat) : Nat → Chan
  | 0 => x
  | n + 1 =>
    let q := (x.cls c).next
    match x.held.find? (fun e => e.1 == q && e.2.cls == c) with
    | none => x
    | some e =>
      ({ x with held := x.held.erase e, ready := x.ready ++ [e.2], inOrder := x.inOrder + 1,
                controlDue := x.controlDue || decide (32 ≤ x.inOrder + 1) }.mapCls c fun k => { k with next := (q + 1) % 2 ^ 16 }).markInOrder c n

/-- Take a good DATA flit (R265). TC1 is outside the rules of a channel without COLLATE (R273). -/
def State.takeData (s : State) (j l h : Nat) (p : List Byte) : State :=
  let f := s.flitOf j h p
  let x := s.chan j
  let q := fld h 42 16
  let d := (q + 2 ^ 16 - (x.cls f.cls).next) % 2 ^ 16
  if s.linkState j l < 2 then s
  else if f.cls = 1 && !s.feature j 0 then s.protocol j l
  else if 0x8000 ≤ d then s.bump (cr j rWNG_DUP_COUNT)
  else if 8192 ≤ d then s.protocol j l
  else if x.isHeld f.cls q then s.bump (cr j rWNG_DUP_COUNT)
  else s.mapChan j fun x => { x with held := x.held ++ [(q, f)] }.markInOrder f.cls (x.held.length + 1)

/-- DATA_FLIT: a good DATA flit is held, marked in order or discarded (R265); one of a reserved KIND is discarded
(R254). -/
def execDataFlit (j l : Nat) (raw : List Nat) (s : State) : Outcome State Fault Refusal :=
  .next (s.onFlit j l raw (fun k => k = 1 || k = 0 || 6 ≤ k) (fun _ _ => true) fun s h p => s.takeData j l h p)

/-! ### CONTROL and CREDIT (R260, R267, R270, R274) -/

/-- Whether a CONTROL or CREDIT payload has its reserved parts at 0 (R260). -/
def controlOk (full : Bool) (h : Nat) (p : List Byte) : Bool :=
  let n := at_ p 24 1
  fld h 0 26 == 0 &&
  if full then
    decide (n ≤ 56) && at_ p 25 1 / 4 == 0 && at_ p 26 1 / 16 == 0 && at_ p 26 1 / 4 != 3 && zeroIn p 27 32 && zeroIn p (32 + 4 * n) 256
      && (List.range n).all fun i => at_ p (32 + 4 * i) 4 / 2 ^ 17 == 0
  else zeroIn p 0 8 && zeroIn p 24 256

/-- Take freed counts (R270): cumulative, or increments in P1-compatible mode (R274). -/
def ClassState.freed (k : ClassState) (p1 : Bool) (h d l : Nat) : ClassState :=
  let k := { k with creditLink := l }
  if p1 then { k with freedH := (k.freedH + h) % 2 ^ 16, freedD := (k.freedD + d) % 2 ^ 16 }
  else { k with freedH := if seqBefore k.freedH h then h else k.freedH, freedD := if seqBefore k.freedD d then d else k.freedD }

/-- The freed counts of a payload, for all classes. -/
def Chan.takeFreed (x : Chan) (p1 : Bool) (p : List Byte) (l : Nat) : Chan :=
  (List.range 4).foldl (fun (y : Chan) c => y.mapCls c fun k => k.freed p1 (at_ p (8 + 2 * c) 2) (at_ p (16 + 2 * c) 2) l) x

/-- Take acknowledgements (R267): the acknowledged point advances and earlier flits are released. -/
def Chan.takeAck (x : Chan) (c n : Nat) : Chan :=
  if seqBefore (x.cls c).acked n then
    let gone := fun (cls q : Nat) => cls == c && seqBefore q n
    { x with replay := x.replay.filter fun e => !gone e.2.2.cls e.1, retx := x.retx.filter fun e => !gone e.1 e.2 }.mapCls c
      fun k => { k with acked := n }
  else x

/-- Take a NAK for a slot of a link (R267): the unacknowledged DATA flit that slot carried is retransmitted. -/
def Chan.takeNak (x : Chan) (slot l : Nat) : Chan :=
  match (x.link l).log.find? (fun e => e.1 == slot) with
  | none => x
  | some (_, c, q) =>
    if x.replay.any (fun e => e.1 == q && e.2.2.cls == c) && !x.retx.contains (c, q) then { x with retx := x.retx ++ [(c, q)] } else x

/-- CONTROL_FLIT: acknowledgements, credits, then the NAK entries, the links the partner finds usable, and a width
request (R260, R267, R275, R276). -/
def execControlFlit (j l : Nat) (raw : List Nat) (s : State) : Outcome State Fault Refusal :=
  .next (s.onFlit j l raw (· = 2) (controlOk true) fun s _ p =>
    if s.linkState j l < 2 then s
    else
      let p1 := s.p1 j
      let s := s.mapChan j fun x =>
        let x := (List.range 4).foldl (fun (y : Chan) c => y.takeAck c (at_ p (2 * c) 2)) x
        let x := x.takeFreed p1 p l
        (List.range (at_ p 24 1)).foldl (fun (y : Chan) i =>
          let e := at_ p (32 + 4 * i) 4
          y.takeNak (fld e 0 16) (fld e 16 1)) x
      let s := [0, 1].foldl (fun (u : State) k => if !bit (at_ p 25 1) k && 2 ≤ u.linkState j k then u.suspend j k else u) s
      let w := at_ p 26 1
      if bit w 0 then s.startWidth j (fld w 1 1) (fld w 2 2) false else s)

/-- CREDIT_FLIT: its freed counts are taken (R270). -/
def execCreditFlit (j l : Nat) (raw : List Nat) (s : State) : Outcome State Fault Refusal :=
  .next (s.onFlit j l raw (· = 3) (controlOk false) fun s _ p =>
    if s.linkState j l < 2 then s
    else
      let p1 := s.p1 j
      s.mapChan j fun x => x.takeFreed p1 p l)

/-! ### IDLE, INIT and bad flits (R261, R262, R280) -/

/-- IDLE_FLIT: FAULT is honoured (R280). -/
def execIdleFlit (j l : Nat) (raw : List Nat) (s : State) : Outcome State Fault Refusal :=
  .next (s.onFlit j l raw (· = 4) (fun h p => fld h 0 25 == 0 && zeroIn p 0 256) fun s h _ =>
    (s.mapChan j fun x => x.mapLink l fun k => { k with fault := bit h 25 }).refreshChan j)

/-- Whether an INIT flit has its reserved parts at 0 (R262); a P1 sender fills only the bytes R274 names. -/
def initOk (h : Nat) (p : List Byte) : Bool :=
  fld h 0 24 == 0 && (at_ p 0 1 == 1 || (zeroIn p 7 8 && at_ p 8 4 / 2 ^ 5 == 0 && zeroIn p 14 16 && zeroIn p 48 256))

/-- What the first INIT of a channel gives it (R272, R273, R274): peer, level, features and grants. -/
def State.takePeer (s : State) (j : Nat) (p : List Byte) : State :=
  let p1 := at_ p 0 1 == 1
  let ffl := if p1 then 0 else at_ p 1 1
  let own := s.f (wg (j / 9) rWNG_FEATURE_CFG) 0 8
  let en := s.f (wg (j / 9) rWNG_FEATURE_CFG) 8 5
  let level := min own ffl
  let need := [1, 2, 2, 3, 3]
  let on := (List.range 5).filter fun b => bit en b && decide (need.getD b 0 ≤ own) && bit (at_ p 8 4) b && decide (need.getD b 0 ≤ level)
  let s := s.wn (cr j rWNG_CHAN_PEER) (at_ p 2 2 + at_ p 4 1 % 64 * 2 ^ 16 + ffl % 16 * 2 ^ 24 + at_ p 0 1 % 16 * 2 ^ 28)
  let s := (s.setf (cr j rWNG_CHAN_STAT) 3 1 (b2n p1)).setf (cr j rWNG_CHAN_STAT) 16 4 level
  let s := s.setf (cr j rWNG_CHAN_STAT) 24 5 (if p1 then 0 else (on.map (2 ^ ·)).foldl (· + ·) 0)
  s.mapChan j fun x =>
    (List.range 4).foldl (fun (y : Chan) c => y.mapCls c fun k => { k with advH := at_ p (16 + 2 * c) 2, advD := at_ p (24 + 2 * c) 2 })
      { x with peerInstance := some (if p1 then 0 else at_ p 12 2) }

/-- Who the partner is, from any INIT of it (R281): its module ID, UNSET and channel number. -/
def State.takeIdentity (s : State) (j : Nat) (p : List Byte) : State :=
  s.setf (cr j rWNG_CHAN_PEER) 0 22 (at_ p 2 2 + at_ p 4 1 % 64 * 2 ^ 16)

/-- INIT_FLIT: the partner's INIT during bring-up or rejoin (R272, R277). A rejoin that finds another INSTANCE, or
is answered with REJOIN = 0, resets the channel. The first INIT of an exchange that names a peer other than the plan's is a
PEER_MISMATCH (R281). -/
def execInitFlit (j l : Nat) (raw : List Nat) (s : State) : Outcome State Fault Refusal :=
  .next (s.onFlit j l raw (· = 5) initOk fun s h p =>
    let x := s.chan j
    let k := x.link l
    let p1 := at_ p 0 1 == 1
    if !k.init then s
    else if x.peerInstance.isSome && k.rejoin && ((!p1 && x.peerInstance != some (at_ p 12 2)) || !bit h 24) then
      (s.linkEvent j l 2).resetChan j
    else
      let echo := at_ p 40 8
      let s := s.mapChan j fun x => x.mapLink l fun k =>
        { k with rxLsn := some (k.rxLsn.getD ((fld h 26 16 + 1) % 2 ^ 16)), gotInit := true, gotAcked := k.gotAcked || bit h 25,
                 stamp := if p1 then 0 else at_ p 32 8 }
      let s := if !p1 && echo ≠ 0 then s.wn (cr j rWNG_CHAN_RTT) ((s.timer + 2 ^ 64 - echo) % 2 ^ 16) else s
      let first := x.peerInstance.isNone || (!k.rejoin && !p1 && x.peerInstance != some (at_ p 12 2))
      let s := if first then s.takePeer j p else s.takeIdentity j p
      let s := if !k.gotInit && !s.peerOk j then s.linkEvent j l 6 else s
      let s := s.setWidth j l (widthCode (s.widthFor j (if p1 then k.width else min k.width (at_ p 6 1))))
      s.finishInit j l)

/-- BAD_FLIT: a flit that fails RS decoding or the CRC is discarded and its slot negatively acknowledged (R254,
R266). -/
def execBadFlit (j l : Nat) (raw : List Nat) (s : State) : Outcome State Fault Refusal :=
  .next (
    if !s.receives j l || raw.length ≠ 280 then s
    else
      let slot := ((s.chan j).link l).rxLsn
      let bad := fun (u : State) => match slot with
        | none => u
        | some n => (u.rxAdvance j l).mapChan j fun x => { x with naks := x.naks ++ [(l, n)], controlDue := true }
      match checkFlit raw with
      | .good .. => s
      | .uncorr => bad (s.bump (cr j rWNG_FEC_UNCORR_COUNT))
      | .crcFail n => bad ((s.bumpN (cr j rWNG_FEC_CORR_COUNT) n).bump (cr j rWNG_CRC_FAIL_COUNT)))

/-! ### Leaving the reorder buffer (R257, R259, R265, R270) -/

/-- COLLATE crates in transit that no Wing serves and that wait at a Wing (R303). -/
def State.unserved (s : State) : List Crate :=
  s.fab.collIn.filter fun c => c.inTransit && !s.forMe c && (s.serving (c.request % 4096)).isNone

/-- The channel whose credits a crate in transit has to wait for (R321): its outgoing channel has none for it beside the crates
that already wait for it. -/
def State.transitWaits (s : State) (c : Crate) : Option Nat :=
  match s.pickChannel c with
  | none => none
  | some k =>
    let ahead := (s.waitingCrates ++ s.unserved.map fun c => (none, c)).filter fun (e : Option Nat × Crate) =>
      s.classOn k e.2 == s.classOn k c && (match e.1 with | some p => p == k | none => s.pickChannel e.2 == some k)
    let x := (s.chan k).cls (s.classOn k c)
    if ahead.length + 1 ≤ x.availH && (ahead.map fun e => e.2.flits).foldl (· + ·) 0 + c.flits ≤ x.availD then none else some k

/-- Whether a COLLATE crate in transit that no Wing serves is MXFP8: its LENGTH is of whole blocks and its arrival channel has
COLLATE_MXFP8; nothing else tells (log entry 162). -/
def State.guessMX (s : State) (j : Nat) (c : Crate) : Crate × State :=
  if c.op = 4 && s.feature j 2 && 0 < c.length && c.length % 33 = 0 then
    let (n, s) := s.draw 2
    ({ c with mx := n == 1 }, s)
  else (c, s)

/-- Whether a crate is a WAVE message for a later generation that finds 64 messages held, among them those that the Registrar
still has to take (R315). -/
def State.waveFull (s : State) (c : Crate) : Bool :=
  let gen := s.rn (winBase .pln 0 + rPLN_GEN_LO) % 2 ^ 16
  let later := fun (d : Crate) => d.op == 0x11 && at_ d.data 1 1 != 0xFF && seqBefore gen (at_ d.data 6 2)
  later c && s.forMe c && decide (64 ≤ s.fab.heldWaves.length + (s.fab.regIn.filter later).length)

/-- The crate in transit at the front of class `c` of channel `j` waits for credits of another channel, which counts it once
(R258, R283). -/
def State.frontWaits (s : State) (j c k : Nat) (d : Crate) : State :=
  if (aget none (s.chan j).waits c).map (·.1) = some k then s
  else (s.bump (cr k rWNG_CREDIT_STALL_COUNT)).mapChan j fun x => { x with waits := aput none x.waits c (some (k, s.classOn k d, s.timer)) }

/-- REORDER_RELEASE: the whole crate at the front of class `c` of channel `j`, its flits all marked in order, leaves
the reorder buffer and frees its credits (R265, R270); one in transit waits for credits on its way out (R321), TC1 behind a
COLLATE crate of its channel that waits (R308), and a WAVE message that finds no place (R315). -/
def execReorderRelease (j c : Nat) (s : State) : Outcome State Fault Refusal :=
  .next (
    let x := s.chan j
    let mine := x.ready.filter fun f => f.cls == c
    let n := (mine.takeWhile fun f => !f.last).length + 1
    let fs := mine.take n
    match crateOf j fs with
    | none => s
    | some d =>
      let d := s.landed j d
      let toMe := s.forMe d
      let split := fs.any fun f => f.tag != d.tag
      let column := toMe && d.tc != 3 && decide (33 ≤ d.destTile % 64)
      let onward := !toMe && (d.op ≠ 4 || (s.serving (d.request % 4096)).isNone)
      let g := if onward then s.guessMX j d else (d, s)
      let short := if onward then s.transitWaits g.1 else none
      let waits := ((d.op = 4 || c = 1) && s.fab.collIn.any fun q => q.via == d.via) || s.waveFull d
      if !decide (j < 36) || mine.length < n || s.f (winBase .gal 0 + rGAL_STAT) 0 1 = 1 || (c = 1 && s.halted .col (j / 9)) then s
      else if !split && !column && (waits || (!toMe && s.halted .fab)) then s
      else if !split && !column && short.isSome then s.frontWaits j c (short.getD 0) d
      else
        let s := if split || column then s else g.2
        let drop := fun (l : List Flit) => (l.foldl (fun (a : Nat × List Flit) f =>
          if f.cls == c && a.1 < n then (a.1 + 1, a.2) else (a.1, a.2 ++ [f])) (0, [])).2
        let s := s.mapChan j fun (x : Chan) =>
          let x : Chan := { x with ready := drop x.ready, waits := aput none x.waits c none }
          let y : ClassState := x.cls c
          let h : Nat := (y.outH + 1) % 2 ^ 16
          let d : Nat := (y.outD + n) % 2 ^ 16
          let due := decide (32 ≤ (h + 2 ^ 16 - y.repH) % 2 ^ 16) || decide (32 ≤ (d + 2 ^ 16 - y.repD) % 2 ^ 16)
          { x.mapCls c fun k => { k with outH := h, outD := d } with creditDue := x.creditDue || due }
        if split || column then (s.bumpN (cr j rWNG_DROP_COUNT) n).linkEvent j 0 4
        else s.arriveModule j { g.1 with since := if onward then (aget none x.waits c).map fun w => (w.1, w.2.2) else none })

/-! ### Sending (R248, R249, R264, R268, R320) -/

/-- Put a flit into the next slot of a link; the slot log keeps the last 8,192 slots (R267). -/
def State.sendFlit (s : State) (j l h : Nat) (p : List Byte) : State :=
  let s := s.mapChan j fun x => x.mapLink l fun k =>
    { k with lsn := (k.lsn + 1) % 2 ^ 16, log := k.log.filter fun e => decide ((k.lsn + 2 ^ 16 - e.1) % 2 ^ 16 < 8192) }
  { s with out := s.out ++ [Out.flit (j / 9) (2 * (j % 9) + l) ((sealFlit h p).map (BitVec.ofNat 8))] }

/-- The header of a flit other than DATA: KIND, SLOT and the bits below it (R255, R260 to R262). -/
def otherHeader (kind slot low : Nat) : Nat := kind * 2 ^ 60 + slot * 2 ^ 26 + low

/-- Send a flit other than DATA. -/
def State.sendOther (s : State) (j l kind low : Nat) (p : List Byte) : State :=
  let slot := ((s.chan j).link l).lsn
  (s.sendFlit j l (otherHeader kind slot low) p).mapChan j fun x => x.mapLink l fun k => { k with sinceOther := 0 }

/-- Send an IDLE flit; FAULT says Lockdown or a halted Wing (R261, R428). -/
def State.sendIdle (s : State) (j l : Nat) (fault : Bool) : State := s.sendOther j l 4 (b2n fault * 2 ^ 25) []

/-- Freed counts as a report carries them (R260, R274). -/
def State.freedBytes (s : State) (j : Nat) : List Byte :=
  let ks := (List.range 4).map fun c => (s.chan j).cls c
  let sub := fun (a b : Nat) => if s.p1 j then (a + 2 ^ 16 - b) % 2 ^ 16 else a
  (ks.map fun k => leBytes 2 (sub k.outH k.repH)).flatten ++ (ks.map fun k => leBytes 2 (sub k.outD k.repD)).flatten

/-- Everything freed has been reported. -/
def Chan.reported (x : Chan) : Chan :=
  (List.range 4).foldl (fun (y : Chan) c => y.mapCls c fun k => { k with repH := k.outH, repD := k.outD }) { x with creditDue := false }

/-- Send a CONTROL flit (R260, R266): NEXT and FREED of every class, at most 56 bad slots, the links usable (up, or in an
exchange of INIT) and a width request, every link by the partner's number (R338). -/
def State.sendControl (s : State) (j l : Nat) : State :=
  let x := s.chan j
  let naks := x.naks.take 56
  let links := (List.range 2).foldl (fun n k => n + b2n (2 ≤ s.linkState j k || (x.link k).init) * 2 ^ s.peerLink j k) 0
  let req := match x.widthReq with | some (k, w) => 1 + 2 * s.peerLink j k + 4 * w | none => 0
  let p := ((List.range 4).map fun c => leBytes 2 (x.cls c).next).flatten ++ s.freedBytes j
    ++ leBytes 1 naks.length ++ leBytes 1 links ++ leBytes 1 req ++ leBytes 5 0
    ++ (naks.map fun n => leBytes 4 (n.2 + 2 ^ 16 * s.peerLink j n.1)).flatten
  (s.sendOther j l 2 0 p).mapChan j fun x =>
    { x.reported.mapLink l fun k => { k with widthDue := false } with
      naks := x.naks.drop 56, inOrder := 0, widthReq := if (x.link (1 - l)).widthDue then x.widthReq else none,
      controlDue := decide (56 < x.naks.length) }

/-- Send a CREDIT flit (R270). -/
def State.sendCredit (s : State) (j l : Nat) : State :=
  (s.sendOther j l 3 0 (leBytes 8 0 ++ s.freedBytes j)).mapChan j Chan.reported

/-- Send an INIT flit (R262, R273); ACKED once the partner's INIT has come; in P1-compatible mode with the fields that
R274 names alone. -/
def State.sendInit (s : State) (j l : Nat) : State :=
  let x := s.chan j
  let k := x.link l
  let cfg := s.rn (wg (j / 9) rWNG_FEATURE_CFG)
  let feat := (((List.range 5).filter (s.offers j)).map (2 ^ ·)).foldl (· + ·) 0
  let v := fun (n a : Nat) => leBytes n (if s.p1 j then 0 else a)
  let p := leBytes 1 2 ++ v 1 (fld cfg 0 8) ++ leBytes 2 (s.myId + b2n s.unset * 2 ^ 15) ++ leBytes 1 j ++ leBytes 1 l
    ++ v 1 k.width ++ leBytes 1 0 ++ v 4 feat ++ v 2 x.instance_ ++ leBytes 2 0
    ++ ((List.range 4).map fun c => leBytes 2 (x.cls c).ownH).flatten ++ ((List.range 4).map fun c => leBytes 2 (x.cls c).ownD).flatten
    ++ v 8 s.timer ++ v 8 k.stamp
  ((s.sendOther j l 5 (b2n k.gotInit * 2 ^ 25 + b2n k.rejoin * 2 ^ 24) p).mapChan j fun x =>
    x.mapLink l fun k => { k with sentAcked := k.gotInit }).finishInit j l

/-- The header of a DATA flit (R255, R256); a flag whose feature is off is sent as 0 (R273). -/
def State.dataHeader (s : State) (j q : Nat) (f : Flit) : Nat :=
  2 ^ 60 + f.cls * 2 ^ 58 + q * 2 ^ 42 + f.destModule * 2 ^ 27 + f.destTile / 64 * 2 ^ 22 + f.destTile % 64 * 2 ^ 16 + f.tag * 2 ^ 4
    + b2n (f.congested && s.feature j 4) * 8 + b2n (f.dup && s.feature j 3) * 4 + b2n f.poison * 2 + b2n f.last

/-- Send a DATA flit, with its slot in the log (R267). -/
def State.sendData (s : State) (j l q : Nat) (f : Flit) : State :=
  let slot := ((s.chan j).link l).lsn
  let s := if f.congested && s.feature j 4 then s.bump (cr j rWNG_CONGEST_COUNT) else s
  (s.sendFlit j l (s.dataHeader j q f) f.payload).mapChan j fun x => x.mapLink l fun k =>
    { k with sinceOther := k.sinceOther + 1, log := k.log ++ [(slot, f.cls, q)] }

/-- The flits of a channel due for retransmission. -/
def Chan.resends (x : Chan) : List (Nat × Nat × Flit) := x.replay.filter fun e => x.retx.contains (e.2.2.cls, e.1)

/-- The first retransmission of a class in sequence order (R268). -/
def Chan.firstResend (x : Chan) (c : Nat) : Option (Nat × Nat × Flit) :=
  let rank := fun (e : Nat × Nat × Flit) => (e.1 + 2 ^ 16 - (x.cls c).acked) % 2 ^ 16
  (x.resends.filter fun e => e.2.2.cls == c).foldl (fun (b : Option (Nat × Nat × Flit)) e => match b with
    | none => some e
    | some o => if rank e < rank o then some e else b) none

/-- The retransmission due on a link: the first of its class, last sent on the sibling, or on this link while the sibling is
not up (R268); the higher class first. -/
def State.nextResend (s : State) (j l : Nat) : Option (Nat × Nat × Flit) :=
  let sib := s.linkState j (1 - l) == 2
  [3, 2, 1, 0].findSome? fun c => ((s.chan j).firstResend c).filter fun e => e.2.1 != l || !sib

/-- Retransmit a flit on a link (R268). -/
def State.resendOn (s : State) (j l : Nat) (e : Nat × Nat × Flit) : State :=
  let s := (s.bump (cr j rWNG_REPLAY_COUNT)).sendData j l e.1 e.2.2
  s.mapChan j fun x =>
    { x with retx := x.retx.erase (e.2.2.cls, e.1),
             replay := x.replay.map fun (r : Nat × Nat × Flit) => if r == e then (r.1, l, r.2.2) else r }

/-- The next new DATA flit of a link: TC3, then TC2, then TC1 and TC0 crate for crate in turn (R320), within the replay
buffer and 8,192 unacknowledged flits of its class (R264). -/
def State.nextNew (s : State) (j l : Nat) : Option Flit :=
  let x := s.chan j
  let turn := (x.link l).turn
  let may := fun (c : Nat) => decide (x.replay.length < 8192) && decide (((x.cls c).nextSeq + 2 ^ 16 - (x.cls c).acked) % 2 ^ 16 < 8192)
  ([3, 2, turn, 1 - turn].filter may).findSome? fun c => x.queue.find? fun f => f.cls == c

/-- Send a new DATA flit: it takes the next SEQ of its class and stays in the replay buffer (R263, R264). -/
def State.sendNew (s : State) (j l : Nat) (f : Flit) : State :=
  let q := ((s.chan j).cls f.cls).nextSeq
  (s.sendData j l q f).mapChan j fun x =>
    let x := { x with queue := x.queue.erase f, replay := x.replay ++ [(q, l, f)] }
    let x := x.mapCls f.cls fun k => { k with nextSeq := (q + 1) % 2 ^ 16 }
    if f.cls ≤ 1 then x.mapLink l fun k => { k with turn := if f.last then 1 - f.cls else f.cls } else x

/-- Bits that a Wing stuffs in one slot of a link (R334, log entry 9): each takes 48 bits of 2,240, on at most 16 lanes. -/
def State.countStuff (s : State) (w : Nat) : State :=
  let (n, s) := s.draw 63
  { s with light := { s.light with stuffed := aput 0 s.light.stuffed w (min 0xFFFFFFFF (aget 0 s.light.stuffed w + n)) } }

/-- FLIT_SLOT: link `l` of channel `j` sends the one flit of its slot (R249): IDLE with FAULT in Lockdown or on a
halted Wing (R428, R437); the width request of a change that begins (R275); INIT in every 16th slot of an exchange (R272); else
CONTROL, CREDIT, a flit other than DATA at least every 256 slots, a retransmission, new DATA where none is due, while the
partner shows no FAULT and is the peer of the plan (R268, R280, R281), or IDLE. -/
def execFlitSlot (j l : Nat) (s : State) : Outcome State Fault Refusal :=
  .next (
    let x := s.chan j
    let k := x.link l
    let asks := decide (j < 36) && decide (l < 2) && s.linkState j l == 3 && k.widthDue
    if !s.receives j l && !asks then s
    else
      let s := s.countStuff (j / 9)
      if s.locked || s.halted .wng (j / 9) then s.sendIdle j l true
      else if asks then s.sendControl j l
      else if k.init then (if k.lsn % 16 = 0 then s.sendInit j l else s.sendIdle j l false)
      else if x.controlDue || k.widthDue then s.sendControl j l
      else if x.creditDue then s.sendCredit j l
      else if 255 ≤ k.sinceOther || s.chanState j = 5 || !s.peerOk j then s.sendIdle j l false
      else match s.nextResend j l with
        | some e => s.resendOn j l e
        | none => match s.nextNew j l with
          | some f => if x.resends == [] then s.sendNew j l f else s.sendIdle j l false
          | none => s.sendIdle j l false)

/-! ### Timers and link events (R266, R269, R270, R272, R274, R276 to R278) -/

/-- Whether a Wing stops DATA and its timers: Lockdown, a halt, or a faulty partner (R280, R437). -/
def State.quietChan (s : State) (j : Nat) : Bool := s.locked || s.halted .wng (j / 9) || s.chanState j == 5

/-- ACK_TIMER_EXPIRY: WNG_ACK_TIME has passed since a flit marked in order that no CONTROL reported (R266). -/
def execAckTimerExpiry (j : Nat) (s : State) : Outcome State Fault Refusal :=
  .next (if j < 36 ∧ 0 < (s.chan j).inOrder then s.mapChan j fun x => { x with controlDue := true } else s)

/-- CREDIT_TIMER_EXPIRY: WNG_ACK_TIME has passed since a freeing not reported (R270). -/
def execCreditTimerExpiry (j : Nat) (s : State) : Outcome State Fault Refusal :=
  .next (
    let x := s.chan j
    if j < 36 && !x.controlDue && (List.range 4).any (fun c => (x.cls c).outH != (x.cls c).repH || (x.cls c).outD != (x.cls c).repD) then
      s.mapChan j fun x => { x with creditDue := true }
    else s)

/-- REPLAY_TIMER_EXPIRY: every unacknowledged flit last sent on the link is retransmitted (R269). -/
def execReplayTimerExpiry (j l : Nat) (s : State) : Outcome State Fault Refusal :=
  .next (if j < 36 && decide (l < 2) && !s.quietChan j then s.mapChan j fun x => x.resend l else s)

/-- LINK_SUSPEND: fewer than 8 active lanes of a link hold symbol lock (R276). -/
def execLinkSuspend (j l : Nat) (s : State) : Outcome State Fault Refusal :=
  .next (if j < 36 ∧ l < 2 then s.suspend j l else s)

/-- LINK_REJOIN: the lanes of a suspended link have lock again, and the exchange of INIT with REJOIN starts (R277), at
the width that the lanes it has not lost can carry (R275); not on a P1 channel (R274). -/
def execLinkRejoin (j l : Nat) (s : State) : Outcome State Fault Refusal :=
  .next (
    let w := s.widthFor j (s.linkWidth j l - (s.lane j l).lost.length)
    if j < 36 && decide (l < 2) && s.linkState j l == 1 && !s.p1 j && !((s.chan j).link l).init && decide (8 ≤ w) then
      (s.mapChan j fun x => x.mapLink l fun k => { k with width := w }).beginInit j l
    else s)

/-- LINK_DOWN_TIMER: WNG_LINK_DOWN_TIME has passed without lock for a suspended link (R278). -/
def execLinkDownTimer (j l : Nat) (s : State) : Outcome State Fault Refusal :=
  .next (if j < 36 && decide (l < 2) && s.linkState j l == 1 && !((s.chan j).link l).init then s.linkDown j l else s)

/-- Whether a crate waits for credits of class `c` of channel `j`, at a Wing or in transit in a reorder buffer (R274). -/
def State.classWaits (s : State) (j c : Nat) : Bool :=
  (s.waitingCrates.any fun e => s.classOn j e.2 == c && (e.2.since.map (·.1)) == some j)
    || s.fab.chans.any fun e => e.2.waits.any fun w => match w.2 with
        | some (k, d, _) => k == j && d == c
        | none => false

/-- CREDIT_TIMEOUT: a class of a P1 channel has waited WNG_CREDIT_TIME with no credit report; the link that carried
its last one is declared down (R274). -/
def execCreditTimeout (j c : Nat) (s : State) : Outcome State Fault Refusal :=
  .next (
    let k := ((s.chan j).cls c).creditLink
    if j < 36 && s.p1 j && !s.quietChan j && s.classWaits j c then (s.linkEvent j k 5).linkDown j k else s)

/-- WIDTH_CHANGE: the Wing decides that a link changes to `width` lanes, and asks the partner (R275). -/
def execWidthChange (j l width : Nat) (s : State) : Outcome State Fault Refusal :=
  .next (
    if j < 36 ∧ l < 2 ∧ (width = 16 ∨ width = 12 ∨ width = 8) then s.startWidth j l (widthCode width) true else s)

/-! ### Commands of WNG_CHAN_CTRL and WNG_CREDIT_ADV (R271, R283) -/

/-- CHANNEL_RESET (R279). -/
def execChannelReset (j : Nat) (_side : Side) (s : State) : Outcome State Fault Refusal :=
  .next (if j < 36 then s.resetChan j else s)

/-- LINK_DOWN: declares a link down at once (R278, R283). -/
def execLinkDown (j l : Nat) (_side : Side) (s : State) : Outcome State Fault Refusal :=
  .next (if j < 36 ∧ l < 2 then s.linkDown j l else s)

/-- CREDIT_ADV_WRITE: a write of WNG_CREDIT_ADV[c] of Wing `w`, within the grants of R271. -/
def execCreditAdvWrite (w c value : Nat) (side : Side) (s : State) : Outcome State Fault Refusal :=
  .next (if w < 4 ∧ c < 4 then s.regStore (wg w (rWNG_CREDIT_ADV + 4 * c)) value 0xFFFFFFFF side else s)

end Sys2Proof.Machine
end

