-- ==== Sys2Proof/Machine/Lanes.lean ====
section
/-! DEFINITION. Lanes (09_wings_and_lanes.md R333 to R352): training frames and bring-up, margin tests, assignment
of lanes to slots, moves of a lane from slot to slot, lanes lost, and the width that follows. -/

namespace Sys2Proof.Machine

open Sys2Proof Host

/-! ### Lane control (R344) -/

/-- CRC-8 with polynomial 0x07 over `n` bits, first bit lowest. -/
def crc8 : Nat → Nat → Nat → Nat
  | 0, _, c => c
  | n + 1, w, c =>
    let c' := 2 * c % 2 ^ 8
    crc8 n (w / 2) (if (c / 2 ^ 7 + w) % 2 = 1 then c' ^^^ 0x07 else c')

/-- A lane-control frame of 32 bits (R344): OP 1 REQUEST, 2 MOVE, 3 SWITCHED, 4 REFUSE. -/
def laneFrame (op link lane slot fibre : Nat) : Nat :=
  let b := 6 + op * 2 ^ 4 + link * 2 ^ 8 + lane * 2 ^ 9 + slot * 2 ^ 13 + fibre * 2 ^ 18
  b + crc8 24 b 0 * 2 ^ 24

/-- Send a lane-control message about a lane of link `l` (R344), LINK in the recipient's numbering; it stands for the frames
that repeat it until the answer comes (log entry 161). -/
def State.laneMsg (s : State) (j l op lane slot fibre : Nat) : State :=
  { s with out := s.out ++ [Out.laneFrame (j / 9) (2 * (j % 9) + l) (leBytes 4 (laneFrame op (s.peerLink j l) lane slot fibre))] }

/-! ### Bring-up (R338 to R342) -/

/-- A bring-up fails with a reason (R342): 1 NO_LIGHT, 2 NO_SYNC, 3 MAPPING, 4 TOO_FEW, 5 TIMEOUT. -/
def State.failBringup (s : State) (j l reason : Nat) : State :=
  (((s.setf (lk j l rWNG_LINK_STAT) 0 3 5).setf (lk j l rWNG_LINK_STAT) 16 4 reason).linkEvent j l 12).refreshChan j

/-- Dither frequencies of the rings on the waveguide of number `g`: fixed by firmware's table, and no two alike (R357, log
entry 191). -/
def dithers (g : Nat) : Nat → List Nat → List Nat
  | 0, _ => []
  | n + 1, left =>
    let k := left.getD (Config.dither (18 * g + n) % left.length) 0
    k :: dithers g n (left.erase k)

/-- Queue receive slot `n` of Wing `w` for calibration, with a rank and a temperature excess (R361, R362). -/
def State.queueCal (s : State) (w n rank excess : Nat) : State :=
  match s.light.cal.find? (fun c => c.wing == w && c.slot == n) with
  | some c =>
    { s with light := { s.light with cal := s.light.cal.map fun (d : CalWait) =>
      if d == c then { d with rank := min d.rank rank, excess := max d.excess excess } else d } }
  | none => { s with light := { s.light with cal := s.light.cal ++ [(⟨w, n, rank, excess, s.timer, false⟩ : CalWait)] } }

/-- The calibration record under a key, where it has one whose CHECK holds and which no band-gap's drift has made stale (R359,
R366). -/
def State.validRec (s : State) (key : Nat) : Option (List Byte) :=
  let r := aget [] s.arch.calRecs key
  if r.length = 16 ∧ at_ r 12 4 = crc32c ((r.take 12).map (·.toNat)) ∧ !s.arch.staleCal.contains key then some r else none

/-- The key of the calibration record of the ring at `off` of slot or bank `x` of a channel: [8:0] n or b, [10:9] Wing, [11] a
modulator's (R366). -/
def recKey (j x off : Nat) : Nat := (if off = rWNG_RING_TX then 2048 else 0) + 512 * (j / 9) + 36 * (j % 9) + x

/-- A ring starts from its calibration record, or without one from the start of the heater range; a filter ring's slot is then
calibrated (R366). -/
def State.startRing (s : State) (j x off : Nat) : State :=
  match s.validRec (recKey j x off) with
  | some r => s.setf (sl j x off) 0 14 (at_ r 2 2)
  | none =>
    let s := s.setf (sl j x off) 0 14 0
    if off = rWNG_RING_TX then s else s.queueCal (j / 9) (36 * (j % 9) + x) 2 0

/-- The number of a ring among those that may unlock (R358): of a filter, 0, a modulator, 1, or a ring switch, 2. -/
def ringNo (w kind n : Nat) : Nat := 972 * w + 324 * kind + n

/-- The PIC temperature in 0.25 °C (R381). -/
def State.picTemp (s : State) (w : Nat) : Int := sext 12 (s.f (wg w rWNG_PIC_TEMP) 0 12)

/-- PIC_THERMAL holds as a level: above 95 °C, or while more than a quarter of a PIC's rings have been unlocked (R373, R441). -/
def State.picLevel (s : State) (w : Nat) : State := s.setLevel .wng w 16 (decide (380 < s.picTemp w) || s.light.unlocked.contains w)

/-- The rings of a Wing that have unlocked and not relocked. -/
def State.ringsOutOf (s : State) (w : Nat) : Nat := (s.light.ringsOut.filter fun r => r / 972 == w).length

/-- The `n` rings of a Wing from number `lo` on have locked again. With at most a quarter of the PIC's rings unlocked that condition of
PIC_THERMAL ends (R373, log entry 193). -/
def State.ringsBack (s : State) (w lo n : Nat) : State :=
  let s := { s with light := { s.light with ringsOut := s.light.ringsOut.filter fun r => r < lo || lo + n ≤ r } }
  if 4 * s.ringsOutOf w ≤ 972 && s.light.unlocked.contains w then
    let s := { s with light := { s.light with unlocked := s.light.unlocked.filter (· != w) } }
    if 380 < s.picTemp w then s else s.setLevel .wng w 16 false
  else s

/-- The rings of one fibre at `off` are locked, with their dither frequencies (R356, R357). -/
def State.lockRings (s : State) (j l off : Nat) : State :=
  let tx := decide (off = rWNG_RING_TX)
  let s := (dithers (4 * j + 2 * l + b2n tx) 18 (List.range 64)).zipIdx.foldl (fun (u : State) (k : Nat × Nat) =>
    let a := sl j (18 * l + k.2) off
    (((u.startRing j (18 * l + k.2) off)).setf a 14 1 1).setf a 16 6 k.1) s
  s.ringsBack (j / 9) (ringNo (j / 9) (b2n tx) (36 * (j % 9) + 18 * l)) 18

/-- Start training a link: its slots forgotten but for Suspect marks, which a channel reset clears (R364), and the lanes that the
sibling has on its fibres; rings locked, a NONCE drawn, frames on all its slots (R333, R341). A calibration on its fibre is abandoned
(R365). -/
def State.startTraining (s : State) (j l : Nat) : State :=
  let cut := fun (u : State) (off k n : Nat) => u.clearRange .chn (wg (j / 9) (off + 4 * k)) (wg (j / 9) (off + 4 * (k + n)))
  let f := s.rxFibre j l
  let x := 36 * (j % 9)
  let p := 2 * (j % 9) + l
  let kept := fun (off use : Nat) (y : Nat) => (sl j y off, s.rn (sl j y off) &&& use)
  let marks := (passing (fun y => s.f (sl j y rWNG_RX_SLOT_STAT) 9 1 == 1) f).map (kept rWNG_RX_SLOT_STAT (2 ^ 9))
    ++ (passing (s.rxForeign j) f).map (kept rWNG_RX_SLOT_STAT 0xFF027F) ++ (passing (s.txForeign j) l).map (kept rWNG_TX_SLOT_STAT 0xFFFFFFFF)
  let s := s.abandonOn j f
  let s := cut (cut (cut (cut (cut s rWNG_RX_SLOT_STAT (x + 18 * f) 18) rWNG_RX_SLOT_QUAL (x + 18 * f) 18) rWNG_TX_SLOT_STAT (x + 18 * l) 18)
    rWNG_STEER_MAP (16 * p) 16) rWNG_LINK_STAT p 1
  let s := marks.foldl (fun (u : State) m => u.wn m.1 m.2) s
  let s := (s.lockRings j f rWNG_CAL_RX).lockRings j l rWNG_RING_TX
  let s := s.mapLane j f fun k => { k with rxDone := false, heard := none, sender := none }
  let s := (s.mapLane j l fun k => { LaneLink.reset with interval := k.interval }).drawNonce j l
  ((s.setf (lk j l rWNG_LINK_STAT) 0 3 1).refreshChan j).sendFrames j l false

/-- Whether the module is in A3 or A4, where no link trains (R507, R508). -/
def State.dark (s : State) : Bool := decide (3 ≤ s.f (winBase .pwr 0 + rPWR_STATE_STAT) 0 3)

/-- BRINGUP_START: a link's lasers are lit and locked (R341 step 1). A channel that an ISOLATE took out stays down
until the next hang (R428). -/
def execBringupStart (j l : Nat) (s : State) : Outcome State Fault Refusal :=
  .next (
    if j < 36 && decide (l < 2) && s.bringup j l == 0 && s.linkState j l == 0 && !(s.chan j).isolated && !s.dark then s.startTraining j l else s)

/-- Assign lanes once both margin tests of a link are done (R340, R341 step 5); INIT shows the lanes it can run. -/
def State.tryAssign (s : State) (j l : Nat) : State :=
  if !(s.bringup j l == 1 || s.bringup j l == 2) || !(s.lane j l).peerDone || !(s.lane j (s.rxFibre j l)).rxDone then s
  else
    let a := lk j l rWNG_LINK_STAT
    let rx := (passing (s.rxTakes j) (s.rxFibre j l)).length
    let tx := (passing (s.txPasses j) l).length
    let s := (s.setf a 6 5 rx).setf a 11 5 tx
    let w := s.assignWidth j l
    if w = 0 then s.failBringup j l 4
    else
      let s := (s.assignLanes j l w).mapChan j fun x => x.mapLink l fun k => { k with width := s.widthOffered j (min (s.rxAvail j l).length (s.txAvail j l).length) }
      ((s.setf a 0 3 3).refreshChan j).sendFrames j l true

/-- A link whose partner's flit stream starts is through bring-up, and INIT follows (R341 step 6). -/
def State.endBringup (s : State) (j l : Nat) : State :=
  if s.bringup j l ≠ 3 then s
  else ((s.setf (lk j l rWNG_LINK_STAT) 0 3 4).mapLane j l fun k => { k with interval := 0 }).beginInit j l

/-- Whether the frames of a channel's two receive fibres come from two channels (R329): their CHANNEL differs, or their MODULE_ID
does where the plan in force does not name the new one as this channel's neighbour, or no plan is in force and neither is the 0 of a
module without ID (R285, log entry 166). -/
def State.miscabled (s : State) (j k b : Nat) : Bool :=
  match (s.lane j (1 - k)).sender with
  | some (m, c) => c != fld b 15 6 || (m != fld b 0 15
      && (s.fibreTrains j (1 - k) || (if s.cur.now.isNone then m != 0 && fld b 0 15 != 0 else (s.chanMap j).neighbour != fld b 0 15)))
  | none => false

/-- What a good frame on receive slot `r` of fibre `k` says (R329, R337, R338); the frames of the pair say at once that its fibre
is heard. -/
def State.takeFrame (s : State) (j k r b : Nat) (inv : Bool) : State :=
  let x := fld b 22 5
  let q := fld b 21 1
  if (x ≠ r && x + r ≠ 17) || s.miscabled j k b then s.failBringup j (s.fibreLink j k) 3
  else
    let a := sl j (18 * k + x) rWNG_RX_SLOT_STAT
    let s := (s.setf a 8 1 1).setf a 7 1 (b2n inv)
    let s := if x ≠ r then s.setf (lk j (s.fibreLink j k) rWNG_LINK_STAT) 5 1 1 else s
    let news := (s.lane j k).heard != some q
    let s := s.mapLane j k fun z => { z with heard := some q, peerNonce := fld b 33 16, sender := some (fld b 0 15, fld b 15 6) }
    let s := if news then s.sendFrames j k false else s
    if !bit b 68 then s
    else
      let l := fld b 69 1
      let s := s.mapLane j l fun z => { z with peerHeard := some l, peerPass := fld b 49 18, peerDone := bit b 67 }
      let c := lk j l rWNG_LINK_STAT
      let s := ((s.setf c 3 1 q).setf c 4 1 (b2n (l != k))).setf c 5 1 (b2n (x != r))
      let s := s.tryAssign j l
      if bit b 70 then s.endBringup j l else s

/-- Whether the lanes of the link of a receive fibre retrain for a width change (R275 step 3). -/
def State.fibreRetrains (s : State) (j k : Nat) : Bool :=
  s.linkState j (s.fibreLink j k) == 3 && !((s.chan j).link (s.fibreLink j k)).init

/-- Once both margin tests of a retraining are done, LAST is sent and the exchange of INIT with REJOIN and the new WIDTH begins
(R275 steps 3 and 4); fewer than 8 usable lanes suspend the link. -/
def State.endRetrain (s : State) (j l : Nat) : State :=
  let w := s.assignWidth j l
  if s.linkState j l ≠ 3 || ((s.chan j).link l).init || !(s.lane j l).peerDone || !(s.lane j (s.rxFibre j l)).rxDone then s
  else if w = 0 then s.suspend j l
  else (s.mapChan j fun x => x.mapLink l fun k => { k.exchange true with width := min k.width w }).sendFrames j l true

/-- What a good frame says while the lanes of a link retrain for a width change (R275 step 3): the slot has lock, the
partner's NONCE (R333), and with RX_DONE the slots it finds passing (R337, R340). -/
def State.takeRetrain (s : State) (j k b : Nat) : State :=
  let l := s.fibreLink j k
  let s := (s.setf (sl j (18 * k + fld b 22 5) rWNG_RX_SLOT_STAT) 8 1 1).mapLane j k fun z => { z with peerNonce := fld b 33 16 }
  if bit b 67 && bit b 68 && fld b 69 1 == l then
    (s.mapLane j l fun z => { z with peerPass := fld b 49 18, peerDone := true }).endRetrain j l
  else s

/-- TRAINING_FRAME: 256 bits arrive on receive slot `r` of fibre `k` of a channel in training; a frame that is not
good is none (R337, R338). -/
def execTrainingFrame (j k r frame : Nat) (s : State) : Outcome State Fault Refusal :=
  .next (
    if j < 36 && decide (k < 2) && decide (r < 18) then
      match openFrame frame with
      | some (b, inv) =>
        if s.fibreTrains j k then s.takeFrame j k r b inv
        else if s.fibreRetrains j k && decide (fld b 22 5 < 18) then s.takeRetrain j k b
        else s
      | none => s
    else s)

/-- The margins of the slots of receive fibre `k`, and how many slots pass; one that fails is a MARGIN_LOW event (R339). -/
def State.takeMargins (s : State) (j k : Nat) (margins : List Nat) : State :=
  let s := margins.zipIdx.foldl (fun (u : State) (m : Nat × Nat) =>
    let x := 18 * k + m.2
    let u := u.setf (sl j x rWNG_RX_SLOT_STAT) 16 8 (min 255 m.1)
    if u.rxTakes j x then u else u.event .wng (j / 9) 9 (wngDetail j k (36 * (j % 9) + x))) s
  s.setf (lk j (s.fibreLink j k) rWNG_LINK_STAT) 6 5 (passing (s.rxTakes j) k).length

/-- MARGIN_TEST_DONE: the margins of the 18 slots of receive fibre `k` are known, and RX_DONE is set; a slot that fails is
a MARGIN_LOW event (R339, R341 step 4). In a width change margins are measured anew (R374). -/
def execMarginTestDone (j k : Nat) (margins : List Nat) (s : State) : Outcome State Fault Refusal :=
  .next (
    if !(j < 36 && decide (k < 2) && (s.fibreTrains j k || s.fibreRetrains j k) && !(s.lane j k).rxDone && margins.length == 18) then s
    else if !s.fibreTrains j k then
      let l := s.fibreLink j k
      (((s.takeMargins j k margins).mapLane j k fun z => { z with rxDone := true }).sendFrames j l false).endRetrain j l
    else
      let s := (s.takeMargins j k margins).mapLane j k fun z => { z with rxDone := true }
      let s := (List.range 18).foldl (fun (u : State) x =>
        if u.rxForeign j (18 * k + x) then u else u.setf (sl j (18 * k + x) rWNG_RX_SLOT_STAT) 0 2 (if s.rxTakes j (18 * k + x) then 0 else 2)) s
      let a := lk j (s.fibreLink j k) rWNG_LINK_STAT
      let s := if s.f a 0 3 = 1 then s.setf a 0 3 2 else s
      let s := s.sendFrames j k false
      (s.tryAssign j k).tryAssign j (1 - k))

/-- BRINGUP_TIMEOUT: a link has not finished bring-up within 5 ms (R341). -/
def execBringupTimeout (j l : Nat) (s : State) : Outcome State Fault Refusal :=
  .next (if j < 36 && decide (l < 2) && 1 ≤ s.bringup j l && s.bringup j l ≤ 3 then s.failBringup j l 5 else s)

/-- RETRAIN_RETRY: firmware trains a failed link again, and doubles the interval to the next try, up to 1 s; not on a
channel whose LEVEL is 0 in the plan (R342), and not a link of a P1 channel that was up before (R274). -/
def execRetrainRetry (j l : Nat) (s : State) : Outcome State Fault Refusal :=
  .next (
    let may := s.cur.now.isNone || (s.chanMap j).level != 0
    if j < 36 && decide (l < 2) && s.bringup j l == 5 && may && !(s.p1 j && ((s.chan j).link l).fell) && !(s.chan j).isolated && !s.dark then
      let n := (s.lane j l).interval
      let next := if n = 0 then s.f (wg (j / 9) rWNG_RETRAIN_TIME) 0 10 else min 1000 (2 * n)
      ((s.bump (wg (j / 9) rWNG_RETRAIN_COUNT)).mapLane j l fun k => { k with interval := next }).startTraining j l
    else s)

/-- INIT_TIMEOUT: an exchange of INIT has not completed within 100 µs and starts again from lane training (R272). A link of an
open channel is down by that, and where its sibling is down as well so is the channel (R278). -/
def execInitTimeout (j l : Nat) (s : State) : Outcome State Fault Refusal :=
  .next (
    if j < 36 && decide (l < 2) && ((s.chan j).link l).init then
      let opened := s.linkState j l != 0
      let s := (s.setLink j l 0).setWidth j l 3
      let s := s.mapChan j fun x => x.mapLink l fun k => { LinkState.reset with stamp := k.stamp, fell := k.fell || opened }
      if opened && s.linkState j (1 - l) = 0 then s.chanDown j l
      else (if opened then s.mapChan j fun x => { x with controlDue := true } else s).startTraining j l
    else s)

/-! ### Moves (R343 to R347) -/

/-- Whether a lane of a link is in use. -/
def State.laneUsed (s : State) (j l b : Nat) : Bool :=
  decide (j < 36) && decide (l < 2) && decide (b < 16) && s.f (steer j l b) 6 1 == 1

/-- MOVING of a lane from the moves of both directions. -/
def State.showMoving (s : State) (j l b : Nat) : State :=
  let k := s.lane j l
  s.setf (steer j l b) 15 1 (b2n (k.moves.any (fun m => m.1 == b) || k.targets.any fun m => m.1 == b))

/-- Ask the partner to move a receive lane (R345 step 1); a lane whose move is in progress is not asked for again, unless
its new slot has lost lock (R351). -/
def State.askMove (s : State) (j l b : Nat) : State :=
  let live := (s.lane j l).targets.any fun m => m.1 == b && s.f (sl j m.2 rWNG_RX_SLOT_STAT) 8 1 == 1
  if (s.lane j l).asked.contains b || live then s
  else (s.mapLane j l fun k => { k with asked := k.asked ++ [b] }).laneMsg j l 1 b 0 0

/-- Put a transmit lane on a second slot and send MOVE (R345 step 2). -/
def State.startMove (s : State) (j l b x : Nat) : State :=
  ((((s.setTx j x 2 b (x / 18 != l)).mapLane j l fun k => { k with moves := k.moves ++ [(b, x)] })).showMoving j l b).laneMsg j l 2 b (x % 18) (b2n (x / 18 != l))

/-- Whether a transmit slot is dark in a laser swap past its step 2 (R367, R368). -/
def State.swapSlot (s : State) (j x : Nat) : Bool :=
  s.light.swaps.any fun e => e.1 / 162 == j / 18 && e.1 % 162 == 9 * (x % 18) + j % 9 && decide (3 ≤ e.2.step)

/-- Whether a laser swap holds a free transmit slot (R368). -/
def State.swapHeld (s : State) (j x : Nat) : Bool := s.light.swaps.any fun e => e.2.held.contains (36 * j + x)

/-- The free slot a requested lane takes (R345 step 2): the highest margin on its own fibre, else on the sibling's; one that a laser
swap holds only where there is no other, since a fault's move comes before a swap (R374, log entry 192). -/
def State.freeSlot (s : State) (j l : Nat) (margin : Nat → Nat) : Option Nat :=
  let ok := fun (held : Bool) x => s.txUse j x == 0 && !s.swapSlot j x && !s.slotDead j x && s.swapHeld j x == held
    && decide (s.f (wg (j / 9) rWNG_MARGIN_THRESH) 0 8 ≤ margin x)
  [(false, l), (false, 1 - l), (true, l), (true, 1 - l)].findSome? fun e => firstBest margin (passing (ok e.1) e.2)

/-- A slot that a laser swap held is taken from it (R374). -/
def State.unholdSlot (s : State) (j x : Nat) : State :=
  if s.swapHeld j x then { s with light := { s.light with
    swaps := s.light.swaps.map fun (e : Nat × SwapState) => (e.1, { e.2 with held := e.2.held.filter (· != 36 * j + x) }) } }
  else s

/-- LANE_REQUEST for a transmit lane, with the margins of the channel's 36 transmit slots (R345): MOVE, or REFUSE where no
free slot has the margin; ignored while the lane moves (R351). -/
def execLaneRequest (j l lane : Nat) (margins : List Nat) (s : State) : Outcome State Fault Refusal :=
  .next (
    if !s.laneUsed j l lane || (s.lane j l).moves.any (fun m => m.1 == lane) then s
    else match s.freeSlot j l (fun x => margins.getD x 0) with
      | some x => (s.unholdSlot j x).startMove j l lane x
      | none => ((s.bump (wg (j / 9) rWNG_REFUSE_COUNT)).linkEvent j l 10).laneMsg j l 4 lane 0 0)

/-- LANE_MOVE: the partner sends a receive lane on a second slot as well (R345 step 3); a calibration of that slot gives
way (R374). A Suspect slot is no target (R364). -/
def execLaneMove (j l lane slot fibre : Nat) (s : State) : Outcome State Fault Refusal :=
  .next (
    let f := s.rxFibre j l
    let x := 18 * (if fibre = 1 then 1 - f else f) + slot
    if !s.laneUsed j l lane || 18 ≤ slot || 2 ≤ fibre || s.rxUse j x == 1 || s.f (sl j x rWNG_RX_SLOT_STAT) 9 1 == 1 then s
    else
      let s := match aget none s.light.calNow j with
        | some c => if c.slot = 36 * (j % 9) + x then s.abandonCal j else s
        | none => s
      (s.mapLane j l fun k => { k with asked := k.asked.filter (· != lane),
                                       targets := (k.targets.filter fun m => m.1 != lane) ++ [(lane, x)] }).showMoving j l lane)

/-- LANE_TAKE_NEW_SLOT: the lane is aligned on its new slot and taken from it at a flit-group boundary; SWITCHED is sent
(R345 step 3). Not where the slot has lost lock (R351) or is Suspect (R364). The updates counted against the slot before are no lane's
(R346). -/
def execLaneTakeNewSlot (j l lane : Nat) (s : State) : Outcome State Fault Refusal :=
  .next (match (s.lane j l).targets.find? (fun m => m.1 == lane) with
    | none => s
    | some (_, x) =>
      let a := sl j x rWNG_RX_SLOT_STAT
      if !s.laneUsed j l lane || s.f a 8 1 = 0 || s.f a 9 1 = 1 then s
      else
        let f := s.rxFibre j l
        let s := s.releaseRx j (s.rxSlotOf j l lane)
        let s := s.setRx j x 1 lane (x / 18 != f)
        let s := { s with light := { s.light with bad := aput 0 s.light.bad (324 * (j / 9) + 36 * (j % 9) + x) 0 } }
        let m := steer j l lane
        let s := ((s.setf m 8 5 (x % 18)).setf m 13 1 (b2n (x / 18 != f))).setf m 14 1 1
        let s := s.mapLane j l fun k => { k with targets := k.targets.filter fun m => m.1 != lane, lost := k.lost.filter (· != lane) }
        (s.showMoving j l lane).laneMsg j l 3 lane (x % 18) (b2n (x / 18 != f)))

/-- LANE_SWITCHED: the partner has taken a transmit lane from its new slot, and the old one is released (R345 step 4). -/
def execLaneSwitched (j l lane : Nat) (s : State) : Outcome State Fault Refusal :=
  .next (match (s.lane j l).moves.find? (fun m => m.1 == lane) with
    | none => s
    | some (_, x) =>
      if !s.laneUsed j l lane then s
      else
        let old := s.txSlotOf j l lane
        let s := (s.releaseTx j old).setf (sl j x rWNG_TX_SLOT_STAT) 0 2 (if s.slotDead j x then 3 else 1)
        let m := steer j l lane
        let s := (s.setf m 0 5 (x % 18)).setf m 5 1 (b2n (x / 18 != l))
        let s := s.mapLane j l fun k => { k with moves := k.moves.filter fun m => m.1 != lane }
        (s.showMoving j l lane).bump (wg (j / 9) rWNG_MOVE_COUNT))

/-- STEER_TIMEOUT: SWITCHED has not come within WNG_STEER_TIME, and the slot goes back to filler (R345); one whose laser has died
meanwhile stays failed (R360). -/
def execSteerTimeout (j l lane : Nat) (s : State) : Outcome State Fault Refusal :=
  .next (match (s.lane j l).moves.find? (fun m => m.1 == lane) with
    | none => s
    | some (_, x) =>
      let s := s.setTx j x (if s.slotDead j x then 3 else 0) 0 false
      let s := s.mapLane j l fun k => { k with moves := k.moves.filter fun m => m.1 != lane }
      ((s.showMoving j l lane).bump (wg (j / 9) rWNG_STEER_FAIL_COUNT)).linkEvent j l 11)

/-! ### Lanes lost (R335, R346) -/

/-- A lane is lost. -/
def State.loseLane (s : State) (j l b : Nat) : State :=
  (s.mapLane j l fun k => { k with lost := if k.lost.contains b then k.lost else k.lost ++ [b] }).narrow j l

/-- LANE_REFUSE: the partner has no slot for a lane asked to move; the link narrows (R346), but not for a calibration
(R362). -/
def execLaneRefuse (j l lane : Nat) (s : State) : Outcome State Fault Refusal :=
  .next (
    if !(s.lane j l).asked.contains lane then s
    else
      let s := s.mapLane j l fun k => { k with asked := k.asked.filter (· != lane) }
      match aget none s.light.calNow j with
      | some c => if c.slot = 36 * (j % 9) + s.rxSlotOf j l lane then s.requeueCal j else s.loseLane j l lane
      | none => s.loseLane j l lane)

/-- A receive lane loses symbol lock on its slot, and a move is requested (R346). -/
def State.unlockLane (s : State) (j l b x : Nat) : State :=
  ((s.setf (sl j x rWNG_RX_SLOT_STAT) 8 1 0).event .wng (j / 9) 7 (wngDetail j l (36 * (j % 9) + x))).askMove j l b

/-- The lane that an active receive slot carries, as link and lane. -/
def State.rxLane (s : State) (j x : Nat) : Option (Nat × Nat) :=
  let a := s.rn (sl j x rWNG_RX_SLOT_STAT)
  let l := s.fibreLink j (x / 18)
  if fld a 0 2 = 1 then some (if bit a 6 then 1 - l else l, fld a 2 4) else none

/-- LANE_UNLOCK: a receive lane loses symbol lock (R346). -/
def execLaneUnlock (j l lane : Nat) (s : State) : Outcome State Fault Refusal :=
  .next (if s.laneUsed j l lane then s.unlockLane j l lane (s.rxSlotOf j l lane) else s)

/-- QUALITY_UPDATE of receive slot `n` of Wing `w` (R350): eye width and error-rate exponent; an active lane above the rate
of WNG_SPARE_EXP in 3 updates in a row asks to move (R346). -/
def execQualityUpdate (w n eye exp : Nat) (s : State) : Outcome State Fault Refusal :=
  .next (
    if !(w < 4 && decide (n < 324) && decide (eye < 256) && decide (exp < 16)) then s
    else
      let j := 9 * w + n / 36
      let x := n % 36
      let s := s.wn (sl j x rWNG_RX_SLOT_QUAL) (eye + exp * 2 ^ 8)
      let k := 324 * w + n
      let lane := s.rxLane j x
      let c := if lane.isSome ∧ exp < s.f (wg w rWNG_SPARE_EXP) 0 4 then aget 0 s.light.bad k + 1 else 0
      let s := { s with light := { s.light with bad := aput 0 s.light.bad k (if c < 3 then c else 0) } }
      match lane with
      | some (l, b) => if 3 ≤ c then s.askMove j l b else s
      | none => s)

/-- LANE_LAG: a transmit lane's lag reaches 64 UI; the lane is stopped and the link changes width (R335). -/
def execLaneLag (j l lane : Nat) (s : State) : Outcome State Fault Refusal :=
  .next (
    if !s.laneUsed j l lane then s
    else ((s.linkEvent j l 8).bump (wg (j / 9) rWNG_LAG_FAIL_COUNT)).loseLane j l lane)

/-- WIDTH_RISE_TIMER: both directions have held enough passing slots for a larger width for 100 ms (R346). -/
def execWidthRiseTimer (j l : Nat) (s : State) : Outcome State Fault Refusal :=
  .next (
    let w := s.assignWidth j l
    if j < 36 && decide (l < 2) && s.linkState j l == 2 && decide (s.linkWidth j l < w) then s.startWidth j l (widthCode w) true else s)

/-- The receive slots of a fibre that hold symbol lock, as a mask, after a retraining. -/
def State.takeLocks (s : State) (j f locked : Nat) : State :=
  (List.range 18).foldl (fun (u : State) i => u.setf (sl j (18 * f + i) rWNG_RX_SLOT_STAT) 8 1 (b2n (bit locked i))) s

/-- WIDTH_CHANGE_DONE: the retraining and the exchange of INIT with REJOIN that follows it have ended, and the lanes are deskewed, the
slots of `locked` on the link's receive fibre with symbol lock; lanes are assigned anew and DATA resumes, which a CONTROL flit is to
tell (R266, R275, R277, R351). Fewer than 8 usable lanes suspend the link. -/
def execWidthChangeDone (j l locked : Nat) (s : State) : Outcome State Fault Refusal :=
  .next (
    let k := (s.chan j).link l
    let t := s.takeLocks j (s.rxFibre j l) locked
    let want := min (s.linkWidth j l) (t.assignWidth j l)
    if !(j < 36 && decide (l < 2) && s.linkState j l == 3 && k.init && k.gotInit && k.sentAcked && k.gotAcked) then s
    else if want < 8 then t.suspend j l
    else
      let s := (t.assignLanes j l want).mapChan j fun x =>
        { x.mapLink l fun k => { k with init := false, sinceOther := 0, fault := false } with controlDue := true }
      ((((s.setLink j l 2).setWidth j l (widthCode want)).bump (cr j rWNG_WIDTH_CHANGE_COUNT)).refreshChan j))

/-! ### Commands of WNG_LANE_CTRL (R352) -/

/-- SPARE: request a move of a lane of pair `p` of Wing `w` (R346); a lane at or above the width makes it no action. -/
def execSpare (w p lane : Nat) (_side : Side) (s : State) : Outcome State Fault Refusal :=
  .next (
    let j := 9 * w + p / 2
    if w < 4 && decide (p < 18) && decide (lane < s.linkWidth j (p % 2)) && s.laneUsed j (p % 2) lane then s.askMove j (p % 2) lane else s)

/-- RESTORE: move a lane back to the slot that R340 gave it, where that slot is free and passes (R352). -/
def execRestore (w p lane : Nat) (_side : Side) (s : State) : Outcome State Fault Refusal :=
  .next (
    let j := 9 * w + p / 2
    let l := p % 2
    match (s.lane j l).assignTx[lane]? with
    | none => s
    | some x =>
      if w < 4 && decide (p < 18) && decide (lane < s.linkWidth j l) && s.laneUsed j l lane && s.txSlotOf j l lane != x
          && s.txUse j x == 0 && s.txPasses j x && !s.swapSlot j x && !s.swapHeld j x && !(s.lane j l).moves.any (fun m => m.1 == lane) then s.startMove j l lane x
      else s)

end Sys2Proof.Machine
end

