-- ==== Sys2Proof/Machine/Light.lean ====
section
/-! DEFINITION. Light control (10_light_control.md R353 to R383): lasers and their swaps, ring lock, calibration, the
Climate governor, and condition reports with their re-planning. -/

namespace Sys2Proof.Machine

open Sys2Proof Host

/-! ### Lasers (R353 to R355, R360, R367 to R369) -/

/-- Whether a command names a position. -/
def isLaser (p i : Nat) : Bool := decide (p < 2) && decide (i < 162)

/-- Whether the reserve laser can be taken: not in use and not failed. -/
def State.reserveFree (s : State) (p i : Nat) : Bool := s.f (lz p i) 19 1 == 0 && s.f (lz p i) 21 1 == 0

/-- Whether light control starts no swap and no calibration: Lockdown, a halted Lamp, or A3 and below (R428, R437,
R507). -/
def State.lightHeld (s : State) (p : Nat) : Bool :=
  s.locked || s.halted .lmp p || decide (3 ≤ s.f (winBase .pwr 0 + rPWR_STATE_STAT) 0 3)

/-- The four fibres a position lights (R331), as channel and link. -/
def laserFibres (p i : Nat) : List (Nat × Nat) :=
  ([2 * p, 2 * p + 1].map fun w => [(9 * w + i % 9, 0), (9 * w + i % 9, 1)]).flatten

/-- A swap, if one runs or waits at a position. -/
def State.swap (s : State) (p i : Nat) : SwapState := aget .reset s.light.swaps (162 * p + i)

/-- Set a position's swap; a position without one has step 0 and STATE not SWAP. -/
def State.setSwap (s : State) (p i : Nat) (x : SwapState) : State :=
  { s with light := { s.light with swaps := aput .reset s.light.swaps (162 * p + i) x } }

/-- Swaps that run on fibres shared with a position (R368). -/
def State.swapsBeside (s : State) (p i : Nat) : Nat :=
  (s.light.swaps.filter fun e => e.1 / 162 == p && e.1 % 162 % 9 == i % 9 && decide (1 ≤ e.2.step)).length

/-- Begin the swap of a position in state SWAP where at most one runs beside it and nothing holds it (R367, R368). -/
def State.beginSwap (s : State) (p i : Nat) : State :=
  if s.laser p i = 3 && (s.swap p i).step == 0 && decide (s.swapsBeside p i < 2) && !s.lightHeld p then
    s.setSwap p i { s.swap p i with step := 1, bias := s.f (lz p i) 0 8 } else s

/-- A swap is decided (R355, R360). -/
def State.decideSwap (s : State) (p i : Nat) : State :=
  (((s.setSwap p i { SwapState.reset with watched := (s.swap p i).watched || s.laser p i == 2 }).setf (lz p i) 16 3 3)).beginSwap p i

/-- Start the swaps that wait. -/
def State.startSwaps (s : State) : State :=
  (List.range 2).foldl (fun u p => (List.range 162).foldl (fun v i => v.beginSwap p i) u) s

/-- A position goes on with the laser that was in use: WATCH where it was so before, since it does not return to LIT (R355). Its next
report judges it anew. -/
def State.relit (s : State) (p i : Nat) : State :=
  (s.setSwap p i .reset).setf (lz p i) 16 3 (if (s.swap p i).watched then 2 else 1)

/-- Whether the laser in use of a position has failed for good. -/
def State.laserLost (s : State) (p i : Nat) : Bool := s.f (lz p i) (if s.f (lz p i) 19 1 = 1 then 21 else 20) 1 == 1

/-- LMP_SWAP_THRESH in effect: at or below the watch value it is taken as that value + 2 (R380). -/
def State.swapBias (s : State) (p : Nat) : Nat :=
  let w := s.f (winBase .lmp p + rLMP_WATCH_THRESH) 0 8
  let b := s.f (winBase .lmp p + rLMP_SWAP_THRESH) 0 8
  if b ≤ w then w + 2 else b

/-- A position is dead: its slot is failed on its four fibres (R360). -/
def State.killLaser (s : State) (p i : Nat) : State :=
  let s := (s.setf (lz p i) 16 3 4).setSwap p i .reset
  let s := (s.event .lmp p 4 i).condEvent 5 0 (i + p * 2 ^ 8) (s.f (lz p i) 0 8) 0
  (laserFibres p i).foldl (fun (u : State) (f : Nat × Nat) => u.setf (sl f.1 (18 * f.2 + i / 9) rWNG_TX_SLOT_STAT) 0 2 3) s

/-- Whether a transmit slot is free and passes and no other swap holds it (R355, R368). -/
def State.swapTarget (s : State) (i j x : Nat) : Bool :=
  s.txUse j x == 0 && s.txPasses j x && !s.swapSlot j x && !s.swapHeld j x && x % 18 != i / 9

/-- Whether a fibre has a free passing slot that no other swap holds (R355, R368). -/
def State.fibreFree (s : State) (i : Nat) (f : Nat × Nat) : Bool :=
  (passing (s.swapTarget i f.1) f.2) != []

/-- What a position's bias and output say of its state (R355). -/
def State.judgeLaser (s : State) (p i before : Nat) : State :=
  let b := s.f (lz p i) 0 8
  let out := sext 8 (s.f (lz p i) 8 8)
  let fade := decide (out ≤ -(s.f (winBase .lmp p + rLMP_FADE_THRESH) 0 8 : Int)) && decide (200 ≤ b)
  let due := decide (s.swapBias p ≤ b) || fade
  let watch := decide (s.f (winBase .lmp p + rLMP_WATCH_THRESH) 0 8 ≤ b) || fade
  let st := s.laser p i
  if st = 3 || st = 4 then s
  else if st = 0 && s.laserLost p i then (if s.reserveFree p i then s.decideSwap p i else s.killLaser p i)
  else
    let s := if st = 0 then s.setf (lz p i) 16 3 1 else s
    let s := if watch && st ≠ 2 then
        let s := ((s.setf (lz p i) 16 3 2).event .lmp p 0 i).condEvent 3 0 (i + p * 2 ^ 8) before b
        if (laserFibres p i).all (s.fibreFree i) then s else s.event .lmp p 1 i
      else s
    if !due then s
    else if s.reserveFree p i then s.decideSwap p i
    else if out ≤ -30 then s.killLaser p i else s

/-- Whether the driver holds the bias of a position (R428, R437): in Lockdown, but for a swap that completes (R374), and on a halted
Lamp. -/
def State.biasHeld (s : State) (p i : Nat) : Bool := s.halted .lmp p || (s.locked && decide ((s.swap p i).step < 2))

/-- LASER_BIAS_UPDATE: the driver reports bias and output (a two's complement code of 0.1 dB) of the laser in use (R354,
R355). Where the bias is held the output alone is new, and nothing follows from it. -/
def execLaserBiasUpdate (p i bias power : Nat) (s : State) : Outcome State Fault Refusal :=
  .next (
    if !isLaser p i || 256 ≤ bias || 256 ≤ power || s.laser p i == 4 || 3 ≤ s.f (winBase .pwr 0 + rPWR_STATE_STAT) 0 3 then s
    else
      let before := s.f (lz p i) 0 8
      if s.biasHeld p i then s.setf (lz p i) 8 8 power
      else ((s.setf (lz p i) 0 8 bias).setf (lz p i) 8 8 power).judgeLaser p i before)

/-- SWAP of LMP_CTRL: the host starts a swap at any time, when the reserve is available (R355); it waits where one at the threshold
would. -/
def execSwap (p i : Nat) (_side : Side) (s : State) : Outcome State Fault Refusal :=
  .next (if isLaser p i && (s.laser p i == 1 || s.laser p i == 2) && s.reserveFree p i then s.decideSwap p i else s)

/-- The lane a transmit slot carries, as link and lane. -/
def State.laneOn (s : State) (j x : Nat) : Option (Nat × Nat) :=
  let a := s.rn (sl j x rWNG_TX_SLOT_STAT)
  if fld a 0 2 = 1 then some (if bit a 6 then 1 - x / 18 else x / 18, fld a 2 4) else none

/-- Move the lane of slot λs of a fibre away (R367): the lowest free passing slot of its own fibre, else of the
sibling's; one that cannot move stays. Answers the lane moved. -/
def State.moveAway (s : State) (i : Nat) (f : Nat × Nat) : State × List (Nat × Nat) :=
  let x := 18 * f.2 + i / 9
  match s.laneOn f.1 x with
  | none => (s, [])
  | some (l, b) =>
    let ok := s.swapTarget i f.1
    if (s.lane f.1 l).moves.any (fun m => m.1 == b) then (s, [])
    else match passing ok l ++ passing ok (1 - l) with
      | y :: _ => (s.startMove f.1 l b y, [(32 * f.1 + 16 * l + b, x)])
      | [] => (s, [])

/-- SWAP_WARM_DONE: the reserve has warmed for 15 ms; once each fibre has a free passing slot the swap holds it, the lanes move away,
and the combiner passes the reserve (R367 steps 2 and 3, R368), but not on a halted Lamp, which holds it (R428). RESERVE_IN_USE shows it
at step 7. -/
def execSwapWarmDone (p i : Nat) (s : State) : Outcome State Fault Refusal :=
  .next (
    let k := s.swap p i
    if !isLaser p i || (k.step != 1 && k.step != 2) || s.halted .lmp p then s
    else if !(laserFibres p i).all (s.fibreFree i) then s.setSwap p i { k with step := 2 }
    else
      let held := (laserFibres p i).filterMap fun f => (passing (s.swapTarget i f.1) f.2).head?.map fun x => 36 * f.1 + x
      let (s, moved) := (laserFibres p i).foldl (fun (a : State × List (Nat × Nat)) f =>
        let r := a.1.moveAway i f
        (r.1, a.2 ++ r.2)) (s, [])
      s.setSwap p i { k with step := 3, moved := moved, held := held })

/-- SWAP_LOCK_DONE: the reserve's wavelength and the four banks' modulator rings are locked and their drive is set (R367
steps 4 and 5). -/
def execSwapLockDone (p i : Nat) (s : State) : Outcome State Fault Refusal :=
  .next (
    let k := s.swap p i
    if !isLaser p i || k.step != 3 then s
    else
      (laserFibres p i).foldl (fun (u : State) (f : Nat × Nat) => u.setf (sl f.1 (18 * f.2 + i / 9) rWNG_RING_TX) 14 1 1)
        (s.setSwap p i { k with step := 4 }))

/-- Move the lanes of a swap back to slot λs (R367 step 6), but for one that a retraining has placed since (R374). -/
def State.moveBack (s : State) (moved : List (Nat × Nat)) : State :=
  moved.foldl (fun (u : State) (m : Nat × Nat) =>
    let j := m.1 / 32
    let l := m.1 / 16 % 2
    let b := m.1 % 16
    if u.laneUsed j l b && u.txSlotOf j l b != m.2 && u.txUse j m.2 == 0 && u.txPasses j m.2 && !(u.lane j l).moves.any (fun n => n.1 == b)
    then u.startMove j l b m.2 else u) s

/-- SWAP_RETURN: at 28 ms the lanes move back and the swap is complete (R367 steps 6 and 7); a waiting swap beside it
starts (R368). -/
def execSwapReturn (p i : Nat) (s : State) : Outcome State Fault Refusal :=
  .next (
    let k := s.swap p i
    if !isLaser p i || k.step != 4 then s
    else
      let s := ((s.setSwap p i .reset).moveBack k.moved).setf (lz p i) 16 3 1
      let s := ((s.setf (lz p i) 19 1 1).setf (lz p i) 20 1 1).bump (winBase .lmp p + rLMP_SWAP_COUNT)
      (s.condEvent 4 0 (i + p * 2 ^ 8) k.bias (s.f (lz p i) 0 8)).startSwaps)

/-- A swap fails (R369). -/
def State.failSwap (s : State) (p i : Nat) : State :=
  let k := s.swap p i
  let s := s.setf (lz p i) 21 1 1
  let s := (s.bump (winBase .lmp p + rLMP_SWAP_FAIL_COUNT)).event .lmp p 3 i
  (if s.f (lz p i) 20 1 = 1 then s.killLaser p i else (s.relit p i).moveBack k.moved).startSwaps

/-- LASER_SWAP_FAIL: the reserve misses its output or its lock (R369). -/
def execLaserSwapFail (p i : Nat) (s : State) : Outcome State Fault Refusal :=
  .next (if isLaser p i && 1 ≤ (s.swap p i).step then s.failSwap p i else s)

/-- LASER_FAIL: the output of the laser in use falls 3.0 dB within 10 µs with no change of bias (R360): a swap to the
reserve, or a dead position; in a swap past step 3 it is the reserve that fails (R369). -/
def execLaserFail (p i : Nat) (s : State) : Outcome State Fault Refusal :=
  .next (
    if !isLaser p i || s.laser p i == 0 || s.laser p i == 4 then s
    else
      let s := (s.bump (winBase .lmp p + rLMP_FAIL_COUNT)).event .lmp p 2 i
      if 3 ≤ (s.swap p i).step then s.failSwap p i
      else
        let reserve := s.f (lz p i) 19 1 == 1
        let s := s.setf (lz p i) (if reserve then 21 else 20) 1 1
        if 1 ≤ (s.swap p i).step then s
        else if s.reserveFree p i then s.decideSwap p i else s.killLaser p i)

/-! ### Calibration triggers (R358, R359, R361, R362) -/

/-- Queue every receive slot of a Wing. -/
def State.queueWing (s : State) (w : Nat) : State := (List.range 324).foldl (fun u n => u.queueCal w n 2 0) s

/-- Whether a command names a receive slot. -/
def isSlot (w n : Nat) : Bool := decide (w < 4) && decide (n < 324)

/-- WNG_CAL_RX of a receive slot, and WNG_RX_SLOT_STAT of it. -/
def calReg (w n : Nat) : Nat := wg w (rWNG_CAL_RX + 4 * n)
def rxReg (w n : Nat) : Nat := wg w (rWNG_RX_SLOT_STAT + 4 * n)

/-- RELIGHT: received power has returned to a slot and stayed stable for 1 ms (R361). -/
def execRelight (w n : Nat) (s : State) : Outcome State Fault Refusal :=
  .next (if isSlot w n then (s.setf (rxReg w n) 8 1 1).queueCal w n 0 0 else s)

/-- LOCKED of a ring: 0 a filter, 1 a modulator; a ring switch, 2, has no register. -/
def State.setRing (s : State) (w n kind v : Nat) : State :=
  if kind = 0 then s.setf (calReg w n) 14 1 v else if kind = 1 then s.setf (wg w (rWNG_RING_TX + 4 * n)) 14 1 v else s

/-- RING_UNLOCK of a filter ring (`modulator` 0), whose slot and lane lose symbol lock (R346), of a bank's modulator ring (1) or of the
ring switch of a transmit slot (2), whose lane loses it at the partner (R358); a calibration of the slot is abandoned (R374). -/
def execRingUnlock (w n modulator : Nat) (s : State) : Outcome State Fault Refusal :=
  .next (
    if !isSlot w n || 3 ≤ modulator then s
    else
      let j := 9 * w + n / 36
      let r := ringNo w modulator n
      let s := (s.setRing w n modulator 0).bump (wg w rWNG_RING_UNLOCK_COUNT)
      let s := { s with light := { s.light with ringsOut := s.light.ringsOut.filter (· != r) ++ [r] } }
      let s := s.event .wng w 13 (wngDetail j (n % 36 / 18) n)
      if modulator ≠ 0 then s
      else
        let s := match s.rxLane j (n % 36) with
          | some (l, b) => s.unlockLane j l b (n % 36)
          | none => s.setf (rxReg w n) 8 1 0
        match aget none s.light.calNow j with
        | some c => if c.slot = n then s.abandonCal j else s
        | none => s)

/-- RING_RELOCK: the ring has relocked by its sweep; a filter ring's is a relight of its slot (R358, R361). With at most a quarter of the
PIC's rings unlocked that condition of PIC_THERMAL ends (R373, log entry 193). -/
def execRingRelock (w n modulator : Nat) (s : State) : Outcome State Fault Refusal :=
  .next (
    if !isSlot w n || 3 ≤ modulator then s
    else
      let s := s.setRing w n modulator 1
      let s := s.ringsBack w (ringNo w modulator n) 1
      if modulator = 0 then (s.setf (rxReg w n) 8 1 1).queueCal w n 0 0 else s)

/-- Every calibration record of a Wing is stale, those that wait to be written with it (R359). -/
def State.staleWing (s : State) (w : Nat) : State :=
  let mine := fun (k : Nat) => k % 2048 / 512 == w
  { s with arch := { s.arch with staleCal := ((s.arch.calRecs.map (·.1)).filter mine ++ s.arch.staleCal).eraseDups },
           light := { s.light with calDue := s.light.calDue.filter fun (e : Nat × List Byte) => !mine e.1 } }

/-- BANDGAP_CHECK: firmware compares the two band-gaps of a die, 0 to 7 Vault, 8 to 11 EICs, 12 to 15 PICs, 16 and 17 Lamps (R359,
R378); beyond 0.5 % its records are stale. No source of the Vault stands for it, so that its dies write the condition event alone. -/
def execBandgapCheck (die ref second : Nat) (s : State) : Outcome State Fault Refusal :=
  .next (
    if 18 ≤ die || (max ref second - min ref second) * 200 ≤ ref then s
    else if die < 8 then s.condEvent 9 0 die ref second
    else if 16 ≤ die then (s.event .lmp (die - 16) 5).condEvent 9 0 die ref second
    else (((s.event .wng (die % 4) 17).condEvent 9 0 die ref second).staleWing (die % 4)).queueWing (die % 4))

/-- A slot's CAL_TEMP in 0.25 °C (R381). -/
def State.calTemp (s : State) (w n : Nat) : Int := 2 * (s.f (calReg w n) 24 8 : Int) - 80

/-- The CAL_TEMP code of a temperature, held at 0 or 255 outside its range (R381). -/
def calTempCode (t : Int) : Nat := min 255 ((t + 80) / 2).toNat

/-- PIC_TEMP_UPDATE: temperature and slope of a PIC; slots whose temperature has left CAL_TEMP by more than the threshold
are queued, and above 95 °C PIC_THERMAL is raised (R361, R373). -/
def execPicTempUpdate (w temp slope : Nat) (s : State) : Outcome State Fault Refusal :=
  .next (
    if 4 ≤ w || 4096 ≤ temp || 256 ≤ slope then s
    else
      let s := s.wn (wg w rWNG_PIC_TEMP) (temp + slope * 2 ^ 16)
      let t := s.picTemp w
      let c := s.light.cond
      let s := { s with light := { s.light with cond := { c with picMax := aput 2048 c.picMax w (max (aget 2048 c.picMax w) (t + 2048).toNat) } } }
      let lim := 2 * s.f (wg w rWNG_CAL_TEMP_THRESH) 0 6
      let s := (List.range 324).foldl (fun (u : State) n =>
        let d := (t - u.calTemp w n).natAbs
        if lim < d then u.queueCal w n 2 (d - lim) else u) s
      s.picLevel w)

/-- PIC_THERMAL: more than a quarter of a PIC's rings have been unlocked for 1 ms (R373); the condition holds until enough of them
have relocked. -/
def execPicThermal (w : Nat) (s : State) : Outcome State Fault Refusal :=
  .next (
    if w < 4 then
      ({ s with light := { s.light with unlocked := s.light.unlocked.filter (· != w) ++ [w] } }).picLevel w
    else s)

/-- CALIBRATE: queue one slot (R361). -/
def execCalibrate (w n : Nat) (_side : Side) (s : State) : Outcome State Fault Refusal :=
  .next (if isSlot w n then s.queueCal w n 1 0 else s)

/-- CALIBRATE_LINK: queue every slot of pair `p` (R361). -/
def execCalibrateLink (w p : Nat) (_side : Side) (s : State) : Outcome State Fault Refusal :=
  .next (if w < 4 ∧ p < 18 then (List.range 18).foldl (fun u x => u.queueCal w (18 * p + x) 1 0) s else s)

/-- CLEAR_SUSPECT: the slot is calibrated, and an accepted attempt clears SUSPECT (R364). -/
def execClearSuspect (w n : Nat) (_side : Side) (s : State) : Outcome State Fault Refusal :=
  .next (
    if isSlot w n then
      let s := if s.f (rxReg w n) 9 1 = 0 then s
        else { s with light := { s.light with clearing := (s.light.clearing.filter (· != 324 * w + n)) ++ [324 * w + n] } }
      s.queueCal w n 1 0
    else s)

/-! ### Calibration attempts (R362 to R366) -/

/-- Whether calibration trigger `a` comes before `b` (R362); those queued again at the end keep their order (R364). -/
def calBefore (a b : CalWait) : Bool :=
  a.rank < b.rank || (a.rank == b.rank && decide (a.rank < 3) &&
    (if a.rank = 2 then b.excess < a.excess || (a.excess == b.excess && a.slot < b.slot) else a.slot < b.slot))

/-- The link whose lanes a receive fibre carries. -/
def State.linkOfRx (s : State) (j f : Nat) : Nat := if s.rxFibre j 0 = f then 0 else 1

/-- The trigger at the head of a channel's queue; slots of a link in bring-up, in a width change or DOWN are not calibrated
(R361, R362). -/
def State.calHead (s : State) (j : Nat) : Option CalWait :=
  (s.light.cal.filter fun c => 9 * c.wing + c.slot / 36 == j
    && (let v := s.linkState j (s.linkOfRx j (c.slot % 36 / 18)); v == 1 || v == 2)).foldl
    (fun (b : Option CalWait) c => match b with
      | none => some c
      | some d => if calBefore c d then some c else some d) none

/-- Whether a receive slot carries a lane that no free passing slot of the channel could take (R362, R365). -/
def State.calStuck (s : State) (c : CalWait) : Bool :=
  let j := 9 * c.wing + c.slot / 36
  s.rxUse j (c.slot % 36) == 1 && !(List.range 36).any fun y => s.rxUse j y == 0 && s.rxTakes j y

/-- CAL_ATTEMPT: the slot at the head of a channel's queue starts its calibration (R363); a lane on it is asked to move,
and without a free passing slot for it the trigger waits (R365). -/
def execCalAttempt (j : Nat) (s : State) : Outcome State Fault Refusal :=
  .next (
    if !decide (j < 36) || (aget none s.light.calNow j).isSome || s.lightHeld (j / 18) then s
    else match s.calHead j with
      | none => s
      | some c =>
        let x := c.slot % 36
        let a := s.rn (sl j x rWNG_RX_SLOT_STAT)
        if s.calStuck c then s
        else
          let s := { s with light := { s.light with cal := s.light.cal.erase c, calNow := aput none s.light.calNow j (some c) } }
          let l := s.linkOfRx j (x / 18)
          if fld a 0 2 = 1 then s.askMove j (if bit a 6 then 1 - l else l) (fld a 2 4) else s)

/-- The calibration record of a receive slot (R366). -/
def calRecord (w n heater temp tco eye margin exp : Nat) (suspect : Bool) : List Byte :=
  let b := leBytes 2 (n + w * 2 ^ 9) ++ leBytes 2 heater ++ leBytes 2 temp ++ leBytes 1 tco ++ leBytes 1 eye ++ leBytes 1 margin ++ leBytes 1 exp
    ++ leBytes 1 (b2n suspect) ++ leBytes 1 0
  b ++ leBytes 4 (crc32c (b.map (·.toNat)))

/-- Whether two measurements agree (R364): heater codes within 4 LSB, eye widths within 6/256 UI. -/
def calAgrees (h1 e1 h2 e2 : Nat) : Bool := decide (max h1 h2 - min h1 h2 ≤ 4) && decide (max e1 e2 - min e1 e2 ≤ 6)

/-- An accepted attempt (R364, R366): the mean values applied, DISAGREE and a Suspect mark to be cleared cleared, the
record written. -/
def State.acceptCal (s : State) (w n heater eye margin exp tco : Nat) : State :=
  let j := 9 * w + n / 36
  let k := 324 * w + n
  let a := calReg w n
  let t := s.picTemp w
  let s := (((s.setf a 0 14 heater).setf a 14 1 1).setf a 22 2 0).setf a 24 8 (calTempCode t)
  let s := (s.wn (wg w (rWNG_RX_SLOT_QUAL + 4 * n)) (eye + exp * 2 ^ 8)).setf (rxReg w n) 16 8 margin
  let s := if s.light.clearing.contains k then
      ({ s with light := { s.light with clearing := s.light.clearing.filter (· != k) } }).setf (rxReg w n) 9 1 0 else s
  let s := (s.setf (rxReg w n) 0 2 (if s.rxPasses j (n % 36) then 0 else 2)).bump (wg w rWNG_CAL_COUNT)
  let r := calRecord w n heater (wrapInt 16 t) tco eye margin exp (s.f (rxReg w n) 9 1 == 1)
  ({ s with light := { s.light with calDue := (s.light.calDue.filter fun (e : Nat × List Byte) => e.1 != 512 * w + n) ++ [(512 * w + n, r)] } }).writeCalRecs

/-- An attempt that disagrees (R364): queued again at the end; at the third in a row the slot is Suspect. -/
def State.disagreeCal (s : State) (w n : Nat) (c : CalWait) : State :=
  let j := 9 * w + n / 36
  let a := calReg w n
  let d := min 3 (s.f a 22 2 + 1)
  let s := (s.setf a 22 2 d).bump (wg w rWNG_CAL_DISAGREE_COUNT)
  let s := { s with light := { s.light with cal := s.light.cal ++ [{ c with rank := 3, excess := 0, since := s.timer, deferred := false }] } }
  if d = 3 && s.f (rxReg w n) 9 1 == 0 then
    ((s.setf (rxReg w n) 9 1 1).event .wng w 14 (wngDetail j (n % 36 / 18) n)).condEvent 6 0 (n + w * 2 ^ 9) 2 3
  else s

/-- CAL_MEASURE_DONE: the two measurements of a channel's attempt, each a heater code and an eye width, with the margin and the movement
of the received power meanwhile in 0.1 dB, the error-rate exponent and the heater change per °C (R363, R364). A movement above 1.0 dB,
or none given because the slot lost symbol lock on filler, abandons the attempt (R365). A slot that still carries its lane is not
measured. -/
def execCalMeasureDone (j h1 e1 h2 e2 : Nat) (light : Nat × Option Nat) (exp tco : Nat) (s : State) : Outcome State Fault Refusal :=
  .next (match aget none s.light.calNow j with
    | none => s
    | some c =>
      let margin := light.1
      let small := decide (h1 < 16384) && decide (h2 < 16384) && decide (e1 < 256) && decide (e2 < 256) && decide (margin < 256) && decide (exp < 16) && decide (tco < 256)
      if !decide (j < 36) || !small || s.rxUse j (c.slot % 36) == 1 then s
      else if light.2.isNone then (s.setf (rxReg c.wing c.slot) 8 1 0).abandonCal j
      else if 10 < light.2.getD 0 then s.abandonCal j
      else
        let s := { s with light := { s.light with calNow := aput none s.light.calNow j none } }
        if calAgrees h1 e1 h2 e2 then s.acceptCal c.wing c.slot ((h1 + h2) / 2) ((e1 + e2) / 2) margin exp tco
        else s.disagreeCal c.wing c.slot c)

/-- CAL_DEFERRED: a trigger has waited 10 s because no free passing slot could take its lane (R365); reported once, and it goes on
waiting. -/
def execCalDeferred (w n : Nat) (s : State) : Outcome State Fault Refusal :=
  .next (match s.light.cal.find? (fun c => c.wing == w && c.slot == n) with
    | none => s
    | some c =>
      if c.deferred || !isSlot w n || !s.calStuck c || decide ((s.timer + 2 ^ 64 - c.since) % 2 ^ 64 < tenSeconds) then s
      else
        let s := { s with light := { s.light with cal := s.light.cal.map fun (d : CalWait) => if d == c then { d with deferred := true } else d } }
        (s.bump (wg w rWNG_CAL_DEFER_COUNT)).event .wng w 15 (wngDetail (9 * w + n / 36) (n % 36 / 18) n))

/-! ### The Climate governor (R370 to R372, R501) -/

/-- PWR register `off`. -/
def pw (off : Nat) : Nat := winBase .pwr 0 + off

/-- Whether OVERRIDE is in effect (R372): written, and in lifecycle RETURN. -/
def State.overridden (s : State) : Bool := s.f (pw rPWR_GOV_CTRL) 0 1 == 1 && s.f (winBase .rgs 0 + rRGS_LIFECYCLE) 0 3 == 3

/-- The pace of a tile in sixteenths. -/
def State.paceOf (s : State) (t : Nat) : Nat := aget 16 s.light.pace t

/-- Lowest pace of any tile: PACE_MIN. -/
def State.paceMin (s : State) : Nat := s.light.pace.foldl (fun m e => min m e.2) 16

/-- Whether changes to a tile wait for its step boundary: in RUN, WAIT and HANG (R29). -/
def State.boundaryWaits (s : State) (t : Nat) : Bool := s.ts t == tsRUN || s.ts t == tsWAIT || s.ts t == tsHANG

/-- Set the pace of every tile (R370): at its step boundary, at once where none comes (R27, R29); a change of pace replaces one that
still waits. -/
def State.setPaces (s : State) (f : Nat → Nat) : State :=
  let pace := (allTiles.map fun t => (t, if s.boundaryWaits t then s.paceOf t else f t)).filter fun e => e.2 != 16
  (s.poweredTiles.filter s.boundaryWaits).foldl (fun (u : State) t => u.mapTile t fun x => { x with
      deferred := (x.deferred.filter fun d => match d with | .pace _ => false | _ => true) ++ (if u.paceOf t = f t then [] else [.pace (f t)]) })
    { s with light := { s.light with pace := pace } }

/-- Give every tile one pace (R428, R438, R509). -/
def State.setPace (s : State) (v : Nat) : State := s.setPaces fun _ => v

/-- The pace of a tile once the change that waits has taken effect. -/
def State.paceNext (s : State) (t : Nat) : Nat :=
  (s.tile t).deferred.foldl (fun p d => match d with | .pace v => v | _ => p) (s.paceOf t)

/-- PWR_GOV_SLEW in W per millisecond. -/
def State.slew (s : State) : Nat := 5 * s.f (pw rPWR_GOV_SLEW) 0 6

/-- The budget of Gallery and Vault in W under the input cap: CAP × 0.905 less what Wings, Lamps, Store and Registrar draw (R501). -/
def State.budget (s : State) (rest : Nat) : Nat := s.f (pw rPWR_CAP) 0 11 * 905 / 1000 - rest

/-- The tiles whose clocks the governor sets: those with power that the Registrar reaches over the corridors (R12, R15). -/
def State.governedTiles (s : State) : List Nat := s.poweredTiles.filter s.tileReached

/-- The most that one FREQ step, and one sixteenth of pace, of a tile change its power, in mW: a full tile draws at most 1.03 W at 1.5 GHz
and 750 mV, as its clock and as the square of its supply (log entry 53). -/
def State.clockCost (s : State) (t : Nat) : Nat := 1030 * (100 + (s.clockNext t).2) ^ 2 / (120 * 22500) + 1
def State.paceCost (s : State) (t : Nat) : Nat :=
  if s.ts t = tsOFF then 0 else 1030 * (64 + (s.clockNext t).1) * (100 + (s.clockNext t).2) ^ 2 / (120 * 22500) / 16 + 1

/-- The change of power in mW that the governor may cause in a span of 10 µs units (R36, R370): the slew limit, and none under
OVERRIDE (R372). -/
def State.slewRoom (s : State) (span : Nat) : Nat := if s.overridden then 2 ^ 32 else 10 * s.slew * span

/-- Take a step on each tile in turn that may take it, as far as the room goes. -/
def State.inRoom (may : State → Nat → Bool) (act : State → Nat → State) (ts : List Nat) (x : Nat × State) : Nat × State :=
  ts.foldl (fun (x : Nat × State) t =>
    let c := x.2.clockCost t
    if may x.2 t && decide (c ≤ x.1) then (x.1 - c, act x.2 t) else x) x

/-- Lower a tile's clock by one FREQ step for the cap (R36). -/
def State.capTile (s : State) (t : Nat) : State :=
  let c := s.clockNext t
  ({ s with light := { s.light with capped := aput 0 s.light.capped t (aget 0 s.light.capped t + 1) } }).tileChange t (.clock (c.1 - 1) c.2)

/-- Whether the cap took a FREQ step of a tile that it may have back, within the tile's ceiling and its temperature limit. -/
def State.mayUncap (s : State) (t : Nat) : Bool :=
  aget 0 s.light.capped t != 0 && decide ((s.clockNext t).1 < aget 80 s.light.ceiling t)
    && decide (sext 12 (s.f (tr t rTILE_TEMP) 0 12) ≤ (s.f (pw rPWR_GOV_TEMP_LIMIT) 0 12 : Int))

/-- Give back one FREQ step that the cap took. -/
def State.uncapTile (s : State) (t : Nat) : State :=
  let c := s.clockNext t
  ({ s with light := { s.light with capped := aput 0 s.light.capped t (aget 0 s.light.capped t - 1) } }).tileChange t (.clock (c.1 + 1) c.2)

/-- The island clocks follow the budget (R36, R501): above it the clocks fall by one FREQ step, those lowered least first, unless the
mean fell by the slew limit in the last millisecond already; below it the clocks so lowered rise again, unless the mean rose by that
much; each as far as the room goes. `old` is the mean of a millisecond before. -/
def State.followBudget (old power rest : Nat) (x : Nat × State) : Nat × State :=
  let s := x.2
  let ts := s.governedTiles
  if s.budget rest < power then
    let least := (ts.map fun t => aget 0 s.light.capped t).foldl min 80
    let (a, b) := ts.partition fun t => aget 0 s.light.capped t == least
    if s.overridden || decide (old < power + s.slew) then State.inRoom (fun u t => decide (0 < (u.clockNext t).1)) State.capTile (a ++ b) x else x
  else if power < s.budget rest && (s.overridden || decide (power < old + s.slew)) then State.inRoom State.mayUncap State.uncapTile ts x
  else x

/-- The pace that the governor sets to a tile (R370): one sixteenth at most from the present one towards what its loop wants, while the
room lasts; lower where the mean rose by more than the slew limit in the last millisecond, and not higher where it rose by as much.
Answers the room left. -/
def State.tilePace (s : State) (old power want : Nat) (room t : Nat) : Nat × Nat :=
  let cur := s.paceNext t
  let want := if old + s.slew < power then min want (cur - 1) else if old + s.slew ≤ power then min want cur else want
  let c := s.paceCost t
  if room < c then (room, cur)
  else if want < cur && 1 < cur then (room - c, cur - 1)
  else if cur < want then (room - c, cur + 1)
  else (room, cur)

/-- The paces that the governor sets (R370): 1/16 in Lockdown or on a halted PWR (R428, R438), 16/16 under OVERRIDE (R372). -/
def State.paces (old power : Nat) (want : List (Nat × Nat)) (x : Nat × State) : List (Nat × Nat) :=
  let s := x.2
  if s.locked || s.halted .pwr then allTiles.map fun t => (t, 1)
  else if s.overridden then []
  else (allTiles.foldl (fun (y : Nat × List (Nat × Nat)) t =>
    let p := s.tilePace old power ((lookup? want t).getD 16) y.1 t
    (p.1, (t, p.2) :: y.2)) (x.1, [])).2

/-- Whether R370 holds the pace of some tile: not where Lockdown or a halt sets it, nor under OVERRIDE. -/
def State.slewLimited (s : State) : Bool :=
  !s.locked && !s.halted .pwr && !s.overridden && allTiles.any fun t => decide (s.paceNext t < 16)

/-- GOVERNOR_SAMPLE: the 1 ms means in W of Gallery-plus-Vault power with what Wings, Lamps, Store and Registrar draw, and of input
power, and the pace that the governor's loop wants for each tile, 16/16 where none is given (R370). The clocks follow the budget of
the cap and the paces the loop, within the slew limit together (R35, R36, R501), in A1 and below not before the exit (R511); nothing
but the Gallery and its Vault is reduced. OVER_CAP is a level while every tile stands at FREQ 0 and pace 1/16 above the cap (R501). -/
def execGovernorSample (draw : Nat × Nat) (input : Nat) (pace : List (Nat × Nat)) (s : State) : Outcome State Fault Refusal :=
  .next (
    let (power, rest) := draw
    if !pace.all (fun e => decide (1 ≤ e.2) && decide (e.2 ≤ 16)) || 65536 ≤ power || 65536 ≤ input || 65536 ≤ rest then s
    else
      let old := s.light.means.getLastD power
      let x := State.followBudget old power rest (s.slewRoom 1, s)
      let s := (if s.asleep then s else
        let ps := State.paces old power pace x
        x.2.setPaces fun t => (lookup? ps t).getD 16).setf (pw rPWR_INPUT) 16 16 input
      let c := s.light.cond
      let s := { s with light := { s.light with means := (power :: s.light.means).take 100,
                                                cond := { c with powSum := c.powSum + power, powCount := c.powCount + 1 } } }
      let a := pw rPWR_GOV_STAT
      let s := ((s.setf a 16 16 power).setf a 8 1 (b2n s.slewLimited)).setf a 10 1 (b2n s.overridden)
      let s := if s.slewLimited || s.f a 9 1 == 1 || s.light.capped != [] then s.bump (pw rPWR_GOV_LIMIT_COUNT) else s
      let floor := s.poweredTiles.all fun t => s.paceOf t == 1 && s.f (tr t rTILE_CLOCK) 0 7 == 0
      s.setLevel .pwr 0 2 (floor && decide (s.f (pw rPWR_CAP) 0 11 < input)))

/-- Whether a tile is above the governor's temperature limit (R371). -/
def State.tooHot (s : State) (t : Nat) : Bool :=
  decide ((s.f (pw rPWR_GOV_TEMP_LIMIT) 0 12 : Int) < sext 12 (s.f (tr t rTILE_TEMP) 0 12))

/-- A FREQ step of a tile for its temperature: down above the limit, and up again 2 °C below it, to the clock it was lowered from and its
ceiling, unless `rises` holds the rise (R370, R371). -/
def State.tempTile (s : State) (rises : Bool) (t : Nat) : Option State :=
  let c := s.clockNext t
  let n := aget 0 s.light.lowered t
  let put := fun (k g : Nat) =>
    ({ s with light := { s.light with lowered := aput 0 s.light.lowered t k } }).tileChange t (.clock g c.2)
  if s.tooHot t then (if 0 < c.1 then some (put (n + 1) (c.1 - 1)) else none)
  else if sext 12 (s.f (tr t rTILE_TEMP) 0 12) ≤ (s.f (pw rPWR_GOV_TEMP_LIMIT) 0 12 : Int) - 8 && 0 < n
      && c.1 + 1 ≤ aget 80 s.light.ceiling t && !rises then some (put (n - 1) (c.1 + 1))
  else none

/-- GOVERNOR_TEMP_STEP: the island clock of each tile above PWR_GOV_TEMP_LIMIT falls by one step, and rises again once the
tile is 2 °C below it, as far as the slew limit goes in 100 µs (R36, R370, R371). TEMP_LIMITED is an event as it begins. -/
def execGovernorTempStep (s : State) : Outcome State Fault Refusal :=
  .next (
    let a := pw rPWR_GOV_STAT
    let was := s.f a 9 1
    let mean := s.light.means.headD 0
    let rises := !s.overridden && decide (s.light.means.getLastD mean + s.slew ≤ mean)
    let (hot, cool) := s.governedTiles.partition s.tooHot
    let s := (State.inRoom (fun u t => (u.tempTile rises t).isSome) (fun u t => (u.tempTile rises t).getD u) (hot ++ cool) (s.slewRoom 10, s)).2
    let on := b2n (s.light.lowered != [])
    let s := s.setf a 9 1 on
    if was = 0 && on == 1 then s.event .pwr 0 4 else s)

/-! ### Condition reports (R375 to R379) -/

/-- RGS register `off`. -/
def rgsr (off : Nat) : Nat := winBase .rgs 0 + off

/-- SLACK_SAMPLE: firmware samples SLACK of every tile that it reaches and keeps its own minimum (R12, R377). -/
def execSlackSample (s : State) : Outcome State Fault Refusal :=
  .next (s.governedTiles.foldl (fun (u : State) t =>
    let v := u.f (tr t rTILE_CPM) 0 8
    let c := u.light.cond
    let c := if v < c.slackMin then { c with slackMin := v, slackTile := rc t } else c
    let c := if v < 16 && !c.slackLow.contains t then { c with slackLow := c.slackLow ++ [t] } else c
    { u with light := { u.light with cond := c } }) s)

/-- A count that stops at the largest value of `n` bytes. -/
def cap (n v : Nat) : List Byte := leBytes n (min (2 ^ (8 * n) - 1) v)

/-- Sum of a register over the four Wings. -/
def State.wingSum (s : State) (off : Nat) : Nat := ((List.range 4).map fun w => s.rn (wg w off)).foldl (· + ·) 0

/-- Stretched cycles and cycles of a tile since the last summary. -/
def State.stretched (s : State) (t : Nat) : Nat := aget 0 s.light.cond.stretch t
def State.cyclesSince (s : State) (t : Nat) : Nat := (s.tile t).cycles - aget 0 s.light.cond.cycles t

/-- The active lanes' slots, as channel and receive slot. -/
def State.activeSlots (s : State) : List (Nat × Nat) :=
  ((List.range 36).map fun j => ((List.range 36).filter fun x => s.rxUse j x == 1).map fun x => (j, x)).flatten

/-- Lowest of a list, `d` where it is empty. -/
def lowest (d : Nat) (xs : List Nat) : Nat := xs.foldl min d

/-- The body of a summary record (R377); DRIFT_MAX and DRIFT_MEAN are as measured. -/
def State.summaryBody (s : State) (dmax dmean : List Nat) : List Byte :=
  let c := s.light.cond
  let lasers := fun (p : Nat) (f : Nat → Bool) => ((List.range 162).filter fun i => f (s.rn (lz p i))).length
  let act := s.activeSlots
  let v := fun off => s.rn (winBase .vlt 0 + off)
  let o := fun off => s.rn (winBase .sto 0 + off)
  let suspect := ((List.range 4).map fun w => ((List.range 324).filter fun n => s.f (rxReg w n) 9 1 == 1).length).foldl (· + ·) 0
  ((List.range 4).map fun w => leBytes 2 (dmax.getD w 0)).flatten ++ ((List.range 4).map fun w => leBytes 2 (dmean.getD w 0)).flatten
    ++ ((List.range 2).map fun p => leBytes 1 (((List.range 162).map fun i => s.f (lz p i) 0 8).foldl max 0)).flatten
    ++ ((List.range 2).map fun p => cap 1 (lasers p fun r => fld r 16 3 == 2)).flatten
    ++ cap 2 (lasers 0 (bit · 19) + lasers 1 (bit · 19)) ++ cap 2 suspect
    ++ leBytes 1 (lowest 255 (act.map fun e => s.f (sl e.1 e.2 rWNG_RX_SLOT_STAT) 16 8))
    ++ leBytes 1 (lowest 15 (act.map fun e => s.f (sl e.1 e.2 rWNG_RX_SLOT_QUAL) 8 4)) ++ leBytes 2 0
    ++ cap 4 (s.wingSum rWNG_MOVE_COUNT - c.moves)
    ++ leBytes 1 c.slackMin ++ leBytes 1 0 ++ leBytes 2 c.slackTile ++ cap 2 c.slackLow.length ++ leBytes 2 0
    ++ cap 4 (c.stretch.foldl (fun n e => n + e.2) 0)
    ++ cap 4 (v rVLT_CORR_COUNT - c.vltCorr) ++ cap 4 (o rSTO_CORR_COUNT - c.stoCorr)
    ++ cap 4 (v rVLT_UNDETECTED_COUNT + o rSTO_UNDETECTED_COUNT - c.undetected)
    ++ cap 4 (v rVLT_RETIRED_PAGE_COUNT) ++ cap 4 (o rSTO_RETIRED_PAGE_COUNT) ++ cap 2 s.cur.retired.length ++ leBytes 2 0
    ++ cap 2 s.light.volt.length ++ cap 2 s.light.ceiling.length
    ++ leBytes 1 (((List.range 2).map fun p => ((List.range 162).map fun i => s.f (lz p i) 24 3).foldl max 0).foldl max 0)
    ++ leBytes 1 (lowest 63 ((List.range 4).map fun w => s.f (wg w rWNG_CAL_TEMP_THRESH) 0 6)) ++ leBytes 2 0
    ++ ((List.range 4).map fun w => leBytes 1 (wrapInt 8 ((((aget 2048 c.picMax w : Nat) : Int) - 2048) / 4))).flatten
    ++ leBytes 2 (if c.powCount = 0 then s.f (pw rPWR_GOV_STAT) 16 16 else c.powSum / c.powCount) ++ leBytes 2 (wrapInt 16 ((c.galMax : Int) - 160))

/-- A re-plan step of R379: its condition event, its logbook record and its count. -/
def State.replan (s : State) (action subject before after : Nat) : State :=
  (((s.condEvent 7 action subject before after).postEvent .rgs 0xB subject (before + after * 2 ^ 32)).bump (rgsr rRGS_COND_REPLAN_COUNT))

/-- VOLT_UP, or FREQ_DOWN at its limit, for a tile whose slack or stretched cycles ask for it (R379). -/
def State.replanTile (s : State) (t : Nat) : State :=
  let c := s.light.cond
  let en := s.rn (rgsr rRGS_COND_REPLAN_EN)
  let v := aget 0 s.light.volt t
  let base := fld (resetVal (tr t rTILE_CLOCK)).toNat 8 7
  if !(c.slackLow.contains t || decide (s.cyclesSince t < 1000 * s.stretched t)) then s
  else if v < 10 && base + v < 80 then
    if bit en 0 then
      ({ s with light := { s.light with volt := aput 0 s.light.volt t (v + 1) } }).replan 1 (rc t) (base + v) (base + v + 1)
    else s
  else
    let f := aget 80 s.light.ceiling t
    if bit en 1 && decide (40 < f) then
      let s := { s with light := { s.light with ceiling := aput 80 s.light.ceiling t (f - 1) } }
      let now := s.clockNext t
      let s := if f - 1 < now.1 ∧ s.tileReached t then s.tileChange t (.clock (f - 1) now.2) else s
      s.replan 2 (rc t) f (f - 1)
    else s

/-- TARGET_UP of a position whose light has fallen 0.5 dB below a bank's record (R379). -/
def State.replanLaser (s : State) (k : Nat) : State :=
  let p := k / 162
  let i := k % 162
  let v := s.f (lz p i) 24 3
  if isLaser p i && bit (s.rn (rgsr rRGS_COND_REPLAN_EN)) 2 && v < 4 then (s.setf (lz p i) 24 3 (v + 1)).replan 3 (i + p * 2 ^ 8) v (v + 1) else s

/-- CAL_TIGHTEN of a Wing whose DRIFT_MAX is above 512 LSB (R379). -/
def State.replanWing (s : State) (dmax : List Nat) (w : Nat) : State :=
  let a := wg w rWNG_CAL_TEMP_THRESH
  let v := s.f a 0 6
  if 512 < (sext 16 (dmax.getD w 0)).natAbs && bit (s.rn (rgsr rRGS_COND_REPLAN_EN)) 3 && 4 < v then
    ((s.setf a 0 6 (max 4 (v - 2))).replan 4 (w * 2 ^ 9) v (max 4 (v - 2))).queueWing w
  else s

/-- Write a summary record and re-plan (R377, R379); a new interval begins, its maxima at the present temperatures. -/
def State.summary (s : State) (dmax dmean weak : List Nat) : State :=
  let s := s.condRecord 1 (s.summaryBody dmax dmean)
  let s := s.poweredTiles.foldl State.replanTile s
  let s := weak.eraseDups.foldl State.replanLaser s
  let s := (List.range 4).foldl (fun u w => u.replanWing dmax w) s
  let tiles := s.poweredTiles
  let c : CondState :=
    { CondState.reset with
      moves := s.wingSum rWNG_MOVE_COUNT
      picMax := (List.range 4).foldl (fun m w => aput 2048 m w (s.picTemp w + 2048).toNat) []
      galMax := (allTiles.map fun t => (sext 12 (s.f (tr t rTILE_TEMP) 0 12) + 160).toNat).foldl max 0
      cycles := (tiles.map fun t => (t, (s.tile t).cycles)).filter fun e => e.2 != 0
      vltCorr := s.rn (winBase .vlt 0 + rVLT_CORR_COUNT)
      stoCorr := s.rn (winBase .sto 0 + rSTO_CORR_COUNT)
      undetected := s.rn (winBase .vlt 0 + rVLT_UNDETECTED_COUNT) + s.rn (winBase .sto 0 + rSTO_UNDETECTED_COUNT) }
  { s with light := { s.light with cond := c } }

/-- COND_SUMMARY: RGS_COND_TIME has passed. DRIFT_MAX and DRIFT_MEAN of the Wings and the positions whose light has weakened
are as measured (R375, R377, R379). -/
def execCondSummary (dmax dmean weak : List Nat) (s : State) : Outcome State Fault Refusal := .next (s.summary dmax dmean weak)

/-- WRITE_NOW of RGS_COND_CTRL: a summary record now; the interval restarts (R383). -/
def execWriteNow (dmax dmean weak : List Nat) (_side : Side) (s : State) : Outcome State Fault Refusal := .next (s.summary dmax dmean weak)

/-- Lockdown reaches the Lamps and the calibrations (R374): swaps before step 2 are abandoned, and calibrations too. Where the laser
in use has failed, the position waits in SWAP for the end of Lockdown. -/
def State.lightLockdown (s : State) : State :=
  let s := (List.range 36).foldl State.abandonCal s
  (List.range 324).foldl (fun (u : State) k =>
    let p := k / 162
    let i := k % 162
    if u.laser p i ≠ 3 || decide (2 ≤ (u.swap p i).step) then u
    else if u.laserLost p i then u.setSwap p i { u.swap p i with step := 0 }
    else u.relit p i) s

end Sys2Proof.Machine
end

