-- ==== Sys2Proof/Machine/Pairs.lean ====
section
/-! DEFINITION. Pairs (11_pairs.md R389 to R413): twin crates and the duplicate filter, comparison, arbitration,
rebuilds, beacons and the witness, losing a module, handover, stocktakes. -/

namespace Sys2Proof.Machine

open Sys2Proof Host

/-! ### Messages (R396, R397) -/

/-- Bytes of a pairing message's data. -/
def pairBytes : Nat := 32

/-- Queue a pairing message by route, or on one channel. -/
def State.sendPair (s : State) (dest ty : Nat) (body : List Byte) (pin : Option Nat) : State :=
  match pin with
  | none => s.sendOffice dest ty pairBytes body
  | some j =>
    if s.unset then s
    else
      let q := s.cur.msgSeq
      let data := padTo pairBytes (leBytes 1 ty ++ leBytes 1 0 ++ leBytes 2 s.myId ++ leBytes 4 q ++ body)
      { s with cur := { s.cur with msgSeq := (q + 1) % 2 ^ 32 },
               fab := { s.fab with pinned := s.fab.pinned ++ [(j, s.officeCrate (s.substMod dest) 0x10 3 data)] } }

/-- The channel of path 1 to a module (R396): of the same MASK in another Wing than path 0, or to ALT_SEAT. -/
def State.secondPath (s : State) (dest j0 : Nat) : Option Nat :=
  match s.route dest with
  | none => none
  | some r =>
    let ok := fun j => s.chanUsable j (s.officeCrate dest 0x10 3 []) true && j != j0
    match (List.range 36).find? (fun j => bit r.mask j && j / 9 != j0 / 9 && ok j) with
    | some j => some j
    | none =>
      if r.altValid then (List.range 36).find? fun j => ok j && (s.chanMap j).level == 1
        && (s.chanMap j).neighbour == s.myId / 16 * 16 + r.altSeat
      else none

/-- Send a message to a partner on both paths; `body` is given the path. With one usable path it goes there and
SINGLE_PATH is raised; with none it is not sent (R396). -/
def State.sendBoth (s : State) (dest ty : Nat) (body : Nat → List Byte) : State :=
  match s.pickChannel (s.officeCrate (s.substMod dest) 0x10 3 []) with
  | none => s
  | some j0 =>
    match s.secondPath (s.substMod dest) j0 with
    | some j1 => (s.sendPair dest ty (body 0) (some j0)).sendPair dest ty (body 1) (some j1)
    | none => (s.sendPair dest ty (body 0) (some j0)).event .pair 0 3 dest

/-! ### The duplicate filter and the comparison (R391, R392) -/

/-- Bytes of block `k` of a tensor that tile `t` holds. -/
def State.blockBytes (s : State) (t tensor k : Nat) : Nat :=
  match (s.tile t).tensors.find? (fun e => e.1 == tensor) with
  | some (_, e) => min 4096 (e.length - 4096 * k)
  | none => 0

/-- The format of a tensor that tile `t` holds. -/
def State.tensorFormat (s : State) (t tensor : Nat) : Nat :=
  match (s.tile t).tensors.find? (fun e => e.1 == tensor) with
  | some (_, e) => e.format
  | none => 15

/-- The elements of a block's bytes, decoded exactly. -/
def blockElems (fmt : Nat) (bs : List Byte) : List FpVal :=
  let n := fmtBits fmt / 8
  (List.range (bs.length / n)).map fun i => (elemFmt fmt).decode (at_ bs (n * i) n)

/-- SUM: the compensated FP32 sum (R59, R392). -/
def blockSum (vs : List FpVal) : Nat := (vs.foldl (fun (a : AccEl) v => (accAdd true (widen v) a).1) ⟨0, 0⟩).a.toNat

/-- MAX_EXP: floor(log2 |x|) of the largest finite non-zero element, or −128. -/
def blockMaxExp (vs : List FpVal) : Int :=
  (vs.foldl (fun (b : Option Int) v => match v with
    | .fin _ m e => if m = 0 then b else some (match b with | some x => max x (ilog m e) | none => ilog m e)
    | _ => b) none).getD (-128)

/-- Whether `x` is at least the magnitude of `d`. -/
def covers (d x : FpVal) : Bool :=
  match d, x with
  | .fin _ m e, .fin _ n f => !magLt n f m e
  | _, _ => false

/-- Whether two copies agree: equal MAX_EXP, and sums within 2⁻¹⁶ of the largest of |SUM_a|, |SUM_b| and 2^MAX_EXP;
two NaN sums agree (R392). -/
def sumsAgree (a b : Nat) (ea eb : Int) : Bool :=
  ea == eb && (match ofF32 a, ofF32 b with
    | .fin sa ma xa, .fin sb mb xb =>
      let d := ((FpVal.fin sa ma xa).add (FpVal.fin sb mb xb).neg).1.scale 16
      covers d (.fin sa ma xa) || covers d (.fin sb mb xb) || covers d (.fin false 1 ea)
    | .fin _ _ _, _ => false
    | _, .fin _ _ _ => false
    | _, _ => true)

/-- The parts of a crate by block: block number and (offset in the block, byte). -/
def Crate.blocks (c : Crate) : List (Nat × List (Nat × Byte)) :=
  let ps := c.data.zipIdx.map fun (b, i) => (c.offset + i, b)
  (((ps.map fun p => p.1 / 4096).eraseDups)).map fun k =>
    (k, (ps.filter fun p => p.1 / 4096 == k).map fun p => (p.1 % 4096, p.2))

/-- Add bytes of a source's copy to a block. -/
def TwinBlock.add (b : TwinBlock) (src : Nat) (ps : List (Nat × Byte)) : TwinBlock :=
  let put := fun (m : Assoc (Option Byte)) => ps.foldl (fun (m : Assoc (Option Byte)) (p : Nat × Byte) => aput none m p.1 (some p.2)) m
  if b.copies.any (fun c => c.1 == src) then { b with copies := b.copies.map fun c => if c.1 == src then (c.1, put c.2) else c }
  else { b with copies := b.copies ++ [(src, put [])] }

/-- The digests of a block's complete copies of `n` bytes, in the order the copies began: source, SUM, MAX_EXP. -/
def TwinBlock.digests (b : TwinBlock) (fmt n : Nat) : List (Nat × Nat × Int) :=
  (b.copies.filter fun c => decide (n ≤ c.2.length)).map fun c =>
    let vs := blockElems fmt (c.2.map fun e => e.2.getD 0)
    (c.1, blockSum vs, blockMaxExp vs)

/-- The other member of a shard, as seen from this module. -/
def State.otherMember (s : State) (sh : Nat) : Option Nat :=
  match s.shardOf sh with
  | some (k, m) => if k = s.myId then some m else if m = s.myId then some k else none
  | none => none

/-- A member acts on the first DISPUTE of a shard and epoch: it holds issue on its ledger tiles of the shard
(R393). -/
def State.actDispute (s : State) (sh epoch : Nat) : State :=
  if (s.otherMember sh).isNone || s.pair.arbs.any (fun a => a.shard == sh && a.epoch == epoch && a.started) then s
  else
    let arbs := if s.pair.arbs.any (fun a => a.shard == sh && a.epoch == epoch) then
        s.pair.arbs.map fun (a : Arbitration) => if a.shard == sh && a.epoch == epoch then { a with started := true } else a
      else s.pair.arbs ++ [⟨sh, epoch, true, none, none, 0, false⟩]
    let s := { s with pair := { s.pair with arbs := arbs } }
    (s.ledgerTiles sh).foldl (fun (u : State) t => u.mapTile t fun x => { x with holdIssue := true }) s

/-- A disagreement (R393 steps 1 and 2): the block is recorded and DISPUTE goes to both members, to this module
directly when it is one. -/
def State.disagree (s : State) (b : TwinBlock) (accepted : Nat) : State :=
  let (k, m) := (s.shardOf b.shard).getD (0, 0)
  let s := ((s.bump (pr rPAIR_DISAGREE_COUNT)).event .pair 0 4 accepted)
  let s := s.wn (pr rPAIR_DISPUTE_INFO) (b.shard % 2 ^ 14 + b.tensor % 2 ^ 14 * 2 ^ 16 + b2n (accepted == k) * 2 ^ 30)
  let s := (s.wn (pr rPAIR_DISPUTE_EPOCH) b.epoch).wn (pr rPAIR_DISPUTE_BLOCK) (b.block % 2 ^ 28)
  [k, m].foldl (fun (u : State) d =>
    if d = u.myId then u.actDispute b.shard b.epoch
    else u.sendPair d 0x44 (leBytes 2 b.shard ++ leBytes 2 b.tensor ++ leBytes 4 b.epoch ++ leBytes 8 (4096 * b.block) ++ leBytes 2 accepted) none) s

/-- Settle a block once both copies are complete. -/
def State.settleBlock (s : State) (b : TwinBlock) : State :=
  let n := s.blockBytes b.tile b.tensor b.block
  match b.digests (s.tensorFormat b.tile b.tensor) n with
  | (m, sa, ea) :: (_, sb, eb) :: _ =>
    let s := { s with pair := { s.pair with blocks := s.pair.blocks.map fun (x : TwinBlock) => if x == b then { x with closed := true } else x } }
    if sumsAgree sa sb ea eb then s.bump (pr rPAIR_AGREE_COUNT) else s.disagree b m
  | _ => s

/-- Digest a twin crate at tile `t`: only tensors in FP32, BF16, FP16, E4M3 and E5M2 are compared (R392). -/
def State.digest (s : State) (t : Nat) (c : Crate) : State :=
  if 4 < s.tensorFormat t c.tensor then s
  else c.blocks.foldl (fun (u : State) (p : Nat × List (Nat × Byte)) =>
    let same := fun (b : TwinBlock) => b.tile == t && b.shard == c.request && b.epoch == c.epoch && b.tensor == c.tensor && b.block == p.1
    match u.pair.blocks.find? same with
    | some b =>
      if b.closed then u
      else
        let b' := b.add c.srcModule p.2
        ({ u with pair := { u.pair with blocks := u.pair.blocks.map fun (x : TwinBlock) => if x == b then b' else x } }).settleBlock b'
    | none =>
      let b : TwinBlock := ⟨t, c.request, c.epoch, c.tensor, p.1, [], u.timer, false⟩
      { u with pair := { u.pair with blocks := u.pair.blocks ++ [b.add c.srcModule p.2] } }) s

/-- Whether EPOCH `a` comes before `b` in serial-number arithmetic (R263, R391). -/
def epochBefore (a b : Nat) : Bool := let d := (b + 2 ^ 32 - a) % 2 ^ 32; d != 0 && decide (d < 2 ^ 31)

/-- The newest EPOCH a tile has accepted for a shard. -/
def State.newestEpoch (s : State) (t sh : Nat) : Option Nat :=
  (s.pair.newest.find? fun e => e.1 == t && e.2.1 == sh).map (·.2.2)

/-- A tile accepts an EPOCH of a shard: a newer one frees the entries, and the settled blocks, of older ones
(R391). -/
def State.acceptEpoch (s : State) (t sh epoch : Nat) : State :=
  let old := fun (e : Nat) => epochBefore e epoch
  { s with pair := { s.pair with
    newest := (s.pair.newest.filter fun e => !(e.1 == t && e.2.1 == sh)) ++ [(t, sh, epoch)],
    filter := s.pair.filter.filter fun e => !(e.tile == t && e.shard == sh && old e.epoch),
    blocks := s.pair.blocks.filter fun b => !(b.tile == t && b.shard == sh && old b.epoch && b.closed) } }

/-- Entries of a tile's duplicate filter. -/
def State.filterUsed (s : State) (t : Nat) : Nat := (s.pair.filter.filter fun e => e.tile == t).length

/-- CRATE_TWIN_WRITE: crate `ix` is a twin crate at its tile (R391): stale, a first copy, or a second one to digest
and discard. With no entry free it waits in the router. -/
def execCrateTwinWrite (ix : Nat) (s : State) : Outcome State Fault Refusal :=
  .next (
    let r := s.arrive ix 0x12 fun s t c =>
      match s.landing t c with
      | none => s.crateDrop t
      | some pl =>
        let stale := match s.newestEpoch t c.request with | some e => epochBefore c.epoch e | none => false
        if stale then s.bump (pr rPAIR_STALE_COUNT)
        else
          let s := s.acceptEpoch t c.request c.epoch
          let same := fun (e : TwinEntry) => e.tile == t && e.shard == c.request && e.epoch == c.epoch && e.tensor == c.tensor && e.offset == c.offset
          match s.pair.filter.find? same with
          | some e =>
            let s := s.bump (pr rPAIR_DUP_COUNT)
            if e.src = c.srcModule then s
            else
              let s := { s with pair := { s.pair with filter := s.pair.filter.map fun (x : TwinEntry) => if same x then { x with done := true } else x } }
              s.digest t c
          | none =>
            let s := { s with pair := { s.pair with filter := s.pair.filter ++ [(⟨t, c.request, c.epoch, c.tensor, c.offset, c.srcModule, false⟩ : TwinEntry)] } }
            ((s.writeCrate t pl c).crateDone t c.ticket c.ticketAdd).digest t c
    if r.pair.filter.any (fun e => decide (2048 < r.filterUsed e.tile)) then s else r)

/-- COMPARE_TIMEOUT: PAIR_COMPARE_TIME has passed since the first byte of block `ix`, whose second copy is not
complete: counted, and not compared (R392). -/
def execCompareTimeout (ix : Nat) (s : State) : Outcome State Fault Refusal :=
  .next (match s.pair.blocks[ix]? with
    | none => s
    | some b =>
      if b.closed then s
      else ({ s with pair := { s.pair with blocks := s.pair.blocks.set ix { b with closed := true } } }).bump (pr rPAIR_UNMATCHED_COUNT))

/-! ### Arbitration (R393, R394) -/

/-- DISPUTE: message `ix` names a disputed block (R393 step 3). -/
def execDispute (ix : Nat) (s : State) : Outcome State Fault Refusal :=
  .next (match s.takeMsg ix 0x44 with
    | none => s
    | some (b, s) => s.actDispute (at_ b 8 2 % 2 ^ 14) (at_ b 12 4))

/-- An arbitration whose two results are known is decided (R394): PAIR_ARBITRATED, and the other copy falls due for
rebuild. -/
def State.settleArb (s : State) (sh epoch : Nat) : State :=
  match s.pair.arbs.find? (fun a => a.shard == sh && a.epoch == epoch && !a.closed), s.shardOf sh with
  | some a, some (k, m) =>
    match a.own, a.other with
    | some own, some other =>
      let s := { s with pair := { s.pair with arbs := s.pair.arbs.map fun (x : Arbitration) => if x == a then { x with closed := true } else x } }
      let s := s.postEvent .pair 5 (sh + b2n own * 2 ^ 16 + b2n other * 2 ^ 17) epoch
      let keeperFails := if k = s.myId then own else other
      let mirrorFails := if k = s.myId then other else own
      if keeperFails && !mirrorFails then s.rebuildDue sh m k else s.rebuildDue sh k m
    | _, _ => s
  | _, _ => s

/-- A tile fails the known-answer self-test (R204, R393, R398). -/
def State.katFail (s : State) (t : Nat) : State :=
  ((s.tileFault t).bump (pr rPAIR_KAT_FAIL_COUNT)).event .pair 0 5 s.myId

/-- KAT_DONE: the self-tests of an arbitration end, with the tiles that failed (R393 steps 4 to 6): the tiles go
on, ARBITRATE goes to the other member. -/
def execKatDone (shard epoch : Nat) (failed : List Nat) (s : State) : Outcome State Fault Refusal :=
  .next (
    if !(s.pair.arbs.any fun a => a.shard == shard && a.epoch == epoch && a.started && a.own == none) then s
    else
      let ts := s.ledgerTiles shard
      let bad := ts.filter fun t => failed.contains t
      let s := bad.foldl State.katFail s
      let s := { s with pair := { s.pair with arbs := s.pair.arbs.map fun (a : Arbitration) =>
        if a.shard == shard && a.epoch == epoch then { a with own := some (bad != []), sentAt := s.timer } else a } }
      let held := s.pair.arbs.any fun a => a.shard == shard && a.started && a.own == none
      let s := if held then s else ts.foldl (fun (u : State) t => u.mapTile t fun x => { x with holdIssue := false }) s
      let s := s.bump (pr rPAIR_ARBITRATE_COUNT)
      let s := match s.otherMember shard with
        | some o => s.sendPair o 0x45 (leBytes 2 shard ++ leBytes 2 0 ++ leBytes 4 epoch ++ leBytes 1 (b2n (bad != [])) ++ leBytes 1 0 ++ leBytes 2 bad.length) none
        | none => s
      s.settleArb shard epoch)

/-- The other member's result is known. -/
def State.arbResult (s : State) (sh epoch : Nat) (failed : Bool) : State :=
  let arbs := if s.pair.arbs.any (fun a => a.shard == sh && a.epoch == epoch) then
      s.pair.arbs.map fun (a : Arbitration) => if a.shard == sh && a.epoch == epoch && a.other == none then { a with other := some failed } else a
    else s.pair.arbs ++ [⟨sh, epoch, false, none, some failed, 0, false⟩]
  ({ s with pair := { s.pair with arbs := arbs } }).settleArb sh epoch

/-- ARBITRATE: message `ix` gives the other member's result (R393, R397). -/
def execArbitrate (ix : Nat) (s : State) : Outcome State Fault Refusal :=
  .next (match s.takeMsg ix 0x45 with
    | none => s
    | some (b, s) =>
      let sh := at_ b 8 2 % 2 ^ 14
      if s.otherMember sh = some (msgSender b) then s.arbResult sh (at_ b 12 4) (at_ b 16 1 != 0) else s)

/-- ARBITRATE_TIMEOUT: 5 ms have passed since this member's ARBITRATE with none from the other, which counts as a
failing side (R393). -/
def execArbitrateTimeout (shard epoch : Nat) (s : State) : Outcome State Fault Refusal :=
  .next (
    if s.pair.arbs.any (fun a => a.shard == shard && a.epoch == epoch && a.own != none && a.other == none) then
      s.arbResult shard epoch true
    else s)

/-- IDLE_SELF_TEST: a tile in IDLE finishes a run of the self-test; `fail` is not 0 when it fails (R398). -/
def execIdleSelfTest (t fail : Nat) (s : State) : Outcome State Fault Refusal :=
  .next (if isTile t && s.ts t == tsIDLE && fail != 0 then s.katFail t else s)

/-! ### Rebuilds (R395) -/

/-- The Catalogue entry of a tensor as it stood when it was frozen, or as it stands. -/
def State.frozenCat (s : State) (tensor : Nat) : CatEntry :=
  match s.pair.freeze with
  | some z => ((z.entries.find? fun e => e.1 == tensor).map (·.2)).getD (s.cat tensor)
  | none => s.cat tensor

/-- The frozen bytes of a tensor, with the marks of poisoned ones. -/
def State.frozenBytes (s : State) (tensor : Nat) : List (Byte × Bool) :=
  let e := s.frozenCat tensor
  if e.tier = 3 then []
  else (List.range e.length).map fun i =>
    let x := e.base + i
    let (v, a) := match s.frozenPage x with | some q => (false, q * 4096 + x % 4096) | none => (e.tier == 0, x)
    match s.peek v a with
    | .ok b => (b, false)
    | .poison _ => (aget 0 (s.mem v).cells ((s.mem v).phys a), true)

/-- The Curator sends bytes as WRITE crates in TC0 to a tensor of another module, from a byte offset; nothing says by
which tile they arrive there (log entry 4). -/
def State.ship (s : State) (dest tensor base : Nat) (bs : List (Byte × Bool)) : State :=
  let (k, s) := s.draw 1056
  let t := allTiles.getD k 0
  (chunksOf 4064 (bs.length + 1) bs).zipIdx.foldl (fun (u : State) (p : List (Byte × Bool) × Nat) =>
    let c : Crate := { u.officeCrate (u.substMod dest) 0 0 (p.1.map (·.1)) with
      destTile := t, target := 2, tensor := tensor, offset := base + 4064 * p.2, poison := p.1.any (·.2) }
    { u with fab := { u.fab with outbound := u.fab.outbound ++ [c] } }) s

/-- Count bytes sent in PAIR_DRAIN_COUNT, in MiB. -/
def State.drained_ (s : State) (n : Nat) : State := s.bumpN (pr rPAIR_DRAIN_COUNT) (n / 2 ^ 20)

/-- End the freeze: the COW pages are free again (R413). -/
def State.endFreeze (s : State) : State := { s with pair := { s.pair with freeze := none } }

/-- The members that a takeover left apart are paired once no rebuild is left, and TAKEOVER leaves the beacons, which would fence the
new buddy (R399, R403 step 9). -/
def State.pairAgain (s : State) (other : Nat) : State :=
  if s.pair.rebuilds ≠ [] then s
  else if s.pairState = 4 || s.pairState = 3 || (s.pairState = 7 && s.f (pr rPAIR_STAT) 6 1 = 1) then
    ((({ s with pair := { s.pair with takeover := false } }).setf (pr rPAIR_PEERS) 0 16 other)).setPair 1
  else s

/-- REBUILD_DONE: the last byte of a shard's rebuild has been written (R395 steps 4 and 5). The source has sent its
frozen tensors by INDEX and ends its freeze; the destination lets its ledger exhibits go. Nothing says how the
source learns the destination's tensor IDs (log entry 4). -/
def execRebuildDone (shard : Nat) (s : State) : Outcome State Fault Refusal :=
  .next (match s.pair.rebuilds.find? (fun r => r.shard == shard && r.running) with
    | none => s
    | some r =>
      let s := if r.source = s.myId then
          let ts := s.shardTensors shard
          let n := ts.foldl (fun n t => n + (s.frozenCat t).length) 0
          let s := ts.foldl (fun (u : State) t =>
            let (x, u) := u.draw (2 ^ 14)
            u.ship r.dest x 0 (u.frozenBytes t)) s
          (s.drained_ n).endFreeze
        else s
      let s := if r.dest = s.myId then s.setRebuildTicket (s.ledgerTiles shard) 1 else s
      let s := { s with pair := { s.pair with rebuilds := s.pair.rebuilds.filter fun x => x != r } }
      (s.showRebuild).pairAgain (if r.source = s.myId then r.dest else r.source))

/-! ### Beacons (R396, R399, R400) -/

/-- The adoption sets of a reserve. -/
def State.sets (s : State) : List AdoptSet :=
  match s.roles with
  | none => []
  | some r => if r.reserveRole then r.sets else []

/-- Whether a reserve adopted a set (R403). -/
def State.isAdopted (s : State) (a : AdoptSet) : Bool := s.adopted && a.set == s.f (pr rPAIR_STAT) 7 2

/-- The modules that exchange beacons with this one: buddy and reserve; of a reserve, every module whose witness it is, and in the place
of the one it adopted its buddy (R396, R403, log entry 196). -/
def State.partners (s : State) : List Nat :=
  match s.roles with
  | none => []
  | some r =>
    if r.reserveRole then (s.sets.map fun a => if s.isAdopted a then a.buddy else a.guarded).eraseDups
    else s.buddy.toList ++ s.reserveMod.toList

/-- Missed periods of a partner (PAIR_MISSED, or a reserve's own counts). -/
def State.missedOf (s : State) (m : Nat) : Nat :=
  if s.buddy = some m then s.f (pr rPAIR_MISSED) 0 8
  else if s.reserveMod = some m then s.f (pr rPAIR_MISSED) 8 8
  else aget 0 s.pair.missed m

/-- Set the missed periods of a partner. -/
def State.setMissed (s : State) (m v : Nat) : State :=
  if s.buddy = some m then s.setf (pr rPAIR_MISSED) 0 8 v
  else if s.reserveMod = some m then s.setf (pr rPAIR_MISSED) 8 8 v
  else { s with pair := { s.pair with missed := aput 0 s.pair.missed m v } }

/-- PAIR_LOST_THRESH. -/
def State.lostThresh (s : State) : Nat := s.f (pr rPAIR_LOST_THRESH) 0 5

/-- The state that FENCED is left for: that of the module's roles, or SOLE after a takeover (R399, R415). -/
def State.unfenced (s : State) : Nat :=
  match s.roles with
  | none => 0
  | some r => if r.reserveRole then 7 else if s.pair.takeover then 4 else 1

/-- A module that learns of its replacement is REPLACED, an incident unless it handed itself over (R402, R407). -/
def State.replaced (s : State) : State :=
  let s := s.setPair 6
  if s.pair.handed then s else s.event .pair 0 2 s.myId

/-- Enter FENCED (R399). -/
def State.fence (s : State) : State := if s.pairState = 6 then s else s.setPair 5

/-- The body of a BEACON (R397). -/
def State.beaconBody (s : State) (dest path : Nat) : List Byte :=
  let st := s.pairState
  leBytes 1 (st + b2n (st == 5) * 8 + b2n s.pair.takeover * 16) ++ leBytes 1 path ++ leBytes 1 (s.missedOf dest)
    ++ leBytes 1 (s.f (wg 0 rWNG_FEATURE_CFG) 0 8) ++ leBytes 4 0 ++ leBytes 8 s.planGen

/-- Whether the pair is STALE (R400): channels lead to the buddy, none of them is usable, and beacons still arrive. -/
def State.staleNow (s : State) : State :=
  match s.buddy with
  | none => s
  | some b =>
    let js := (List.range 36).filter fun j => (s.chanMap j).level != 0 && (s.chanMap j).neighbour == b
    let up := js.any fun j => s.chanUsable j (s.officeCrate b 0x10 3 []) true
    if s.pairState = 1 && js ≠ [] && !up && s.missedOf b = 0 then s.setPair 2
    else if s.pairState = 2 && up then s.setPair 1
    else s

/-- What the loss of a module ends here: rebuilds from it, a drain to it (R406). -/
def State.loseMember (s : State) (m : Nat) : State :=
  let s := (s.pair.rebuilds.filter fun r => r.source == m && r.dest == s.myId).foldl (fun (u : State) (r : Rebuild) =>
    u.postEvent .pair 7 r.shard 0) s
  let gone := s.pair.rebuilds.filter fun r => r.source == m || r.dest == m
  let s := match s.pair.freeze with
    | some z => if z.rebuild && gone.any (fun r => r.running && r.shard == z.shard) then s.endFreeze else s
    | none => s
  let s := ({ s with pair := { s.pair with rebuilds := s.pair.rebuilds.filter fun r => !(r.source == m || r.dest == m) } }).showRebuild
  if s.pair.draining && s.buddy = some m then
    ({ s with pair := { s.pair with draining := false } }).setf (pr rPAIR_STOCKTAKE_STAT) 4 1 1
  else s

/-- BEACON_TIMER: a beacon period ends (R396, R399, R400): missed periods are counted, a module cut off from both
partners is fenced, a fenced one that has heard both twice returns, a lost buddy is asked about, and beacons go
out, except in Lockdown (R439). A reserve that adopted and loses the buddy of its set loses the rebuilds from it (R406). -/
def execBeaconTimer (s : State) : Outcome State Fault Refusal :=
  .next (
    let ps := s.partners
    if ps = [] then s
    else
      let heard := s.pair.heard
      let s := ps.foldl (fun (u : State) m => u.setMissed m (if heard.contains m then 0 else min 255 (u.missedOf m + 1))) s
      let both := ps.all fun m => heard.contains m || heard.contains (s.substMod m)
      let s := { s with pair := { s.pair with heard := [], bothHeard := if both then s.pair.bothHeard + 1 else 0 } }
      let s := if s.pairState = 5 && decide (2 ≤ s.pair.bothHeard) && !s.isLost s.myId && !s.pair.handed then s.setPair s.unfenced else s
      let s := match s.buddy, s.reserveMod with
        | some b, some v =>
          let n := s.lostThresh
          let s := if s.pairState ≠ 5 && s.pairState ≠ 6 && decide (n - 1 ≤ s.missedOf b) && decide (n - 1 ≤ s.missedOf v) then
              s.fence.event .pair 0 1 v else s
          if s.pairState = 5 || s.pairState = 6 || s.pair.takeover then s
          else
            let s := if s.missedOf b = n then ({ s with pair := { s.pair with asking := true } }).event .pair 0 0 b else s
            let s := if s.missedOf b < n then { s with pair := { s.pair with asking := false } } else s
            if s.pair.asking && !s.locked then s.sendBoth v 0x41 (fun _ => leBytes 2 b) else s
        | _, _ => ((s.sets.filter s.isAdopted).map fun (a : AdoptSet) => a.buddy).foldl (fun (u : State) b =>
            if u.missedOf b = u.lostThresh then (u.event .pair 0 0 b).loseMember b else u) s
      let s := s.staleNow
      if s.locked then s else ps.foldl (fun (u : State) m => u.sendBoth m 0x40 (u.beaconBody m)) s)

/-- BEACON: message `ix` is a beacon: its sender is heard; one with TAKEOVER from the buddy fences the module, and a further one
finds it REPLACED (R399, R404, log entry 70). -/
def execBeacon (ix : Nat) (s : State) : Outcome State Fault Refusal :=
  .next (match s.takeMsg ix 0x40 with
    | none => s
    | some (b, s) =>
      let m := msgSender b
      let s := if s.pair.heard.contains m then s else { s with pair := { s.pair with heard := s.pair.heard ++ [m] } }
      let s := if s.partners.contains m then s.setMissed m 0 else s
      if s.buddy = some m && bit (at_ b 8 1) 4 && s.pairState ≠ 6 then (if s.pairState = 5 then s.replaced else s.fence) else s)

/-! ### Losing a module (R399, R401 to R404) -/

/-- Send a SUBSTITUTE once on every usable channel (R401). -/
def State.floodSubst (s : State) (lost reserve number : Nat) : State :=
  ((List.range 36).filter fun j => s.chanUsable j (s.officeCrate 0 0x10 3 []) true).foldl (fun (u : State) j =>
    u.sendPair (u.chanMap j).neighbour 0x43 (leBytes 2 lost ++ leBytes 2 reserve ++ leBytes 4 number) (some j)) s

/-- Waves in progress go on without a lost member (R311, R402). -/
def State.wavesAgain (s : State) : State :=
  (List.range 64).foldl (fun (u : State) g => match u.group g with
    | some r => if (u.wave g).phase ≠ 0 then u.progress g r (progressFuel u g) else u
    | none => u) s

/-- Address again what waits for a lost module (R402); a READ_REQ of it that waits for its channel is routed again. -/
def State.readdress (s : State) : State :=
  let g := fun (c : Crate) => { c with destModule := s.substMod c.destModule }
  let pin := fun (e : Nat × Crate) =>
    let c := g e.2
    (if c.op = 1 && c.destModule != e.2.destModule then (s.pickChannel c).getD e.1 else e.1, c)
  { s with fab := { s.fab with
    outbound := s.fab.outbound.map g, reqWait := s.fab.reqWait.map g, collIn := s.fab.collIn.map g, corridor := s.fab.corridor.map g,
    chunks := s.fab.chunks.map fun (k : Chunk) => { k with head := g k.head }, pinned := s.fab.pinned.map pin,
    requests := s.fab.requests.map fun (e : Nat × Option ReqEntry) => (e.1, e.2.map fun (q : ReqEntry) => { q with crate := g q.crate }) } }

/-- Install a substitution in the first free entry (R402); with none free it is SUBST_FULL. A module that is itself
LOST becomes REPLACED, an incident unless it handed itself over (R407). -/
def State.installSubst (s : State) (lost reserve number : Nat) : State :=
  match (List.range 16).find? (fun k => s.f (pr rPAIR_SUBST + 4 * k) 31 1 == 0) with
  | none => s.event .pair 0 6 lost
  | some k =>
    let s := s.loseMember lost
    let s := (s.wn (pr rPAIR_SUBST + 4 * k) (lost + reserve * 2 ^ 16 + 2 ^ 31)).postEvent .pair 4 (lost + reserve * 2 ^ 16) number
    let open_ := fun (c : CorrEntry) => if c.dstModule == lost then { c with resolved := false } else c
    let s := { s with tiles := s.tiles.map fun (e : Nat × Tile) => (e.1, e.2.mapCorr open_) }
    let s := (s.openCorridors.filter fun q => q.2.1 == lost).foldl (fun (u : State) q => u.sendQuery u.planGen q.2) s.readdress
    let s := if lost = s.myId && !s.unset then s.replaced else s
    s.wavesAgain

/-- A substitution comes in or starts: once per NUMBER it is sent on and installed (R401, R402). -/
def State.substitute (s : State) (lost reserve number : Nat) : State :=
  if s.pair.numbers.contains number then s
  else (({ s with pair := { s.pair with numbers := s.pair.numbers ++ [number] } }).floodSubst lost reserve number).installSubst lost reserve number

/-- Slots that were READY before an adoption have their set's tiles prepared as well (R187, R403). -/
def State.readySet (s : State) (set : Nat) : State :=
  (List.range 4).foldl (fun (u : State) k => match u.slotState k == 5, (u.slot k).plan, (u.slot k).place with
    | true, some p, some pl =>
      let own := pl.tiles.filter fun e => p.setOf e.1 == set
      let pre := (own.filter (u.needsPreload p)).map (·.2)
      (own.foldl (fun w e => w.readyTile p e) u).mapSlot k fun x => { x with place := some { pl with preload := pl.preload ++ pre } }
    | _, _, _ => u) s

/-- Adopt a set (R403): its tiles are powered, preloaded and started at their entries; both shards fall due for
rebuild from the survivor. -/
def State.adopt (s : State) (a : AdoptSet) : State :=
  let s := (s.setf (pr rPAIR_STAT) 6 1 1).setf (pr rPAIR_STAT) 7 2 a.set
  let s := match s.cur.now, s.cur.place with
    | some p, some pl =>
      let own := pl.tiles.filter fun (e : Nat × Nat) => p.setOf e.1 == a.set
      let s := own.foldl (fun (u : State) (e : Nat × Nat) =>
        match p.exhibit? e.1 with
        | some r => ((u.powerTile e.2).preloadTile e.2 ((p.itin? r.itinerary).getD [])).startTile p { pl with preload := [e.2] } r e.2
        | none => u) s
      (s.setRebuildTicket (own.map (fun (e : Nat × Nat) => e.2)) 0).readySet a.set
    | _, _ => s
  (s.rebuildDue a.shard a.buddy s.myId).rebuildDue a.buddyShard a.buddy s.myId

/-- The reserve confirms the loss of a set's module to its buddy (R399, R401): CONFIRM with a substitution and the
adoption, or CONFIRM_NO_RESERVE once another set is adopted. -/
def State.confirmLoss (s : State) (a : AdoptSet) : State :=
  let again := s.pair.lost.contains (a.guarded, a.buddy)
  let other := s.f (pr rPAIR_STAT) 6 1 = 1 && s.f (pr rPAIR_STAT) 7 2 != a.set
  let s := if again then s else { s with pair := { s.pair with lost := s.pair.lost ++ [(a.guarded, a.buddy)] } }
  let s := s.sendBoth a.buddy 0x42 (fun _ => leBytes 2 a.guarded ++ leBytes 1 (if other then 2 else 1))
  if again || other then s
  else
    let n := Config.entropy s.free % 2 ^ 32
    (({ s with free := s.free + 1 }).substitute a.guarded s.myId n).adopt a

/-- WITNESS_QUERY: message `ix` asks the reserve about SUBJECT (R399). One from a module that is not the subject's
buddy has no answer unless the subject is alive or has confirmed its loss. -/
def execWitnessQuery (ix : Nat) (s : State) : Outcome State Fault Refusal :=
  .next (match s.takeMsg ix 0x41 with
    | none => s
    | some (b, s) =>
      let subject := at_ b 8 2 % 32768
      let asker := msgSender b
      let answer := fun (v : Nat) => s.sendBoth asker 0x42 (fun _ => leBytes 2 subject ++ leBytes 1 v)
      if s.pairState = 5 || s.locked then s
      else match s.roles with
      | none => s
      | some r => match r.sets.find? (fun a => a.guarded == subject) with
        | none => s
        | some a =>
          if s.pair.lost.contains (asker, subject) then answer 3
          else if s.pair.lost.contains (subject, asker) then s.confirmLoss a
          else if s.missedOf subject < s.lostThresh - 1 then answer 0
          else if a.buddy = asker then s.confirmLoss a
          else s)

/-- The buddy takes over (R401): it keeps both shards and is SWITCHING; with a reserve both shards fall due for
rebuild there. -/
def State.takeOver (s : State) (reserve : Option Nat) : State :=
  match s.buddy, s.roles with
  | some b, some r =>
    let s := s.loseMember b
    let s := ({ s with pair := { s.pair with takeover := true, lostBuddy := r.buddy, asking := false } }).setf (pr rPAIR_STAT) 3 1 1
    let s := s.setPair 3
    match reserve with
    | some v => (s.rebuildDue r.shard s.myId v).rebuildDue r.buddyShard s.myId v
    | none => s
  | _, _ => s

/-- WITNESS_ANSWER: message `ix` is the reserve's verdict (R399, R401): CONFIRM and CONFIRM_NO_RESERVE let the module
take over. -/
def execWitnessAnswer (ix : Nat) (s : State) : Outcome State Fault Refusal :=
  .next (match s.takeMsg ix 0x42 with
    | none => s
    | some (b, s) =>
      let subject := at_ b 8 2 % 32768
      if s.pair.takeover || s.buddy ≠ some subject || s.reserveMod ≠ some (msgSender b) || s.pairState = 5 || s.pairState = 6 then s
      else match at_ b 10 1 with
        | 1 => s.takeOver s.reserveMod
        | 2 => (s.takeOver none).postEvent .pair 6 subject 0
        | _ => { s with pair := { s.pair with asking := false } })

/-- SUBSTITUTE: message `ix` of the flood (R401, R402). -/
def execSubstitute (ix : Nat) (s : State) : Outcome State Fault Refusal :=
  .next (match s.takeMsg ix 0x43 with
    | none => s
    | some (b, s) => s.substitute (at_ b 8 2 % 32768) (at_ b 10 2 % 32768) (at_ b 12 4))

/-- HANDOVER_MESSAGE: message `ix` says that SUBJECT hands itself over (R407): its reserve acts as if it had
confirmed the loss; its buddy waits for the answer. -/
def execHandoverMessage (ix : Nat) (s : State) : Outcome State Fault Refusal :=
  .next (match s.takeMsg ix 0x46 with
    | none => s
    | some (b, s) =>
      let subject := at_ b 8 2 % 32768
      if msgSender b ≠ subject then s
      else if s.buddy = some subject then { s with pair := { s.pair with asking := true } }
      else match s.sets.find? (fun a => a.guarded == subject) with
        | some a => s.confirmLoss a
        | none => s)

/-- SWITCHOVER_CLOSE: 2.5 ms after the takeover SWITCHING becomes SOLE (R403, R404). -/
def execSwitchoverClose (s : State) : Outcome State Fault Refusal :=
  .next (if s.pairState = 3 then s.setPair 4 else s)

/-! ### Commands of PAIR_CTRL (R407, R410 to R415) -/

/-- HANDOVER: the tiles stop at their next step boundary, the module is fenced, and buddy and reserve are told
(R407). -/
def execHandover (_side : Side) (s : State) : Outcome State Fault Refusal :=
  .next (match s.buddy, s.reserveMod with
    | some b, some v =>
      if s.pairState = 6 then s
      else
        let s := s.poweredTiles.foldl (fun (u : State) t => u.stopCmd t) s
        let s := ({ s with pair := { s.pair with handed := true } }).fence
        (s.sendPair b 0x46 (leBytes 2 s.myId) none).sendPair v 0x46 (leBytes 2 s.myId) none
    | _, _ => s)

/-- STOCKTAKE with a MARKER group and a NUMBER (R410): the module contributes NUMBER × 2⁴⁸ + (PLN_GEN + 2). -/
def execStocktake (group number : Nat) (_side : Side) (s : State) : Outcome State Fault Refusal :=
  let a := pr rPAIR_STOCKTAKE_STAT
  .next (match s.group group with
    | none => s
    | some r =>
      if r.kind ≠ 6 || s.f a 0 3 ≠ 0 || (s.wave group).phase ≠ 0 then s
      else
        let n := number % 2 ^ 16
        let s := ((s.setf a 0 3 1).setf a 3 3 0).setf a 16 16 n
        let s := { s with pair := { s.pair with marker := some group } }
        s.contributeFirmware group r (n * 2 ^ 48 + (s.planGen + 2) % 2 ^ 48))

/-- RELEASE: the freeze of a stocktake ends, and with it a drain that has not finished (R413). -/
def execStocktakeRelease (_side : Side) (s : State) : Outcome State Fault Refusal :=
  let a := pr rPAIR_STOCKTAKE_STAT
  .next (
    if s.f a 0 3 ≠ 3 then s
    else (({ s with pair := { s.pair with draining := false, marker := none } }).endFreeze).setf a 0 3 0)

/-- CLEAR_SUBST: every entry whose LOST no current route entry names is cleared (R415). -/
def execClearSubst (_side : Side) (s : State) : Outcome State Fault Refusal :=
  .next (
    let named : List Nat := match s.cur.now with | some p => p.routes.map (fun (r : RouteRec) => r.dest) | none => []
    (List.range 16).foldl (fun (u : State) k =>
      if u.f (pr rPAIR_SUBST + 4 * k) 31 1 = 1 && !named.contains (u.f (pr rPAIR_SUBST + 4 * k) 0 15) then u.wn (pr rPAIR_SUBST + 4 * k) 0 else u) s)

/-- FORCE_TAKEOVER, not through PF0 (R488): the module takes over without a witness (R399, R406). Through PF0 the message
filter refuses it. -/
def execForceTakeover (side : Side) (s : State) : Outcome State Fault Refusal :=
  .next (
    if side = .pf0 then s.filterReject
    else if s.pairState = 6 || s.pair.takeover then s
    else s.takeOver none)

/-- UNFENCE: FENCED ends (R399). -/
def execUnfence (_side : Side) (s : State) : Outcome State Fault Refusal :=
  .next (if s.pairState = 5 then s.setPair s.unfenced else s)

/-- DRAIN_DONE: the drain has sent the frozen ledger, concatenated by INDEX, to BUDDY_SNAPSHOT (R413 steps 4 and
5). -/
def execDrainDone (s : State) : Outcome State Fault Refusal :=
  .next (match s.roles, s.buddy with
    | some r, some b =>
      if !s.pair.draining then s
      else
        let own := r.ledger 0 0xFF ++ (if s.f (pr rPAIR_STAT) 3 1 = 1 then r.ledger 1 0xFF else [])
        let bs := (own.map s.frozenBytes).flatten
        let s := ((s.ship b r.buddySnapshot 0 bs).drained_ bs.length)
        let s := ({ s with pair := { s.pair with draining := false } }).setf (pr rPAIR_STOCKTAKE_STAT) 3 1 1
        s.postEvent .pair 0xA (s.f (pr rPAIR_STOCKTAKE_STAT) 16 16) 0
    | _, _ => s)

end Sys2Proof.Machine
end

