-- ==== Sys2Proof/Machine/WardenMsg.lean ====
section
/-! DEFINITION. Warden messages as bytes (13_host_and_security.md R482, R483, R487) and the WARDEN_NOTICE
record to the host (R469). -/

namespace Sys2Proof.Machine

open Sys2Proof

/-- The module serial (R492). -/
def State.serial (s : State) : Nat := s.rd64 (winBase .rgs 0 + rRGS_SERIAL_LO) (winBase .rgs 0 + rRGS_SERIAL_HI)

/-- Bytes as numbers. -/
def natsOf (bs : List Byte) : List Nat := bs.map (·.toNat)

/-- The identity key's number where the engine holds one (R473): it signs by its own random source. -/
def identityKey : Nat := 4

/-- A 96-byte signature of the identity key over bytes (R473, log entry 5); 96 zero bytes where no key exists (R484). -/
def State.sign (s : State) (bs : List Byte) : List Byte × State :=
  if s.arch.identity then
    (((Config.ecdsaSign identityKey (natsOf (sha384 bs)) s.free ++ List.replicate 96 0).take 96).map (BitVec.ofNat 8),
      { s with free := s.free + 1 })
  else (List.replicate 96 0, s)

/-- Send a message of the Warden port signed with the identity key (R483). -/
def State.sendWarden (s : State) (ty result counter : Nat) (body : List Byte) : State :=
  let m := leBytes 4 0x4E445257 ++ leBytes 1 1 ++ leBytes 1 ty ++ leBytes 1 3 ++ leBytes 1 result ++ leBytes 8 counter
    ++ leBytes 8 s.serial ++ leBytes 2 body.length ++ leBytes 6 0 ++ body
  let (sig, s) := s.sign m
  { s with out := s.out ++ [.warden (m ++ sig)] }

/-- Whether the Warden configuration names a collector (R482, R485 CONFIG_SET). -/
def State.collector (s : State) : Bool := at_ s.arch.config 12 4 != 0

/-- A notice to the collector (R487), COUNTER a free value (log entry 4). -/
def State.sendNotice (s : State) (ev value : Nat) : State :=
  (s.draw (2 ^ 64)).2.sendWarden 0xC0 0 (s.draw (2 ^ 64)).1 (leBytes 1 ev ++ leBytes 7 0 ++ leBytes 8 value)

/-- A notice where a collector is set; in RECOVERY the port is not up (R478). -/
def State.notice (s : State) (ev value : Nat) : State :=
  if s.collector && !s.inRecovery then s.sendNotice ev value else s

/-- The WARDEN_NOTICE record of an accepted request that changes state (R469, R487). -/
def State.wardenNotice (s : State) (ty result value : Nat) : State :=
  s.post 0x12 .hst 0 (leBytes 1 ty ++ leBytes 1 result ++ leBytes 6 0 ++ leBytes 8 value)

end Sys2Proof.Machine
end

