-- ==== Sys2Proof/Machine/Lockdown.lean ====
section
/-! DEFINITION. Incidents, escalation and Lockdown (12_incidents.md R416 to R446): force bits, the chance timer and
its actions, cancelling, the ways into Lockdown and out of it. -/

namespace Sys2Proof.Machine

open Sys2Proof Host

/-! ### Incident blocks (R416, R433) -/

/-- The block of a BLOCK code. -/
def blkOfCode : Nat → Option Blk
  | 0 => some .gal | 1 => some .tile | 2 => some .vlt | 3 => some .sto | 4 => some .wng | 5 => some .lmp
  | 6 => some .col | 7 => some .fab | 8 => some .pln | 9 => some .cur | 10 => some .pair | 11 => some .rgs
  | 12 => some .hst | 13 => some .pwr | _ => none

/-- Whether instance `i` of a block exists (R416). A tile is given by its index (R106). -/
def instOk (b : Blk) (i : Nat) : Bool :=
  match b with
  | .tile => isTile i
  | .wng | .col => decide (i < 4)
  | .lmp => decide (i < 2)
  | _ => i == 0

/-- The incident block a command names. -/
def incBlock (blk inst : Nat) : Option Blk :=
  match blkOfCode blk with
  | some b => if instOk b inst then some b else none
  | none => none

/-- Run `g` on the incident block a command names. -/
def State.onBlock (s : State) (blk inst : Nat) (g : Blk → State → State) : State :=
  match incBlock blk inst with
  | some b => g b s
  | none => s

/-- Change the incident logic. -/
def State.mapInc (s : State) (g : IncState → IncState) : State := { s with inc := g s.inc }

/-- Post a record of an action of source `k`, with the element that the raise named (R434). -/
def State.postInc (s : State) (b : Blk) (i k kind flags action : Nat) : State :=
  let (r, s) := s.incRecord b i k kind flags action (aget 0 s.inc.acting (ikey b i k))
  s.postTo (s.routeOf b) r

/-- The direct entry's record (R430): an ACTION of LOCKDOWN; SOURCE 31 and DETAIL 0 where no source acts. -/
def State.postDirect (s : State) (b : Blk) (i : Nat) : State :=
  s.post 0x01 b i (incBody 31 2 3 (8 + 4 * s.f (ir b i rINC_FIRST) 8 1) 3 0 0)

/-- INJECTED of the raise that a source's action answers (R423). -/
def State.injOf (s : State) (b : Blk) (i k : Nat) : Nat := b2n (aget false s.inc.injected (ikey b i k))

/-- The sources whose condition is a level (R427, R432). -/
def levelSource (b : Blk) (k : Nat) : Bool := b == .pwr && (k == 0 || k == 1 || k == 2 || k == 5)

/-- Whether a write reaches a block's registers: a tile's, only while its router works (R15). -/
def State.incReached (s : State) (b : Blk) (i : Nat) : Bool := b != .tile || s.tileReached i

/-- Whether a tile's register writes are held for the exit from a power state (R506). -/
def State.incHeld (s : State) (b : Blk) : Bool := b == .tile && s.asleep

/-- A write of value `v` to incident register `off`, whose effect is `g`. -/
def State.incWrite (s : State) (b : Blk) (i off v : Nat) (side : Side) (g : State → State) : State :=
  if !s.incReached b i then s
  else if s.incHeld b then s.holdWrite (ir b i off) v side
  else g s

/-! ### Lockdown: what the exit depends on (R440 to R442) -/

/-- RGS_LOCK_STAT. -/
def lockStat : Nat := winBase .rgs 0 + rRGS_LOCK_STAT

/-- What RGS_LOCK_STAT reads: TILES_QUIET is 1 once every unit is idle in Lockdown (R437). -/
def State.lockShown (s : State) : Nat := s.rn lockStat + b2n (s.locked && s.tilesQuiet) * 2 ^ 4

/-- The stored INC_STAT registers. -/
def State.incStats (s : State) : List (Blk × Nat × Nat) :=
  s.regs.filterMap fun (e : Nat × Word) => match blkOf e.1 with
    | some (b, i, o) => if o = rINC_STAT then some (b, i, e.2.toNat) else none
    | none => none

/-- Whether a source whose action is LOCKDOWN is raised, or its condition persists (R441). -/
def State.causeHolds (s : State) : Bool :=
  (s.incStats.any fun x => (List.range 24).any fun k => bit x.2.2 k && s.actOf x.1 x.2.1 k == 3)
  || s.inc.level.any fun (e : Nat × Bool) => match blkOf e.1 with
    | some (b, i, k) => e.2 && s.actOf b i k == 3
    | none => false

/-- Whether only a reset ends this Lockdown (R440): a self-fault, a stalled firmware, or REPLACED. -/
def State.resetOnly (s : State) : Bool :=
  s.inc.held || s.pairState == 6 || s.incStats.any fun x => bit x.2.2 31

/-- The exit policy of the ACTIVE slot: 1 QUIET for SIZE_CLASS 3, else 0 MANUAL (R440). -/
def State.exitPolicy (s : State) : Nat :=
  match s.cur.now with
  | some p => b2n (p.sizeClass == 3 && (List.range 4).any fun k => s.slotState k == 6)
  | none => 0

/-- QUIET exits of the last 10 minutes of the Registrar timer (R442). -/
def State.recentExits (s : State) : Nat := min 3 (s.inc.exits.filter fun t => decide (s.timer < t + 600000 * 200000)).length

/-! ### Entering Lockdown (R437) -/

/-- Step 1: every pending action is cancelled with its record. -/
def State.cancelAll (s : State) : State :=
  (s.regs.filterMap fun (e : Nat × Word) => match blkOf e.1 with
    | some (b, i, o) => if o = rINC_ACTION then some (b, i, e.2.toNat) else none
    | none => none).foldl (fun (u : State) x =>
      let u := u.wn (ir x.1 x.2.1 rINC_ACTION) 0
      (List.range 24).foldl (fun (w : State) k =>
        if bit x.2.2 k then w.postInc x.1 x.2.1 k 4 (w.injOf x.1 x.2.1 k) (w.actOf x.1 x.2.1 k) else w) u) s

/-- Step 5: DMA entries in progress complete with LOCKDOWN. -/
def State.stopDma (s : State) : State :=
  (s.host.entries.filter fun e => decide (e.ring < 32) && !e.finished && (at_ e.bytes 0 1 == 1 || at_ e.bytes 0 1 == 2)).foldl
    (fun (u : State) e => u.finish e.ring e.count 8 0) s

/-- The LOCKDOWN_ENTER record and the notice to the warden side (R436, R487). -/
def State.announceEntry (s : State) : State :=
  let a := s.rn lockStat
  let s := s.postEvent .rgs 0xC (fld a 8 4 + fld a 16 11 * 2 ^ 5 + fld a 27 5 * 2 ^ 16 + fld a 2 1 * 2 ^ 24 + fld a 6 1 * 2 ^ 25) 0
  s.notice 1 s.lockShown

/-- Enter Lockdown with its cause (R430, R437, R440); in Lockdown the holds only accumulate. -/
def State.enterLockdown (s : State) (code inst source : Nat) (forced self hold : Bool) : State :=
  let s := s.mapInc fun x => { x with held := x.held || hold || self }
  let a := lockStat
  let s := if forced then s.setf a 2 1 1 else s
  let s := if self then s.setf a 6 1 1 else s
  let s := if s.resetOnly then s.setf a 3 1 1 else s
  if s.locked then s
  else
    let s := ((((s.setf a 0 1 1).setf a 1 1 s.exitPolicy).setf a 8 4 code).setf a 16 11 inst).setf a 27 5 source
    let s := s.bump (winBase .rgs 0 + rRGS_LOCK_COUNT)
    let s := s.mapInc fun x => { x with entered := s.timer }
    let s := s.cancelAll
    let s := if s.hangOut && s.canWithdraw then s.withdrawHang else s
    (((s.lightLockdown.setPace 1).stopDma).storeRest).announceEntry

/-- Entry by FORCE: RGS_LOCK_CTRL, the warden message LOCKDOWN, a lifecycle change (R430, R440, R481). -/
def State.forceLock (s : State) : State :=
  let s := if s.locked then s else s.postDirect .rgs 0
  s.enterLockdown 11 0 31 true false false

/-! ### Leaving Lockdown (R441 to R443) -/

/-- The exit: the line falls, the Store's channels leave self-refresh unless the power state keeps them in it, swaps
that wait start. -/
def State.exitLockdown (s : State) (quiet : Bool) : State :=
  let s := ((s.setf lockStat 0 1 0).setf lockStat 2 1 0).setf lockStat 3 1 0
  let s := s.mapInc fun x => { x with held := false }
  let s := if quiet then
      let c := winBase .rgs 0 + rRGS_LOCK_RECOVERY_COUNT
      (s.mapInc fun x => { x with exits := x.exits ++ [s.timer] }).setf c 8 24 (min 0xFFFFFF (s.f c 8 24 + 1))
    else s
  let deep := decide (2 ≤ s.f (winBase .pwr 0 + rPWR_STATE_STAT) 0 3)
  let s := if deep then s
    else (List.range 64).foldl (fun (u : State) c =>
      if u.f (chanStat c) 0 3 = 1 || u.f (chanStat c) 0 3 = 2 then (u.wakeParts c).setf (chanStat c) 0 3 0 else u) s
  let s := s.startSwaps
  let a := b2n quiet + s.recentExits * 2 ^ 4
  (s.postEvent .rgs 0xD a 0).notice 2 a

/-- CLEAR (R441): through PF1 or from the warden side. -/
def State.lockClear (s : State) (side : Side) : State :=
  if side = .pf0 then s.filterReject
  else
    let s := s.setf lockStat 5 1 0
    if !s.locked then s
    else
      let s := if s.resetOnly then s.setf lockStat 3 1 1 else s
      if s.resetOnly || (s.f lockStat 2 1 == 1 && !wardenSide side) || s.causeHolds then
        let s := s.setf lockStat 5 1 1
        s.postEvent .rgs 0xE s.lockShown 0
      else s.exitLockdown false

/-- The check of each millisecond: the policy in force, holds, and a QUIET exit (R440, R442). -/
def State.lockCheck (s : State) : State :=
  if !s.locked then s
  else
    let s := s.setf lockStat 1 1 s.exitPolicy
    let s := if s.resetOnly then s.setf lockStat 3 1 1 else s
    let start := max s.inc.entered s.inc.lastRaise
    let due := decide (start + s.f (winBase .rgs 0 + rRGS_LOCK_QUIET_TIME) 0 14 * 200000 ≤ s.timer)
    let s := if s.exitPolicy = 1 && s.recentExits == 3 then s.setf lockStat 3 1 1 else s
    if s.exitPolicy = 1 && due && s.f lockStat 2 1 == 0 && s.f lockStat 3 1 == 0 && !s.causeHolds then s.exitLockdown true else s

/-! ### Actions (R428, R429) -/

/-- Whether a Wing source concerns a channel, a link, or neither. -/
def wngChannelSource (k : Nat) : Bool := k == 2 || k == 4 || k == 5 || k == 6

/-- Take a channel down and keep it down until the next hang. -/
def State.isolateChan (s : State) (j : Nat) : State :=
  ((s.mapChan j fun x => { x with isolated := true }).linkDown j 0).linkDown j 1

/-- ISOLATE: the element that the raising event named goes out of service, which a forced event names only where it is the block
itself. The sources of RGS name none; for PWR see `State.perform`. -/
def State.isolate (s : State) (b : Blk) (i k : Nat) : State :=
  let d := aget 0 s.inc.acting (ikey b i k)
  if b = .tile then s.stopCmd i
  else if b = .pair then s.fence
  else if noElement ≤ d then s
  else match b with
  | .tile | .pair => s
  | .gal =>
    let t := tileIx (d % 32) (d / 32 % 64)
    if k = 2 || !isTile t then s else ((s.mapTile t fun x => { x with isolated := true }).reroute t).tileDue t
  | .vlt => if k = 6 then s else s.pageDue true (d / 4096)
  | .sto => if k = 5 || k = 8 then s else s.failChannel (chanOf (s.segMode d) d)
  | .wng =>
    if 16 ≤ k then s
    else
      let j := 9 * i + d / 2 ^ 24 % 16
      if wngChannelSource k then s.isolateChan j else s.linkDown j (d / 2 ^ 16 % 2)
  | .lmp => if k = 5 || s.laser i d == 4 then s else s.killLaser i d
  | .col => s.setf (redCfg i d) 9 1 0
  | .fab =>
    if k = 4 then s
    else { s with cur := { s.cur with noRoute := s.cur.noRoute ++ [if k = 3 then d / 2 ^ 16 % 32768 else d % 32768] } }
  | .pln | .cur =>
    if (b == .pln && k == 2) || (b == .cur && k == 1) then s
    else
      let s := if s.hangOut && s.canWithdraw && s.hangSlot == d then s.withdrawHang else s
      s.setSlotState d 7
  | .hst =>
    if k = 0 then s.setf (rg rHST_RING_STAT d) 2 1 1
    else if k = 1 then s.setf (lg rHST_LOG_CFG d) 8 1 0
    else s
  | .rgs | .pwr => s

/-- HALT: the service of the whole block stops until RESUME. -/
def State.halt (s : State) (b : Blk) (i : Nat) : State :=
  let s := s.setf (ir b i rINC_STAT) 30 1 1
  match b with
  | .tile => s.stopCmd i
  | .pwr => s.setPace 1
  | _ => s

/-- Perform an action of source `k`: 1 ISOLATE, 2 HALT, 3 LOCKDOWN. ISOLATE of PWR acts as HALT. -/
def State.perform (s : State) (b : Blk) (i k a : Nat) : State :=
  match a with
  | 1 => if b = .pwr then s.halt b i else s.isolate b i k
  | 2 => s.halt b i
  | 3 => s.enterLockdown b.code (instCode b i) k false false false
  | _ => s

/-- A chance timer expires (R425): a level that has cleared cancels (R427); an injected LOCKDOWN becomes HALT unless
LOCKDOWN_INJECT is set (R424); the record of the action comes before those of its effects. -/
def State.chanceExpiry (s : State) (b : Blk) (i k : Nat) : State :=
  if s.f (ir b i rINC_ACTION) k 1 = 0 || 24 ≤ k then s
  else
    let s := s.setf (ir b i rINC_ACTION) k 1 0
    let inj := s.injOf b i k
    let a := s.actOf b i k
    if levelSource b k && !aget false s.inc.level (ikey b i k) then s.postInc b i k 3 inj a
    else if a = 3 && inj == 1 && s.f (ir b i rINC_FORCE) 31 1 == 0 then (s.postInc b i k 2 (inj + 16) 2).perform b i k 2
    else (s.postInc b i k 2 inj a).perform b i k a

/-- Cancel the pending actions of a mask (R426): the host, not those of Critical sources. -/
def State.cancelMask (s : State) (b : Blk) (i mask : Nat) (side : Side) : State :=
  (List.range 24).foldl (fun (u : State) k =>
    if bit mask k && u.f (ir b i rINC_ACTION) k 1 == 1 && (wardenSide side || u.sevOf b i k != 3) then
      (u.setf (ir b i rINC_ACTION) k 1 0).postInc b i k 3 (u.injOf b i k) (u.actOf b i k)
    else u) s

/-- RESUME (R429): ends a HALT while no source of the block whose action is HALT is raised. -/
def State.resume (s : State) (b : Blk) (i : Nat) : State :=
  let st := ir b i rINC_STAT
  if !s.halted b i || ((List.range 24).any fun k => bit (s.rn st) k && s.actOf b i k == 2) then s
  else
    let s := s.setf st 30 1 0
    if b == .lmp then s.startSwaps else if b == .sto then s.serveWaiting else s

/-- Inject one event into each source of a mask, at once, in the order of R422 (R424). -/
def State.inject (s : State) (b : Blk) (i mask : Nat) : State :=
  (s.bySeverity b i mask).foldl (fun (u : State) k => u.event b i k noElement true) s

/-- A write of INC_FORCE (R424, R445): FORCE through PF1 or from the warden side; LOCKDOWN_INJECT from the warden side.
The message filter counts a refused write once. -/
def State.forceWrite (s : State) (b : Blk) (i v : Nat) (side : Side) : State :=
  let a := ir b i rINC_FORCE
  let wdn := !wardenSide side && fld v 31 1 != s.f a 31 1
  let refused := side == .pf0 && fld v 0 24 != 0
  let s := if wardenSide side then s.setf a 31 1 (fld v 31 1) else s
  let s := if wdn || refused then s.filterReject else s
  if side = .pf0 then s else s.inject b i (fld v 0 24)

/-! ### The commands -/

/-- INCIDENT_WINDOW_END: an open window ends at its time, and its count returns to 0 (R419). -/
def execIncidentWindowEnd (blk inst k : Nat) (s : State) : Outcome State Fault Refusal :=
  .next (s.onBlock blk inst fun b s =>
    let a := ir b inst rINC_COUNT + 4 * k
    if 24 ≤ k || s.f a 0 8 = 0 || decide (s.nowOf b inst < aget 0 s.inc.winEnd (ikey b inst k)) then s
    else s.setf a 0 8 0)

/-- LEVEL_REPEAT: a condition that persists is a further event after 1 ms (R417). -/
def execLevelRepeat (blk inst k : Nat) (s : State) : Outcome State Fault Refusal :=
  .next (s.onBlock blk inst fun b s =>
    if 24 ≤ k || !aget false s.inc.level (ikey b inst k) then s
    else s.event b inst k (aget 0 s.inc.detail (ikey b inst k)))

/-- INC_FORCE: a write of force bits. -/
def execIncForce (blk inst value : Nat) (side : Side) (s : State) : Outcome State Fault Refusal :=
  .next (s.onBlock blk inst fun b s => s.incWrite b inst rINC_FORCE value side fun s => s.forceWrite b inst value side)

/-- CHANCE_TIMER_EXPIRY of a source. -/
def execChanceTimerExpiry (blk inst k : Nat) (s : State) : Outcome State Fault Refusal :=
  .next (s.onBlock blk inst fun b s => s.chanceExpiry b inst k)

/-- ACTION_CANCEL: a write of 1 to bits of PENDING. -/
def execActionCancel (blk inst mask : Nat) (side : Side) (s : State) : Outcome State Fault Refusal :=
  .next (s.onBlock blk inst fun b s =>
    s.incWrite b inst rINC_ACTION (fld mask 0 24) side fun s => s.cancelMask b inst (fld mask 0 24) side)

/-- RESUME: a write of 1 to RESUME of INC_ACTION. -/
def execResume (blk inst : Nat) (side : Side) (s : State) : Outcome State Fault Refusal :=
  .next (s.onBlock blk inst fun b s => s.incWrite b inst rINC_ACTION (2 ^ 31) side fun s => s.resume b inst)

/-- LATCH_CLEAR: a write of 1 to VALID clears the whole latch (R421). -/
def execLatchClear (blk inst : Nat) (side : Side) (s : State) : Outcome State Fault Refusal :=
  .next (s.onBlock blk inst fun b s => s.incWrite b inst rINC_FIRST (2 ^ 16) side fun s => s.wn (ir b inst rINC_FIRST) 0)

/-- RAISED_CLEAR: a W1C write of INC_STAT. -/
def execRaisedClear (blk inst mask : Nat) (side : Side) (s : State) : Outcome State Fault Refusal :=
  .next (s.onBlock blk inst fun b s => s.incWrite b inst rINC_STAT mask side fun s => s.regStore (ir b inst rINC_STAT) mask 0xFFFFFFFF side)

/-- A write of INC_POLICY[k] with the checks of R431; an index without a source ignores it (R432). -/
def State.policyWrite (s : State) (b : Blk) (i k value mask : Nat) (side : Side) : State :=
  if hasSource b k then s.regStore (ir b i rINC_POLICY + 4 * k) value mask side else s

/-- POLICY_WRITE. -/
def execPolicyWrite (blk inst k value : Nat) (side : Side) (s : State) : Outcome State Fault Refusal :=
  .next (s.onBlock blk inst fun b s =>
    if 24 ≤ k then s
    else s.incWrite b inst (rINC_POLICY + 4 * k) value side fun s => s.policyWrite b inst k value 0xFFFFFFFF side)

/-- SELF_FAULT: a parity fault in a block's incident registers or counters (R430). -/
def execSelfFault (blk inst : Nat) (s : State) : Outcome State Fault Refusal :=
  .next (s.onBlock blk inst fun b s =>
    let s := s.setf (ir b inst rINC_STAT) 31 1 1
    let s := if s.locked then s else s.postDirect b inst
    s.enterLockdown b.code (instCode b inst) 31 false true false)

/-- FIRMWARE_STALL: the watchdog's own event, which takes LOCKDOWN without a chance timer (R430). -/
def execFirmwareStall (s : State) : Outcome State Fault Refusal :=
  .next (
    let waits := s.f (ir .rgs 0 rINC_ACTION) 1 1
    let s := (s.event .rgs 0 1).setf (ir .rgs 0 rINC_ACTION) 1 1 waits
    let s := if s.locked then s else s.postInc .rgs 0 1 2 8 3
    s.enterLockdown 11 0 1 false false true)

/-- FORCE of RGS_LOCK_CTRL, from the warden side; the message filter refuses the host's (R7, R430). -/
def execForceLockdown (side : Side) (s : State) : Outcome State Fault Refusal :=
  .next (if wardenSide side then s.forceLock else s.filterReject)

/-- CLEAR of RGS_LOCK_CTRL. -/
def execLockdownClear (side : Side) (s : State) : Outcome State Fault Refusal := .next (s.lockClear side)

/-- LOCKDOWN_EXIT_CHECK: the check of each millisecond. -/
def execLockdownExitCheck (s : State) : Outcome State Fault Refusal := .next s.lockCheck

end Sys2Proof.Machine
end

