-- ==== Sys2Proof/Machine/TileRegs.lean ====
section
/-! DEFINITION. Register writes to the incident registers of every block (12_incidents.md R445) and to the window of a
tile (03_tiles.md R106 to R110), and the writes that A1 and below hold (R506). -/

namespace Sys2Proof.Machine

open Sys2Proof

/-- A write of `v` under `mask` to the incident register at window offset `o` of a block. -/
def State.incRegWrite (s : State) (b : Blk) (i o v mask : Nat) (side : Side) : State :=
  let w := v &&& mask
  if o = rINC_STAT then s.regStore (ir b i o) v mask side
  else if o = rINC_FIRST then if bit w 16 then s.wn (ir b i o) 0 else s
  else if o = rINC_FORCE then
    s.forceWrite b i (if bit mask 31 then w else fld w 0 24 + 2 ^ 31 * s.f (ir b i o) 31 1) side
  else if o = rINC_ACTION then
    let s := if bit w 31 then s.resume b i else s
    s.cancelMask b i (fld w 0 24) side
  else if o = rINC_CHANCE_TIME then s.regStore (ir b i o) v mask side
  else if rINC_POLICY ≤ o ∧ o < rINC_POLICY + 96 then s.policyWrite b i ((o - rINC_POLICY) / 4) v mask side
  else s

/-- Whether a window offset is an incident register. -/
def isIncReg (o : Nat) : Bool := decide (0x800 ≤ o) && decide (o < 0x900)

/-- A write into the window of tile `t`, whose router works, with the module in A0 (R107, R109). -/
def State.tileRegNow (s : State) (t o v mask : Nat) (side : Side) : State :=
  let w := v &&& mask
  if isIncReg o then s.incRegWrite .tile t o v mask side
  else if o = rTILE_STATE_CTRL then
    match w % 4 with
    | 1 => s.stopCmd t
    | 2 => s.releaseCmd t
    | 3 => s.resetCmd t
    | _ => s
  else if o = rTILE_ARITH_STAT then if w % 256 = 0 then s else s.statClearCmd t w
  else
    match regRow (tr t o) with
    | none => s
    | some (_, _, r, _) =>
      let s := if r.fields.any (fun f => f.acc == .rw) then
          s.tileChange t (.write o v mask side)
        else s
      if o = rTILE_PERF_CTRL && bit w 0 then s.perfClearCmd t else s

/-- A write of part of a register as a write of the whole: the RW and WDN fields it leaves alone keep their values. -/
def State.wholeWrite (s : State) (a v mask : Nat) : Nat :=
  match regRow a with
  | some (_, _, r, _) =>
    r.fields.foldl (fun x f => if f.acc == .rw || f.acc == .wdn then
      setFld x f.lo f.width (fld ((v &&& mask) ||| (s.rn a &&& (0xFFFFFFFF ^^^ mask))) f.lo f.width) else x) (v &&& mask)
  | none => v

/-- A write into the window of tile `t`: ignored where the router has failed (R15), held in A1 and below. -/
def State.tileRegWrite (s : State) (t o v mask : Nat) (side : Side) : State :=
  if !s.tileReached t then s
  else if s.asleep then s.holdWrite (tr t o) (s.wholeWrite (tr t o) v mask) side
  else s.tileRegNow t o v mask side

/-- The writes that a power state held take effect at its exit, in order: wave results, then register writes (R506). -/
def State.releaseWrites (s : State) : State :=
  let ws := s.pwr.heldWrites
  let s := s.pwr.heldResults.foldl (fun (u : State) x => u.landResult x.1 x.2.1 x.2.2) { s with pwr := { s.pwr with heldResults := [] } }
  ws.foldl (fun (u : State) w => match blkOf w.1 with
    | some (.tile, t, o) => u.tileRegNow t o w.2.1 0xFFFFFFFF w.2.2
    | _ => u) { s with pwr := { s.pwr with heldWrites := [] } }

end Sys2Proof.Machine
end

