-- ==== Sys2Proof/Machine/Dockets.lean ====
section
/-! DEFINITION. The host interface (13_host_and_security.md R447 to R470, R476, R477, R487): doorbells, ring
configuration, docket entries and their DMA, the commands of BAR2, the PCIe functions and the notices of HST_WARDEN_NOTICE. -/

namespace Sys2Proof.Machine

open Sys2Proof Host

/-! ### Ring configuration (R457, R458) -/

/-- The configuration register of ring `d`: docket and plan rings 0 to 32, logbook rings 33 to 36 (R456). -/
def ringCfg (d : Nat) : Nat := if d ≤ 32 then rg rHST_RING_CFG d else lg rHST_LOG_CFG (d - 33)

/-- The function that owns ring `d`. -/
def State.ownerOfRing (s : State) (d : Nat) : Side := ownerOf (s.f (ringCfg d) 7 1)

/-- Firmware slot `k`: 0 A, 1 B (R477). -/
def State.fwSlot (s : State) (k : Nat) : FwSlot := if k = 0 then s.arch.slotA else s.arch.slotB

/-- Replace firmware slot `k`; RGS_BOOT_STAT shows its state. -/
def State.setFwSlot (s : State) (k : Nat) (x : FwSlot) : State :=
  let s := { s with arch := if k = 0 then { s.arch with slotA := x } else { s.arch with slotB := x } }
  s.setf bootStat (if k = 0 then 4 else 8) 3 x.state

/-- The LOAD in progress on the plan ring. -/
def State.loading (s : State) : Option Entry := (s.inProgress planRing).find? fun e => !e.finished && at_ e.bytes 0 1 == 0x20

/-- A LOAD that the host's end breaks off completes with DMA_ERROR, and its slot becomes EMPTY (R173). -/
def State.failLoad (s : State) : State :=
  match s.loading with
  | some e => (s.clearSlot (at_ e.bytes 0x20 1)).finish planRing e.count 7 0
  | none => s

/-- Abort what ring `d` has in progress (R455, R463). A plan-ring entry has only the results of R173: a LOAD completes
with DMA_ERROR and its slot becomes EMPTY; other plan commands run on to their own results. -/
def State.abortRing (s : State) (d : Nat) : State :=
  if d = planRing then s.failLoad
  else match s.inProgress d with
    | e :: _ => s.finish d e.count 9 e.moved
    | [] => s

/-- ENABLE of ring `d` becomes `on`: enabling sets both counts to 0, disabling aborts the entry in progress. -/
def State.setEnable (s : State) (d : Nat) (on : Nat) : State :=
  if s.f (ringCfg d) 8 1 = on then s
  else if d ≤ 32 then
    if on = 1 then
      let s := (((s.setf (ringCfg d) 8 1 1).wn (rg rHST_RING_HEAD d) 0).wn (rg rHST_RING_TAIL d) 0)
      (s.setf (rg rHST_RING_STAT d) 4 4 0).setf (rg rHST_RING_STAT d) 0 2 1
    else ((s.abortRing d).setf (ringCfg d) 8 1 0).setf (rg rHST_RING_STAT d) 0 2 0
  else
    let s := s.setf (ringCfg d) 8 1 on
    if on = 1 then ((s.wn (lg rHST_LOG_PROD (d - 33)) 0).wn (lg rHST_LOG_CONS (d - 33)) 0) else s

/-- A write of `v` under `mask` to the configuration register of ring `d` (R458): that of a ring owned by PF1 only
through PF1; OWNER to 1 only through PF1; SIZE_LOG2 and OWNER not while ENABLE is 1. -/
def State.ringCfgWrite (s : State) (d v mask : Nat) (side : Side) : State :=
  let a := ringCfg d
  if s.ownerOfRing d = .pf1 && side != .pf1 then s.filterReject
  else
    let old := s.rn a
    let enabled := fld old 8 1 == 1
    let own := bit mask 7 && bit v 7 && side != .pf1
    let s := if own then s.filterReject else s
    let hold := 2 ^ 8 + (if enabled then 0x9F else 0) + (if own && !enabled then 0x80 else 0)
    let on := if bit mask 8 then fld v 8 1 else fld old 8 1
    (s.regStore a v (mask &&& (0xFFFFFFFF ^^^ hold)) side).setEnable d on

/-- A write to another configuration register of ring `d` (R458): BASE not while ENABLE is 1. -/
def State.ringBaseWrite (s : State) (d a v mask : Nat) (base : Bool) (side : Side) : State :=
  if s.ownerOfRing d = .pf1 && side != .pf1 then s.filterReject
  else if base && s.f (ringCfg d) 8 1 == 1 then s
  else s.regStore a v mask side

/-- RING_ENABLE: a write of the ring's configuration that changes ENABLE alone. -/
def execRingEnable (d on : Nat) (side : Side) (s : State) : Outcome State Fault Refusal :=
  .next (if 36 < d || 1 < on || !s.reaches side then s else s.ringCfgWrite d (on * 2 ^ 8) (2 ^ 8) side)

/-! ### Doorbells (R457, R458) -/

/-- A doorbell of a side acts: its ring's owner writes it, and a HALT of RGS or HST ignores PF0's (R428). -/
def State.doorbell (s : State) (d : Nat) (side : Side) (g : State → State) : State :=
  if s.ownerOfRing d != side then s.filterReject
  else if side == .pf0 && (s.halted .rgs || s.halted .hst) then s
  else if s.f (ringCfg d) 8 1 = 0 then s
  else g s

/-- A docket or plan doorbell: a count that would exceed the ring is TAIL_BAD; in RECOVERY ring 0 alone has one (R478). -/
def State.docketDoorbell (s : State) (d count : Nat) (side : Side) : State :=
  s.doorbell d side fun s =>
    if s.ringState d = 3 || (s.inRecovery && d != 0) then s
    else
      let c := count % 2 ^ 32
      let s := s.wn (rg rHST_RING_TAIL d) c
      if 2 ^ s.f (ringCfg d) 0 5 < (c + 2 ^ 32 - s.rn (rg rHST_RING_HEAD d)) % 2 ^ 32 then s.ringError d 1 else s

/-- A logbook doorbell: ignored where it would pass the producer. -/
def State.logDoorbell (s : State) (l count : Nat) (side : Side) : State :=
  s.doorbell (33 + l) side fun s =>
    if s.inRecovery then s else
    let c := count % 2 ^ 32
    let cons := s.rn (lg rHST_LOG_CONS l)
    if (s.rn (lg rHST_LOG_PROD l) + 2 ^ 32 - cons) % 2 ^ 32 < (c + 2 ^ 32 - cons) % 2 ^ 32 then s
    else s.wn (lg rHST_LOG_CONS l) c

/-- DOCKET_DOORBELL of ring `d`, 0 to 32. -/
def execDocketDoorbell (d count : Nat) (side : Side) (s : State) : Outcome State Fault Refusal :=
  .next (if 32 < d || !s.reaches side then s else s.docketDoorbell d count side)

/-- LOGBOOK_DOORBELL of logbook ring `l`. -/
def execLogbookDoorbell (l count : Nat) (side : Side) (s : State) : Outcome State Fault Refusal :=
  .next (if 3 < l || !s.reaches side then s else s.logDoorbell l count side)

/-- LOGBOOK_SPACE_RETURN: with space for two records, LOST_RECORDS is written first (R468). -/
def execLogbookSpaceReturn (l : Nat) (s : State) : Outcome State Fault Refusal :=
  .next (
    if l < 4 && s.logEnabled l && s.logOpen l && decide (0 < (aget (0, 0) s.host.lost l).1) && decide (2 ≤ s.logFree l) then s.logMarker l
    else s)

/-- Send the queued records in order, as far as their rings' functions can issue requests (R467, R468). -/
def State.flushQueue (s : State) : State :=
  let q := s.host.queue
  let s := { s with host := { s.host with queue := [] } }
  q.foldl (fun (u : State) e => u.logSend e.1 e.2) s

/-- HST_STAT with the link's rate and width: 0 down, 1 without flit mode, 5 to 7 (R448, R491). -/
def State.setLinkRate (s : State) (rate width : Nat) : State :=
  let up := rate != 0
  { (((s.setf (winBase .hst 0 + rHST_STAT) 0 3 rate).setf (winBase .hst 0 + rHST_STAT) 4 5 (if up then width else 0)).setf
      (winBase .hst 0 + rHST_STAT) 9 1 (b2n (decide (5 ≤ rate)))) with
    host := { s.host with linkUp := up, flitMode := decide (5 ≤ rate) } }

/-- LOG_QUEUE_FLUSH: the link, trained at a rate and a width, carries writes again (R447, R448, R468). -/
def execLogQueueFlush (rate width : Nat) (s : State) : Outcome State Fault Refusal :=
  .next (
    if (rate == 1 || rate == 5 || rate == 6 || rate == 7) && (width == 4 || width == 8 || width == 16) then (s.setLinkRate rate width).flushQueue
    else s)

/-! ### Docket entries (R459 to R463) -/

/-- Whether AREA of an Archive command is out of place: 1 to 5 for a read, 4 or 5 for a write, else 0. -/
def areaBad (op area : Nat) : Bool :=
  if op = 3 then area == 0 || decide (5 < area)
  else if op = 4 then area != 4 && area != 5
  else area != 0

/-- The size of an Archive area (R474). -/
def areaSize (area : Nat) : Nat := match area with | 4 => 64 * 2 ^ 20 | 5 => 32 * 2 ^ 20 | _ => 16 * 2 ^ 20

/-- The limit on LENGTH (R460). -/
def State.lengthLimit (s : State) (op : Nat) : Nat :=
  match op with
  | 1 | 2 => 64 * 2 ^ 30
  | 3 | 4 => 16 * 2 ^ 20
  | 5 => 64 * s.sec.measLog.length
  | _ => 48 * 2 ^ 20

/-- The result of an entry that does not run (R460, R462): its format first, then the owner, the area, a halted
channel, Lockdown. An Archive range beyond its area is a bad operand. -/
def State.docketResult (s : State) (r op : Nat) (b : List Byte) : Option Nat :=
  let len := at_ b 0x18 8
  let area := at_ b 0x20 1
  let bad := !zeros b 1 4 || !zeros b 0x21 64 || areaBad op area
    || (op != 0 && (len == 0 || decide (s.lengthLimit op < len)))
    || ((op == 3 || op == 4) && decide (areaSize area < at_ b 0x10 8 + len))
  if bad then some 2
  else if (op == 4 || op == 6) && s.ringOwner r == .pf0 then some 3
  else if (op == 3 || op == 4) && area == 5 then some 4
  else if s.inRecovery && !(op == 6 && r == 0) then some 4
  else if s.f (rg rHST_RING_STAT r) 2 1 = 1 then some 7
  else if s.locked && (op == 1 || op == 2) then some 8
  else none

/-- Whether DMA stands still: in A4, during a Gallery reset, during a wipe (R508, R515). -/
def State.dmaPaused (s : State) : Bool :=
  decide (4 ≤ s.f (winBase .pwr 0 + rPWR_STATE_STAT) 0 3) || s.f (winBase .gal 0 + rGAL_STAT) 0 1 == 1 || s.wiping true || s.wiping false

/-- Start the entry at HEAD of docket ring `r` when its opcode is `op` and no entry of the ring is in progress. -/
def State.docketStart (s : State) (r op : Nat) (body : State → List Byte → State) : State :=
  if 32 ≤ r || !s.headIs r 0 op || s.inProgress r != [] || (s.dmaPaused && (op == 1 || op == 2)) then s
  else
    let b := s.ringEntry r 0
    match s.docketResult r op b with
    | some x => s.answerHead r x 0
    | none => body s b

/-- The entry in progress on ring `r` with opcode `op`. -/
def State.running (s : State) (r op : Nat) : Option Entry :=
  match s.inProgress r with
  | e :: _ => if !e.finished && at_ e.bytes 0 1 == op then some e else none
  | [] => none

/-- Note the bytes an entry has moved. -/
def State.setMoved (s : State) (r n : Nat) : State :=
  { s with host := { s.host with entries := s.host.entries.map fun (e : Entry) =>
    if e.ring == r && !e.finished then { e with moved := n } else e } }

/-- HST_DMA_MIB_COUNT after `n` more bytes of channel `r`. -/
def State.countMib (s : State) (r n : Nat) : State :=
  let t := aget 0 s.host.dmaBytes r + n
  ({ s with host := { s.host with dmaBytes := aput 0 s.host.dmaBytes r (t % 2 ^ 20) } }).bumpN (rg rHST_DMA_MIB_COUNT r) (t / 2 ^ 20)

/-- Stop channel `r` (R462): HALTED, an event of DMA_ERROR, and the entry's result. -/
def State.dmaFail (s : State) (r : Nat) (e : Entry) (result detail : Nat) : State :=
  ((s.setf (rg rHST_RING_STAT r) 2 1 1).event .hst 0 0 r).finish r e.count result detail

/-- Whether the page of a module address is poisoned or lies in a bank that is off (R236). -/
def State.pageOff (s : State) (a : Nat) : Bool :=
  match whereIs a with
  | .absent => false
  | w =>
    let v := w == .vault
    s.unwritten v ((s.mem v).phys a)

/-- The next page of the DMA entry of ring `r`: whole pages as full-page writes; a failing page ends it (R461, R462). A page of a
halted Store waits (R428). -/
def State.dmaPage (s : State) (r op : Nat) (e : Entry) : State :=
  let a := at_ e.bytes 0x10 8 + e.moved
  let h := at_ e.bytes 8 8 + e.moved
  let n := min (at_ e.bytes 0x18 8 - e.moved) (4096 - a % 4096)
  let page := a / 4096 * 4096 % 2 ^ 40
  if n = 0 || s.storeShut a n then s
  else if op = 1 then
    let dropped := decide (n < 4096) && s.pageOff a
    let s' := s.modWrite a (s.hostRead h n) true rdDMA
    if s'.pair.blocked then s.orBlocked s'
    else if dropped then s'.dmaFail r e 5 (page + 2 ^ 40)
    else (s'.setMoved r (e.moved + n)).countMib r n
  else
    let (x, s') := s.modRead a n rdDMA
    match x.poison with
    | some (_, k) => s'.dmaFail r e 5 (page + b2n (k == 2) * 2 ^ 40)
    | none => ((s'.hostWrite h x.bytes).setMoved r (e.moved + n)).countMib r n

/-- Up to `pages` further pages of the entry in progress. -/
def State.dmaRun (s : State) (r op : Nat) : Nat → State
  | 0 => s
  | n + 1 =>
    match s.running r op with
    | some e => if s.dmaPaused || !s.canMaster (s.ringOwner r) then s else (s.dmaPage r op e).dmaRun r op n
    | none => s

/-- DMA_WRITE on ring `r`: the entry starts if it is at HEAD, and moves up to `pages` pages (R461). -/
def execDmaWrite (r pages : Nat) (s : State) : Outcome State Fault Refusal :=
  .next ((s.docketStart r 1 fun s _ => s.consume r).dmaRun r 1 pages)

/-- DMA_READ on ring `r`. -/
def execDmaRead (r pages : Nat) (s : State) : Outcome State Fault Refusal :=
  .next ((s.docketStart r 2 fun s _ => s.consume r).dmaRun r 2 pages)

/-- DOCKET NOP. -/
def execDocketNop (r : Nat) (s : State) : Outcome State Fault Refusal :=
  .next (s.docketStart r 0 fun s _ => s.answerHead r 0 0)

/-- The bytes of an Archive area (R474): areas 1 and 3 hold records whose layout the spec does not give, so a read of
them finds free bytes (log entry 4). -/
def State.archiveBytes (s : State) (area off n : Nat) : List Byte × State :=
  if area = 1 || area = 3 then s.freeBytes n else (agets 0xFF s.arch.bytes (area * 2 ^ 27 + off) n, s)

/-- ARCHIVE_READ: the copy to the host; DOCKET_ENTRY_DONE ends the entry. -/
def execArchiveRead (r : Nat) (s : State) : Outcome State Fault Refusal :=
  .next (s.docketStart r 3 fun s b =>
    let n := at_ b 0x18 8
    let (bs, s) := s.archiveBytes (at_ b 0x20 1) (at_ b 0x10 8) n
    ((s.consume r).hostWrite (at_ b 8 8) bs).setMoved r n)

/-- The next bytes of the ARCHIVE_WRITE in progress on ring `r`, 4 KiB at most (R460, R461). -/
def State.archiveRun (s : State) (r : Nat) : State :=
  match s.running r 4 with
  | none => s
  | some e =>
    let n := min (at_ e.bytes 0x18 8 - e.moved) 4096
    if n = 0 || !s.canMaster (s.ringOwner r) then s
    else
      let bs := s.hostRead (at_ e.bytes 8 8 + e.moved) n
      ({ s with arch := { s.arch with bytes := aputs 0xFF s.arch.bytes (4 * 2 ^ 27 + at_ e.bytes 0x10 8 + e.moved) bs } }).setMoved r (e.moved + n)

/-- ARCHIVE_WRITE, PF1 only: the entry starts if it is at HEAD, and the next 4 KiB of it reach the user area (R460). -/
def execArchiveWrite (r : Nat) (s : State) : Outcome State Fault Refusal :=
  .next ((s.docketStart r 4 fun s _ => s.consume r).archiveRun r)

/-- An entry of the measurement log as bytes (R472). -/
def MeasEntry.toBytes (e : MeasEntry) : List Byte :=
  leBytes 1 e.index ++ leBytes 3 0 ++ leBytes 4 e.count ++ leBytes 8 e.gen ++ padTo 48 e.digest

/-- MEASURE_LOG_READ. -/
def execMeasureLogRead (r : Nat) (s : State) : Outcome State Fault Refusal :=
  .next (s.docketStart r 5 fun s b =>
    let n := at_ b 0x18 8
    ((s.consume r).hostWrite (at_ b 8 8) ((s.sec.measLog.map MeasEntry.toBytes).flatten.take n)).setMoved r n)

/-! ### Firmware images (R476, R477) -/

/-- The Vograica firmware key's number (R476); its signatures are free verdicts (log entry 5). -/
def firmwareKey : Nat := 3

/-- The used entries of COMPONENTS as (KIND, OFFSET, LENGTH): those that are not all zero. -/
def components (img : List Byte) : List (Nat × Nat × Nat) :=
  ((List.range 16).filter fun i => !zeros img (0x100 + 16 * i) (0x110 + 16 * i)).map fun i =>
    (at_ img (0x100 + 16 * i) 4, at_ img (0x104 + 16 * i) 4, at_ img (0x108 + 16 * i) 4)

/-- Whether component ranges lie in the image, of a known kind, and none overlaps a later one. -/
def componentsOk (len : Nat) : List (Nat × Nat × Nat) → Bool
  | [] => true
  | c :: cs =>
    decide (1 ≤ c.1) && decide (c.1 ≤ 4) && decide (0x200 ≤ c.2.1) && decide (c.2.1 + c.2.2 ≤ len)
      && cs.all (fun d => decide (c.2.1 + c.2.2 ≤ d.2.1) || decide (d.2.1 + d.2.2 ≤ c.2.1)) && componentsOk len cs

/-- SVN of an image. -/
def imageSvn (img : List Byte) : Nat := at_ img 6 1

/-- Whether an image verifies (R476, R479). -/
def State.fwVerify (s : State) (img : List Byte) : Bool :=
  let len := at_ img 0xC 4
  at_ img 0 4 == 0x4D465641 && at_ img 4 2 == 0x9120 && decide (0x200 ≤ len) && decide (len ≤ img.length)
    && decide (len ≤ 48 * 2 ^ 20) && zeros img 0xA0 0x100 && ((List.range 16).all fun i => zeros img (0x10C + 16 * i) (0x110 + 16 * i))
    && sha384 ((img.take len).drop 0x100) == (img.drop 0x10).take 48
    && Config.ecdsaVerify firmwareKey (natsOf (sha384 (img.take 0x40))) (natsOf ((img.drop 0x40).take 96))
    && componentsOk len (components img) && decide (s.arch.fuse ≤ imageSvn img)

/-- The slot FW_STAGE writes: the one the Registrar does not run from. -/
def State.stageSlot (s : State) : Nat := 1 - s.f bootStat 0 1

/-- FW_STAGE begins: the slot is EMPTY until its image is in and verified (R477, R490). -/
def execFwStage (r : Nat) (s : State) : Outcome State Fault Refusal :=
  .next (s.docketStart r 6 fun s _ => (s.consume r).setFwSlot s.stageSlot ⟨0, []⟩)

/-- FW_STAGE ends: STAGED in DEPLOYED, PENDING elsewhere; VERIFY_FAIL where the image does not verify. -/
def State.stageDone (s : State) (r : Nat) (e : Entry) : State :=
  let img := s.hostRead (at_ e.bytes 8 8) (at_ e.bytes 0x18 8)
  if s.fwVerify img then (s.setFwSlot s.stageSlot ⟨if s.lifecycle = 2 then 1 else 2, img⟩).finish r e.count 0 0
  else s.finish r e.count 0xB 0

/-- DOCKET_ENTRY_DONE: the entry in progress on ring `r` has moved everything; `flash` is not 0 where an Archive-flash
write failed (R432 ARCHIVE_FLASH, R463). An FW_STAGE waits while its function can read no image (R455). -/
def execDocketEntryDone (r flash : Nat) (s : State) : Outcome State Fault Refusal :=
  .next (
    if 32 ≤ r then s
    else match s.inProgress r with
    | [] => s
    | e :: _ =>
      let op := at_ e.bytes 0 1
      if e.finished || ((op == 1 || op == 2) && e.moved != at_ e.bytes 0x18 8) then s
      else if flash = 0 && op == 4 && e.moved != at_ e.bytes 0x18 8 then s
      else if flash = 0 && op == 6 && !s.canMaster (s.ringOwner r) then s
      else if flash ≠ 0 && (op == 4 || op == 6) then (s.event .rgs 0 2).finish r e.count 0xA e.moved
      else if op = 6 then s.stageDone r e
      else s.finish r e.count 0 e.moved)

/-- RESTART of HST_DMA_CTRL[r]: clears HALTED (R462). -/
def State.restartDma (s : State) (r : Nat) (side : Side) : State :=
  if 32 ≤ r then s
  else if s.ringOwner r = .pf1 && side != .pf1 then s.filterReject
  else s.setf (rg rHST_RING_STAT r) 2 1 0

/-- RESTART. -/
def execRestart (r : Nat) (side : Side) (s : State) : Outcome State Fault Refusal :=
  .next (if s.reaches side then s.restartDma r side else s)

/-- BAD_OPCODE_ENTRY: the entry at HEAD carries an opcode that R460 or R464 does not define. -/
def execBadOpcodeEntry (r : Nat) (s : State) : Outcome State Fault Refusal :=
  .next (
    if 32 < r || !s.ringLive r || s.ringCount r == 0 then s
    else
      let op := at_ (s.ringEntry r 0) 0 1
      if r = planRing then
        if 0x20 ≤ op && op ≤ 0x26 || s.planBusy then s else s.answerHead r 8 0
      else if op ≤ 6 || s.inProgress r != [] then s
      else s.answerHead r 1 0)

/-- PCIE_COMPLETION_TIMEOUT: a request of ring `r` got no completion in 50 ms (R453): of an entry that reads
host memory (DMA_WRITE, ARCHIVE_WRITE, FW_STAGE), HOST_ERROR; of a LOAD, DMA_ERROR; of an entry's fetch, FETCH_ERROR (R462, R469, R173). -/
def execPcieCompletionTimeout (r : Nat) (s : State) : Outcome State Fault Refusal :=
  .next (
    if 32 < r then s
    else
      let t := s.bump (winBase .hst 0 + rHST_HOST_ERROR_COUNT)
      match s.inProgress r with
      | e :: _ =>
        if e.finished then s
        else if r = planRing then
          if s.loading.isSome then t.failLoad else s
        else if [1, 4, 6].contains (at_ e.bytes 0 1) then t.dmaFail r e 6 e.moved
        else s
      | [] => if s.ringLive r && decide (0 < s.ringCount r) then t.ringError r 2 else s)

/-! ### BAR2 (R454) -/

/-- BAR2_READ of `n` bytes at an offset, through PF0: an Unsupported Request where BAR2 does not decode or in A4; a
poisoned completion for the Store in Lockdown and for poisoned data (R241, R438, R508). -/
def execBar2Read (off n : Nat) (s : State) : Outcome State Fault Refusal :=
  .next (
    if 2 ^ 36 < off + n || n = 0 || 4096 < n then s
    else
      let a := s.bar2Addr off
      if !s.barOpen .pf0 || s.f (winBase .pwr 0 + rPWR_STATE_STAT) 0 3 = 4 then s.bar2Out off [] .unsupported
      else if s.locked && touchesStore a n then s.bar2Out off [] .poisoned
      else if s.accessHeld a n then { s with pwr := { s.pwr with memWait := s.pwr.memWait ++ [.read off n] } }
      else s.bar2Read off n)

/-- BAR2_WRITE of bytes at an offset, through PF0: discarded where BAR2 does not decode, in A4, and for the Store in
Lockdown. -/
def execBar2Write (off : Nat) (data : List Nat) (s : State) : Outcome State Fault Refusal :=
  .next (
    let a := s.bar2Addr off
    if 2 ^ 36 < off + data.length || 512 < data.length || !s.barOpen .pf0 || s.f (winBase .pwr 0 + rPWR_STATE_STAT) 0 3 = 4
        || (s.locked && touchesStore a data.length) then s
    else
      let bs := data.map (BitVec.ofNat 8)
      if s.accessHeld a bs.length then { s with pwr := { s.pwr with memWait := s.pwr.memWait ++ [.write off bs] } }
      else s.bar2Write off bs)

/-! ### The PCIe functions (R450, R451, R455, R496) -/

/-- The capabilities of the endpoint (R451), the rates of the physical layer in GT/s. -/
inductive PcieCap where
  | pciExpress | powerManagement | aer | serialNumber | physicalLayer (rate : Nat) | laneMargining | dataLinkFeature | ari | doe
  deriving DecidableEq, Repr

/-- What the configuration space of a function reads as (R450, R451, R455): its identity, the sizes of its BARs in bytes (0: none), its
capabilities and what they show. -/
structure ConfigSpace where
  device : Nat
  classCode : Nat
  bar0 : Nat
  bar2 : Nat
  caps : List PcieCap
  serial : Nat
  aerEnables : Nat
  interruptPin : Nat
  d3hot : Bool
  busMaster : Bool
  deriving DecidableEq, Repr

/-- The configuration space of PF0 or PF1, which answers in every lifecycle state and without flit mode (R448); the vendor's number and
the subsystem IDs are not in the spec's source. -/
def State.configSpace (s : State) (x : Side) : ConfigSpace where
  device := if x = .pf0 then 0x9120 else 0x9121
  classCode := if x = .pf0 then 0x120000 else 0x088000
  bar0 := 64 * 2 ^ 20
  bar2 := if x = .pf0 then 64 * 2 ^ 30 else 0
  caps := [.pciExpress, .powerManagement, .aer, .serialNumber, .physicalLayer 32, .physicalLayer 64, .physicalLayer 128,
    .laneMargining, .dataLinkFeature, .ari] ++ (if x = .pf0 then [] else [.doe])
  serial := s.rd64 (winBase .rgs 0 + rRGS_SERIAL_LO) (winBase .rgs 0 + rRGS_SERIAL_HI)
  aerEnables := 0
  interruptPin := 0
  d3hot := s.host.d3.contains x
  busMaster := !s.host.noMaster.contains x

/-- The registers of ring `d` return to their reset values (R491). -/
def State.clearRing (s : State) (d : Nat) : State :=
  let lo := if d ≤ 32 then rg rHST_RING_BASE_LO d else lg rHST_LOG_BASE_LO (d - 33)
  s.clearRange .mod lo (lo + 0x20)

/-- An FLR of a function: every ring it owns is disabled and its registers reset; of PF0, HST_BAR2_BASE too. -/
def State.flr (s : State) (side : Side) : State :=
  let s := (List.range 37).foldl (fun (u : State) d =>
    if u.ownerOfRing d == side then (u.setEnable d 0).clearRing d else u) s
  if side = .pf0 then s.wn (winBase .hst 0 + rHST_BAR2_BASE) 0 else s

/-- FLR of PF0 (0) or PF1 (1). -/
def execFlr (pf : Nat) (s : State) : Outcome State Fault Refusal :=
  .next (if pf = 0 then s.flr .pf0 else if pf = 1 then s.flr .pf1 else s)

/-- A list of functions with one put in or taken out. -/
def setFn (l : List Side) (x : Side) (on : Bool) : List Side := let r := l.filter (· != x); if on then r ++ [x] else r

/-- FUNCTION_STATE_CHANGE: a function is in D3hot (`d3` 1) or D0, and its Bus Master Enable is `bme`. -/
def execFunctionStateChange (pf d3 bme : Nat) (s : State) : Outcome State Fault Refusal :=
  .next (
    if 1 < pf then s
    else
      let x : Side := if pf = 0 then .pf0 else .pf1
      { s with host := { s.host with d3 := setFn s.host.d3 x (d3 == 1), noMaster := setFn s.host.noMaster x (bme == 0) } })

/-- PERST: the link retrains, the configuration space of both functions is reset, and their rings as by an FLR (R496). -/
def execPerst (s : State) : Outcome State Fault Refusal :=
  .next (
    let s := (s.flr .pf0).flr .pf1
    let s := s.setLinkRate 0 0
    { s with host := { s.host with d3 := [], noMaster := [.pf0, .pf1] } })

/-- PCIE_LINK_DOWN: the link leaves L0 without a reset (R432). -/
def execPcieLinkDown (s : State) : Outcome State Fault Refusal :=
  .next (if s.host.linkUp then (s.setLinkRate 0 0).event .hst 0 2 else s)

/-! ### HST_WARDEN_NOTICE (R487) -/

/-- Send the value that waits once 1 ms has passed since the last notice. -/
def State.noticeSend (s : State) : State :=
  let due := match s.host.noticeLast with | none => true | some t => decide (t + 200000 ≤ s.timer)
  match s.host.noticeWaiting with
  | some v =>
    if due then
      ({ s with host := { s.host with noticeWaiting := none, noticeLast := some s.timer } }).notice 5 v
    else s
  | none => s

/-- A write of HST_WARDEN_NOTICE: the value waits, over one still waiting, and leaves at once where it may. -/
def State.noticeWrite (s : State) (v : Nat) : State :=
  ({ s with host := { s.host with noticeWaiting := some (v % 2 ^ 32) } }).noticeSend

/-- WARDEN_NOTICE_WRITE. -/
def execWardenNoticeWrite (value : Nat) (side : Side) (s : State) : Outcome State Fault Refusal :=
  .next (if s.reaches side then s.noticeWrite value else s)

/-- NOTICE_SEND: the limit of 1 ms has passed. -/
def execNoticeSend (s : State) : Outcome State Fault Refusal := .next s.noticeSend

end Sys2Proof.Machine
end

