-- ==== Sys2Proof/Machine/Power.lean ====
section
/-! DEFINITION. Starting the Registrar (13_host_and_security.md R472, R478, R481), power states, resets and retention
(14_module_power_reset.md R499 to R519), the fabric reset wave (08_fabric.md R318). -/

namespace Sys2Proof.Machine

open Sys2Proof Host

/-! ### Starting the Registrar (R478) -/

/-- The components of one kind in the image that runs. -/
def State.component (s : State) (kind : Nat) : List Byte :=
  let img := (s.fwSlot (s.f bootStat 0 1)).image
  ((components img).filterMap fun c => if c.1 = kind then some ((img.drop c.2.1).take c.2.2) else none).flatten

/-- Extend the register that measures a component (R472): 2 Registrar, 3 Wing EIC, 4 Lamp, 5 Store controller. -/
def State.measureComponent (s : State) (kind : Nat) : State := s.extendMeas (kind + 1) 0 (sha384 (s.component kind))

/-- The firmware of the Store controllers, then of the EICs and the Lamps, is loaded and measured (R472, R509, R513). -/
def State.loadComponents (s : State) : State := [4, 2, 3].foldl State.measureComponent s

/-- Extend register 6 with the security configuration as it stands (R472): policy, operator key, tenant keys. -/
def State.measureConfig (s : State) : State :=
  s.extendMeas 6 0 (measuredBytes 6 ([s.rn (winBase .pln 0 + rPLN_SIG_POLICY), leNat s.arch.operator]
    ++ (s.arch.tenantKeys.map fun (e : Nat × List Byte) => [e.1, leNat e.2]).flatten))

/-- The first slot in a state, if there is one. -/
def State.slotIn (s : State) (v : Nat) : Option Nat := [0, 1].find? fun k => (s.fwSlot k).state == v

/-- The slot that the boot ROM means to start, and the one that it does start (R478 steps 1 to 3, R490). -/
def State.bootChoice (s : State) : Option Nat × Option Nat :=
  let ok := fun (v : Nat) => [0, 1].find? fun k => (s.fwSlot k).state == v && s.fwVerify (s.fwSlot k).image
  let means := (s.slotIn 2).or ((s.slotIn 3).or (s.slotIn 4))
  (means, (ok 2).or ((ok 4).or (ok 5)))

/-- RGS_BOOT_STAT, RGS_FW_VERSION and RGS_SVN for the slot that starts; with none, RECOVERY. -/
def State.showBoot (s : State) (means starts : Option Nat) : State :=
  let s := (s.setf bootStat 4 3 s.arch.slotA.state).setf bootStat 8 3 s.arch.slotB.state
  match starts with
  | none => (s.setf bootStat 13 1 1).wn (winBase .rgs 0 + rRGS_SVN) s.arch.fuse
  | some k =>
    let img := (s.fwSlot k).image
    let s := (s.setf bootStat 0 1 k).setf bootStat 12 1 (b2n (means != some k))
    (s.wn (winBase .rgs 0 + rRGS_FW_VERSION) (at_ img 8 4)).wn (winBase .rgs 0 + rRGS_SVN) (s.arch.fuse + imageSvn img * 2 ^ 8)

/-- The boot ROM and the firmware start (R472, R478): a slot is chosen, registers 1 to 6 are extended in the order of R513, register
6 as the Registrar's firmware starts, and the collector hears of it (R487). -/
def State.registrarStart (s : State) : State :=
  let (means, starts) := s.bootChoice
  let mark := fun (u : State) (k : Nat) =>
    let x := u.fwSlot k
    if x.state = 3 then u.setFwSlot k { x with state := 6 }
    else if x.state = 2 && starts == some k then u.setFwSlot k { x with state := 3 } else u
  let s := (mark (mark s 0) 1).showBoot means starts
  let s := { s with sec := { SecState.reset with lifecycle := s.sec.lifecycle } }
  let s := s.extendMeas 1 0 (measuredBytes 1 [s.lifecycle, s.arch.fuse])
  let s := if starts.isSome then s.measureComponent 1 else s
  let s := if starts.isSome then s.measureConfig.loadComponents else s.measureConfig
  s.notice 4 (s.rn bootStat)

/-- FIRMWARE_READY: PCIe is up, Store training done, the self-tests passed: the slot confirms itself (R478 step 4). -/
def execFirmwareReady (s : State) : Outcome State Fault Refusal :=
  .next (
    if !s.host.linkUp || s.f (winBase .sto 0 + rSTO_STAT) 1 1 == 1 || s.inRecovery || s.f bootStat 14 1 == 1 then s
    else
      let k := s.f bootStat 0 1
      let x := s.fwSlot k
      let y := s.fwSlot (1 - k)
      let s := if x.state = 3 then
          let t := if y.state = 4 then s.setFwSlot (1 - k) { y with state := 5 } else s
          t.setFwSlot k { x with state := 4 }
        else s
      s.setf bootStat 14 1 1)

/-! ### Module and power-on reset (R512 to R514, R516) -/

/-- The soft-spare rows are loaded: every retired page that a row explains returns to service, but for those of a failed
die (R233, R234). A row once loaded stays in use and explains no later fault of its pages. -/
def Mem.loadSpares (m : Mem) : Mem :=
  let back := (m.softSpare.map fun e => e.2).flatten.filter fun p => !m.deadDies.contains (dieOf (p * 4096))
  { m with retired := m.retired.filter fun p => !back.contains p, redirect := m.redirect.filter fun e => !back.contains e.1,
           softSpare := m.softSpare.map fun e => (e.1, []) }

/-- The Vault after a reset: repairs and redirects applied, every bank powered, then wiped; pages of a failed die that
were not moved yet fall due again (R232 to R235). -/
def Mem.vaultReset (m : Mem) : Mem :=
  let m := m.loadSpares.wipe
  { m with due := (m.deadDies.map diePages).flatten.filter fun p => !m.retired.contains p }

/-- The Vault as a Gallery reset wipes it: what the Registrar keeps of its faults stays, the pages due among it (R230, R235). -/
def Mem.galleryWipe (m : Mem) : Mem :=
  { m.wipe with due := m.due, counted := m.counted, uncorrTimes := m.uncorrTimes, scrubNext := m.scrubNext }

/-- The wipe of a memory begins (R246). -/
def State.startWipe (s : State) (v : Bool) : State := s.setf (mreg v rVLT_STAT rSTO_STAT) 0 1 1

/-- HEATER of a ring, and CAL_TEMP of a receive slot, that has a calibration record that stands: they reset to it (R10, R366, R381). -/
def State.showRecord (s : State) (e : Nat × List Byte) : State :=
  match s.validRec e.1 with
  | none => s
  | some r =>
    if 2048 ≤ e.1 then s.setf (wg (e.1 % 2048 / 512) (rWNG_RING_TX + 4 * (e.1 % 512))) 0 14 (at_ r 2 2)
    else
      let a := calReg (e.1 / 512) (e.1 % 512)
      (s.setf a 0 14 (at_ r 2 2)).setf a 24 8 (calTempCode (sext 16 (at_ r 4 2)))

/-- Tiles whose margins the condition reports have changed (R379). -/
def State.replanned (s : State) : List Nat := ((s.light.volt.map (·.1)) ++ s.light.ceiling.map (·.1)).eraseDups

/-- Registers that show the lists of both memories and the calibration records again. -/
def State.showLists (s : State) : State :=
  let s := s.arch.calRecs.foldl State.showRecord s
  let used := fun (u : State) d => u.setf (winBase .vlt 0 + rVLT_SPARE_ROWS + 4 * d) 16 7 (u.vault.spares d)
  let s := (List.range 8).foldl used s
  let s := (s.wn (winBase .vlt 0 + rVLT_RETIRED_PAGE_COUNT) s.vault.retired.length).wn (winBase .sto 0 + rSTO_RETIRED_PAGE_COUNT) s.store.retired.length
  s.setf (winBase .sto 0 + rSTO_SPARE_FREE) 0 18 (131072 - s.store.retired.length)

/-- A tile after a module reset: a router that has failed stays so, and its tile is due for retirement (R15, R207). -/
def Tile.afterReset (x : Tile) : Tile := { Tile.reset with routerFailed := x.routerFailed, due := x.routerFailed }

/-- Everything that a module reset clears outside the registers (R514, R516): what the Archive flash and the PCIe link keep
stays. -/
def State.clearModule (s : State) : State :=
  { s with
    tiles := (s.tiles.map fun (e : Nat × Tile) => (e.1, e.2.afterReset)).filter fun e => e.2 != Tile.reset,
    vault := s.vault.vaultReset,
    store := s.store.wipe,
    inc := .reset,
    host := { s.host with seq := 0, queue := [], lost := [], entries := [], noticeWaiting := none, noticeLast := none, dmaBytes := [] },
    cur := { CurState.reset with retired := s.cur.retired, past := s.cur.past },
    fab := { FabState.reset with resetSeen := s.fab.resetSeen },
    light := { LightState.reset with volt := s.light.volt, ceiling := s.light.ceiling },
    pair := .reset,
    pwr := { s.pwr with heldWrites := [], heldResults := [], memWait := [], galWait := false } }

/-- The module ID from a reset until the first hang (R285). -/
def State.configuredId (s : State) : State :=
  let a := winBase .fab 0 + rFAB_MODULE_ID
  let unset := s.f a 31 1
  (s.setf a 15 1 unset).setf a 0 15 (if unset = 1 then 0 else s.f a 16 15)

/-- PWR_RESET_CAUSE. -/
def causeReg : Nat := winBase .pwr 0 + rPWR_RESET_CAUSE

/-- DATA flits in the replay and reorder buffers of a channel, and those that wait to be sent (R279, log entry 42). -/
def Chan.flits (x : Chan) : Nat := x.replay.length + x.queue.length + x.held.length + x.ready.length

/-- Count the DATA flits that a reset of every channel discards, after it has cleared the counts (R279, R283). -/
def State.countDropped (s old : State) : State :=
  (List.range 36).foldl (fun u j =>
    let n := (old.chan j).flits
    if n = 0 then u else u.wn (cr j rWNG_DROP_COUNT) (min 0xFFFFFFFF n)) s

/-- A module reset of a cause (R514): 1 HOST, 2 WARDEN, 3 FABRIC_RESET, 4 LIFECYCLE, 5 BOOT_TIMEOUT. -/
def State.moduleReset (s : State) (cause : Nat) : State :=
  let stat := s.rn (winBase .hst 0 + rHST_STAT)
  let brown := s.f causeReg 3 1
  let s := ((s.clearRange .mod 0 (2 ^ 25)).clearModule).countDropped s
  let s := (s.wn (winBase .hst 0 + rHST_STAT) stat).wn causeReg (cause + brown * 2 ^ 3)
  let s := s.replanned.foldl State.margins s.configuredId.showLists
  let s := (s.startWipe true).startWipe false
  s.registrarStart

/-- MODULE of PWR_RESET_CTRL (R512): through PF1 or from the warden side. -/
def State.moduleCmd (s : State) (side : Side) : State :=
  if side = .pf0 then s.filterReject else s.moduleReset (if wardenSide side then 2 else 1)

/-- MODULE_RESET. -/
def execModuleReset (side : Side) (s : State) : Outcome State Fault Refusal := .next (s.moduleCmd side)

/-- BOOT_TIMEOUT: the firmware has not reached READY within 60 s (R478 step 5). -/
def execBootTimeout (s : State) : Outcome State Fault Refusal :=
  .next (if s.f bootStat 14 1 == 1 || s.inRecovery then s else s.moduleReset 5)

/-! ### Lifecycle changes (R474, R480, R481) -/

/-- Erase one Archive-flash area: its bytes read 0xFF. -/
def ArchState.eraseArea (x : ArchState) (area : Nat) : ArchState :=
  { x with bytes := acut x.bytes (area * 2 ^ 27) ((area + 1) * 2 ^ 27) }

/-- What a lifecycle change erases beside keys (R474, R480): the user area with tenant keys and the Warden configuration always;
SCRAPPED adds the factory area. -/
def ArchState.afterChange (x : ArchState) (new_ : Nat) : ArchState :=
  let x := { x.eraseArea 4 with tenantKeys := [], config := [], cap := none, life := none }
  if new_ = 4 then { x.eraseArea 1 with calRecs := [], staleCal := [] } else x

/-- Laser position records go with the factory area, but for TARGET_UP, which stands in the health lists, and calibration records waiting to be written with them
(R353, R366, R474). -/
def State.eraseLasers (s : State) : State :=
  let s := { s with light := { s.light with calDue := [] } }
  [0, 1].foldl (fun (u : State) p => (List.range 162).foldl (fun (w : State) i =>
    let a := lz p i
    ((w.setf a 19 1 0).setf a 20 1 0).setf a 21 1 0) u) s

/-- RGS_LIFECYCLE. -/
def lifeReg : Nat := winBase .rgs 0 + rRGS_LIFECYCLE

/-- The key changes of a lifecycle change and the state it leads to, committed to the key area (R473, R474, R481 step 2): BLANK to
PROVISIONED generates the identity key, which SCRAPPED erases with the chain; the change to DEPLOYED enrols the operator key that the
message carries, a change out of it erases that key. -/
def State.commitKeys (s : State) (new_ : Nat) (key : List Byte) : State :=
  let old := s.lifecycle
  let x := { s.arch with life := some new_ }
  let x := if old = 2 then { x with operator := [] } else x
  let x := if old = 0 then { x with identity := true, powerOn := 0 } else x
  let x := if new_ = 4 then { x with identity := false, chain := [] } else x
  { s with arch := if new_ = 2 then { x with operator := key } else x }

/-- The areas of a change are erased and RGS_LIFECYCLE shows the new state (R481 steps 3 and 4); the cap is 1,600 W again. -/
def State.finishLife (s : State) (new_ : Nat) : State :=
  let s := { s with arch := s.arch.afterChange new_ }
  let s := if new_ = 4 then s.eraseLasers else s
  let s := s.wn lifeReg (new_ + b2n (new_ == 2) * 2 ^ 4)
  s.wn (winBase .pwr 0 + rPWR_CAP) 0x640

/-- Everything the module loses without power: all but the Archive flash, the fuses and the host (R500). -/
def State.powerOff (s : State) : State :=
  let s := (s.clearRange .por 0 (2 ^ 25)).clearModule
  let s := s.setLinkRate 0 0
  { s with
    timer := 0,
    fab := .reset,
    sec := .reset,
    host := { s.host with linkUp := false, flitMode := true, d3 := [], noMaster := [.pf0, .pf1] } }

/-- POWER_LOSS: the input switch opens in service; a stage in progress leaves its slot EMPTY (R490, R500). -/
def execPowerLoss (s : State) : Outcome State Fault Refusal :=
  .next (let t := s.powerOff; { t with pwr := { t.pwr with opened := true } })

/-- POWER_ON_RESET: the input switch closes and the power-up sequence runs (R500, R513). A lifecycle change that power cut off after its
commitment is completed (R481, log entry 198). -/
def execPowerOnReset (s : State) : Outcome State Fault Refusal :=
  .next (
    let brown := s.pwr.opened
    let s := s.powerOff
    let s := match s.arch.life with | some n => s.finishLife n | none => s
    let s := { s with pwr := { s.pwr with opened := false }, arch := { s.arch with powerOn := s.arch.powerOn + 1 } }
    let s := s.wn causeReg (b2n brown * 2 ^ 3)
    let s := s.wn (winBase .pwr 0 + rPWR_CAP) (s.arch.cap.getD 0x640)
    let s := s.replanned.foldl State.margins s.configuredId.showLists
    let s := (s.setf (winBase .sto 0 + rSTO_STAT) 1 1 1).startWipe true
    s.registrarStart)

/-! ### Input power (R499, R500, R432) -/

/-- INPUT_OUT_OF_RANGE: the 1 ms mean of the input voltage, in 10 mV. Below 40 V INPUT_LOW holds as a level, above 50 V
INPUT_HIGH; outside the thresholds of the switch it is POWER_LOSS that follows. -/
def execInputOutOfRange (volts : Nat) (s : State) : Outcome State Fault Refusal :=
  .next (
    if 65536 ≤ volts then s
    else
      let s := s.setf (winBase .pwr 0 + rPWR_INPUT) 0 16 volts
      (s.setLevel .pwr 0 0 (decide (volts < 4000))).setLevel .pwr 0 1 (decide (5000 < volts)))

/-- POL_FAULT: a point-of-load converter faults (R432). -/
def execPolFault (s : State) : Outcome State Fault Refusal := .next (s.event .pwr 0 3)

/-! ### Gallery reset (R515) -/

/-- GAL_STAT. -/
def galStat : Nat := winBase .gal 0 + rGAL_STAT

/-- A PREPARE in progress ends with its slot AUDITED. No result of R173 says so: it is free (log entry 4). -/
def State.dropPrepare (s : State) : State :=
  let s := match s.preparing with
    | some k => (s.setSlotState k 3).mapSlot k fun x => { x with place := none, waiting := [], draft := none }
    | none => s
  match s.planEntry 0x21 with
  | some _ => (s.draw 10).2.finishPlan 0x21 (s.draw 10).1 0
  | none => s

/-- The tiles, routers, Vault, GAL_ block and Catalogue as a Gallery reset leaves them (R515 steps 2, 4 and 5). -/
def State.galleryClear (s : State) : State :=
  let s := (s.vault.held.map (·.1)).foldl (fun (u : State) p => u.finishDecode true p) s.dropPrepare
  let s := s.clearRange .gal (winBase .tile 0) (winBase .tile 2048)
  let s := ((s.tiles.map (·.1)) ++ s.replanned).eraseDups.foldl (fun (u : State) t => (u.tileReset t).mapTile t fun x => { x with isolated := false }) s
  let s := { s with
    fab := { s.fab with corridor := [] },
    pwr := { s.pwr with heldWrites := [], heldResults := [] },
    vault := s.vault.galleryWipe,
    cur := { s.cur with place := none } }
  let s := (List.range 4).foldl (fun (u : State) k =>
    if u.slotState k = 5 || u.slotState k = 6 then (u.setSlotState k 3).mapSlot k fun x => { x with place := none } else u) s
  let s := (List.range 8).foldl (fun (u : State) k =>
    (u.wn (winBase .vlt 0 + rVLT_KEEP_WINDOW_LO + 8 * k) 0).wn (winBase .vlt 0 + rVLT_KEEP_WINDOW_HI + 8 * k) 0) s
  (s.setf (ir .gal 0 rINC_STAT) 30 1 0).setf (ir .vlt 0 rINC_STAT) 30 1 0

/-- A Gallery reset runs; a hang that can still be withdrawn is withdrawn, any other completes first (R515 step 1). -/
def State.galleryReset (s : State) : State :=
  let s := s.setf galStat 0 1 1
  if s.hangOut && s.hangState != 0 && !s.canWithdraw then { s with pwr := { s.pwr with galWait := true } }
  else ((if s.hangOut then s.withdrawHang else s).galleryClear).startWipe true

/-- GALLERY of GAL_RESET_CTRL: through PF1 or from the warden side. One already in progress goes on; in A4 the Gallery is
unpowered and there is nothing to reset. -/
def State.galleryCmd (s : State) (side : Side) : State :=
  if side = .pf0 then s.filterReject
  else if s.f galStat 0 1 = 1 || s.f (winBase .pwr 0 + rPWR_STATE_STAT) 0 3 = 4 then s
  else s.galleryReset

/-- GALLERY_RESET. -/
def execGalleryReset (side : Side) (s : State) : Outcome State Fault Refusal := .next (s.galleryCmd side)

/-- GALLERY_RESET_DONE: the Vault is wiped, held crates are delivered, DMA resumes, and RESET_BUSY returns to 0 (R515 step 6); one that waits for
a hang runs once that hang is over. -/
def execGalleryResetDone (s : State) : Outcome State Fault Refusal :=
  .next (
    if s.f galStat 0 1 = 0 || (s.pwr.galWait && s.hangState != 0) then s
    else
      let s := if s.pwr.galWait then ({ s with pwr := { s.pwr with galWait := false } }).galleryClear else s
      (s.endWipe true).setf galStat 0 1 0)

/-! ### Training and wipe of the Store (R235, R243, R513) -/

/-- STORE_TRAINING_DONE: full training ends, and after a power-on reset the Store is wiped; the Vault's wipe was over before. A
failure is TRAINING_FAIL. -/
def execStoreTrainingDone (pass : Nat) (s : State) : Outcome State Fault Refusal :=
  let a := winBase .sto 0 + rSTO_STAT
  .next (
    if s.f a 1 1 = 0 then s
    else
      let s := (s.setf a 1 1 0).endWipe true
      let s := if s.f bootStat 14 1 = 0 then s.startWipe false else s
      if pass = 0 then s.event .sto 0 8 else s)

/-- STORE_WIPE_DONE: the Store wipe ends and WIPE_BUSY reads 0; the Vault's wipe, which takes 15 µs at most, was over before. -/
def execStoreWipeDone (s : State) : Outcome State Fault Refusal := .next ((s.endWipe true).endWipe false)

/-! ### Power states (R504 to R510) -/

/-- PWR_STATE_STAT. -/
def stateStat : Nat := winBase .pwr 0 + rPWR_STATE_STAT

/-- The reason to refuse a request for state `t`, the lowest that applies (R505): 1 PAIRED, 2 HANG, 3 LOCKDOWN, 4 RESET,
5 TARGET. -/
def State.refusal (s : State) (t : Nat) : Nat :=
  if (t = 3 || t = 4) && s.pairState != 0 && s.pairState != 6 then 1
  else if t ≠ 0 && (s.hangState != 0 || s.preparing.isSome) then 2
  else if s.locked then 3
  else if s.f galStat 0 1 = 1 || s.f bootStat 14 1 = 0 then 4
  else if 5 ≤ t then 5
  else 0

/-- A request for a power state (R505): refused with its reason, or started. On leaving A4 the Store trains in full (R509). -/
def State.stateRequest (s : State) (t : Nat) : State :=
  let t := t % 8
  match s.refusal t with
  | 0 =>
    let now := s.f stateStat 0 3
    let s := ((s.setf stateStat 8 3 0).setf stateStat 4 3 t).setf stateStat 3 1 (b2n (now != t))
    if now = 4 ∧ t < 4 then s.setf (winBase .sto 0 + rSTO_STAT) 1 1 1 else s
  | r + 1 => s.setf stateStat 8 3 (r + 1)

/-- POWER_STATE_REQUEST: GO in PWR_STATE_CTRL, through either function or from the warden side. -/
def execPowerStateRequest (target : Nat) (_side : Side) (s : State) : Outcome State Fault Refusal := .next (s.stateRequest target)

/-- Vault banks in which the current generation places something (R510). -/
def State.banksUsed (s : State) : List Nat :=
  let moved := s.vault.redirect.map fun e => bankOf (e.2 * 4096)
  match s.cur.now, s.cur.place with
  | some p, some pl =>
    moved ++ (pl.tiles.map fun (e : Nat × Nat) =>
        let n := p.privateOf e.1
        (if 0 < n then [2 * e.2] else []) ++ (if 2 ^ 21 < n then [2 * e.2 + 1] else [])).flatten
      ++ ((pl.catalogue.filter fun (e : Nat × CatEntry) => e.2.tier == 0 && e.2.length != 0).map fun (e : Nat × CatEntry) =>
        [bankOf e.2.address, bankOf (e.2.address + e.2.length - 1)]).flatten
  | _, _ => moved

/-- Power off Vault banks: their pages come back poisoned (R236, R510). -/
def State.banksOff (s : State) (bs : List Nat) : State :=
  { s with vault := bs.foldl Mem.dark s.vault }

/-- Every Vault bank. -/
def allBanks : List Nat := (allTiles.map fun t => [2 * t, 2 * t + 1]).flatten

/-- The banks in which the current generation places nothing go off (R510). -/
def State.unusedOff (s : State) : State :=
  let used := s.banksUsed
  s.banksOff (allBanks.filter fun b => !used.contains b)

/-- Every link of the module as (channel, link). -/
def allLinks : List (Nat × Nat) := ((List.range 36).map fun j => [(j, 0), (j, 1)]).flatten

/-- The entry actions of one state (R506 to R508). -/
def State.enterState (s : State) : Nat → State
  | 2 =>
    allLinks.foldl (fun (u : State) (k : Nat × Nat) =>
      if u.linkState k.1 k.2 == 2 && decide (8 < u.linkWidth k.1 k.2) then u.startWidth k.1 k.2 (widthCode 8) true else u) s.unusedOff
  | 3 =>
    let s := (List.range 36).foldl State.abandonCal s.unusedOff
    let s := allLinks.foldl (fun (u : State) (k : Nat × Nat) => u.linkDown k.1 k.2) s
    ((List.range 36).foldl (fun (u : State) j => u.setf (cr j rWNG_CHAN_STAT) 0 3 0) s).storeSleep
  | 4 =>
    let s := s.galleryClear.banksOff allBanks
    let s := (List.range 36).foldl (fun (u : State) j => (u.resetChan j).setf (cr j rWNG_CHAN_STAT) 0 3 0) s
    (({ s with fab := { s.fab with
      outbound := [], reqWait := [], respIn := [], collIn := [], requests := [], robin := [], labels := [], chunks := [], pinned := [] } }).setf
        galStat 1 1 0).storeSleep
  | _ => s

/-- The exit actions of one state (R509). -/
def State.leaveState (s : State) : Nat → State
  | 4 =>
    let s := (s.setf galStat 1 1 1).loadComponents
    ({ s with vault := s.vault.loadSpares }).showLists
  | 2 => allLinks.foldl (fun (u : State) (k : Nat × Nat) =>
      let w := u.assignWidth k.1 k.2
      if u.linkState k.1 k.2 == 2 && decide (u.linkWidth k.1 k.2 < w) then u.startWidth k.1 k.2 (widthCode w) true else u) s
  | _ => s

/-- POWER_STATE_DONE: the change is complete: the entry actions of each deeper state on the way down, or the exit actions of
each state on the way up (R505, R509). In A0 the held writes take effect and tiles resume at pace 1/16. -/
def execPowerStateDone (s : State) : Outcome State Fault Refusal :=
  .next (
    let now := s.f stateStat 0 3
    let t := s.f stateStat 4 3
    if s.f stateStat 3 1 = 0 || (now == 4 && t != 4 && s.f (winBase .sto 0 + rSTO_STAT) 1 1 == 1) then s
    else
      let down := (List.range 5).filter fun n => decide (now < n) && decide (n ≤ t)
      let up := (List.range 5).reverse.filter fun n => decide (t < n) && decide (n ≤ now)
      let s := up.foldl State.leaveState (down.foldl State.enterState s)
      let s := (s.setf stateStat 0 3 t).setf stateStat 3 1 0
      let s := if 3 ≤ now && t < 3 then s.startSwaps else s
      if t = 0 && now != 0 then (s.setPace 1).releaseWrites else s)

/-! ### The fabric reset wave (R318) -/

/-- Forward the reset message once on every usable channel; a module without an ID sends none (R285). -/
def State.floodReset (s : State) (number : Nat) : State :=
  if s.unset then s
  else
    let d := waveData 0 0xFF 0 0 (s.rn (winBase .pln 0 + rPLN_GEN_LO)) ⟨number, 0, 0, 0⟩
    let js := (List.range 36).filter fun j => s.chanUsable j (s.officeCrate 0 0x11 2 []) true
    { s with out := s.out ++ js.map fun j => Out.resetWave j d }

/-- Act on a reset number: forward it, ignore it from then on, and perform the local reset. -/
def State.actReset (s : State) (number : Nat) : State :=
  let s := s.floodReset number
  ({ s with fab := { s.fab with resetSeen := s.fab.resetSeen ++ [number] } }).moduleReset 3

/-- FABRIC_RESET of FAB_CTRL, through PF1 or from the warden side, with a number of the Registrar's random source. -/
def State.fabricReset (s : State) (side : Side) : State :=
  if side = .pf0 then s.filterReject
  else ({ s with free := s.free + 1 }).actReset (Config.entropy s.free % 2 ^ 64)

/-- FABRIC_RESET. -/
def execFabricReset (side : Side) (s : State) : Outcome State Fault Refusal := .next (s.fabricReset side)

/-- FABRIC_RESET_MESSAGE: crate `ix` at the Registrar is a reset message (R316, R318). With ACCEPT 0 it is neither forwarded
nor acted on. -/
def execFabricResetMessage (ix : Nat) (s : State) : Outcome State Fault Refusal :=
  .next (match s.fab.regIn[ix]? with
    | none => s
    | some c =>
      if c.op ≠ 0x11 || at_ c.data 1 1 ≠ 0xFF then s
      else
        let t := { s with fab := { s.fab with regIn := s.fab.regIn.eraseIdx ix } }
        let n := at_ c.data 8 8
        if s.f (winBase .fab 0 + rFAB_RESET_CFG) 0 1 = 0 || s.fab.resetSeen.contains n then t else t.actReset n)

/-! ### Lifecycle and Lockdown timers -/

/-- LIFECYCLE_ERASE_DONE: the areas are erased; the module reset of R481 step 4, the response to the message and the LIFECYCLE
notice follow, the notice to the collector that was set before (log entry 198). -/
def execLifecycleEraseDone (s : State) : Outcome State Fault Refusal :=
  .next (match s.sec.lifecycle with
    | none => s
    | some m =>
      let new_ := at_ m 0x20 1
      let told := s.collector
      let s := (({ s with sec := { s.sec with lifecycle := none } }).finishLife new_).moduleReset 4
      if s.inRecovery then s
      else
        let s := s.sendWarden 0x85 0 (at_ m 8 8) []
        if told then s.sendNotice 3 new_ else s)

/-- QUIET_EXIT_AGEING: a QUIET exit lies 10 minutes of Registrar timer back and leaves RECENT (R442). -/
def execQuietExitAgeing (s : State) : Outcome State Fault Refusal :=
  .next { s with inc := { s.inc with exits := s.inc.exits.filter fun t => decide (s.timer < t + 120000000000) } }

end Sys2Proof.Machine
end

