-- ==== Sys2Proof/Machine/Spdm.lean ====
section
/-! DEFINITION. Measured boot registers read back (13_host_and_security.md R492) and SPDM over DOE on PF1 (R471, R472).
The spec names the messages; their byte layout is that of the DMTF's SPDM 1.2 and of PCIe DOE (log entry 60). -/

namespace Sys2Proof.Machine

open Sys2Proof Host

/-! ### RGS_MEAS_DATA (R492) -/

/-- The measurement register RGS_MEAS_INDEX names. -/
def State.measIndex (s : State) : Nat := s.f (winBase .rgs 0 + rRGS_MEAS_INDEX) 0 3

/-- A read of RGS_MEAS_DATA[0] latches the twelve words and the count. -/
def State.latchMeas (s : State) : State :=
  { s with sec := { s.sec with measLatch := s.sec.measReg s.measIndex, countLatch := s.sec.measCount s.measIndex } }

/-- MEAS_DATA_READ: the latch, and the completion with word 0; an Unsupported Request where no function's BARs decode (R448). In
RECOVERY only HST_ is there (R478). -/
def execMeasDataRead (s : State) : Outcome State Fault Refusal :=
  .next (
    let out := fun (u : State) (bs : List Byte) (how : Completion) =>
      { u with out := u.out ++ [.read (winBase .rgs 0 + rRGS_MEAS_DATA) bs how] }
    if !s.hostOpen then out s [] .unsupported
    else if s.inRecovery then out s (leBytes 4 0) .data
    else out s.latchMeas (s.latchMeas.sec.measLatch.take 4) .data)

/-! ### DOE (R471) -/

/-- Send a DOE data object of PF1: type 0 Discovery, 1 CMA/SPDM; whole double words. -/
def State.sendDoe (s : State) (ty : Nat) (body : List Byte) : State :=
  let n := (body.length + 3) / 4
  { s with out := s.out ++ [.doe (leBytes 2 1 ++ leBytes 1 ty ++ leBytes 1 0 ++ leBytes 4 (n + 2) ++ padTo (4 * n) body)] }

/-- DOE_DISCOVERY: object 0 is Discovery and 1 CMA/SPDM, the last. PF1 answers while the link is up. -/
def execDoeDiscovery (index : Nat) (s : State) : Outcome State Fault Refusal :=
  .next (
    if !s.host.linkUp then s
    else s.sendDoe 0 (if index = 0 then leBytes 2 1 ++ leBytes 1 0 ++ leBytes 1 1
      else if index = 1 then leBytes 2 1 ++ leBytes 1 1 ++ leBytes 1 0
      else leBytes 2 0xFFFF ++ leBytes 2 0))

/-! ### SPDM (R471) -/

/-- The four-byte SPDM header. -/
def spdmHead (ver code p1 p2 : Nat) : List Byte := leBytes 1 ver ++ leBytes 1 code ++ leBytes 1 p1 ++ leBytes 1 p2

/-- An SPDM ERROR with its code and data. -/
def State.spdmError (s : State) (err data : Nat) : State :=
  s.sendDoe 1 (spdmHead (if s.sec.spdmVersion = 0 then 0x10 else s.sec.spdmVersion) 0x7F err data)

/-- Answer the request `msg` with code `code` in a stage the exchange has reached: UnexpectedRequest before it,
VersionMismatch where the version is not the one agreed. -/
def State.spdm (s : State) (msg : List Nat) (code stage : Nat) (answer : State → List Byte → State) : State :=
  let b := msg.map (BitVec.ofNat 8)
  if !s.host.linkUp || b.length < 4 || at_ b 1 1 != code then s
  else if s.sec.spdmStage < stage then s.spdmError 4 0
  else if 2 ≤ stage && at_ b 0 1 != s.sec.spdmVersion then s.spdmError 0x41 0
  else answer s b

/-- Send an answer and add it with its request to the transcript that a CHALLENGE signs. -/
def State.spdmAnswer (s : State) (req resp : List Byte) : State :=
  { s.sendDoe 1 resp with sec := { s.sec with transcript := s.sec.transcript ++ req ++ resp, measTranscript := [] } }

/-- GET_VERSION starts the exchange over: versions 1.2 and 1.3. -/
def execGetVersion (msg : List Nat) (s : State) : Outcome State Fault Refusal :=
  .next (s.spdm msg 0x84 0 fun s b =>
    let s := { s with sec := { s.sec with spdmVersion := 0, spdmStage := 1, transcript := [] } }
    s.spdmAnswer b (spdmHead 0x10 0x04 0 0 ++ leBytes 1 0 ++ leBytes 1 2 ++ leBytes 2 0x1200 ++ leBytes 2 0x1300))

/-- GET_CAPABILITIES agrees the version: CERT_CAP, CHAL_CAP, MEAS_CAP with signatures, MEAS_FRESH_CAP. The timing
exponent and the sizes are free values (log entry 4). -/
def execGetCapabilities (msg : List Nat) (s : State) : Outcome State Fault Refusal :=
  .next (s.spdm msg 0xE1 1 fun s b =>
    let v := at_ b 0 1
    if v ≠ 0x12 && v ≠ 0x13 then s.spdmError 0x41 0
    else
      let s := { s with sec := { s.sec with spdmVersion := v, spdmStage := 2 } }
      let (x, s) := s.freeBytes 9
      s.spdmAnswer b (spdmHead v 0x61 0 0 ++ leBytes 1 0 ++ x.take 1 ++ leBytes 2 0 ++ leBytes 4 0x36 ++ x.drop 1))

/-- NEGOTIATE_ALGORITHMS: ECDSA over P-384, SHA-384 for base hash and measurements, the DMTF measurement specification. -/
def execNegotiateAlgorithms (msg : List Nat) (s : State) : Outcome State Fault Refusal :=
  .next (s.spdm msg 0xE3 2 fun s b =>
    let s := { s with sec := { s.sec with spdmStage := 3 } }
    s.spdmAnswer b (spdmHead s.sec.spdmVersion 0x63 0 0 ++ leBytes 2 36 ++ leBytes 1 1 ++ leBytes 1 0 ++ leBytes 4 4
      ++ leBytes 4 0x80 ++ leBytes 4 2 ++ leBytes 12 0 ++ leBytes 4 0))

/-- GET_DIGESTS: slot 0 alone, holding the identity chain (R473). -/
def execGetDigests (msg : List Nat) (s : State) : Outcome State Fault Refusal :=
  .next (s.spdm msg 0x81 3 fun s b => s.spdmAnswer b (spdmHead s.sec.spdmVersion 0x01 0 1 ++ sha384 s.arch.chain))

/-- GET_CERTIFICATE: a portion of slot 0's chain; InvalidRequest for another slot or an offset beyond the chain. -/
def execGetCertificate (msg : List Nat) (s : State) : Outcome State Fault Refusal :=
  .next (s.spdm msg 0x82 3 fun s b =>
    let off := at_ b 4 2
    let chain := s.arch.chain
    if at_ b 2 1 % 16 ≠ 0 || chain.length < off then s.spdmError 1 0
    else
      let part := (chain.drop off).take (at_ b 6 2)
      s.spdmAnswer b (spdmHead s.sec.spdmVersion 0x02 0 0 ++ leBytes 2 part.length ++ leBytes 2 (chain.length - off - part.length) ++ part))

/-- A nonce of the Registrar's random source (log entry 1). -/
def State.nonce32 (s : State) : List Byte × State :=
  (((List.range 4).map fun i => leBytes 8 (Config.entropy (s.free + i))).flatten, { s with free := s.free + 4 })

/-- The measurement registers one after another. -/
def State.allMeas (s : State) : List Byte := ((List.range 7).map fun i => s.sec.measReg (i + 1)).flatten

/-- CHALLENGE: the answer signed over the transcript with the identity key. -/
def execChallenge (msg : List Nat) (s : State) : Outcome State Fault Refusal :=
  .next (s.spdm msg 0x83 3 fun s b =>
    if at_ b 2 1 % 16 ≠ 0 then s.spdmError 1 0
    else
      let (n, s) := s.nonce32
      let ctx := if s.sec.spdmVersion = 0x13 then (b.drop 36).take 8 else []
      let r := spdmHead s.sec.spdmVersion 0x03 0 1 ++ sha384 s.arch.chain ++ n
        ++ (if at_ b 3 1 = 0 then [] else sha384 s.allMeas) ++ leBytes 2 0 ++ ctx
      let (sig, s) := s.sign (s.sec.transcript ++ b ++ r)
      { s.sendDoe 1 (r ++ sig) with sec := { s.sec with transcript := [], measTranscript := [] } })

/-- The kind of a measurement: the ROM, firmware, or its configuration. -/
def measKind (i : Nat) : Nat := if i = 1 then 0 else if i ≤ 5 then 1 else 3

/-- The measurement block of register `i` (R472). -/
def State.measBlock (s : State) (i : Nat) : List Byte :=
  leBytes 1 i ++ leBytes 1 1 ++ leBytes 2 51 ++ leBytes 1 (measKind i) ++ leBytes 2 48 ++ s.sec.measReg i

/-- GET_MEASUREMENTS: block i is register i, 0xFF all seven, 0 their number; signed where asked. -/
def execGetMeasurements (msg : List Nat) (s : State) : Outcome State Fault Refusal :=
  .next (s.spdm msg 0xE0 3 fun s b =>
    let op := at_ b 3 1
    let signed := bit (at_ b 2 1) 0
    if 7 < op && op ≠ 0xFF then s.spdmError 1 0
    else
      let ix := if op = 0 then [] else if op = 0xFF then [1, 2, 3, 4, 5, 6, 7] else [op]
      let rec_ := (ix.map s.measBlock).flatten
      let (n, s) := s.nonce32
      let ctx := if s.sec.spdmVersion = 0x13 then b.drop (b.length - 8) else []
      let r := spdmHead s.sec.spdmVersion 0x60 (if op = 0 then 7 else 0) 0 ++ leBytes 1 ix.length ++ leBytes 3 rec_.length ++ rec_
        ++ n ++ leBytes 2 0 ++ ctx
      let t := s.sec.measTranscript ++ b ++ r
      if signed then
        let (sig, s) := s.sign t
        { s.sendDoe 1 (r ++ sig) with sec := { s.sec with measTranscript := [] } }
      else { s.sendDoe 1 r with sec := { s.sec with measTranscript := t } })

/-- RESPOND_IF_READY: every answer is given at once, so none is waited for: UnexpectedRequest. -/
def execRespondIfReady (msg : List Nat) (s : State) : Outcome State Fault Refusal :=
  .next (s.spdm msg 0xFF 2 fun s _ => s.spdmError 4 0)

/-- The request codes of R471. -/
def spdmCodes : List Nat := [0x84, 0xE1, 0xE3, 0x81, 0x82, 0x83, 0xE0, 0xFF]

/-- SPDM_UNSUPPORTED: any other request gets ERROR with UnsupportedRequest. -/
def execSpdmUnsupported (msg : List Nat) (s : State) : Outcome State Fault Refusal :=
  .next (
    let b := msg.map (BitVec.ofNat 8)
    if !s.host.linkUp || b.length < 4 || spdmCodes.contains (at_ b 1 1) then s else s.spdmError 7 (at_ b 1 1))

end Sys2Proof.Machine
end

