-- ==== Sys2Proof/Machine/Registers.lean ====
section
/-! DEFINITION. Writes and reads of any register of BAR0 (00_scope.md R7 to R9, 13_host_and_security.md R456, R488): what a
write triggers, and the registers that show a structure of the state as it stands. -/

namespace Sys2Proof.Machine

open Sys2Proof Host

/-! ### Writes -/

/-- The state that a command's meaning leaves. -/
def State.after (s : State) (g : State → Outcome State Fault Refusal) : State :=
  match g s with
  | .next t => t
  | _ => s

/-- A write of the RW and WDN fields of a register; a host write that would change a WDN field is counted (R7). -/
def State.plainWrite (s : State) (a v mask : Nat) (side : Side) : State :=
  match regRow a with
  | none => s
  | some (b, _, r, _) =>
    let old := s.rn a
    let w := (v &&& mask) ||| (old &&& (0xFFFFFFFF ^^^ (mask &&& 0xFFFFFFFF)))
    let s := if filtered b r side w old 32 then s.filterReject else s
    s.regStore a v mask side

/-- The commands of WNG_CHAN_CTRL, WNG_LANE_CTRL and WNG_CAL_CTRL (R283, R352, R381). -/
def State.wngControl (s : State) (w o v : Nat) (side : Side) : Option State :=
  let cmd := v % 4
  if o = rWNG_LANE_CTRL then
    some (if cmd = 1 then s.after (execSpare w (fld v 2 5) (fld v 7 4) side)
      else if cmd = 2 then s.after (execRestore w (fld v 2 5) (fld v 7 4) side) else s)
  else if o = rWNG_CAL_CTRL then
    let n := fld v 2 9
    some (if cmd = 1 then s.after (execCalibrate w n side)
      else if cmd = 2 then s.after (execCalibrateLink w n side)
      else if cmd = 3 then s.after (execClearSuspect w n side) else s)
  else if rWNG_CHAN_CTRL ≤ o ∧ o < rWNG_CHAN_CTRL + 0x240 ∧ (o - rWNG_CHAN_CTRL) % 0x40 = 0 then
    let j := 9 * w + (o - rWNG_CHAN_CTRL) / 0x40
    some (if cmd = 1 then s.after (execChannelReset j side)
      else if cmd = 2 then s.after (execLinkDown j (fld v 2 1) side) else s)
  else none

/-- The commands of PAIR_CTRL (R415). -/
def State.pairControl (s : State) (v : Nat) (side : Side) : State :=
  match v % 8 with
  | 1 => s.after (execHandover side)
  | 2 => s.after (execStocktake (fld v 3 6) (fld v 16 16) side)
  | 3 => s.after (execStocktakeRelease side)
  | 4 => s.after (execClearSubst side)
  | 5 => s.after (execForceTakeover side)
  | 6 => s.after (execUnfence side)
  | _ => s

/-- A summary record whose measured figures nothing gives: they are free (log entry 4). -/
def State.summaryNow (s : State) : State :=
  let v := fun i => Config.choice (s.free + i) % 2 ^ 16
  ({ s with free := s.free + 8 }).summary [v 0, v 1, v 2, v 3] [v 4, v 5, v 6, v 7] []

/-- RGS_LOCK_CTRL: CLEAR, then FORCE. The message filter counts one write at most once (R7). -/
def State.lockControl (s : State) (v : Nat) (side : Side) : State :=
  let force := bit v 1
  if force && !wardenSide side then
    if side = .pf0 || !bit v 0 then s.filterReject else s.filterReject.lockClear side
  else
    let s := if bit v 0 then s.lockClear side else s
    if force then s.forceLock else s

/-- VLT_RAW_CMD or STO_RAW_CMD: with GO, the command it names; OP 6 and 7 are unused and do nothing (R246, R247). -/
def State.rawControl (s : State) (v : Bool) (w mask : Nat) (side : Side) : State :=
  let a := rawReg v rVLT_RAW_CMD
  if bit (w &&& mask) 3 then
    let x := (w &&& mask) ||| (s.rn a &&& (0xFFFFFFFF ^^^ mask))
    let m := b2n v
    let pp := fld x 4 7
    let res := fld x 11 1
    match fld x 0 3 with
    | 0 => s.after (execReadRaw m pp res side)
    | 1 => s.after (execWriteData m pp res side)
    | 2 => s.after (execWriteParity m pp res side)
    | 3 => s.after (execReadPageParity m pp res side)
    | 4 => s.after (execWritePageParity m pp res side)
    | 5 => s.after (execCheckedRead m pp res side)
    | _ => s.plainWrite a w mask side
  else s.plainWrite a w mask side

/-- A write into the HST_ window (R457, R458, R491). -/
def State.hstWrite (s : State) (o v mask : Nat) (side : Side) : State :=
  let a := winBase .hst 0 + o
  let w := v &&& mask
  if o = rHST_WARDEN_NOTICE then s.noticeWrite w
  else if 0x100 ≤ o ∧ o < 0x100 + 0x20 * 33 then
    let d := (o - 0x100) / 0x20
    match (o - 0x100) % 0x20 with
    | 0 => s.ringBaseWrite d a v mask true side
    | 4 => s.ringBaseWrite d a v mask true side
    | 8 => s.ringCfgWrite d v mask side
    | 0x18 => if bit w 0 then s.restartDma d side else s
    | _ => s
  else if 0x600 ≤ o ∧ o < 0x680 then
    let d := 33 + (o - 0x600) / 0x20
    match (o - 0x600) % 0x20 with
    | 0 => s.ringBaseWrite d a v mask true side
    | 4 => s.ringBaseWrite d a v mask true side
    | 8 => s.ringBaseWrite d a v mask false side
    | 0xC => s.ringBaseWrite d a v mask false side
    | 0x10 => s.ringCfgWrite d v mask side
    | _ => s
  else s.plainWrite a v mask side

/-- A write of PLN_SIG_POLICY: a change extends measurement register 6 (R472). -/
def State.policyChange (s : State) (a v mask : Nat) (side : Side) : State :=
  let t := s.plainWrite a v mask side
  if t.rn a = s.rn a then t else t.measureConfig

/-- A write of FAB_MODULE_ID: until the first hang the ID in force follows CONFIGURED_ID (R285). -/
def State.moduleIdWrite (s : State) (a v mask : Nat) (side : Side) : State :=
  let t := s.plainWrite a v mask side
  if t.cur.now.isNone then t.configuredId else t

/-- A write into a block's window at offset `o`, incident registers and tiles apart. -/
def State.blockWrite (s : State) (b : Blk) (i o v mask : Nat) (side : Side) : State :=
  let a := winBase b i + o
  let w := v &&& mask
  match b with
  | .hst => s.hstWrite o v mask side
  | .rgs =>
    if o = rRGS_LOCK_CTRL then s.lockControl w side
    else if o = rRGS_COND_CTRL then (if bit w 0 then s.summaryNow else s)
    else s.plainWrite a v mask side
  | .pwr =>
    if o = rPWR_STATE_CTRL then (if bit w 3 then s.stateRequest (w % 8) else s)
    else if o = rPWR_RESET_CTRL then (if w % 4 = 1 then s.moduleCmd side else s)
    else s.plainWrite a v mask side
  | .gal => if o = rGAL_RESET_CTRL then (if bit w 0 then s.galleryCmd side else s) else s.plainWrite a v mask side
  | .fab =>
    if o = rFAB_CTRL then
      (if w % 4 = 1 then s.after (execCensus (fld w 2 6) side) else if w % 4 = 2 then s.fabricReset side else s)
    else if o = rFAB_MODULE_ID then s.moduleIdWrite a v mask side
    else s.plainWrite a v mask side
  | .pair => if o = rPAIR_CTRL then s.pairControl w side else s.plainWrite a v mask side
  | .pln => if o = rPLN_SIG_POLICY then s.policyChange a v mask side else s.plainWrite a v mask side
  | .cur =>
    let t := s.plainWrite a v mask side
    if o = rCUR_CAT_INDEX then t.setf (winBase .cur 0 + rCUR_CAT_STAT) 1 1 0
    else if o = rCUR_PLACE_INDEX then t.setf (winBase .cur 0 + rCUR_PLACE_DATA) 14 1 0
    else t
  | .vlt => if o = rVLT_RAW_CMD then s.rawControl true v mask side else s.plainWrite a v mask side
  | .sto => if o = rSTO_RAW_CMD then s.rawControl false v mask side else s.plainWrite a v mask side
  | .wng => (s.wngControl i o w side).getD (s.plainWrite a v mask side)
  | .lmp =>
    if o = rLMP_CTRL then (if w % 4 = 1 then s.after (execSwap i (fld w 2 8) side) else s) else s.plainWrite a v mask side
  | .col | .tile => s.plainWrite a v mask side

/-- A doorbell page (R456): the word at its offset 0 takes a count. -/
def State.pageWrite (s : State) (a v : Nat) (side : Side) : State :=
  let d := (a - 0x200000) / 0x1000
  if 0x200000 ≤ a ∧ d ≤ 36 ∧ a % 0x1000 = 0 then
    (if d ≤ 32 then s.docketDoorbell d v side else s.logDoorbell (d - 33) v side)
  else s

/-- A write of `v` under `mask` to a BAR0 address: a register no table defines ignores it (R9), and so does every block but
HST_ in RECOVERY (R478). -/
def State.writeReg (s : State) (a v mask : Nat) (side : Side) : State :=
  if a % 4 ≠ 0 then s
  else match blkOf a with
    | none => if s.inRecovery && !(a == 0x200000) then s else s.pageWrite a (v &&& mask) side
    | some (b, i, o) =>
      if (regRow a).isNone || (s.inRecovery && b != .hst) || (b == .vlt && s.routerBad bridgeTile) then s
      else if b = .tile then s.tileRegWrite i o v mask side
      else if isIncReg o then s.incRegWrite b i o v mask side
      else s.blockWrite b i o v mask side

/-- REGISTER_WRITE: one aligned word of BAR0 through a function, whose BARs must decode, or from the warden side (R7, R453). -/
def execRegisterWrite (addr value : Nat) (side : Side) (s : State) : Outcome State Fault Refusal :=
  .next (if !wardenSide side && !s.barOpen side then s else s.writeReg addr (value % 2 ^ 32) 0xFFFFFFFF side)

/-! ### Reads -/

/-- Counts of a list of lasers of a Lamp by a condition on STATE. -/
def State.lampCount (s : State) (p : Nat) (g : Nat → Bool) : Nat := ((List.range 162).filter fun i => g (s.laser p i)).length

/-- LMP_STAT (R380). -/
def State.lampStat (s : State) (p : Nat) : Nat :=
  s.lampCount p (fun x => x == 1 || x == 2 || x == 3) + s.lampCount p (· == 2) * 2 ^ 8
    + (s.light.swaps.filter fun e => e.1 / 162 == p && decide (2 ≤ e.2.step)).length * 2 ^ 16 + s.lampCount p (· == 4) * 2 ^ 24

/-- WNG_STAT (R352): links through bring-up and not DOWN, and whether a bring-up runs. -/
def State.wingStat (s : State) (w : Nat) : Nat :=
  ((List.range 18).map fun p => let j := 9 * w + p / 2
    b2n (s.bringup j (p % 2) == 4 && s.linkState j (p % 2) != 0) * 2 ^ p).foldl (· + ·) 0
  + b2n ((List.range 18).any fun p => let v := s.bringup (9 * w + p / 2) (p % 2); 1 ≤ v && v ≤ 3) * 2 ^ 18

/-- COL_STAT (R326). -/
def State.colStat (s : State) (w : Nat) : Nat :=
  let held := ((s.fab.chunks.filter fun k => k.wing == w).map (·.slots)).foldl (· + ·) 0
  let kept := ((s.validReds w).map fun e => fld e.2 16 12).foldl (· + ·) 0
  (2048 - held) + (2048 - kept) * 2 ^ 16

/-- The route entry of a destination as its two words (R288). -/
def State.routeWords (s : State) (d : Nat) : List Byte :=
  let own := b2n (!s.unset && d == s.myId) * 2 ^ 39
  match s.route d with
  | none => leBytes 8 own ++ leBytes 8 0
  | some r => leBytes 8 (r.mask % 2 ^ 36 + r.policy * 2 ^ 36 + 2 ^ 38 + own + r.altSeat * 2 ^ 40 + b2n r.altValid * 2 ^ 44) ++ leBytes 8 (r.transitIn % 2 ^ 36)

/-- The Catalogue entry that CUR_CAT_INDEX names; none where there is no such Catalogue (R212). -/
def State.catShown (s : State) : Option (List Byte) :=
  let a := winBase .cur 0 + rCUR_CAT_INDEX
  let x := s.f a 0 14
  let none_ : CatEntry := ⟨3, 0, false, false, false, 0, 0, 0, 0⟩
  let pl := if s.f a 16 1 = 1 then s.readySlot.bind fun k => (s.slot k).place else s.cur.place
  pl.map fun p => catBytes x (aget none_ p.catalogue x)

/-- Reserve tiles without an exhibit and not retired (R212); after a module reset the retirement list counts from the first
PREPARE on, which applies it again (R207). -/
def State.reserveLeft (s : State) : Nat :=
  let used : List Nat := ((match s.cur.place with | some p => p.tiles.map (·.2) | none => [])
    ++ (match s.readySlot.bind fun k => (s.slot k).place with | some p => p.tiles.map (·.2) | none => []))
  let gone := if s.f (winBase .cur 0 + rCUR_RETIRED_COUNT) 0 11 = 0 then [] else s.cur.retired
  ((List.range 32).filter fun r => let t := s.reserveTile r; !used.contains t && !gone.contains t).length

/-- GAL_STAT (R519): 0 in A4. -/
def State.galShown (s : State) : Nat :=
  if s.f stateStat 0 3 = 4 then 0
  else s.f galStat 0 2 + (2112 - (s.vault.off.length)) * 2 ^ 4 + (s.poweredTiles.filter fun t => s.ts t != tsOFF).length * 2 ^ 16

/-- A register of the channels of a Wing that shows its buffers, sequences and credits (R283). -/
def State.chanShown (s : State) (w o : Nat) : Option Nat :=
  if rWNG_BUFFER_STAT ≤ o ∧ o < rWNG_BUFFER_STAT + 0x240 ∧ (o - rWNG_BUFFER_STAT) % 0x40 = 0 then
    let x := s.chan (9 * w + (o - rWNG_BUFFER_STAT) / 0x40)
    some (x.replay.length + (x.held.length + x.ready.length) * 2 ^ 16)
  else
    let at4 := fun (base : Nat) => if base ≤ o ∧ o < base + 144 then some ((o - base) / 4) else none
    let cls := fun (n : Nat) => (s.chan (9 * w + n / 4)).cls (n % 4)
    match at4 rWNG_TX_STATE, at4 rWNG_RX_STATE, at4 rWNG_CREDIT_STATE with
    | some n, _, _ => some ((cls n).nextSeq + (cls n).acked * 2 ^ 16)
    | none, some n, _ =>
      some ((cls n).next + ((s.chan (9 * w + n / 4)).held.filter fun e => e.2.cls == n % 4).length * 2 ^ 16)
    | none, none, some n => some ((cls n).availH % 2 ^ 12 + (cls n).availD % 2 ^ 14 * 2 ^ 16)
    | none, none, none => none

/-- INC_COUNT[k] (R419): WINDOW reads 0 once its window has ended. -/
def State.countShown (s : State) (b : Blk) (i k a : Nat) : Nat :=
  if aget 0 s.inc.winEnd (ikey b i k) ≤ s.nowOf b i then s.f a 8 24 * 2 ^ 8 else s.rn a

/-- Whether accesses reach a block's window: a tile's over the bridge and the corridors, the Vault's over the bridge (R12, R15,
log entry 146); other blocks lie on the management bus. -/
def State.windowReached (s : State) (b : Blk) (i : Nat) : Bool :=
  match b with
  | .tile => s.tileReached i
  | .vlt => !s.routerBad bridgeTile
  | _ => true

/-- What a read of the register at offset `o` of a block's window returns; 0 where the access does not reach it. -/
def State.shown (s : State) (b : Blk) (i o : Nat) : Nat :=
  let a := winBase b i + o
  if !s.windowReached b i then 0
  else if rINC_COUNT ≤ o ∧ o < rINC_COUNT + 96 then
    let k := (o - rINC_COUNT) / 4
    if hasSource b k then s.countShown b i k a else 0
  else if rINC_POLICY ≤ o ∧ o < rINC_POLICY + 96 then (if hasSource b ((o - rINC_POLICY) / 4) then s.rn a else 0)
  else match b with
  | .tile =>
    if o = rTILE_ID then s.rn a + i / 64 + i % 64 * 2 ^ 5 + b2n (s.isReserve i) * 2 ^ 11
    else if o = rTILE_CYCLE_COUNT_HI then (s.tile i).cycHold.toNat
    else s.rn a
  | .gal => if o = 0 then s.galShown else s.rn a
  | .wng =>
    if o = rWNG_STAT then s.wingStat i
    else if o = rWNG_STUFF_COUNT then aget 0 s.light.stuffed i
    else (s.chanShown i o).getD (s.rn a)
  | .lmp => if o = rLMP_STAT then s.lampStat i else s.rn a
  | .pwr => if o = rPWR_GOV_STAT then s.rn a / 32 * 32 + s.paceMin else s.rn a
  | .col => if o = rCOL_STAT then s.colStat i else s.rn a
  | .fab =>
    if o = rFAB_REQ_OUT then s.fab.requests.length
    else if rFAB_ROUTE_DATA ≤ o ∧ o < rFAB_ROUTE_DATA + 16 then
      at_ (s.routeWords (s.f (winBase .fab 0 + rFAB_ROUTE_INDEX) 0 15)) (o - rFAB_ROUTE_DATA) 4
    else if rFAB_CHAN_MAP ≤ o ∧ o < rFAB_CHAN_MAP + 144 then
      let c := s.chanMap ((o - rFAB_CHAN_MAP) / 4)
      c.neighbour % 2 ^ 15 + c.level % 4 * 2 ^ 16 + c.rank % 2 ^ 8 * 2 ^ 24
    else if rFAB_WAVE_STAT ≤ o ∧ o < rFAB_WAVE_STAT + 256 then
      let g := (o - rFAB_WAVE_STAT) / 4
      let w := s.wave g
      if s.groupNow g then w.wave % 2 ^ 16 + w.phase * 2 ^ 16 + 2 ^ 19 + w.count % 2 ^ 11 * 2 ^ 20 else 0
    else s.rn a
  | .pln => if o = rPLN_HANG_STAT then s.rn a + (if s.hangState = 2 then s.pendingTiles.length else 0) * 2 ^ 16 else s.rn a
  | .cur =>
    if o = 0 then (match s.cur.place with | some p => p.tiles.length | none => 0) + s.reserveLeft * 2 ^ 16
    else if o = rCUR_CAT_STAT then b2n s.catShown.isSome + s.f a 1 1 * 2
    else if rCUR_CAT_DATA ≤ o ∧ o < rCUR_CAT_DATA + 32 then at_ (s.catShown.getD []) (o - rCUR_CAT_DATA) 4
    else if o = rCUR_PLACE_DATA then s.placeData (s.f (winBase .cur 0 + rCUR_PLACE_INDEX) 0 16) + s.f a 14 1 * 2 ^ 14
    else s.rn a
  | .vlt => if o = rVLT_POISON_PAGE_COUNT then s.poisonCount true else s.rn a
  | .sto =>
    if o = rSTO_POISON_PAGE_COUNT then s.poisonCount false
    else if o = rSTO_SEG_DATA then
      let g := s.f (winBase .sto 0 + rSTO_SEG_INDEX) 0 11
      if g < 1760 then aget 0 s.cur.segModes g else 0xFF
    else s.rn a
  | .rgs =>
    if o = 0 then 0x00B19120
    else if o = rRGS_LOCK_STAT then s.lockShown
    else if o = rRGS_LOCK_RECOVERY_COUNT then s.f a 8 24 * 2 ^ 8 + s.recentExits
    else if o = rRGS_MEAS_COUNT then s.sec.countLatch
    else if rRGS_MEAS_DATA ≤ o ∧ o < rRGS_MEAS_DATA + 48 then at_ s.sec.measLatch (o - rRGS_MEAS_DATA) 4
    else s.rn a
  | .hst => if o = 0 then s.rn a + s.host.queue.length * 2 ^ 16 else s.rn a
  | .pair => s.rn a

/-- What a read does besides (R105, R492): the copy of TILE_CYCLE_COUNT_HI, the latch of RGS_MEAS_DATA. -/
def State.touch (s : State) (b : Blk) (i o : Nat) : State :=
  if b = .tile ∧ o = rTILE_CYCLE_COUNT_LO ∧ s.tileReached i then
    s.mapTile i fun x => { x with cycHold := s.rd (tr i rTILE_CYCLE_COUNT_HI) }
  else if b = .rgs ∧ o = rRGS_MEAS_DATA then s.latchMeas
  else s

/-- PWR_PLATE_TEMP shows temperatures that no command gives: each read finds a free value (log entry 9). -/
def measuredReg (b : Blk) (o : Nat) : Bool := b == .pwr && o == rPWR_PLATE_TEMP

/-- What such a read finds, within the register's fields. -/
def State.measuredValue (s : State) : Nat :=
  let x := Config.choice s.free
  x % 2 ^ 12 + x / 2 ^ 12 % 2 ^ 12 * 2 ^ 16

/-- A read of a BAR0 word: 0 where no table defines a register (R9), and in RECOVERY outside HST_ (R478). -/
def State.readReg (s : State) (a : Nat) : Nat × State :=
  match blkOf a with
  | none => (0, s)
  | some (b, i, o) =>
    if (regRow a).isNone || (s.inRecovery && b != .hst) then (0, s)
    else
      let s := s.touch b i o
      if measuredReg b o then (s.measuredValue, { s with free := s.free + 1 })
      else (s.shown b i o % 2 ^ 32, s)

/-- A host's read of `n` bytes of BAR0 at an address through a function: one aligned word, or an Unsupported Request (R448, R453). -/
def State.bar0Read (s : State) (side : Side) (a n : Nat) : List Byte × Completion × State :=
  if n = 4 && a % 4 == 0 && s.barOpen side then
    let (v, s) := s.readReg a
    (leBytes 4 v, .data, s)
  else ([], .unsupported, s)

/-- Reads of consecutive words, in order. -/
def State.readRegs (s : State) (a : Nat) : Nat → List Byte × State
  | 0 => ([], s)
  | n + 1 =>
    let (v, s) := s.readReg a
    let (bs, s) := s.readRegs (a + 4) n
    (leBytes 4 v ++ bs, s)

end Sys2Proof.Machine
end

