-- ==== Sys2Proof/Machine/Warden.lean ====
section
/-! DEFINITION. The Warden port (13_host_and_security.md R479 to R488, 14_module_power_reset.md R501): the checks of a request,
the message set, and the answers of the port's network layer. -/

namespace Sys2Proof.Machine

open Sys2Proof Host

/-! ### A request and its checks (R483, R484, R486) -/

/-- A UDP payload as bytes. -/
def payload (msg : List Nat) : List Byte := msg.map (BitVec.ofNat 8)

/-- BODY of a request. -/
def wBody (m : List Byte) : List Byte := (m.drop 0x20).take (at_ m 0x18 2)

/-- The bytes a request's signature covers, and the signature. -/
def wSigned (m : List Byte) : List Byte := m.take (0x20 + at_ m 0x18 2)
def wSig (m : List Byte) : List Byte := (m.drop (0x20 + at_ m 0x18 2)).take 96

/-- Whether a header is well formed (R483). -/
def headerOk (m : List Byte) : Bool :=
  at_ m 0 4 == 0x4E445257 && at_ m 4 1 == 1 && at_ m 7 1 == 0 && zeros m 0x1A 0x20
    && decide (at_ m 0x18 2 ≤ 1296) && m.length == 0x20 + at_ m 0x18 2 + 96

/-- Whether `n` aligned words lie in BAR0, which has 64 MiB (R450), from an offset. -/
def wordsOk (o n : Nat) : Bool := o % 4 == 0 && decide (o + 4 * n ≤ 2 ^ 26)

/-- Whether a body has the form that its TYPE gives it (R485). -/
def bodyOk (ty : Nat) (b : List Byte) : Bool :=
  match ty with
  | 1 => b.length == 0
  | 2 => b.length == 6 && decide (1 ≤ at_ b 4 2) && decide (at_ b 4 2 ≤ 256) && wordsOk (at_ b 0 4) (at_ b 4 2)
  | 3 => b.length == 12 && wordsOk (at_ b 0 4) 1
  | 4 => b.length == 2
  | 5 => b.length == (if at_ b 0 1 = 2 then 98 else 1)
  | 6 => b.length == 97 && decide (at_ b 0 1 ≤ 1)
  | 7 => b.length == 1
  | 8 => b.length == 6 && decide (1 ≤ at_ b 4 2) && decide (at_ b 4 2 ≤ 40)
  | 9 => b.length == 1 && (at_ b 0 1 == 1 || at_ b 0 1 == 2)
  | 10 => b.length == 98 && decide (at_ b 0 1 ≤ 3)
  | 11 => b.length == 18
  | 12 => b.length == 0 || (decide (4 ≤ b.length) && decide (at_ b 0 4 + (b.length - 4) ≤ 2 ^ 20))
  | 13 => b.length == 7 && decide (1 ≤ at_ b 0 1) && decide (at_ b 0 1 ≤ 5) && decide (at_ b 5 2 ≤ 1024)
      && decide (at_ b 1 4 + at_ b 5 2 ≤ areaSize (at_ b 0 1))
  | _ => false

/-- The Vograica service and provisioning keys' numbers (log entry 5). -/
def serviceKey : Nat := 1
def provisioningKey : Nat := 2

/-- The number under which a public key's bytes verify. -/
def pubKey (k : List Byte) : Nat := 16 + leNat k

/-- The key that a request names (R483): none where the operator's is not enrolled or KEY is above 3. The change to DEPLOYED
carries the operator key itself (R480). -/
def State.wardenKey (s : State) (m : List Byte) : Option Nat :=
  match at_ m 6 1 with
  | 0 =>
    if at_ m 5 1 = 5 ∧ at_ (wBody m) 0 1 = 2 then some (pubKey ((wBody m).drop 1))
    else if s.arch.operator = [] then none else some (pubKey s.arch.operator)
  | 1 => some serviceKey
  | 2 => some provisioningKey
  | 3 => some identityKey
  | _ => none

/-- Whether a request's signature verifies. -/
def State.wardenVerify (s : State) (m : List Byte) : Bool :=
  match s.wardenKey m with
  | some k => Config.ecdsaVerify k (natsOf (sha384 (wSigned m))) (natsOf (wSig m))
  | none => false

/-- The least COUNTER that passes for a KEY (R484). -/
def State.counterMin (s : State) (k : Nat) : Nat := max (aget 0 s.sec.counters k) (aget 0 s.arch.counters k)

/-- The KEY that signs a lifecycle change (R480): none for a change outside the table. -/
def changeKey (old new_ : Nat) : Option Nat :=
  match old, new_ with
  | 0, 1 => some 2
  | 1, 2 => some 0
  | 2, 1 | 2, 3 | 2, 4 => some 0
  | 3, 1 | 1, 4 | 3, 4 => some 1
  | _, _ => none

/-- Whether a KEY may send a request in the present lifecycle state (R480, R485). -/
def State.maySend (s : State) (ty k : Nat) (b : List Byte) : Bool :=
  match ty with
  | 1 | 2 | 8 | 13 => k == 0 || k == 1
  | 5 => changeKey s.lifecycle (at_ b 0 1) == some k
  | 12 => k == 2 && ((s.lifecycle == 0 && b.length == 0) || (s.lifecycle == 1 && b.length != 0))
  | _ => k == 0

/-- Whether an FW_STAGE is in progress. -/
def State.staging (s : State) : Bool := s.host.entries.any fun e => decide (e.ring < 32) && !e.finished && at_ e.bytes 0 1 == 6

/-- Whether a lifecycle change or an FW_STAGE holds the flash against this TYPE (R486). -/
def State.wardenBusy (s : State) (ty : Nat) : Bool :=
  (s.sec.lifecycle.isSome || s.staging) && [4, 5, 6, 7, 10, 11, 12].contains ty

/-- The first check of R484 that a request fails, as its result (R486); 0 where it is accepted. -/
def State.wardenCheck (s : State) (m : List Byte) : Nat :=
  let ty := at_ m 5 1
  if !headerOk m || !bodyOk ty (wBody m) then 1
  else if at_ m 0x10 8 ≠ s.serial then 4
  else if at_ m 8 8 < s.counterMin (at_ m 6 1) then 3
  else if !s.wardenVerify m then 2
  else if !s.maySend ty (at_ m 6 1) (wBody m) then 5
  else 0

/-- Send the response to a request. -/
def State.answer (s : State) (m : List Byte) (result : Nat) (body : List Byte) : State :=
  s.sendWarden (at_ m 5 1 + 0x80) result (at_ m 8 8) body

/-- Record the COUNTER of an accepted request; in the key area where the request changes state (R484). -/
def State.keepCounter (s : State) (m : List Byte) (changes : Bool) : State :=
  let k := at_ m 6 1
  let n := at_ m 8 8 + 1
  let s := { s with sec := { s.sec with counters := aput 0 s.sec.counters k n } }
  if changes then { s with arch := { s.arch with counters := aput 0 s.arch.counters k n } } else s

/-- Serve a request of TYPE `ty` whose message also fits `this`: checks, BUSY, then `g` on the body. In RECOVERY the port is
not up (R478). -/
def State.serve (s : State) (ty : Nat) (this : List Byte → Bool) (msg : List Nat) (changes : Bool) (g : State → List Byte → List Byte → State) : State :=
  let m := payload msg
  if s.inRecovery || at_ m 5 1 != ty || !this (wBody m) then s
  else match s.wardenCheck m with
    | 0 =>
      if s.wardenBusy ty then (s.keepCounter m false).answer m 6 [] else g (s.keepCounter m changes) m (wBody m)
    | r + 1 => s.answer m (r + 1) []

/-- Serve a request that changes state: `allowed`, or NOT_PERMITTED; a write of the Archive flash that fails, FLASH_ERROR
(R432 ARCHIVE_FLASH); else its WARDEN_NOTICE, its effect and its response. -/
def State.serveChange (s : State) (ty : Nat) (this : List Byte → Bool) (msg : List Nat) (flash : Nat) (allowed : State → List Byte → Bool)
    (value : State → List Byte → Nat) (g : State → List Byte → List Byte × State) : State :=
  s.serve ty this msg true fun s m b =>
    if !allowed s b then s.answer m 5 []
    else if flash ≠ 0 then (s.event .rgs 0 2).answer m 7 []
    else
      let (out, s) := g (s.wardenNotice ty 0 (value s b)) b
      s.answer m 0 out

/-- Every body. -/
def anyBody (_ : List Byte) : Bool := true

/-! ### Requests that read -/

/-- The response body of STATUS_GET (R485): RGS_LIFECYCLE, RGS_LOCK_STAT, FAB_MODULE_ID, RGS_BOOT_STAT, RGS_SVN, input power, cap. -/
def State.statusBody (s : State) : List Byte :=
  (([lifeReg, lockStat, winBase .fab 0 + rFAB_MODULE_ID, bootStat, winBase .rgs 0 + rRGS_SVN].map fun a => leBytes 4 (s.readReg a).1).flatten)
    ++ leBytes 4 (s.f (winBase .pwr 0 + rPWR_INPUT) 16 16) ++ leBytes 4 (s.f (winBase .pwr 0 + rPWR_CAP) 0 11)

/-- STATUS_GET. -/
def execStatusGet (msg : List Nat) (s : State) : Outcome State Fault Refusal :=
  .next (s.serve 1 anyBody msg false fun s m _ => s.answer m 0 s.statusBody)

/-- REG_READ. -/
def execRegRead (msg : List Nat) (s : State) : Outcome State Fault Refusal :=
  .next (s.serve 2 anyBody msg false fun s m b =>
    let (bs, s) := s.readRegs (at_ b 0 4) (at_ b 4 2)
    s.answer m 0 bs)

/-- HISTORY_READ: the records at the places of their history numbers (R475), as the area holds them. -/
def State.historyBytes (s : State) (first count : Nat) : List Byte :=
  ((List.range count).map fun i => agets 0xFF s.arch.bytes (5 * 2 ^ 27 + (first + i) % 1048576 * 32) 32).flatten

/-- HISTORY_READ. -/
def execHistoryRead (msg : List Nat) (s : State) : Outcome State Fault Refusal :=
  .next (s.serve 8 anyBody msg false fun s m b => s.answer m 0 (s.historyBytes (at_ b 0 4) (at_ b 4 2)))

/-- ARCHIVE_READ of the Warden port. -/
def execWardenArchiveRead (msg : List Nat) (s : State) : Outcome State Fault Refusal :=
  .next (s.serve 13 anyBody msg false fun s m b =>
    let (bs, s) := s.archiveBytes (at_ b 0 1) (at_ b 1 4) (at_ b 5 2)
    s.answer m 0 bs)

/-! ### Requests that change state -/

/-- REG_WRITE: with the warden side's rights (R488). -/
def execRegWrite (msg : List Nat) (s : State) : Outcome State Fault Refusal :=
  .next (s.serveChange 3 anyBody msg 0 (fun _ _ => true) (fun _ _ => 0) fun s b =>
    ([], s.writeReg (at_ b 0 4) (at_ b 4 4) (at_ b 8 4) .warden))

/-- The input power cap within its range (R501). -/
def clampCap (w : Nat) : Nat := max 470 (min 1600 w)

/-- POWER_CAP_SET: PWR_CAP, and the cap stored for the next power-on reset (R501). -/
def execPowerCapSet (msg : List Nat) (flash : Nat) (s : State) : Outcome State Fault Refusal :=
  .next (s.serveChange 4 anyBody msg flash (fun _ _ => true) (fun _ b => clampCap (at_ b 0 2)) fun s b =>
    let c := clampCap (at_ b 0 2)
    let s := s.wn (winBase .pwr 0 + rPWR_CAP) c
    ([], { s with arch := { s.arch with cap := some c } }))

/-- LIFECYCLE_SET begins a change (R481 steps 1 and 2); LIFECYCLE_ERASE_DONE ends it and sends the response. -/
def execLifecycleSet (msg : List Nat) (s : State) : Outcome State Fault Refusal :=
  .next (s.serve 5 anyBody msg true fun s m b =>
    let s := (s.wardenNotice 5 0 (at_ b 0 1)).forceLock
    { s.commitKeys (at_ b 0 1) ((m.drop 0x21).take 97) with sec := { s.sec with lifecycle := some m } })

/-- Whether the operator's co-signature covers a slot's header (R485 FW_AUTHORISE). -/
def State.coSigned (s : State) (b : List Byte) : Bool :=
  s.arch.operator != [] && Config.ecdsaVerify (pubKey s.arch.operator)
    (natsOf (sha384 ((s.fwSlot (at_ b 0 1)).image.take 0x40))) (natsOf ((b.drop 1).take 96))

/-- FW_AUTHORISE: a STAGED slot becomes PENDING. -/
def execFwAuthorise (msg : List Nat) (flash : Nat) (s : State) : Outcome State Fault Refusal :=
  .next (s.serve 6 anyBody msg true fun s m b =>
    let k := at_ b 0 1
    if (s.fwSlot k).state ≠ 1 then s.answer m 5 []
    else if !s.coSigned b then s.answer m 2 []
    else if flash ≠ 0 then (s.event .rgs 0 2).answer m 7 []
    else ((s.wardenNotice 6 0 k).setFwSlot k { s.fwSlot k with state := 2 }).answer m 0 [])

/-- The SVN of the ACTIVE image, if there is one. -/
def State.activeSvn (s : State) : Option Nat := (s.slotIn 4).map fun k => imageSvn (s.fwSlot k).image

/-- A slot with an image below the fuse count becomes FAILED (R479). -/
def State.failBelow (s : State) (k : Nat) : State :=
  let x := s.fwSlot k
  if x.state ≠ 0 && decide (imageSvn x.image < s.arch.fuse) then s.setFwSlot k { x with state := 6 } else s

/-- FW_COMMIT_SVN: the fuse count rises, never above the SVN of the ACTIVE image (R479). -/
def execFwCommitSvn (msg : List Nat) (s : State) : Outcome State Fault Refusal :=
  .next (s.serveChange 7 anyBody msg 0
    (fun s b => decide (s.arch.fuse ≤ at_ b 0 1) && decide (at_ b 0 1 ≤ 64) && s.activeSvn.any fun v => decide (at_ b 0 1 ≤ v))
    (fun _ b => at_ b 0 1) fun s b =>
    let s := { s with arch := { s.arch with fuse := at_ b 0 1 } }
    let s := s.setf (winBase .rgs 0 + rRGS_SVN) 0 7 (at_ b 0 1)
    ([], (s.failBelow 0).failBelow 1))

/-- LOCKDOWN with FORCE. -/
def execWardenLockdownForce (msg : List Nat) (s : State) : Outcome State Fault Refusal :=
  .next (s.serveChange 9 (fun b => at_ b 0 1 == 1) msg 0 (fun _ _ => true) (fun _ _ => 0) fun s _ => ([], s.forceLock))

/-- LOCKDOWN with CLEAR; a CLEAR that R441 refuses is answered NOT_PERMITTED. -/
def execWardenLockdownClear (msg : List Nat) (s : State) : Outcome State Fault Refusal :=
  .next (s.serve 9 (fun b => at_ b 0 1 == 2) msg true fun s m _ =>
    let t := s.lockClear .warden
    if t.locked then t.answer m 5 [] else (t.wardenNotice 9 0 0).answer m 0 [])

/-- TENANT_KEY_SET: 97 zero bytes erase the key. The change extends measurement register 6 (R472). -/
def execTenantKeySet (msg : List Nat) (flash : Nat) (s : State) : Outcome State Fault Refusal :=
  .next (s.serveChange 10 anyBody msg flash (fun _ _ => true) (fun _ _ => 0) fun s b =>
    let i := at_ b 0 1
    let key := b.drop 1
    let none_ := zeros b 1 98
    let s := { s with arch := { s.arch with tenantKeys := aput [] s.arch.tenantKeys i (if none_ then [] else key) } }
    let s := s.setf lifeReg (8 + i) 1 (b2n (!none_))
    ([], s.measureConfig))

/-- CONFIG_SET. -/
def execConfigSet (msg : List Nat) (flash : Nat) (s : State) : Outcome State Fault Refusal :=
  .next (s.serveChange 11 anyBody msg flash (fun _ _ => true) (fun _ _ => 0) fun s b =>
    ([], { s with arch := { s.arch with config := b } }))

/-- A certificate signing request: its bytes and length are free (log entry 4), 1 to 1,296 bytes. -/
def State.csr (s : State) : List Byte × State :=
  let (n, s) := s.draw 1296
  s.freeBytes (n + 1)

/-- PROVISION: a certificate signing request in BLANK; in PROVISIONED a chunk of the certificate chain (R473). -/
def execProvision (msg : List Nat) (flash : Nat) (s : State) : Outcome State Fault Refusal :=
  .next (s.serve 12 anyBody msg (!(wBody (payload msg)).isEmpty) fun s m b =>
    if b = [] then
      let (bs, s) := s.csr
      s.answer m 0 bs
    else if flash ≠ 0 then (s.event .rgs 0 2).answer m 7 []
    else
      let o := at_ b 0 4
      let old := padTo o (s.arch.chain.take o)
      let data := b.drop 4
      let s := s.wardenNotice 12 0 0
      ({ s with arch := { s.arch with chain := old ++ data ++ s.arch.chain.drop (o + data.length) } }).answer m 0 [])

/-- BAD_FORMAT_REQUEST: a malformed header or an undefined TYPE. -/
def execBadFormatRequest (msg : List Nat) (s : State) : Outcome State Fault Refusal :=
  .next (
    let m := payload msg
    if s.inRecovery || (headerOk m && decide (1 ≤ at_ m 5 1) && decide (at_ m 5 1 ≤ 13)) then s else s.answer m 1 [])

/-! ### The network layer (R482) -/

/-- The module's IPv4 address: the static one, or the one DHCPv4 gave where none is set. -/
def State.ipAddress (s : State) : Nat :=
  let a := at_ s.arch.config 0 4
  if a = 0 then Config.dhcpAddress % 2 ^ 32 else a

/-- ARP_REQUEST for an address: answered with the MAC address where it is the module's. -/
def execArpRequest (ip : Nat) (s : State) : Outcome State Fault Refusal :=
  .next (if s.inRecovery || ip != s.ipAddress then s else { s with out := s.out ++ [.arp ip (Config.macAddress % 2 ^ 48)] })

/-- ICMP_ECHO to an address: its data come back. -/
def execIcmpEcho (ip : Nat) (data : List Nat) (s : State) : Outcome State Fault Refusal :=
  .next (if s.inRecovery || ip != s.ipAddress then s else { s with out := s.out ++ [.icmp ip (payload data)] })

end Sys2Proof.Machine
end

