-- ==== Sys2Proof/Machine/Dispatch.lean ====
section
/-! DEFINITION. The dispatch of a command to its meaning: one arm per row of the table. -/

namespace Sys2Proof.Machine

open Host

def exec (i : Instr) (s : State) : Host.Outcome State Fault Refusal :=
  match i with
  | .nop t => Sys2Proof.Machine.execNop t s
  | .endStep t => Sys2Proof.Machine.execEndStep t s
  | .hangStep t => Sys2Proof.Machine.execHangStep t s
  | .hangPointReached t => Sys2Proof.Machine.execHangPointReached t s
  | .jump t => Sys2Proof.Machine.execJump t s
  | .branch t => Sys2Proof.Machine.execBranch t s
  | .loopStep t => Sys2Proof.Machine.execLoopStep t s
  | .salu t => Sys2Proof.Machine.execSalu t s
  | .sread t => Sys2Proof.Machine.execSread t s
  | .fence t => Sys2Proof.Machine.execFence t s
  | .fenceComplete t => Sys2Proof.Machine.execFenceComplete t s
  | .wait t => Sys2Proof.Machine.execWait t s
  | .waitSatisfied t => Sys2Proof.Machine.execWaitSatisfied t s
  | .add t => Sys2Proof.Machine.execAdd t s
  | .waveStep t => Sys2Proof.Machine.execWaveStep t s
  | .copy t => Sys2Proof.Machine.execCopy t s
  | .fill t => Sys2Proof.Machine.execFill t s
  | .dload t => Sys2Proof.Machine.execDload t s
  | .dstore t => Sys2Proof.Machine.execDstore t s
  | .dadd t => Sys2Proof.Machine.execDadd t s
  | .send t => Sys2Proof.Machine.execSend t s
  | .signal t => Sys2Proof.Machine.execSignal t s
  | .read t => Sys2Proof.Machine.execRead t s
  | .collate t => Sys2Proof.Machine.execCollate t s
  | .hold t => Sys2Proof.Machine.execHold t s
  | .mma t => Sys2Proof.Machine.execMma t s
  | .matrixClear t => Sys2Proof.Machine.execMatrixClear t s
  | .vecMove t => Sys2Proof.Machine.execVecMove t s
  | .vecAdd t => Sys2Proof.Machine.execVecAdd t s
  | .vecSub t => Sys2Proof.Machine.execVecSub t s
  | .vecMul t => Sys2Proof.Machine.execVecMul t s
  | .vecFma t => Sys2Proof.Machine.execVecFma t s
  | .vecMin t => Sys2Proof.Machine.execVecMin t s
  | .vecMax t => Sys2Proof.Machine.execVecMax t s
  | .vecCmp t => Sys2Proof.Machine.execVecCmp t s
  | .vecSelect t => Sys2Proof.Machine.execVecSelect t s
  | .vecRcp t => Sys2Proof.Machine.execVecRcp t s
  | .vecRsqrt t => Sys2Proof.Machine.execVecRsqrt t s
  | .vecSqrt t => Sys2Proof.Machine.execVecSqrt t s
  | .vecExp2 t => Sys2Proof.Machine.execVecExp2 t s
  | .vecLog2 t => Sys2Proof.Machine.execVecLog2 t s
  | .vecSign t => Sys2Proof.Machine.execVecSign t s
  | .vecReduce t => Sys2Proof.Machine.execVecReduce t s
  | .arith t => Sys2Proof.Machine.execArith t s
  | .statClear t => Sys2Proof.Machine.execStatClear t s
  | .trapEnable t => Sys2Proof.Machine.execTrapEnable t s
  | .perf t => Sys2Proof.Machine.execPerf t s
  | .crateTime t => Sys2Proof.Machine.execCrateTime t s
  | .unitStepComplete t u => Sys2Proof.Machine.execUnitStepComplete t u s
  | .tileCrateTimeout t => Sys2Proof.Machine.execTileCrateTimeout t s
  | .tileHangTimeout t => Sys2Proof.Machine.execTileHangTimeout t s
  | .crateIngressTimeout t ix => Sys2Proof.Machine.execCrateIngressTimeout t ix s
  | .crateWrite ix => Sys2Proof.Machine.execCrateWrite ix s
  | .crateReadReq ix => Sys2Proof.Machine.execCrateReadReq ix s
  | .crateReadResp ix => Sys2Proof.Machine.execCrateReadResp ix s
  | .crateTicket ix => Sys2Proof.Machine.execCrateTicket ix s
  | .crateTwinWrite ix => Sys2Proof.Machine.execCrateTwinWrite ix s
  | .stop t side => Sys2Proof.Machine.execStop t side s
  | .releaseTrap t side => Sys2Proof.Machine.execReleaseTrap t side s
  | .reset t side => Sys2Proof.Machine.execReset t side s
  | .perfClear t side => Sys2Proof.Machine.execPerfClear t side s
  | .tileArithStatClear t mask side => Sys2Proof.Machine.execTileArithStatClear t mask side s
  | .cycleCountLoRead t => Sys2Proof.Machine.execCycleCountLoRead t s
  | .registerWrite addr value side => Sys2Proof.Machine.execRegisterWrite addr value side s
  | .thermalConversion t temp => Sys2Proof.Machine.execThermalConversion t temp s
  | .cycleStretch t slack => Sys2Proof.Machine.execCycleStretch t slack s
  | .islandClockChange t freq volt => Sys2Proof.Machine.execIslandClockChange t freq volt s
  | .routerFail t => Sys2Proof.Machine.execRouterFail t s
  | .load => Sys2Proof.Machine.execLoad s
  | .loadCopyDone k bad => Sys2Proof.Machine.execLoadCopyDone k bad s
  | .auditDone k => Sys2Proof.Machine.execAuditDone k s
  | .prepare => Sys2Proof.Machine.execPrepare s
  | .autoPrepareStart => Sys2Proof.Machine.execAutoPrepareStart s
  | .prepareDone k tiles tiers offsets segs broken => Sys2Proof.Machine.execPrepareDone k tiles tiers offsets segs broken s
  | .hang => Sys2Proof.Machine.execHang s
  | .hangArmedAllAtPoint => Sys2Proof.Machine.execHangArmedAllAtPoint s
  | .hangWaveComplete => Sys2Proof.Machine.execHangWaveComplete s
  | .hangApply => Sys2Proof.Machine.execHangApply s
  | .hangWaveSlow => Sys2Proof.Machine.execHangWaveSlow s
  | .withdraw => Sys2Proof.Machine.execWithdraw s
  | .discard => Sys2Proof.Machine.execDiscard s
  | .readPlacement => Sys2Proof.Machine.execReadPlacement s
  | .readCatalogue => Sys2Proof.Machine.execReadCatalogue s
  | .placeQuery ix => Sys2Proof.Machine.execPlaceQuery ix s
  | .placeQueryRepeat => Sys2Proof.Machine.execPlaceQueryRepeat s
  | .placeAnswer ix => Sys2Proof.Machine.execPlaceAnswer ix s
  | .placeMoved ix => Sys2Proof.Machine.execPlaceMoved ix s
  | .placeExchangeTimeout => Sys2Proof.Machine.execPlaceExchangeTimeout s
  | .pageDecodeDone mem page => Sys2Proof.Machine.execPageDecodeDone mem page s
  | .scrubPage mem => Sys2Proof.Machine.execScrubPage mem s
  | .vaultDieFail die => Sys2Proof.Machine.execVaultDieFail die s
  | .marchTest page rows => Sys2Proof.Machine.execMarchTest page rows s
  | .readRaw mem pp reserved side => Sys2Proof.Machine.execReadRaw mem pp reserved side s
  | .writeData mem pp reserved side => Sys2Proof.Machine.execWriteData mem pp reserved side s
  | .writeParity mem pp reserved side => Sys2Proof.Machine.execWriteParity mem pp reserved side s
  | .readPageParity mem pp reserved side => Sys2Proof.Machine.execReadPageParity mem pp reserved side s
  | .writePageParity mem pp reserved side => Sys2Proof.Machine.execWritePageParity mem pp reserved side s
  | .checkedRead mem pp reserved side => Sys2Proof.Machine.execCheckedRead mem pp reserved side s
  | .storeRefresh chan temp => Sys2Proof.Machine.execStoreRefresh chan temp s
  | .storeRfm chan bank => Sys2Proof.Machine.execStoreRfm chan bank s
  | .wck2dqOscRead chan drift => Sys2Proof.Machine.execWck2dqOscRead chan drift s
  | .zqLatch chan => Sys2Proof.Machine.execZqLatch chan s
  | .selfRefreshEntry chan segs => Sys2Proof.Machine.execSelfRefreshEntry chan segs s
  | .flitSlot j l => Sys2Proof.Machine.execFlitSlot j l s
  | .dataFlit j l raw => Sys2Proof.Machine.execDataFlit j l raw s
  | .controlFlit j l raw => Sys2Proof.Machine.execControlFlit j l raw s
  | .creditFlit j l raw => Sys2Proof.Machine.execCreditFlit j l raw s
  | .idleFlit j l raw => Sys2Proof.Machine.execIdleFlit j l raw s
  | .initFlit j l raw => Sys2Proof.Machine.execInitFlit j l raw s
  | .badFlit j l raw => Sys2Proof.Machine.execBadFlit j l raw s
  | .reorderRelease j c => Sys2Proof.Machine.execReorderRelease j c s
  | .crateTransmitStart ix => Sys2Proof.Machine.execCrateTransmitStart ix s
  | .ackTimerExpiry j => Sys2Proof.Machine.execAckTimerExpiry j s
  | .creditTimerExpiry j => Sys2Proof.Machine.execCreditTimerExpiry j s
  | .replayTimerExpiry j l => Sys2Proof.Machine.execReplayTimerExpiry j l s
  | .linkSuspend j l => Sys2Proof.Machine.execLinkSuspend j l s
  | .linkRejoin j l => Sys2Proof.Machine.execLinkRejoin j l s
  | .linkDownTimer j l => Sys2Proof.Machine.execLinkDownTimer j l s
  | .initTimeout j l => Sys2Proof.Machine.execInitTimeout j l s
  | .creditTimeout j c => Sys2Proof.Machine.execCreditTimeout j c s
  | .widthChange j l width => Sys2Proof.Machine.execWidthChange j l width s
  | .widthChangeDone j l locked => Sys2Proof.Machine.execWidthChangeDone j l locked s
  | .channelReset j side => Sys2Proof.Machine.execChannelReset j side s
  | .linkDown j l side => Sys2Proof.Machine.execLinkDown j l side s
  | .creditAdvWrite w c value side => Sys2Proof.Machine.execCreditAdvWrite w c value side s
  | .requestEntryAlloc ix => Sys2Proof.Machine.execRequestEntryAlloc ix s
  | .responseMatch ix => Sys2Proof.Machine.execResponseMatch ix s
  | .requestTimeout id => Sys2Proof.Machine.execRequestTimeout id s
  | .requestRetry id => Sys2Proof.Machine.execRequestRetry id s
  | .quarantineExpiry id => Sys2Proof.Machine.execQuarantineExpiry id s
  | .collateCrate ix => Sys2Proof.Machine.execCollateCrate ix s
  | .collateStall ix => Sys2Proof.Machine.execCollateStall ix s
  | .colRedCfgWrite col r value side => Sys2Proof.Machine.execColRedCfgWrite col r value side s
  | .waveMessage ix => Sys2Proof.Machine.execWaveMessage ix s
  | .waveSlow group => Sys2Proof.Machine.execWaveSlow group s
  | .census group side => Sys2Proof.Machine.execCensus group side s
  | .fabricReset side => Sys2Proof.Machine.execFabricReset side s
  | .fabricResetMessage ix => Sys2Proof.Machine.execFabricResetMessage ix s
  | .officeCrate ix => Sys2Proof.Machine.execOfficeCrate ix s
  | .bringupStart j l => Sys2Proof.Machine.execBringupStart j l s
  | .trainingFrame j k r frame => Sys2Proof.Machine.execTrainingFrame j k r frame s
  | .marginTestDone j k margins => Sys2Proof.Machine.execMarginTestDone j k margins s
  | .bringupTimeout j l => Sys2Proof.Machine.execBringupTimeout j l s
  | .retrainRetry j l => Sys2Proof.Machine.execRetrainRetry j l s
  | .laneRequest j l lane margins => Sys2Proof.Machine.execLaneRequest j l lane margins s
  | .laneMove j l lane slot fibre => Sys2Proof.Machine.execLaneMove j l lane slot fibre s
  | .laneSwitched j l lane => Sys2Proof.Machine.execLaneSwitched j l lane s
  | .laneRefuse j l lane => Sys2Proof.Machine.execLaneRefuse j l lane s
  | .laneTakeNewSlot j l lane => Sys2Proof.Machine.execLaneTakeNewSlot j l lane s
  | .steerTimeout j l lane => Sys2Proof.Machine.execSteerTimeout j l lane s
  | .laneUnlock j l lane => Sys2Proof.Machine.execLaneUnlock j l lane s
  | .qualityUpdate w n eye exp => Sys2Proof.Machine.execQualityUpdate w n eye exp s
  | .laneLag j l lane => Sys2Proof.Machine.execLaneLag j l lane s
  | .widthRiseTimer j l => Sys2Proof.Machine.execWidthRiseTimer j l s
  | .spare w p lane side => Sys2Proof.Machine.execSpare w p lane side s
  | .restore w p lane side => Sys2Proof.Machine.execRestore w p lane side s
  | .laserBiasUpdate p pos bias power => Sys2Proof.Machine.execLaserBiasUpdate p pos bias power s
  | .swap p pos side => Sys2Proof.Machine.execSwap p pos side s
  | .swapWarmDone p pos => Sys2Proof.Machine.execSwapWarmDone p pos s
  | .swapLockDone p pos => Sys2Proof.Machine.execSwapLockDone p pos s
  | .swapReturn p pos => Sys2Proof.Machine.execSwapReturn p pos s
  | .laserSwapFail p pos => Sys2Proof.Machine.execLaserSwapFail p pos s
  | .laserFail p pos => Sys2Proof.Machine.execLaserFail p pos s
  | .ringUnlock w n modulator => Sys2Proof.Machine.execRingUnlock w n modulator s
  | .ringRelock w n modulator => Sys2Proof.Machine.execRingRelock w n modulator s
  | .bandgapCheck die ref second => Sys2Proof.Machine.execBandgapCheck die ref second s
  | .relight w n => Sys2Proof.Machine.execRelight w n s
  | .calAttempt j => Sys2Proof.Machine.execCalAttempt j s
  | .calMeasureDone j h1 e1 h2 e2 margin exp tco => Sys2Proof.Machine.execCalMeasureDone j h1 e1 h2 e2 margin exp tco s
  | .calDeferred w n => Sys2Proof.Machine.execCalDeferred w n s
  | .calibrate w n side => Sys2Proof.Machine.execCalibrate w n side s
  | .calibrateLink w p side => Sys2Proof.Machine.execCalibrateLink w p side s
  | .clearSuspect w n side => Sys2Proof.Machine.execClearSuspect w n side s
  | .governorSample draw input pace => Sys2Proof.Machine.execGovernorSample draw input pace s
  | .governorTempStep => Sys2Proof.Machine.execGovernorTempStep s
  | .condSummary dmax dmean weak => Sys2Proof.Machine.execCondSummary dmax dmean weak s
  | .writeNow dmax dmean weak side => Sys2Proof.Machine.execWriteNow dmax dmean weak side s
  | .slackSample => Sys2Proof.Machine.execSlackSample s
  | .compareTimeout ix => Sys2Proof.Machine.execCompareTimeout ix s
  | .dispute ix => Sys2Proof.Machine.execDispute ix s
  | .katDone shard epoch failed => Sys2Proof.Machine.execKatDone shard epoch failed s
  | .arbitrate ix => Sys2Proof.Machine.execArbitrate ix s
  | .arbitrateTimeout shard epoch => Sys2Proof.Machine.execArbitrateTimeout shard epoch s
  | .idleSelfTest t fail => Sys2Proof.Machine.execIdleSelfTest t fail s
  | .rebuildDone shard => Sys2Proof.Machine.execRebuildDone shard s
  | .beaconTimer => Sys2Proof.Machine.execBeaconTimer s
  | .beacon ix => Sys2Proof.Machine.execBeacon ix s
  | .witnessQuery ix => Sys2Proof.Machine.execWitnessQuery ix s
  | .witnessAnswer ix => Sys2Proof.Machine.execWitnessAnswer ix s
  | .substitute ix => Sys2Proof.Machine.execSubstitute ix s
  | .handoverMessage ix => Sys2Proof.Machine.execHandoverMessage ix s
  | .switchoverClose => Sys2Proof.Machine.execSwitchoverClose s
  | .handover side => Sys2Proof.Machine.execHandover side s
  | .stocktake group number side => Sys2Proof.Machine.execStocktake group number side s
  | .stocktakeRelease side => Sys2Proof.Machine.execStocktakeRelease side s
  | .clearSubst side => Sys2Proof.Machine.execClearSubst side s
  | .forceTakeover side => Sys2Proof.Machine.execForceTakeover side s
  | .unfence side => Sys2Proof.Machine.execUnfence side s
  | .drainDone => Sys2Proof.Machine.execDrainDone s
  | .incidentWindowEnd blk inst k => Sys2Proof.Machine.execIncidentWindowEnd blk inst k s
  | .levelRepeat blk inst k => Sys2Proof.Machine.execLevelRepeat blk inst k s
  | .incForce blk inst value side => Sys2Proof.Machine.execIncForce blk inst value side s
  | .chanceTimerExpiry blk inst k => Sys2Proof.Machine.execChanceTimerExpiry blk inst k s
  | .actionCancel blk inst mask side => Sys2Proof.Machine.execActionCancel blk inst mask side s
  | .resume blk inst side => Sys2Proof.Machine.execResume blk inst side s
  | .latchClear blk inst side => Sys2Proof.Machine.execLatchClear blk inst side s
  | .raisedClear blk inst mask side => Sys2Proof.Machine.execRaisedClear blk inst mask side s
  | .policyWrite blk inst k value side => Sys2Proof.Machine.execPolicyWrite blk inst k value side s
  | .selfFault blk inst => Sys2Proof.Machine.execSelfFault blk inst s
  | .firmwareStall => Sys2Proof.Machine.execFirmwareStall s
  | .forceLockdown side => Sys2Proof.Machine.execForceLockdown side s
  | .lockdownClear side => Sys2Proof.Machine.execLockdownClear side s
  | .lockdownExitCheck => Sys2Proof.Machine.execLockdownExitCheck s
  | .docketDoorbell d count side => Sys2Proof.Machine.execDocketDoorbell d count side s
  | .logbookDoorbell l count side => Sys2Proof.Machine.execLogbookDoorbell l count side s
  | .docketNop r => Sys2Proof.Machine.execDocketNop r s
  | .dmaWrite r pages => Sys2Proof.Machine.execDmaWrite r pages s
  | .dmaRead r pages => Sys2Proof.Machine.execDmaRead r pages s
  | .archiveRead r => Sys2Proof.Machine.execArchiveRead r s
  | .archiveWrite r => Sys2Proof.Machine.execArchiveWrite r s
  | .measureLogRead r => Sys2Proof.Machine.execMeasureLogRead r s
  | .fwStage r => Sys2Proof.Machine.execFwStage r s
  | .docketEntryDone r flash => Sys2Proof.Machine.execDocketEntryDone r flash s
  | .restart r side => Sys2Proof.Machine.execRestart r side s
  | .ringEnable d on side => Sys2Proof.Machine.execRingEnable d on side s
  | .logbookSpaceReturn l => Sys2Proof.Machine.execLogbookSpaceReturn l s
  | .logQueueFlush rate width => Sys2Proof.Machine.execLogQueueFlush rate width s
  | .wardenNoticeWrite value side => Sys2Proof.Machine.execWardenNoticeWrite value side s
  | .noticeSend => Sys2Proof.Machine.execNoticeSend s
  | .bar2Read off n => Sys2Proof.Machine.execBar2Read off n s
  | .bar2Write off data => Sys2Proof.Machine.execBar2Write off data s
  | .flr pf => Sys2Proof.Machine.execFlr pf s
  | .functionStateChange pf d3 bme => Sys2Proof.Machine.execFunctionStateChange pf d3 bme s
  | .perst => Sys2Proof.Machine.execPerst s
  | .pcieLinkDown => Sys2Proof.Machine.execPcieLinkDown s
  | .measDataRead => Sys2Proof.Machine.execMeasDataRead s
  | .doeDiscovery index => Sys2Proof.Machine.execDoeDiscovery index s
  | .getVersion msg => Sys2Proof.Machine.execGetVersion msg s
  | .getCapabilities msg => Sys2Proof.Machine.execGetCapabilities msg s
  | .negotiateAlgorithms msg => Sys2Proof.Machine.execNegotiateAlgorithms msg s
  | .getDigests msg => Sys2Proof.Machine.execGetDigests msg s
  | .getCertificate msg => Sys2Proof.Machine.execGetCertificate msg s
  | .challenge msg => Sys2Proof.Machine.execChallenge msg s
  | .getMeasurements msg => Sys2Proof.Machine.execGetMeasurements msg s
  | .respondIfReady msg => Sys2Proof.Machine.execRespondIfReady msg s
  | .spdmUnsupported msg => Sys2Proof.Machine.execSpdmUnsupported msg s
  | .statusGet msg => Sys2Proof.Machine.execStatusGet msg s
  | .regRead msg => Sys2Proof.Machine.execRegRead msg s
  | .regWrite msg => Sys2Proof.Machine.execRegWrite msg s
  | .powerCapSet msg flash => Sys2Proof.Machine.execPowerCapSet msg flash s
  | .lifecycleSet msg => Sys2Proof.Machine.execLifecycleSet msg s
  | .fwAuthorise msg flash => Sys2Proof.Machine.execFwAuthorise msg flash s
  | .fwCommitSvn msg => Sys2Proof.Machine.execFwCommitSvn msg s
  | .historyRead msg => Sys2Proof.Machine.execHistoryRead msg s
  | .wardenLockdownForce msg => Sys2Proof.Machine.execWardenLockdownForce msg s
  | .wardenLockdownClear msg => Sys2Proof.Machine.execWardenLockdownClear msg s
  | .tenantKeySet msg flash => Sys2Proof.Machine.execTenantKeySet msg flash s
  | .configSet msg flash => Sys2Proof.Machine.execConfigSet msg flash s
  | .provision msg flash => Sys2Proof.Machine.execProvision msg flash s
  | .wardenArchiveRead msg => Sys2Proof.Machine.execWardenArchiveRead msg s
  | .firmwareReady => Sys2Proof.Machine.execFirmwareReady s
  | .bootTimeout => Sys2Proof.Machine.execBootTimeout s
  | .powerOnReset => Sys2Proof.Machine.execPowerOnReset s
  | .powerLoss => Sys2Proof.Machine.execPowerLoss s
  | .inputOutOfRange volts => Sys2Proof.Machine.execInputOutOfRange volts s
  | .polFault => Sys2Proof.Machine.execPolFault s
  | .powerStateRequest target side => Sys2Proof.Machine.execPowerStateRequest target side s
  | .powerStateDone => Sys2Proof.Machine.execPowerStateDone s
  | .moduleReset side => Sys2Proof.Machine.execModuleReset side s
  | .galleryReset side => Sys2Proof.Machine.execGalleryReset side s
  | .galleryResetDone => Sys2Proof.Machine.execGalleryResetDone s
  | .storeChannelFail chan => Sys2Proof.Machine.execStoreChannelFail chan s
  | .storeTrainingDone pass => Sys2Proof.Machine.execStoreTrainingDone pass s
  | .storeWipeDone => Sys2Proof.Machine.execStoreWipeDone s
  | .picTempUpdate w temp slope => Sys2Proof.Machine.execPicTempUpdate w temp slope s
  | .picThermal w => Sys2Proof.Machine.execPicThermal w s
  | .pcieCompletionTimeout r => Sys2Proof.Machine.execPcieCompletionTimeout r s
  | .badOpcodeEntry r => Sys2Proof.Machine.execBadOpcodeEntry r s
  | .badFormatRequest msg => Sys2Proof.Machine.execBadFormatRequest msg s
  | .arpRequest ip => Sys2Proof.Machine.execArpRequest ip s
  | .icmpEcho ip data => Sys2Proof.Machine.execIcmpEcho ip data s
  | .lifecycleEraseDone => Sys2Proof.Machine.execLifecycleEraseDone s
  | .quietExitAgeing => Sys2Proof.Machine.execQuietExitAgeing s

end Sys2Proof.Machine
end

