-- ==== Sys2Proof/Safety.lean ====
section
/-! DEFINITION. The terms the statements use: a safe step, what differs between two states, a tile that is ready for its
next step, and what an executed step leaves. -/

namespace Sys2Proof.Machine

open Sys2Proof

/-- Step answers a next state. -/
def Safe (s : State) : Prop := ∃ t, step s = .next t

/-- The register file's canonical form: addresses strictly rise, and no register is listed at its reset value. -/
def RegsWf (s : State) : Prop := (s.regs.map (·.1)).Pairwise (· < ·) ∧ ∀ e ∈ s.regs, e.2 ≠ resetVal e.1

/-- What holds of every state a run reaches: the register file and both memories are in canonical form, and no more fuses are
blown than there are (R479). -/
def WellKept (s : State) : Prop := RegsWf s ∧ s.vault.wf = true ∧ s.store.wf = true ∧ s.arch.fuse ≤ 64

/-! ### Frames -/

/-- Nothing but registers differs. -/
def OnlyRegs (s t : State) : Prop := t = { s with regs := t.regs }

/-- Every register but those listed reads as before. -/
def RegsBut (as : List Nat) (s t : State) : Prop := ∀ a, a ∉ as → t.rd a = s.rd a

/-- Nothing but registers and tile `u` differs. -/
def OnlyTile (u : Nat) (s t : State) : Prop :=
  t = { s with regs := t.regs, tiles := t.tiles } ∧ ∀ v, v ≠ u → t.tile v = s.tile v

/-! ### Steps of a tile (R99, R111 to R130) -/

/-- Tile `u` may issue, nothing it holds or waits for stands in the way, and the step it stands at, stored without error, is
`w`, of class `cls` and operation `op`. -/
def Ready (s : State) (u : Nat) (w : Word64) (cls op : Nat) : Prop :=
  s.canIssue u = true ∧ (s.tile u).holding = .none ∧ (s.tile u).deferred = [] ∧ (s.tile u).pendTraps = []
    ∧ s.fetchStep u = .word w ∧ aget 0 (s.tile u).itinErr (4096 * s.halfOf u + s.pos u) = 0
    ∧ fld w.toNat 60 4 = cls ∧ fld w.toNat 56 4 = op

/-- Bits of a step word outside its class, its operation and the fields `mask` are 0 (R126). -/
def Clean (w : Word64) (mask : Nat) : Prop := resOk w.toNat (opMask + mask) = true

/-- The step after the one at position `p` lies in the half (R119). -/
def GoesOn (s : State) (u p : Nat) : Prop := (loopNext (s.tile u).loops p).2 ≤ 4095

/-- TILE_STEP_COUNT rose by one, wrapping, unless FREEZE holds it (R105, R110). -/
def Counted (s t : State) (u : Nat) : Prop :=
  t.rn (tr u rTILE_STEP_COUNT) =
    if s.f (tr u rTILE_PERF_CTRL) 1 1 = 1 then s.rn (tr u rTILE_STEP_COUNT) else (s.rn (tr u rTILE_STEP_COUNT) + 1) % 2 ^ 32

/-- The tile stands at the step after position `p` by the loop rules (R129), one more execution of its own step noted (R54),
and its other state is `g` of what it was. -/
def Went (s t : State) (u p : Nat) (g : Tile → Tile) : Prop :=
  t.pos u = (loopNext (s.tile u).loops p).2
    ∧ t.tile u = (g { s.tile u with loops := (loopNext (s.tile u).loops p).1 }).countExec (s.pos u)

/-- A step that completes at once: it goes on, it is counted, and besides EXEC_POS and TILE_STEP_COUNT only the registers
`as` and, by `g`, the tile's own state differ. -/
def DoneStep (s t : State) (u p : Nat) (as : List Nat) (g : Tile → Tile) : Prop :=
  Went s t u p g ∧ Counted s t u ∧ OnlyTile u s t
    ∧ RegsBut (tr u rTILE_EXEC_POS :: tr u rTILE_STEP_COUNT :: as) s t

/-- A step placed in its unit with what it captured (R111, R113): execution goes on, and nothing else differs. -/
def InUnit (s t : State) (u : Nat) (k : Unit4) (w : Word64) : Prop :=
  Went s t u (s.pos u) (fun x => x.setUnit k (some (s.capture u w (s.pos u)))) ∧ OnlyTile u s t
    ∧ RegsBut [tr u rTILE_EXEC_POS] s t

/-- The unit is idle and no hazard of R123 holds the step. -/
def UnitFree (s : State) (u : Nat) (k : Unit4) (w : Word64) : Prop :=
  ((s.tile u).unit k).isNone = true ∧ (s.tile u).hazard (readsOf (s.tile u) w.toNat) (writesOf (s.tile u) w.toNat) = false

/-- The constructor of each vector operation (R162). -/
def vecInstr (op u : Nat) : Instr :=
  match op with
  | 0 => .vecMove u | 1 => .vecAdd u | 2 => .vecSub u | 3 => .vecMul u | 4 => .vecFma u | 5 => .vecMin u | 6 => .vecMax u
  | 7 => .vecCmp u | 8 => .vecSelect u | 9 => .vecRcp u | 10 => .vecRsqrt u | 11 => .vecSqrt u | 12 => .vecExp2 u
  | 13 => .vecLog2 u | 14 => .vecSign u | _ => .vecReduce u

/-! ### Records, rings, plans -/

/-- Whether a register belongs to the records that any command may post: the HST_ window or a block's incident registers. -/
def recordReg (a : Nat) : Bool :=
  decide (a < 0x10000) || (match blkOf a with | some (_, _, o) => isIncReg o | none => false)

/-- Every register but those listed, and those of records, reads as before. -/
def RegsButRecords (as : List Nat) (s t : State) : Prop := ∀ a, a ∉ as → recordReg a = false → t.rd a = s.rd a

/-- Ring `r` consumed the entry at HEAD (R457). -/
def Consumed (r : Nat) (s t : State) : Prop := t.rn (rg rHST_RING_HEAD r) = (s.rn (rg rHST_RING_HEAD r) + 1) % 2 ^ 32

/-- The plan command at HEAD has opcode `op` and the well-formed bytes `b`, and nothing holds it: no command in progress, no
block halted, no Lockdown, power state A0 (R171, R428, R464, R506). -/
def PlanHead (s : State) (op : Nat) (b : List Byte) : Prop :=
  s.headIs planRing 0 op = true ∧ s.planBusy = false ∧ s.ringEntry planRing 0 = b ∧ planBad b op = false
    ∧ s.halted .pln = false ∧ s.halted .cur = false ∧ s.stopped = false

/-- The registers of plan slot `k` (R212). -/
def slotRegs (k : Nat) : List Nat :=
  [slotReg k rPLN_SLOT_STAT, slotReg k rPLN_SLOT_DETAIL, slotReg k rPLN_SLOT_GEN_LO, slotReg k rPLN_SLOT_GEN_HI,
    slotReg k rPLN_SLOT_LENGTH, winBase .pln 0 + rPLN_STORE_FREE]
    ++ (List.range 12).map fun w => winBase .pln 0 + rPLN_SLOT_HASH + 4 * (12 * k + w)

/-! ### Dockets -/

/-- The entry at HEAD of docket ring `r` has opcode `op` and bytes `b`; nothing of the ring is in progress and no check of R460
or R462 answers it at once. -/
def DocketHead (s : State) (r op : Nat) (b : List Byte) : Prop :=
  r < 32 ∧ s.headIs r 0 op = true ∧ s.inProgress r = [] ∧ s.ringEntry r 0 = b ∧ s.docketResult r op b = none

/-- Ring `r` consumed its entry and holds it, `moved` bytes done; every register but those of records reads as before, and
nothing but registers and the host interface differs. -/
def Started (r moved : Nat) (s t : State) : Prop :=
  Consumed r s t ∧ t.inProgress r = [⟨r, s.rn (rg rHST_RING_HEAD r), s.ringEntry r 0, moved, 0, 0, false⟩]
    ∧ RegsButRecords [] s t ∧ (∀ q, q ≠ r → t.inProgress q = s.inProgress q)

/-- The entry in progress on ring `r` left it, its completion record formed; other rings' entries stand. -/
def Finished (r : Nat) (s t : State) : Prop :=
  t.inProgress r = [] ∧ (∀ q, q ≠ r → t.inProgress q = s.inProgress q) ∧ RegsButRecords [] s t

/-! ### Resets -/

/-- What every reset of the module leaves (R514): tiles OFF, no generation, no Lockdown, power state A0, firmware not READY,
both memories wiped, nothing on the corridors or in progress, and every MOD-class field at its reset value but those that the
start writes. -/
def Restarted (t : State) : Prop :=
  (∀ u, isTile u = true → t.ts u = tsOFF) ∧ t.planGen = 0 ∧ t.locked = false ∧ t.f stateStat 0 4 = 0 ∧ t.f bootStat 14 1 = 0
    ∧ t.vault.cells = [] ∧ t.store.cells = [] ∧ t.fab.corridor = [] ∧ t.host.entries = [] ∧ t.pair = .reset ∧ t.pairState = 0
    ∧ (∀ k, k < 4 → t.slotState k = 0)

/-! ### Messages of the security functions -/

/-- The last message out is the Warden port's response to request `m` with a result and body, and 96 bytes of signature (R483, R486). -/
def Replied (s t : State) (m : List Byte) (result : Nat) (body : List Byte) : Prop :=
  ∃ sig : List Byte, sig.length = 96 ∧ t.out.getLast? = some (.warden (leBytes 4 0x4E445257 ++ leBytes 1 1 ++ leBytes 1 (at_ m 5 1 + 0x80)
    ++ leBytes 1 3 ++ leBytes 1 result ++ leBytes 8 (at_ m 8 8) ++ leBytes 8 s.serial ++ leBytes 2 body.length ++ leBytes 6 0 ++ body ++ sig))

/-- The COUNTER of request `m` is spent for its KEY (R484). -/
def Spent (t : State) (m : List Byte) : Prop := aget 0 t.sec.counters (at_ m 6 1) = at_ m 8 8 + 1

/-- A request of TYPE `ty` that the port hears, in form, for this module, with a COUNTER not yet spent, from a KEY that may send it,
while nothing holds the flash (R483 to R486): all of R484's checks but the signature's. -/
def WellSent (s : State) (ty : Nat) (m : List Byte) : Prop :=
  s.inRecovery = false ∧ at_ m 5 1 = ty ∧ headerOk m = true ∧ bodyOk ty (wBody m) = true ∧ at_ m 0x10 8 = s.serial
    ∧ s.counterMin (at_ m 6 1) ≤ at_ m 8 8 ∧ s.maySend ty (at_ m 6 1) (wBody m) = true ∧ s.wardenBusy ty = false

/-- One SPDM message of PF1 went out over DOE, of a code and with two parameters (R471). -/
def SpdmSent (s t : State) (code p1 p2 : Nat) (rest : List Byte) : Prop :=
  ∃ v, t.out = s.out ++ [.doe (leBytes 2 1 ++ leBytes 1 1 ++ leBytes 1 0 ++ leBytes 4 ((4 + rest.length + 3) / 4 + 2)
    ++ padTo (4 * ((4 + rest.length + 3) / 4)) (leBytes 1 v ++ leBytes 1 code ++ leBytes 1 p1 ++ leBytes 1 p2 ++ rest))]

/-! ### Register writes -/

/-- Whether a write at offset `o` of a block's window only stores fields (R7): no incident register, and no register whose write
is a command or has an effect of its own. -/
def plainReg (b : Blk) (o : Nat) : Bool :=
  !isIncReg o && match b with
    | .rgs => o != rRGS_LOCK_CTRL && o != rRGS_COND_CTRL
    | .pwr => o != rPWR_STATE_CTRL && o != rPWR_RESET_CTRL
    | .gal => o != rGAL_RESET_CTRL
    | .fab => o != rFAB_CTRL && o != rFAB_MODULE_ID
    | .pair => o != rPAIR_CTRL
    | .pln => o != rPLN_SIG_POLICY
    | .cur => o != rCUR_CAT_INDEX && o != rCUR_PLACE_INDEX && o != rCUR_PAGE_THRESH
    | .vlt => o != rVLT_RAW_CMD
    | .sto => o != rSTO_RAW_CMD
    | .tile | .hst | .wng | .col | .lmp => false

/-! ### Flits -/

/-- Link `l` of channel `j` receives a flit that decodes with `n` symbols corrected, of a kind in use, with header `h` and payload
`p`; a flit other than DATA names the slot it came in (R250, R254). -/
def GoodFlit (s : State) (j l : Nat) (raw : List Nat) (n h : Nat) (p : List Byte) : Prop :=
  s.receives j l = true ∧ checkFlit raw = .good n h p
    ∧ (fld h 60 4 = 1 ∨ fld h 42 18 = 0 ∧ ((s.chan j).link l).rxLsn.all (fun e => fld h 26 16 == e) = true)

end Sys2Proof.Machine
end

