-- ==== Sys2Proof/Certificates/Slice0/Obligations.lean ====
section
/-! DEFINITION. Statements for the provers. -/

open Sys2Proof Sys2Proof.Machine

/-- A step with a command at the front runs it on the rest of the queue. On an empty queue one period of the Registrar timer passes
(the model's choice, log entry 6): where no calibration record is due, no wave is in progress and the module is not in Lockdown,
nothing but timer, registers and tiles differs. -/
def Obligations.StepRunsFront : Prop :=
  (∀ (s : State) (c : Instr) (rest : List Instr), s.pending = c :: rest → step s = exec c { s with pending := rest })
  ∧ ∀ s : State, s.pending = [] → ∃ t, step s = .next t
      ∧ (s.light.calDue = [] → (∀ e ∈ s.fab.waves, e.2.phase = 0) → s.locked = false →
          t.timer = (s.timer + 1) % 2 ^ 64 ∧ t = { s with timer := t.timer, regs := t.regs, tiles := t.tiles })

/-- R211, R235, R382, R445, R492, R518: right after reset every register but RGS_BOOT_STAT reads its table's reset value, the values
named here among them; both memories are wiped, nothing waits, and the invariant holds. That slot A is ACTIVE and that every
unlisted register has its table's value is the model's reading of R513 (log entry 7). -/
def Obligations.ResetState : Prop :=
  WellKept State.reset ∧ State.reset.pending = [] ∧ (∀ a, a ≠ bootStat → State.reset.rd a = resetVal a)
    ∧ (State.reset.readReg (winBase .rgs 0)).1 = 0x00B19120 ∧ State.reset.rn (winBase .pwr 0 + rPWR_CAP) = 0x640
    ∧ State.reset.rn (winBase .pln 0 + rPLN_STORE_FREE) = 0x40000 ∧ State.reset.f (winBase .pwr 0 + rPWR_GOV_STAT) 0 5 = 0x10
    ∧ (∀ c inst b, incBlock c inst = some b → State.reset.rn (ir b inst rINC_CHANCE_TIME) = 0x14)
    ∧ (∀ t, isTile t = true → State.reset.ts t = tsOFF) ∧ (∀ k, k < 4 → State.reset.slotState k = 0) ∧ State.reset.locked = false
    ∧ (∀ v, (State.reset.mem v).cells = [] ∧ (State.reset.mem v).poisoned = [])

/-- R479: from every state in which the register file and the memories are in canonical form and no more than 64 fuses are blown, a step
leaves such a state; no fuse is ever restored, and a command leaves the rest of the queue as it was. -/
def Obligations.StepsKeepTheInvariant : Prop :=
  ∀ (s t : State), WellKept s → step s = .next t → WellKept t ∧ s.arch.fuse ≤ t.arch.fuse ∧ t.pending = s.pending.tail

/-- R127, R120, R128, R129, R133: NOP, a HANG step with no hang armed, a BRANCH not taken, a FENCE whose units are idle and a
LOOP of count 0 complete at once and change nothing else; the LOOP goes on past its body. -/
def Obligations.FlowStepsGoOn : Prop :=
  ∀ (s : State) (u : Nat) (w : Word64),
    (Ready s u w 0 0 → Clean w 0 → GoesOn s u (s.pos u) → ∃ t, exec (.nop u) s = .next t ∧ DoneStep s t u (s.pos u) [] id)
    ∧ (Ready s u w 0 2 → Clean w 0 → GoesOn s u (s.pos u) → s.hangArmed = false →
        ∃ t, exec (.hangStep u) s = .next t ∧ DoneStep s t u (s.pos u) [] id)
    ∧ (Ready s u w 0 4 → Clean w (mk 45 11 + mk 0 12) → GoesOn s u (s.pos u) → fld w.toNat 0 12 ≠ 0 → fld w.toNat 45 3 < 6 →
        branchTaken (fld w.toNat 45 3) ((s.tile u).sreg (fld w.toNat 52 4)) ((s.tile u).sreg (fld w.toNat 48 4)) = false →
        ∃ t, exec (.branch u) s = .next t ∧ DoneStep s t u (s.pos u) [] id)
    ∧ (Ready s u w 0 8 → Clean w (mk 0 4) → GoesOn s u (s.pos u) → (s.tile u).fenced (fld w.toNat 0 4) = true →
        ∃ t, exec (.fence u) s = .next t ∧ DoneStep s t u (s.pos u) [] id)
    ∧ (Ready s u w 0 5 → Clean w (mk 55 1 + mk 48 4 + mk 0 12) → (bit w.toNat 55 = false → fld w.toNat 48 4 = 0) →
        (bit w.toNat 55 = true → (s.tile u).sreg (fld w.toNat 48 4) = 0) → fld w.toNat 0 12 ≠ 0 → (s.tile u).loops.length < 4 →
        (∀ l ∈ (s.tile u).loops.head?, s.pos u + fld w.toNat 0 12 ≤ l.start + l.body) → s.pos u + fld w.toNat 0 12 ≤ 4095 →
        GoesOn s u (s.pos u + fld w.toNat 0 12) →
        ∃ t, exec (.loopStep u) s = .next t ∧ DoneStep s t u (s.pos u + fld w.toNat 0 12) [] id)

/-- R128, R129, R130: a JUMP and a taken BRANCH go DISP steps forward and pop the loop levels they leave; a LOOP of a count
other than 0, immediate or in sA, pushes a level and goes on with its body. -/
def Obligations.StepsJumpAndLoop : Prop :=
  ∀ (s : State) (u : Nat) (w : Word64),
    let p := s.pos u
    let d := fld w.toNat 0 12
    let jumped := fun (t : State) => t.pos u = p + d ∧ Counted s t u ∧ OnlyTile u s t
      ∧ t.tile u = ({ s.tile u with loops := (s.tile u).loops.dropWhile fun l => decide (l.start + l.body < p + d) }).countExec p
      ∧ RegsBut [tr u rTILE_EXEC_POS, tr u rTILE_STEP_COUNT] s t
    let pushed := fun (t : State) (count : Nat) => t.pos u = p + 1 ∧ Counted s t u ∧ OnlyTile u s t
      ∧ t.tile u = ({ s.tile u with loops := ⟨p, d, 0, count⟩ :: (s.tile u).loops }).countExec p
      ∧ RegsBut [tr u rTILE_EXEC_POS, tr u rTILE_STEP_COUNT] s t
    let fits := (s.tile u).loops.length < 4 ∧ (∀ l ∈ (s.tile u).loops.head?, p + d ≤ l.start + l.body) ∧ p + d ≤ 4095
    (Ready s u w 0 3 → Clean w (mk 0 12) → d ≠ 0 → p + d ≤ 4095 → ∃ t, exec (.jump u) s = .next t ∧ jumped t)
    ∧ (Ready s u w 0 4 → Clean w (mk 45 11 + mk 0 12) → d ≠ 0 → fld w.toNat 45 3 < 6 → p + d ≤ 4095 →
        branchTaken (fld w.toNat 45 3) ((s.tile u).sreg (fld w.toNat 52 4)) ((s.tile u).sreg (fld w.toNat 48 4)) = true →
        ∃ t, exec (.branch u) s = .next t ∧ jumped t)
    ∧ (Ready s u w 0 5 → Clean w (mk 24 24 + mk 0 12) → d ≠ 0 → fits → fld w.toNat 24 24 ≠ 0 →
        ∃ t, exec (.loopStep u) s = .next t ∧ pushed t (fld w.toNat 24 24))
    ∧ (Ready s u w 0 5 → Clean w (mk 55 1 + mk 48 4 + mk 0 12) → bit w.toNat 55 = true → d ≠ 0 → fits →
        ((s.tile u).sreg (fld w.toNat 48 4)).toNat ≠ 0 →
        ∃ t, exec (.loopStep u) s = .next t ∧ pushed t ((s.tile u).sreg (fld w.toNat 48 4)).toNat)

/-- R131, R132, R146: SALU writes FUNC(RA, B) to RD, SREAD a ticket, a loop's completed iterations, the exhibit, the generation
or the arithmetic flags, and DADD adds sA + IMM32 to a descriptor's BASE modulo 2⁴⁰. A write to s0 is discarded, s0 reads 0. -/
def Obligations.ScalarSteps : Prop :=
  ∀ (s : State) (u : Nat) (w : Word64), GoesOn s u (s.pos u) →
    let x := s.tile u
    let n := w.toNat
    let rd := fld n 52 4
    let a := x.sreg (fld n 48 4)
    let b := if bit n 39 then BitVec.ofNat 32 (fld n 0 32) else x.sreg (fld n 44 4)
    let writes := fun (t : State) (v : Word) => DoneStep s t u (s.pos u) [] (fun y => y.setS rd v)
      ∧ (t.tile u).sreg rd = (if rd = 0 then 0 else v) ∧ ∀ k, k ≠ rd → (t.tile u).sreg k = x.sreg k
    (Ready s u w 0 6 → Clean w (mk 39 17 + mk 0 32) → fld n 40 4 < 12 →
        (bit n 39 = true → fld n 44 4 = 0) → (bit n 39 = false → fld n 0 32 = 0) →
        ∃ t v, exec (.salu u) s = .next t ∧ writes t v
          ∧ (fld n 40 4 = 0 → v = a + b) ∧ (fld n 40 4 = 1 → v = a - b) ∧ (fld n 40 4 = 2 → v = a &&& b)
          ∧ (fld n 40 4 = 3 → v = a ||| b) ∧ (fld n 40 4 = 4 → v = a ^^^ b) ∧ (fld n 40 4 = 5 → v = a <<< (b.toNat % 32))
          ∧ (fld n 40 4 = 6 → v = a >>> (b.toNat % 32)) ∧ (fld n 40 4 = 7 → v = a.sshiftRight (b.toNat % 32))
          ∧ (fld n 40 4 = 8 → v = a * b) ∧ (fld n 40 4 = 9 → v.toNat = min a.toNat b.toNat)
          ∧ (fld n 40 4 = 10 → v.toNat = max a.toNat b.toNat) ∧ (fld n 40 4 = 11 → v = b))
    ∧ (Ready s u w 0 7 → Clean w (mk 52 4 + mk 40 8 + mk 0 6) →
        (fld n 40 8 = 0 → ∃ t, exec (.sread u) s = .next t ∧ writes t (s.rd (tk u (fld n 0 6))))
        ∧ (fld n 40 8 = 1 → ∀ l ∈ x.loops[fld n 0 6]?, ∃ t, exec (.sread u) s = .next t ∧ writes t (BitVec.ofNat 32 l.completed))
        ∧ (fld n 40 8 = 2 → fld n 0 6 = 0 →
            ∃ t, exec (.sread u) s = .next t ∧ writes t (BitVec.ofNat 32 (s.f (tr u rTILE_EXHIBIT) 0 16)))
        ∧ (fld n 40 8 = 3 → fld n 0 6 = 0 → ∃ t, exec (.sread u) s = .next t ∧ writes t (s.rd (tr u rTILE_GEN)))
        ∧ (fld n 40 8 = 4 → fld n 0 6 = 0 → ∃ t, exec (.sread u) s = .next t ∧ writes t (s.rd (tr u rTILE_ARITH_STAT))))
    ∧ (Ready s u w 2 4 → Clean w (mk 48 8 + mk 0 32) → x.hazard [rDesc rd] [] = false →
        ∃ (t : State) (b : Nat), exec (.dadd u) s = .next t ∧ b < 2 ^ 40
          ∧ ((b : Int) - ((x.desc rd).base + a.toNat + sext 32 (fld n 0 32))) % 2 ^ 40 = 0
          ∧ DoneStep s t u (s.pos u) [] (fun y => { y with d := aput Desc.zero y.d rd ((y.desc rd).withBase b) }))

/-- R120, R133, R135: with a hang armed a HANG step holds issue, and at the hang point, with every unit idle, the tile enters
HANG past the step; a FENCE on a busy unit goes on but holds issue until the units are idle. -/
def Obligations.HangAndFenceHold : Prop :=
  ∀ (s : State) (u : Nat) (w : Word64),
    (Ready s u w 0 2 → Clean w 0 → s.hangArmed = true →
        ∃ t, exec (.hangStep u) s = .next t ∧ OnlyTile u s t ∧ RegsBut [] s t
          ∧ t.tile u = ({ s.tile u with holding := .hang }).countExec (s.pos u))
    ∧ (s.ts u = tsRUN → (s.tile u).holding = .hang → (s.tile u).idle = true → s.hangArmed = true →
        ∃ t, exec (.hangPointReached u) s = .next t ∧ t.ts u = tsHANG ∧ (t.tile u).holding = .none ∧ Counted s t u
          ∧ (GoesOn s u (s.pos u) → t.pos u = (loopNext (s.tile u).loops (s.pos u)).2)
          ∧ OnlyTile u s t ∧ RegsBut [tr u rTILE_STATE, tr u rTILE_EXEC_POS, tr u rTILE_STEP_COUNT] s t)
    ∧ (Ready s u w 0 8 → Clean w (mk 0 4) → GoesOn s u (s.pos u) → (s.tile u).fenced (fld w.toNat 0 4) = false →
        ∃ t, exec (.fence u) s = .next t ∧ OnlyTile u s t ∧ RegsBut [tr u rTILE_EXEC_POS] s t
          ∧ Went s t u (s.pos u) fun x => { x with holding := .fence (fld w.toNat 0 4) })
    ∧ (∀ k, (s.tile u).holding = .fence k → s.ts u = tsRUN → (s.tile u).fenced k = true →
        ∃ t, exec (.fenceComplete u) s = .next t ∧ Counted s t u ∧ RegsBut [tr u rTILE_STEP_COUNT] s t ∧ (t.tile u).holding = .none
          ∧ ((s.tile u).deferred.any (·.isClear) = false → OnlyTile u s t ∧ t.tile u = { s.tile u with holding := .none }))

/-- R97, R117, R121, R167: END counts itself and puts the tile in IDLE, where no step issues; with a unit busy it holds issue until the
issued steps have completed (the model's reading, log entry 118), and the tile is no longer one that a hang waits for. -/
def Obligations.EndStopsTheTile : Prop :=
  ∀ (s : State) (u : Nat) (w : Word64), Ready s u w 0 1 → Clean w 0 →
    ∃ t, exec (.endStep u) s = .next t ∧ Counted s t u ∧ t.pos u = s.pos u ∧ OnlyTile u s t
      ∧ ((s.tile u).idle = true → t.ts u = tsIDLE ∧ t.canIssue u = false ∧ RegsBut [tr u rTILE_STATE, tr u rTILE_STEP_COUNT] s t)
      ∧ ((s.tile u).idle = false → t.tile u = ({ s.tile u with holding := .ended }).countExec (s.pos u)
          ∧ u ∉ t.pendingTiles ∧ RegsBut [tr u rTILE_STEP_COUNT] s t)

/-- R86, R88, R134 to R136: WAIT takes its amount from the ticket counter when it is there, and otherwise holds issue and takes
it later; ADD adds to the counter while the sum is at most 65,535. Ticket counters are 16 bits wide. -/
def Obligations.TicketSteps : Prop :=
  ∀ (s : State) (u : Nat) (w : Word64),
    let n := w.toNat
    let k := fld n 48 6
    let have_ := s.f (tk u k) 0 16
    let amount := if bit n 47 then ((s.tile u).sreg (fld n 40 4)).toNat else fld n 0 16
    let legal := Clean w (mk 47 7 + mk 40 4 + mk 0 16) ∧ (bit n 47 = true → fld n 0 16 = 0) ∧ (bit n 47 = false → fld n 40 4 = 0)
      ∧ amount ≤ 65535
    (Ready s u w 1 0 → legal → GoesOn s u (s.pos u) → amount ≤ have_ →
        ∃ t, exec (.wait u) s = .next t ∧ DoneStep s t u (s.pos u) [tk u k] id ∧ t.f (tk u k) 0 16 = have_ - amount)
    ∧ (Ready s u w 1 0 → legal → GoesOn s u (s.pos u) → have_ < amount →
        ∃ t, exec (.wait u) s = .next t ∧ t.tile u = ({ s.tile u with holding := .wait k amount }).countExec (s.pos u)
          ∧ t.ts u = (if (s.tile u).idle then tsWAIT else tsRUN) ∧ OnlyTile u s t ∧ RegsBut [tr u rTILE_STATE] s t)
    ∧ (∀ j m, (s.tile u).holding = .wait j m → j < 64 → s.ts u = tsRUN ∨ s.ts u = tsWAIT → m ≤ s.f (tk u j) 0 16 →
        (s.tile u).holdIssue = false → s.haltHolds u = false → s.stopped = false → GoesOn s u (s.pos u) →
        (s.tile u).deferred = [] →
        ∃ t, exec (.waitSatisfied u) s = .next t ∧ t.ts u = tsRUN ∧ t.f (tk u j) 0 16 = s.f (tk u j) 0 16 - m
          ∧ (t.tile u).holding = .none ∧ t.pos u = (loopNext (s.tile u).loops (s.pos u)).2 ∧ Counted s t u ∧ OnlyTile u s t
          ∧ RegsBut [tk u j, tr u rTILE_STATE, tr u rTILE_EXEC_POS, tr u rTILE_STEP_COUNT] s t)
    ∧ (Ready s u w 1 1 → Clean w (mk 48 6 + mk 0 16) → GoesOn s u (s.pos u) → have_ + fld n 0 16 ≤ 65535 →
        ∃ t, exec (.add u) s = .next t ∧ DoneStep s t u (s.pos u) [tk u k] id ∧ t.f (tk u k) 0 16 = have_ + fld n 0 16)

/-- R110, R165, R166: the configuration steps write the fields they name: ARITH those of TILE_ARITH_CTRL whose SET bit is 1,
STAT_CLEAR clears flags, TRAP_ENABLE and CRATE_TIME write their registers, PERF clears the counters and writes FREEZE. -/
def Obligations.ConfigurationSteps : Prop :=
  ∀ (s : State) (u : Nat) (w : Word64), GoesOn s u (s.pos u) →
    let n := w.toNat
    let a := tr u rTILE_ARITH_CTRL
    (Ready s u w 6 0 → Clean w (mk 53 3 + mk 0 4) → ¬ (bit n 55 = true ∧ fld n 0 2 = 3) →
        ∃ t, exec (.arith u) s = .next t ∧ DoneStep s t u (s.pos u) [a] id
          ∧ t.f a 0 2 = (if bit n 55 then fld n 0 2 else s.f a 0 2) ∧ t.f a 2 1 = (if bit n 54 then fld n 2 1 else s.f a 2 1)
          ∧ t.f a 3 1 = (if bit n 53 then fld n 3 1 else s.f a 3 1) ∧ t.f a 4 28 = s.f a 4 28)
    ∧ (Ready s u w 6 1 → Clean w (mk 0 8) →
        ∃ t, exec (.statClear u) s = .next t ∧ DoneStep s t u (s.pos u) [tr u rTILE_ARITH_STAT] id
          ∧ ∀ i, i < 8 → bit (t.rn (tr u rTILE_ARITH_STAT)) i = (bit (s.rn (tr u rTILE_ARITH_STAT)) i && !bit n i))
    ∧ (Ready s u w 6 2 → Clean w (mk 0 8) →
        ∃ t, exec (.trapEnable u) s = .next t ∧ DoneStep s t u (s.pos u) [tr u rTILE_ARITH_TRAP_EN] id
          ∧ t.f (tr u rTILE_ARITH_TRAP_EN) 0 8 = fld n 0 8)
    ∧ (Ready s u w 6 3 → Clean w (mk 55 1 + mk 0 2) →
        ∃ t, exec (.perf u) s = .next t ∧ Went s t u (s.pos u) id ∧ OnlyTile u s t
          ∧ (bit n 55 = true → t.f (tr u rTILE_PERF_CTRL) 1 1 = fld n 1 1)
          ∧ (bit n 55 = false → t.rd (tr u rTILE_PERF_CTRL) = s.rd (tr u rTILE_PERF_CTRL))
          ∧ (bit n 0 = true → t.rn (tr u rTILE_RUN_COUNT) = 0 ∧ t.f (tr u rTILE_CPM) 8 8 = 0xFF
              ∧ t.rn (tr u rTILE_STEP_COUNT) = if t.f (tr u rTILE_PERF_CTRL) 1 1 = 1 then 0 else 1)
          ∧ (bit n 0 = false → RegsBut [tr u rTILE_EXEC_POS, tr u rTILE_STEP_COUNT, tr u rTILE_PERF_CTRL] s t)
          ∧ RegsBut (tr u rTILE_EXEC_POS :: tr u rTILE_PERF_CTRL :: tr u rTILE_CPM
              :: (List.range 11).map fun i => tr u (rTILE_CYCLE_COUNT_LO + 4 * i)) s t)
    ∧ (Ready s u w 6 4 → Clean w (mk 0 16) →
        ∃ t, exec (.crateTime u) s = .next t ∧ DoneStep s t u (s.pos u) [tr u rTILE_CRATE_TIME] id
          ∧ t.f (tr u rTILE_CRATE_TIME) 0 16 = fld n 0 16)

/-- R111 to R113, R123, R143, R146, R154, R159: a legal move or matrix step whose operands give no cause, whose unit is idle and
which no hazard holds is placed in its unit with what it captured, and execution goes on. -/
def Obligations.MoveAndMatrixStepsIssue : Prop :=
  ∀ (s : State) (u : Nat) (w : Word64), GoesOn s u (s.pos u) →
    let n := w.toNat
    let x := s.tile u
    let local_ := fun k => localCauses s u x w k = []
    (Ready s u w 2 0 → Clean w (mk 46 10) → local_ (fld n 52 4) → local_ (fld n 48 4) →
        (x.desc (fld n 52 4)).elems = (x.desc (fld n 48 4)).elems → UnitFree s u .move w →
        ∃ t, exec (.copy u) s = .next t ∧ InUnit s t u .move w)
    ∧ (Ready s u w 2 1 → Clean w (mk 46 10) → local_ (fld n 52 4) → UnitFree s u .move w →
        ∃ t, exec (.fill u) s = .next t ∧ InUnit s t u .move w)
    ∧ (Ready s u w 2 2 → Clean w (mk 48 8 + mk 0 18) → descAddr x n % 32 = 0 → descAddr x n + 32 ≤ 0x40000 → UnitFree s u .move w →
        ∃ t, exec (.dload u) s = .next t ∧ InUnit s t u .move w)
    ∧ (Ready s u w 2 3 → Clean w (mk 48 8 + mk 0 18) → descAddr x n % 32 = 0 → descAddr x n + 32 ≤ 0x40000 → UnitFree s u .move w →
        ∃ t, exec (.dstore u) s = .next t ∧ InUnit s t u .move w)
    ∧ (Ready s u w 4 0 → Clean w (mk 52 4) → matrixCauses s u x w (fld n 52 4) = [] →
        matrixFmt (x.desc (fld n 52 4)).format = true → (x.desc (fld n 52 4)).n0 ≤ heldMax (x.desc (fld n 52 4)).format →
        (x.desc (fld n 52 4)).n1 = 64 → (x.desc (fld n 52 4)).n2 = 1 → UnitFree s u .matrix w →
        ∃ t, exec (.hold u) s = .next t ∧ InUnit s t u .matrix w)
    ∧ (Ready s u w 4 1 → Clean w (mk 42 14) → fld n 43 2 ≠ 3 → (bit n 55 = false → fld n 45 4 = 0) →
        matrixCauses s u x w (fld n 49 4) = [] → (bit n 55 = true → matrixCauses s u x w (fld n 45 4) = []) →
        mmaShapeOk x n = true → UnitFree s u .matrix w →
        ∃ t, exec (.mma u) s = .next t ∧ InUnit s t u .matrix w)
    ∧ (Ready s u w 4 2 → Clean w (mk 52 4) → fld n 52 4 ≠ 0 → UnitFree s u .matrix w →
        ∃ t, exec (.matrixClear u) s = .next t ∧ InUnit s t u .matrix w)

/-- R111 to R113, R123, R160 to R162: every vector operation with a legal word, operands that give no cause, an idle vector unit
and no hazard is placed in the unit with what it captured, and execution goes on. -/
def Obligations.VectorStepsIssue : Prop :=
  ∀ (s : State) (u op : Nat) (w : Word64), op < 16 → Ready s u w 5 op → GoesOn s u (s.pos u) → vecWordOk w.toNat = true →
    (∀ b ∈ fld w.toNat 48 8 :: vecSrcs w.toNat, vecDescCauses s u (s.tile u) w b (fld w.toNat 13 8 + 1) = []) →
    groupStoreOk (s.tile u) w.toNat (fld w.toNat 13 8 + 1) = true → UnitFree s u .vector w →
    ∃ t, exec (vecInstr op u) s = .next t ∧ InUnit s t u .vector w

/-- R111 to R113, R123, R142, R147: SEND, SIGNAL, READ and COLLATE, legal, with operands that give no cause, an idle crate unit
and no hazard, are placed in the crate unit with what they captured, and execution goes on. -/
def Obligations.CrateStepsIssue : Prop :=
  ∀ (s : State) (u : Nat) (w : Word64), GoesOn s u (s.pos u) → UnitFree s u .crate w →
    let n := w.toNat
    let x := s.tile u
    let a := x.desc (fld n 52 4)
    let b := x.desc (fld n 48 4)
    let operands := elementCauses s u x w (fld n 52 4) = [] ∧ remoteCauses x w (fld n 48 4) = []
    (Ready s u w 3 0 → Clean w (mk 40 16 + mk 16 16) → operands → a.format = b.format → a.elems = b.elems →
        ∃ t, exec (.send u) s = .next t ∧ InUnit s t u .crate w)
    ∧ (Ready s u w 3 1 → Clean w (mk 42 14 + mk 16 16) → fld n 48 8 < x.corridors.length →
        ∃ t, exec (.signal u) s = .next t ∧ InUnit s t u .crate w)
    ∧ (Ready s u w 3 2 → Clean w (mk 42 14 + mk 16 16) → operands → a.format = b.format → a.elems = b.elems →
        ∃ t, exec (.read u) s = .next t ∧ InUnit s t u .crate w)
    ∧ (Ready s u w 3 3 → Clean w (mk 42 14 + mk 16 16 + mk 0 12) → localCauses s u x w (fld n 52 4) = [] →
        remoteCauses x w (fld n 48 4) = [] →
        ∃ t, exec (.collate u) s = .next t ∧ InUnit s t u .crate w)

/-- R111, R160 to R163: when a vector step over v registers, 256 values wide, completes, the unit is idle and each lane of the
destination holds the operation's result on the sources' lanes; every other v register, and of the other tiles everything, is
as it was. -/
def Obligations.VectorStepCompletes : Prop :=
  ∀ (s : State) (u : Nat) (i : Issued), (s.tile u).vectorU = some i → s.pair.blocked = false →
    (s.tile u).pendTraps = [] → (s.tile u).holding = .none → (s.tile u).deferred = [] →
    let n := i.word.toNat
    let op := fld n 56 4
    let lane := fun (o k : Nat) => (aget (0 : Word) (s.tile u).v (256 * fld n o 5 + k)).toNat
    fld n 60 4 = 5 → op < 15 → fld n 13 8 = 0 → fld n 54 2 = 0 → fld n 46 2 = 0 → fld n 38 2 = 0 → fld n 30 2 = 0 →
    i.trapEn = 0 →
    ∃ t, exec (.unitStepComplete u .vector) s = .next t ∧ (t.tile u).vectorU = none
      ∧ (∀ k, k < 256 → aget (0 : Word) (t.tile u).v (256 * fld n 48 5 + k)
          = BitVec.ofNat 32 (vecLane op (fld n 0 2) (lane 40 k) (if 2 ≤ vecSources op then lane 32 k else 0)
              (if 3 ≤ vecSources op then lane 24 k else 0)).code)
      ∧ (∀ e, e / 256 ≠ fld n 48 5 → aget (0 : Word) (t.tile u).v e = aget 0 (s.tile u).v e)
      ∧ OnlyTile u s t
      ∧ RegsBut [tr u rTILE_ARITH_STAT, tr u rTILE_SAT_COUNT, tr u rTILE_INVALID_COUNT, tr u rTILE_VECTOR_COUNT, tr u rTILE_STEP_COUNT] s t

/-- R81, R83, R151: when a SIGNAL to a tile of this module completes and the corridors are sound, one TICKET crate with its ticket,
amount and source leaves over the corridors, the crate unit is idle, and the crate and the step are counted. -/
def Obligations.SignalSendsItsTicket : Prop :=
  ∀ (s : State) (u : Nat) (i : Issued) (e : CorrEntry), (s.tile u).crateU = some i → fld i.word.toNat 60 4 = 3 →
    fld i.word.toNat 56 4 = 1 → i.corridors[fld i.word.toNat 48 8]? = some e → s.crateHeld u i = false → s.pair.blocked = false →
    s.substMod e.dstModule = s.myId → s.pathOk u e.tile = true → (s.tile u).holding = .none →
    ∃ t c, exec (.unitStepComplete u .crate) s = .next t ∧ t.fab.corridor = s.fab.corridor ++ [c]
      ∧ c.op = 3 ∧ c.srcTile = u ∧ c.srcModule = s.myId ∧ c.destTile = e.tile ∧ c.ticket = fld i.word.toNat 42 6
      ∧ c.ticketAdd = fld i.word.toNat 16 16 ∧ c.length = 0 ∧ c.data = [] ∧ c.epoch = s.rn (winBase .pln 0 + rPLN_GEN_LO)
      ∧ (t.tile u).crateU = none ∧ Counted s t u
      ∧ RegsBut [tr u rTILE_CRATE_OUT_COUNT, tr u rTILE_STEP_COUNT] s t
      ∧ ((s.tile u).deferred.any (·.isClear) = false → t.tile u = { s.tile u with crateU := none }
          ∧ t = { s with regs := t.regs, tiles := t.tiles, fab := { s.fab with corridor := s.fab.corridor ++ [c] } })

/-- R82 to R86: a TICKET crate, and a WRITE crate to scratch without stored errors, arrive at their tile: the crate leaves the
corridors, the data stand at their offset, every other byte is as it was, and then the ticket counter rises by TICKET_ADD. -/
def Obligations.CratesArrive : Prop :=
  ∀ (s : State) (j : Nat) (c : Crate), s.fab.corridor[j]? = some c → s.mayArrive j c = true → s.routerBad c.destTile = false →
    s.pair.blocked = false →
    let u := c.destTile
    s.f (tk u c.ticket) 0 16 + c.ticketAdd ≤ 65535 →
    let arrives := fun (t : State) => t.fab = { s.fab with corridor := s.fab.corridor.eraseIdx j }
      ∧ t.f (tk u c.ticket) 0 16 = s.f (tk u c.ticket) 0 16 + c.ticketAdd
      ∧ t = { s with regs := t.regs, tiles := t.tiles, fab := t.fab } ∧ (∀ v, v ≠ u → t.tile v = s.tile v)
      ∧ RegsBut [tk u c.ticket, tr u rTILE_CRATE_IN_COUNT] s t
    (c.op = 3 → (s.target u c).isSome = true → ∃ t, exec (.crateTicket j) s = .next t ∧ arrives t ∧ t.tile u = s.tile u)
    ∧ (c.op = 0 → s.landing u c = some .scratch → (s.tile u).scrErr = [] →
        ∃ t, exec (.crateWrite j) s = .next t ∧ arrives t
          ∧ (∀ k, k < c.data.length → (aget 0 (t.tile u).scratch (c.offset + k)) = c.data.getD k 0)
          ∧ (∀ o, o < c.offset ∨ c.offset + c.data.length ≤ o → aget 0 (t.tile u).scratch o = aget 0 (s.tile u).scratch o))

/-- R82, R152: a READ_REQ to scratch of a tile whose units are idle is answered over the corridors, within one module, by a
READ_RESP with the bytes and the request's number; a READ_RESP whose ticket fits ends the request of the tile that it answers,
while no stocktake holds the Store's pages. -/
def Obligations.ReadsAreAnswered : Prop :=
  ∀ (s : State) (j : Nat) (c : Crate), s.fab.corridor[j]? = some c → s.mayArrive j c = true → s.routerBad c.destTile = false →
    s.pair.blocked = false →
    let u := c.destTile
    (c.op = 1 → s.landing u c = some .scratch → (s.tile u).idle = true → (s.tile u).scrErr = [] → (s.tile u).scrPoison = [] →
        s.substMod c.srcModule = s.myId → s.pathOk u c.srcTile = true →
        ∃ t r, exec (.crateReadReq j) s = .next t ∧ t.fab.corridor = s.fab.corridor.eraseIdx j ++ [r]
          ∧ r.op = 2 ∧ r.request = c.request ∧ r.destTile = c.srcTile ∧ r.srcTile = u ∧ r.poison = false
          ∧ r.data = agets 0 (s.tile u).scratch c.offset c.length ∧ r.length = r.data.length
          ∧ RegsBut [tr u rTILE_CRATE_IN_COUNT, tr u rTILE_CRATE_OUT_COUNT] s t)
    ∧ (∀ r, c.op = 2 → c.target ≠ 3 → s.ts u ≠ tsOFF → s.toStore u c = false → (s.tile u).reads.find? (fun q => q.id == c.request % 256) = some r →
        s.f (tk u r.ticket) 0 16 + r.ticketAdd ≤ 65535 → s.pair.freeze = none →
        ∃ t, exec (.crateReadResp j) s = .next t ∧ t.fab.corridor = s.fab.corridor.eraseIdx j
          ∧ (∀ q ∈ (t.tile u).reads, q.id ≠ r.id))

/-- R83, R85, R98, R100 to R102: TILE_CRATE_TIMEOUT abandons a WAIT and TILE_HANG_TIMEOUT marks a running tile with their causes; with
every unit idle the wait's trap is taken at once. CRATE_INGRESS_TIMEOUT discards what arrived of a crate and counts it. -/
def Obligations.TileTimeouts : Prop :=
  ∀ (s : State) (u : Nat), u < 2048 →
    (∀ k m, s.f (tr u rTILE_CRATE_TIME) 0 16 ≠ 0 → s.ts u = tsWAIT → (s.tile u).holding = .wait k m → (s.tile u).idle = true →
        (s.tile u).pendTraps = [] → s.asleep = false →
        ∃ t, exec (.tileCrateTimeout u) s = .next t ∧ (t.tile u).holding = .none ∧ (t.tile u).pendTraps = []
          ∧ ((s.tile u).deferred = [] → t.ts u = tsTRAP ∧ t.f (tr u rTILE_TRAP_CAUSE) 0 4 = 6
              ∧ t.rd (tr u rTILE_TRAP_POS) = s.rd (tr u rTILE_EXEC_POS)))
    ∧ (s.f (tr u rTILE_HANG_TIME) 0 16 ≠ 0 → s.ts u = tsRUN → (s.tile u).holding = .none → s.hangArmed = true → s.asleep = false →
        ∃ t, exec (.tileHangTimeout u) s = .next t ∧ OnlyTile u s t ∧ RegsBut [] s t
          ∧ t.tile u = { s.tile u with pendTraps := (s.tile u).pendTraps ++ [⟨8, s.armedGen, s.wordAt u, 0⟩] })
    ∧ (∀ j c, s.fab.corridor[j]? = some c → c.destTile = u → s.f (tr u rTILE_CRATE_TIME) 0 16 ≠ 0 → s.mayArrive j c = true →
        ∃ t, exec (.crateIngressTimeout u j) s = .next t ∧ t.fab.corridor = s.fab.corridor.eraseIdx j
          ∧ t.rn (tr u rTILE_CRATE_DROP_COUNT) = min 0xFFFFFFFF (s.rn (tr u rTILE_CRATE_DROP_COUNT) + 1))

/-- R97, R98, R104, R107, R109: through any path above A1 and a sound router, STOP abandons a wait and otherwise waits for the step
boundary, RELEASE takes a trapped tile to IDLE with CAUSE and ALSO cleared, and RESET of a running tile waits for the boundary;
of the crates on the corridors a reset takes away some of those to the tile itself, at most. -/
def Obligations.TileCommands : Prop :=
  ∀ (s : State) (u : Nat) (side : Side), s.asleep = false → s.tileReached u = true →
    (s.ts u = tsRUN → ∃ t, exec (.stop u side) s = .next t ∧ OnlyTile u s t ∧ RegsBut [] s t
        ∧ t.tile u = { s.tile u with deferred := (s.tile u).deferred ++ [.stop] })
    ∧ (s.ts u = tsWAIT → (s.tile u).deferred = [] → ∃ t, exec (.stop u side) s = .next t ∧ t.ts u = tsIDLE
        ∧ OnlyTile u s t ∧ RegsBut [tr u rTILE_STATE] s t ∧ t.tile u = { s.tile u with holding := .none })
    ∧ (s.ts u = tsTRAP → (s.tile u).deferred = [] → ∃ t, exec (.releaseTrap u side) s = .next t ∧ t.ts u = tsIDLE
        ∧ t.rn (tr u rTILE_TRAP_CAUSE) = 0 ∧ OnlyTile u s t ∧ RegsBut [tr u rTILE_STATE, tr u rTILE_TRAP_CAUSE] s t)
    ∧ (s.ts u = tsRUN → ∃ t, exec (.reset u side) s = .next t ∧ OnlyTile u s t ∧ RegsBut [] s t
        ∧ t.tile u = { s.tile u with deferred := (s.tile u).deferred ++ [.reset []] })
    ∧ (s.ts u ≠ tsRUN → (s.tile u).deferred = [] → ∃ t, exec (.reset u side) s = .next t
        ∧ (t.tile u).scratch = [] ∧ (t.tile u).loops = [] ∧ (t.tile u).idle = true ∧ (t.tile u).holding = .none
        ∧ t = { s with regs := t.regs, tiles := t.tiles, free := t.free, fab := { s.fab with corridor := t.fab.corridor },
                       light := { s.light with lowered := t.light.lowered, capped := t.light.capped } }
        ∧ t.fab.corridor.Sublist s.fab.corridor
        ∧ t.fab.corridor.filter (fun c => c.destTile != u) = s.fab.corridor.filter (fun c => c.destTile != u)
        ∧ (∀ v, v ≠ u → t.tile v = s.tile v) ∧ ∀ a, (a < tr u 0 ∨ tr u 0x1000 ≤ a) → t.rd a = s.rd a)

/-- R105, R107, R110, R63: in IDLE PERF_CLEAR zeroes the performance counters and sets MIN_SLACK to 0xFF at once, a clear of
TILE_ARITH_STAT clears the flags of its mask; a read of TILE_CYCLE_COUNT_LO returns it and copies the high half for the next read,
and is an Unsupported Request where no function's BARs decode. -/
def Obligations.TileClearsAndReads : Prop :=
  ∀ (s : State) (u mask : Nat) (side : Side), s.asleep = false → s.tileReached u = true →
    (s.ts u = tsIDLE → ∃ t, exec (.perfClear u side) s = .next t ∧ OnlyRegs s t
        ∧ (∀ i, i < 11 → t.rn (tr u (rTILE_CYCLE_COUNT_LO + 4 * i)) = 0) ∧ t.f (tr u rTILE_CPM) 8 8 = 0xFF
        ∧ t.f (tr u rTILE_CPM) 0 8 = s.f (tr u rTILE_CPM) 0 8
        ∧ RegsBut (tr u rTILE_CPM :: (List.range 11).map fun i => tr u (rTILE_CYCLE_COUNT_LO + 4 * i)) s t)
    ∧ (s.ts u = tsIDLE → ∃ t, exec (.tileArithStatClear u mask side) s = .next t ∧ OnlyRegs s t
        ∧ (∀ i, i < 32 → bit (t.rn (tr u rTILE_ARITH_STAT)) i
            = (bit (s.rn (tr u rTILE_ARITH_STAT)) i && !(decide (i < 8) && bit mask i)))
        ∧ RegsBut [tr u rTILE_ARITH_STAT] s t)
    ∧ (s.ts u = tsRUN → ∃ t, exec (.perfClear u side) s = .next t
        ∧ t.tile u = { s.tile u with deferred := (s.tile u).deferred ++ [.perfClear []] } ∧ OnlyTile u s t ∧ RegsBut [] s t)
    ∧ (s.hostOpen = true → ∃ t, exec (.cycleCountLoRead u) s = .next t ∧ t.tile u = { s.tile u with cycHold := s.rd (tr u rTILE_CYCLE_COUNT_HI) }
        ∧ t.out = s.out ++ [.read (tr u rTILE_CYCLE_COUNT_LO) (leBytes 4 (s.rn (tr u rTILE_CYCLE_COUNT_LO))) .data]
        ∧ RegsBut [] s t)
    ∧ (s.hostOpen = false → exec (.cycleCountLoRead u) s
        = .next { s with out := s.out ++ [.read (tr u rTILE_CYCLE_COUNT_LO) [] .unsupported] })

/-- R21, R90 to R93, R204: the temperature sensor limits its reading to −40 °C to 150 °C; CYCLE_STRETCH keeps the lowest slack and counts a
stretch below 4, in the register and for the condition reports; a clock change in IDLE sets FREQ and VOLT, but raises no clock that the governor holds down; a router that fails cuts its tile off. -/
def Obligations.TileMonitors : Prop :=
  ∀ (s : State) (u : Nat), isTile u = true →
    (∀ temp, ∃ t, exec (.thermalConversion u temp) s = .next t
        ∧ sext 12 (t.f (tr u rTILE_TEMP) 0 12) = max (-160) (min 600 (sext 12 temp)))
    ∧ (∀ slack, slack < 256 → s.ts u ≠ tsOFF → s.asleep = false → ∃ t, exec (.cycleStretch u slack) s = .next t
        ∧ t = { s with regs := t.regs, light := { s.light with cond := { s.light.cond with stretch := t.light.cond.stretch } } }
        ∧ aget 0 t.light.cond.stretch u = aget 0 s.light.cond.stretch u + (if slack < 4 then 1 else 0)
        ∧ t.f (tr u rTILE_CPM) 0 8 = slack ∧ t.f (tr u rTILE_CPM) 8 8 = min slack (s.f (tr u rTILE_CPM) 8 8)
        ∧ t.rn (tr u rTILE_STRETCH_COUNT)
          = (if slack < 4 then min 0xFFFFFFFF (s.rn (tr u rTILE_STRETCH_COUNT) + 1) else s.rn (tr u rTILE_STRETCH_COUNT))
        ∧ RegsBut [tr u rTILE_CPM, tr u rTILE_STRETCH_COUNT] s t)
    ∧ (∀ freq volt, s.tileReached u = true → s.ts u = tsIDLE → freq ≤ 80 → freq ≤ aget 80 s.light.ceiling u → 20 ≤ volt → volt ≤ 80 →
        s.governed u = false ∨ freq ≤ (s.clockNext u).1 →
        ∃ t, exec (.islandClockChange u freq volt) s = .next t ∧ (s.governed u = false → OnlyRegs s t)
          ∧ t.f (tr u rTILE_CLOCK) 0 7 = freq ∧ t.f (tr u rTILE_CLOCK) 8 7 = min 80 (volt + aget 0 s.light.volt u) ∧ RegsBut [tr u rTILE_CLOCK] s t)
    ∧ (∀ freq volt, s.governed u = true → (s.clockNext u).1 < freq → exec (.islandClockChange u freq volt) s = .next s)
    ∧ ((s.tile u).routerFailed = false → ∃ t, exec (.routerFail u) s = .next t ∧ t.routerBad u = true ∧ t.tileReached u = false)

/-- R99 to R103, R126: a step whose reserved bits are not 0 traps an otherwise idle tile with ILLEGAL before anything of it happens: the
record holds its position, word and generation, and the tile stands in TRAP at that step. -/
def Obligations.IllegalStepTraps : Prop :=
  ∀ (s : State) (u : Nat) (w : Word64), Ready s u w 0 0 → resOk w.toNat opMask = false → (s.tile u).idle = true →
    ∃ t, exec (.nop u) s = .next t ∧ t.ts u = tsTRAP ∧ t.f (tr u rTILE_TRAP_CAUSE) 0 4 = 1 ∧ t.pos u = s.pos u
      ∧ t.rd (tr u rTILE_TRAP_POS) = s.rd (tr u rTILE_EXEC_POS)
      ∧ t.rd64 (tr u rTILE_TRAP_STEP_LO) (tr u rTILE_TRAP_STEP_HI) = w.toNat
      ∧ t.rd (tr u rTILE_TRAP_GEN) = s.rd (tr u rTILE_GEN) ∧ t.rd (tr u rTILE_STEP_COUNT) = s.rd (tr u rTILE_STEP_COUNT)

/-- R168 to R172, R211: LOAD empties its slot and starts the copy; the copy's end, which needs a function that may fetch, hands the image to the audit or, with a host
error, empties the slot; while the Store holds nothing that fails its checks, a passed audit makes the slot AUDITED with its
generation and length, a failed one REJECTED with its code and what the header says; DISCARD empties a slot that is not in use. -/
def Obligations.SlotsLoadAuditDiscard : Prop :=
  ∀ (s : State) (b : List Byte),
    let k := at_ b 0x20 1
    let len := at_ b 0x18 8
    (PlanHead s 0x20 b → s.slotState k = 0 ∨ s.slotState k = 3 ∨ s.slotState k = 7 → len ≤ 2 ^ 28 →
        recordSum (s.heldRecords k) + len ≤ 2 ^ 30 →
        ∃ t, exec .load s = .next t ∧ t.slotState k = 1 ∧ (t.slot k).host = at_ b 8 8 ∧ (t.slot k).length = len
          ∧ (t.slot k).plan = none ∧ Consumed planRing s t ∧ (∀ j, j ≠ k → t.slot j = s.slot j) ∧ RegsButRecords (slotRegs k) s t)
    ∧ (∀ j, j < 4 → s.slotState j = 1 →
        (s.canMaster (s.ringOwner planRing) = true → ∃ t, exec (.loadCopyDone j 0) s = .next t ∧ t.slotState j = 2
          ∧ (t.slot j).image = s.hostRead (s.slot j).host (s.slot j).length
          ∧ (s.storeSound = true → RegsBut [slotReg j rPLN_SLOT_STAT] s t))
        ∧ (∃ t, exec (.loadCopyDone j 1) s = .next t ∧ t.slotState j = 0 ∧ t.slot j = Slot.empty ∧ RegsButRecords (slotRegs j) s t))
    ∧ (∀ j, j < 4 → s.slotState j = 2 → s.storeSound = true →
        (∀ f, s.audit j = .error f → f.code < 256 →
          ∃ t, exec (.auditDone j) s = .next t ∧ t.slotState j = 7 ∧ t.f (slotReg j rPLN_SLOT_STAT) 8 8 = f.code
            ∧ (t.slot j).image = [] ∧ (t.slot j).records = [] ∧ t.slotGen j = (hdrOf (s.slot j).image).gen % 2 ^ 64
            ∧ RegsButRecords (slotRegs j) s t)
        ∧ (∀ a, s.audit j = .ok a →
          ∃ t, exec (.auditDone j) s = .next t ∧ t.slotState j = 3 ∧ (t.slot j).plan = some a.plan
            ∧ t.slotGen j = a.hdr.gen % 2 ^ 64 ∧ t.rn (slotReg j rPLN_SLOT_LENGTH) = a.hdr.imageLength % 2 ^ 32
            ∧ RegsButRecords (slotRegs j) s t))
    ∧ (PlanHead s 0x24 b → s.slotState k ≠ 6 → s.slotState k ≠ 1 → s.slotState k ≠ 2 → s.slotState k ≠ 4 → s.hangOut = false →
        ∃ t, exec .discard s = .next t ∧ t.slotState k = 0 ∧ t.slot k = Slot.empty ∧ Consumed planRing s t
          ∧ (∀ j, j ≠ k → t.slot j = s.slot j) ∧ RegsButRecords (slotRegs k) s t)

/-- R170 to R172, R187, R193: PREPARE of an AUDITED slot, and the first slot of the queue when no slot is READY or PREPARING, makes
the slot PREPARING and a READY slot AUDITED again; while the Store is sound, a placement that meets every rule makes a slot without
remote corridors READY with that placement, and starts the exchange of one that needs it; a draft whose corridors are all resolved
becomes the READY slot's placement; too few usable tiles reject the slot with TILES. -/
def Obligations.SlotsPrepare : Prop :=
  ∀ (s : State),
    (∀ b, PlanHead s 0x21 b → s.preparing = none → s.hangOut = false → s.slotState (at_ b 0x20 1) = 3 →
        ∃ t, exec .prepare s = .next t ∧ t.slotState (at_ b 0x20 1) = 4 ∧ Consumed planRing s t
          ∧ (∀ j, j < 4 → s.slotState j = 5 → j ≠ at_ b 0x20 1 → s.readySlot = some j → t.slotState j = 3))
    ∧ (∀ k q, s.cur.autoQueue = k :: q → k < 4 → s.preparing = none → s.readySlot = none → s.stopped = false →
        ∃ t, exec .autoPrepareStart s = .next t ∧ t.slotState k = 4 ∧ k ∉ t.cur.autoQueue)
    ∧ (∀ k tiles tiers offsets segs broken p, k < 4 → s.slotState k = 4 → (s.slot k).plan = some p → s.storeSound = true →
        let o : PlaceOut := ⟨tiles, tiers.zipWith (fun e a => (e.1, e.2, a)) offsets, segs, broken⟩
        (∀ d, (s.slot k).draft = none → s.samePast (s.placeIn k p) o = true → s.judge k p o = .placed d → p.remotes = [] →
            ∃ t pl, exec (.prepareDone k tiles tiers offsets segs broken) s = .next t ∧ t.slotState k = 5 ∧ (t.slot k).place = some pl
              ∧ pl.tiles = tiles ∧ pl.catalogue = d.catalogue)
        ∧ (∀ d, (s.slot k).draft = none → s.samePast (s.placeIn k p) o = true → s.judge k p o = .placed d → p.remotes ≠ [] →
            s.knownRemotes k p tiles = none →
            ∃ t, exec (.prepareDone k tiles tiers offsets segs broken) s = .next t ∧ t.slotState k = 4 ∧ (t.slot k).draft = some d
              ∧ (t.slot k).waiting = p.remotes.map fun c => (c.corridor, c.dstModule, c.dst))
        ∧ (∀ d, (s.slot k).draft = some d → s.draftStands k p = true → (s.slot k).waiting = [] →
            ∃ t pl, exec (.prepareDone k tiles tiers offsets segs broken) s = .next t ∧ t.slotState k = 5 ∧ (t.slot k).place = some pl
              ∧ pl.tiles = d.tiles ∧ pl.remote = (s.slot k).remote)
        ∧ (s.draftStands k p = false → s.samePast (s.placeIn k p) o = true → (allTiles.filter s.usable).length < p.exhibits.length →
            ∃ t, exec (.prepareDone k tiles tiers offsets segs broken) s = .next t ∧ t.slotState k = 7
              ∧ t.f (slotReg k rPLN_SLOT_STAT) 8 8 = 0x20))

/-- R171, R195, R199 to R201, R205: HANG of a READY slot begins to arm it with fresh entropy; WITHDRAW of a hang not yet applying ends it,
and so does a hang wave whose values are not both the slot's generation; the slot stays READY where no record of it was lost, no tile
fell due meanwhile and none traps as it is disarmed, and the tiles in HANG run on. With every tile armed and PENDING 0 a hang of no
group applies, and so does one whose wave agreed; one whose slot is no longer READY as it arms ends (the model's choice, log entry
180). A wave that takes too long is reported once. -/
def Obligations.HangArmsAndWithdraws : Prop :=
  ∀ (s : State) (b : List Byte),
    let calm := s.cur.lostHang = false ∧ s.cur.lateTiles = []
      ∧ ∀ u, (s.tile u).pendTraps = [] ∧ ((s.tile u).holding = .hang → GoesOn s u (s.pos u))
    let ended := fun (t : State) => t.hangState = 0 ∧ t.cur.lateTiles = []
      ∧ (calm → t.slotState s.hangSlot = s.slotState s.hangSlot ∧ ∀ u, isTile u = true → s.ts u = tsHANG → t.ts u = tsRUN)
    (PlanHead s 0x22 b → s.hangOut = false → s.slotState (at_ b 0x20 1) = 5 →
        ∃ t, exec .hang s = .next t ∧ t.hangState = 1 ∧ t.hangSlot = at_ b 0x20 1 ∧ Consumed planRing s t ∧ t.free = s.free + 1
          ∧ t.cur = { s.cur with nextEntropy := Config.entropy s.free % 2 ^ 64, hangStart := s.timer, hangReady := s.timer,
                                  waveSlow := false, waveResult := none, waitingHang := none }
          ∧ RegsBut [hangReg, rg rHST_RING_HEAD planRing, rg rHST_RING_STAT planRing] s t)
    ∧ (PlanHead s 0x23 b → s.cur.waitingHang = none → s.hangOut = true → s.canWithdraw = true →
        ∃ t, exec .withdraw s = .next t ∧ Consumed planRing s t ∧ ended t
          ∧ t.rn (winBase .pln 0 + rPLN_WITHDRAW_COUNT) = min 0xFFFFFFFF (s.rn (winBase .pln 0 + rPLN_WITHDRAW_COUNT) + 1))
    ∧ (∀ p pl, s.hangState = 2 ∨ (s.hangState = 1 ∧ s.slotState s.hangSlot = 5) → s.pendingTiles = [] → s.hanging = some (p, pl) →
        p.hangGroup = 0xFF → ∃ t, exec .hangArmedAllAtPoint s = .next t ∧ t.hangState = 4 ∧ RegsBut [hangReg] s t)
    ∧ (s.hangState = 1 → s.slotState s.hangSlot ≠ 5 → ∃ t, exec .hangArmedAllAtPoint s = .next t ∧ t.hangState = 0)
    ∧ (∀ lo hi, s.cur.waveResult = some (lo, hi) → s.hangState = 3 →
        (lo = s.slotGen s.hangSlot → hi = lo → ∃ t, exec .hangWaveComplete s = .next t ∧ t.hangState = 4 ∧ RegsBut [hangReg] s t)
        ∧ (¬ (lo = s.slotGen s.hangSlot ∧ hi = lo) → ∃ t, exec .hangWaveComplete s = .next t ∧ ended t))
    ∧ (s.hangState = 3 → s.f hangReg 3 1 = 1 → s.cur.waveSlow = false → s.f (winBase .pln 0 + rPLN_HANG_WAVE_TIME) 0 16 ≠ 0 →
        ∃ t, exec .hangWaveSlow s = .next t ∧ t.cur = { s.cur with waveSlow := true } ∧ RegsButRecords [] s t)

/-- R55, R195 steps 5 and 6, R210: once the corridors and bridges have drained, the hang applies, where its moves find a COW page for each
frozen page they write: its slot is ACTIVE and no other is, the generation, plan and entropy in force are its own, the hang is over
and counted. -/
def Obligations.HangApplies : Prop :=
  ∀ (s : State) (p : Plan) (pl : Placement), s.hangState = 4 → s.drained = true → s.hanging = some (p, pl) →
    s.cur.lostHang = false → (s.moveContents p pl).pair.blocked = false →
    ∃ t, exec .hangApply s = .next t ∧ t.slotState s.hangSlot = 6 ∧ (∀ j, j < 4 → j ≠ s.hangSlot → t.slotState j ≠ 6)
      ∧ t.cur.now = some p ∧ t.planGen = p.gen % 2 ^ 64 ∧ t.cur.entropy = s.cur.nextEntropy ∧ t.hangState = 0
      ∧ t.rn (winBase .pln 0 + rPLN_HANG_COUNT) = min 0xFFFFFFFF (s.rn (winBase .pln 0 + rPLN_HANG_COUNT) + 1)

/-- R192, R208, R465: with no logbook ring enabled to write beside it, READ_PLACEMENT and READ_CATALOGUE of at least 16 bytes write
the generation and the number of records at the host address, and nothing outside the LENGTH bytes there. -/
def Obligations.PlanDumps : Prop :=
  ∀ (s : State) (b : List Byte), (∀ l, l < 4 → s.logEnabled l = false) → 16 ≤ at_ b 0x18 8 →
    let a := at_ b 8 8
    let inside := fun (t : State) => ∀ x, x < a ∨ a + at_ b 0x18 8 ≤ x → aget 0 t.host.mem x = aget 0 s.host.mem x
    (PlanHead s 0x25 b →
        ∃ t, exec .readPlacement s = .next t ∧ Consumed planRing s t ∧ t.hostRead a 8 = leBytes 8 s.planGen
          ∧ t.hostRead (a + 8) 4 = leBytes 4 (match s.cur.place with | some pl => pl.tiles.length | none => 0) ∧ inside t)
    ∧ (PlanHead s 0x26 b → at_ b 0x21 1 = 0 →
        ∃ t, exec .readCatalogue s = .next t ∧ Consumed planRing s t ∧ t.hostRead a 8 = leBytes 8 s.planGen
          ∧ t.hostRead (a + 8) 4 = leBytes 4 (match s.cur.place with | some pl => pl.catalogue.length | none => 0) ∧ inside t)

/-- R193, R194, R402, R521: a placement query is held until its generation is READY or ACTIVE here, and then answered by a message;
an answer for the slot that prepares resolves its corridors; a moved exhibit's corridors name its new tile; the exchange time
rejects the slot with REMOTE. -/
def Obligations.PlacementExchange : Prop :=
  ∀ (s : State) (ix : Nat) (c : Crate),
    let b := c.data
    let m := msgSender b
    let g := at_ b 8 8
    let x := at_ b 16 2
    (s.fab.inbox[ix]? = some c → c.op = 0x10 → at_ b 0 1 = 0x30 → s.slotOfGen g = none →
        ∃ t, exec (.placeQuery ix) s = .next t ∧ (m, g, x) ∈ t.cur.heldQueries ∧ t.fab = { s.fab with inbox := s.fab.inbox.eraseIdx ix }
          ∧ RegsBut [] s t)
    ∧ (∀ k, s.fab.inbox[ix]? = some c → c.op = 0x10 → at_ b 0 1 = 0x30 → s.slotOfGen g = some k → s.unset = false →
        ∃ t d, exec (.placeQuery ix) s = .next t ∧ t.fab.outbound = s.fab.outbound ++ [d] ∧ d.op = 0x10
          ∧ d.destModule = s.substMod m ∧ at_ d.data 0 1 = 0x31 ∧ at_ d.data 8 8 = g ∧ at_ d.data 16 2 = x ∧ RegsBut [] s t)
    ∧ (∀ k, s.preparing = some k → s.openCorridors = [] → s.unset = false →
        ∃ t, exec .placeQueryRepeat s = .next t
          ∧ t.fab.outbound.length = s.fab.outbound.length + (s.slot k).questions.length ∧ RegsBut [] s t)
    ∧ (∀ k, s.fab.inbox[ix]? = some c → c.op = 0x10 → at_ b 0 1 = 0x31 → s.preparing = some k → s.slotGen k = g → at_ b 18 1 = 0 →
        (∃ w ∈ (s.slot k).waiting, s.substMod w.2.1 = m ∧ w.2.2 = x) →
        ∃ t, exec (.placeAnswer ix) s = .next t ∧ RegsBut [] s t
          ∧ (∀ w ∈ (s.slot k).waiting, s.substMod w.2.1 = m → w.2.2 = x →
              w ∉ (t.slot k).waiting ∧ (w.1, tileOf (at_ b 20 2)) ∈ (t.slot k).remote))
    ∧ (s.fab.inbox[ix]? = some c → c.op = 0x10 → at_ b 0 1 = 0x32 → g = s.planGen →
        ∃ t, exec (.placeMoved ix) s = .next t ∧ RegsBut [] s t ∧ t.fab = { s.fab with inbox := s.fab.inbox.eraseIdx ix }
          ∧ ∀ u, ∀ e ∈ (t.tile u).corridors, s.substMod e.dstModule = m → e.dstExhibit = x →
              e.tile = tileOf (at_ b 20 2) ∧ e.resolved = true)
    ∧ (∀ k w ws, s.preparing = some k → (s.slot k).waiting = w :: ws →
        ∃ t, exec .placeExchangeTimeout s = .next t ∧ t.slotState k = 7 ∧ t.f (slotReg k rPLN_SLOT_STAT) 8 8 = 0x24
          ∧ (t.slot k).waiting = [])

/-- R136, R310 to R317, R324: a WAVE step below LOCAL_COUNT adds its contribution and goes on; a WAVE message of this generation joins
its group, one of a later generation is held; a slow wave is reported once; a census of SCOPE 0 gives the module's own level. -/
def Obligations.WavesCollect : Prop :=
  ∀ (s : State) (g : Nat) (r : GroupRec), s.group g = some r →
    (∀ u w, Ready s u w 1 2 → Clean w (mk 38 16) → GoesOn s u (s.pos u) → fld w.toNat 42 6 = g → r.kind < 4 →
        (s.wave g).phase = 0 → (s.wave g).queued = [] → (s.wave g).count + 1 < r.localCount →
        ∃ t, exec (.waveStep u) s = .next t ∧ Went s t u (s.pos u) id ∧ Counted s t u ∧ (t.wave g).count = (s.wave g).count + 1
          ∧ (t.wave g).tiles = (s.wave g).tiles ++ [(u, fld w.toNat 48 6)] ∧ (t.wave g).phase = 0 ∧ (t.wave g).queued = []
          ∧ RegsBut [tr u rTILE_EXEC_POS, tr u rTILE_STEP_COUNT] s t)
    ∧ (∀ ix c, s.fab.regIn[ix]? = some c → c.op = 0x11 → at_ c.data 1 1 ≠ 0xFF → s.unset = false → at_ c.data 0 1 = g →
        at_ c.data 6 2 = s.rn (winBase .pln 0 + rPLN_GEN_LO) % 2 ^ 16 → (s.wave g).last = none → (s.wave g).phase = 0 →
        seqBefore (at_ c.data 4 2) (s.wave g).wave = false → r.localCount ≠ 0 →
        ∃ t, exec (.waveMessage ix) s = .next t ∧ (t.wave g).got = (s.wave g).got ++ [waveMsgOf c]
          ∧ t.fab.regIn = s.fab.regIn.eraseIdx ix ∧ RegsBut [] s t)
    ∧ (∀ ix c, s.fab.regIn[ix]? = some c → c.op = 0x11 → at_ c.data 1 1 ≠ 0xFF → s.unset = false →
        at_ c.data 6 2 ≠ s.rn (winBase .pln 0 + rPLN_GEN_LO) % 2 ^ 16 →
        seqBefore (s.rn (winBase .pln 0 + rPLN_GEN_LO) % 2 ^ 16) (at_ c.data 6 2) = true → s.fab.heldWaves.length < 64 →
        ∃ t, exec (.waveMessage ix) s = .next t ∧ t = { s with fab := { s.fab with
          regIn := s.fab.regIn.eraseIdx ix, heldWaves := s.fab.heldWaves ++ [waveMsgOf c] } })
    ∧ ((s.wave g).phase ≠ 0 → (s.wave g).slow = false → s.f (winBase .fab 0 + rFAB_WAVE_TIME) 0 16 ≠ 0 →
        ∃ t, exec (.waveSlow g) s = .next t ∧ t.wave g = { s.wave g with slow := true } ∧ RegsButRecords [] s t)
    ∧ (∀ side, r.kind = 5 → r.scope = 0 → (s.wave g).phase = 0 → (s.wave g).queued = [] → (s.wave g).got = [] → (s.wave g).count = 0 →
        let ffl := s.f (wg 0 rWNG_FEATURE_CFG) 0 8
        ∃ t, exec (.census g side) s = .next t ∧ t.f (winBase .fab 0 + rFAB_CENSUS_STAT) 0 17 = ffl + ffl * 2 ^ 8 + 2 ^ 16
          ∧ (s.censusRuns = false → t.rn (winBase .fab 0 + rFAB_CENSUS_STAT) = ffl + ffl * 2 ^ 8 + 2 ^ 16)
          ∧ RegsBut [winBase .fab 0 + rFAB_CENSUS_STAT] s t)

/-- R255, R256, R270, R290 to R292: a waiting crate with a channel and full credit cover queues its flits there and takes its credits, and
counts when it is in transit; one without a channel is discarded and counted. -/
def Obligations.CratesLeaveByChannel : Prop :=
  ∀ (s : State) (ix : Nat) (c : Crate), s.waitingCrates[ix]? = some (none, c) → s.mayLeave ix none c = true →
    (∀ j, s.pickChannel c = some j → s.halted .wng (j / 9) = false → s.halted .col (j / 9) = false → s.reachesWing (j / 9) c = true →
        ((s.chan j).cls (s.classOn j c)).covers c.flits = true →
        ∃ t fs, exec (.crateTransmitStart ix) s = .next t ∧ (t.chan j).queue = (s.chan j).queue ++ fs ∧ fs.length = c.flits
          ∧ ((t.chan j).cls (s.classOn j c)).usedH = (((s.chan j).cls (s.classOn j c)).usedH + 1) % 2 ^ 16
          ∧ ((t.chan j).cls (s.classOn j c)).usedD = (((s.chan j).cls (s.classOn j c)).usedD + c.flits) % 2 ^ 16
          ∧ t.fab.outbound = (s.dropWaiting ix).fab.outbound ∧ t.fab.pinned = (s.dropWaiting ix).fab.pinned
          ∧ (∀ k, k ≠ j → t.chan k = s.chan k) ∧ t.rn (winBase .fab 0 + rFAB_TRANSIT_COUNT) = (if c.inTransit then
              min 0xFFFFFFFF (s.rn (winBase .fab 0 + rFAB_TRANSIT_COUNT) + 1) else s.rn (winBase .fab 0 + rFAB_TRANSIT_COUNT))
          ∧ RegsBut [winBase .fab 0 + rFAB_TRANSIT_COUNT] s t)
    ∧ (s.pickChannel c = none →
        ∃ t, exec (.crateTransmitStart ix) s = .next t ∧ t.fab = (s.dropWaiting ix).fab
          ∧ t.rn (winBase .fab 0 + rFAB_NO_ROUTE_COUNT) = min 0xFFFFFFFF (s.rn (winBase .fab 0 + rFAB_NO_ROUTE_COUNT) + 1)
          ∧ RegsButRecords [winBase .fab 0 + rFAB_NO_ROUTE_COUNT] s t)

/-- R299 to R301: a remote read takes an entry of its Wing's bank and leaves on its channel under its number; the response frees the entry,
a response without one is counted late; a first timeout is left to a retry, which leaves again; the second ends the request in
quarantine, whose expiry frees the entry. -/
def Obligations.RemoteRequests : Prop :=
  ∀ (s : State),
    (∀ ix c j k, s.fab.reqWait[ix]? = some c → s.behindReq ix c = false →
        s.pickChannel c = some j → s.freeEntry (j / 9) = some k →
        ∃ t e, exec (.requestEntryAlloc ix) s = .next t ∧ t.reqEntry (reqId (j / 9) k) = some e ∧ e.tile = c.srcTile
          ∧ e.tileId = c.request ∧ e.quarantined = false ∧ t.fab.reqWait = s.fab.reqWait.eraseIdx ix
          ∧ t.fab.pinned = s.fab.pinned ++ [(j, { c with request := reqId (j / 9) k })] ∧ RegsBut [] s t)
    ∧ (∀ ix c e, s.fab.respIn[ix]? = some c → s.reqEntry c.request = some e → e.quarantined = false → e.tries < 3 → s.wingBridged (c.request / 4096) = true →
        ∃ t, exec (.responseMatch ix) s = .next t ∧ t.reqEntry c.request = none ∧ t.fab.respIn = s.fab.respIn.eraseIdx ix)
    ∧ (∀ ix c, s.fab.respIn[ix]? = some c → s.reqEntry c.request = none →
        ∃ t, exec (.responseMatch ix) s = .next t ∧ t.fab = { s.fab with respIn := s.fab.respIn.eraseIdx ix }
          ∧ t.rn (winBase .fab 0 + rFAB_LATE_COUNT) = min 0xFFFFFFFF (s.rn (winBase .fab 0 + rFAB_LATE_COUNT) + 1)
          ∧ RegsBut [winBase .fab 0 + rFAB_LATE_COUNT] s t)
    ∧ (∀ id e, s.reqEntry id = some e → e.quarantined = false → s.fab.pinned.any (fun p => p.2.op == 1 && p.2.request == id) = false →
        (e.tries = 1 → ∃ t, exec (.requestTimeout id) s = .next t ∧ t.reqEntry id = some { e with tries := 2 } ∧ RegsButRecords [] s t)
        ∧ (e.tries = 3 → (s.tile e.tile).reads = [] → ∃ t, exec (.requestTimeout id) s = .next t
            ∧ t.reqEntry id = some { e with quarantined := true }
            ∧ t.rn (winBase .fab 0 + rFAB_REQ_UNREACHABLE_COUNT) = min 0xFFFFFFFF (s.rn (winBase .fab 0 + rFAB_REQ_UNREACHABLE_COUNT) + 1)))
    ∧ (∀ id e j, s.reqEntry id = some e → e.quarantined = false → e.tries = 2 → s.retryChannel e = some j →
        ∃ t, exec (.requestRetry id) s = .next t ∧ t.reqEntry id = some { e with tries := 3 }
          ∧ t.fab.pinned = s.fab.pinned ++ [(j, e.crate)]
          ∧ t.rn (winBase .fab 0 + rFAB_REQ_RETRY_COUNT) = min 0xFFFFFFFF (s.rn (winBase .fab 0 + rFAB_REQ_RETRY_COUNT) + 1)
          ∧ RegsBut [winBase .fab 0 + rFAB_REQ_RETRY_COUNT] s t)
    ∧ (∀ id e, s.reqEntry id = some e → e.quarantined = true →
        ∃ t, exec (.quarantineExpiry id) s = .next t ∧ t.reqEntry id = none ∧ RegsBut [] s t)

/-- R293, R303, R305, R306, R308, R521: an Office message of a defined type goes to the Office and another TC3 crate is discarded; the first
COLLATE crate of a chunk with slots free opens it; a stalled chunk is counted once; a reduction entry takes a write that keeps the
totals of its Collator, and otherwise stands while CFG_REJECT_COUNT rises. -/
def Obligations.OfficeAndCollator : Prop :=
  ∀ (s : State),
    (∀ ix c, s.fab.regIn[ix]? = some c → c.op ≠ 0x11 → ∃ t, exec (.officeCrate ix) s = .next t
        ∧ t = { s with fab := { s.fab with
            regIn := s.fab.regIn.eraseIdx ix
            inbox := (if c.op = 0x10 ∧ at_ c.data 0 1 ∈ officeTypes then s.fab.inbox ++ [c] else s.fab.inbox) } })
    ∧ (∀ ix c w, s.fab.collIn[ix]? = some c → s.serving (c.request % 4096) = some w →
        s.behindColl ix c = false → s.halted .col w = false → s.bridgesTo w c = true → s.reachesWing w c = true → s.fab.chunks.find? (sameChunk w (c.request % 4096) c) = none →
        2 ≤ s.f (redCfg w (c.request % 4096)) 0 5 →
        s.slotsHeld w (c.request % 4096) + (collElems (s.f (redCfg w (c.request % 4096)) 5 2) c.length + 1015) / 1016
          ≤ s.f (redCfg w (c.request % 4096)) 16 12 →
        ∃ t k, exec (.collateCrate ix) s = .next t ∧ t.fab.chunks = s.fab.chunks ++ [k] ∧ k.wing = w ∧ k.red = c.request % 4096
          ∧ k.head = c ∧ k.inputs = 1 ∧ t.fab.collIn = s.fab.collIn.eraseIdx ix ∧ RegsBut [] s t)
    ∧ (∀ ix k, s.fab.chunks[ix]? = some k → k.stalled = false → k.wing < 4 →
        ∃ t, exec (.collateStall ix) s = .next t ∧ t.fab.chunks = s.fab.chunks.set ix { k with stalled := true }
          ∧ t.rn (cl k.wing rCOL_STALL_COUNT) = min 0xFFFFFFFF (s.rn (cl k.wing rCOL_STALL_COUNT) + 1)
          ∧ RegsButRecords [cl k.wing rCOL_STALL_COUNT] s t)
    ∧ (∀ w r v side, w < 4 → r < 4096 → v < 2 ^ 32 →
        let new := v &&& 0x0FFF03FF ||| s.rn (redCfg w r) &&& 0xF000FC00
        let fits := (s.wn (redCfg w r) new).redsOk w
        ∃ t, exec (.colRedCfgWrite w r v side) s = .next t ∧ OnlyRegs s t
          ∧ t.rn (redCfg w r) = (if fits then new else s.rn (redCfg w r))
          ∧ t.rn (cl w rCOL_CFG_REJECT_COUNT) = (if fits then s.rn (cl w rCOL_CFG_REJECT_COUNT)
              else min 0xFFFFFFFF (s.rn (cl w rCOL_CFG_REJECT_COUNT) + 1))
          ∧ RegsBut [redCfg w r, cl w rCOL_CFG_REJECT_COUNT] s t)

/-- R459 to R463, R474: NOP consumes its entry and completes; ARCHIVE_READ copies the user area to the host, ARCHIVE_WRITE the host's
bytes into it, 4 KiB at a time (the model's choice, log entry 199), MEASURE_LOG_READ the measurement log; each stays in progress until DOCKET_ENTRY_DONE completes it. -/
def Obligations.DocketsRun : Prop :=
  ∀ (s : State) (r : Nat) (b : List Byte),
    let n := at_ b 0x18 8
    (DocketHead s r 0 b → ∃ t, exec (.docketNop r) s = .next t ∧ Consumed r s t ∧ t.inProgress r = [] ∧ RegsButRecords [] s t)
    ∧ (DocketHead s r 3 b → ∃ t, exec (.archiveRead r) s = .next t ∧ Started r n s t
          ∧ (at_ b 0x20 1 ≠ 1 → at_ b 0x20 1 ≠ 3 →
              t.hostRead (at_ b 8 8) n = agets 0xFF s.arch.bytes (at_ b 0x20 1 * 2 ^ 27 + at_ b 0x10 8) n))
    ∧ (DocketHead s r 4 b → ∃ t, exec (.archiveWrite r) s = .next t ∧ Started r (min n 4096) s t ∧ t.host.mem = s.host.mem
          ∧ t.arch = { s.arch with bytes := aputs 0xFF s.arch.bytes (4 * 2 ^ 27 + at_ b 0x10 8) (s.hostRead (at_ b 8 8) (min n 4096)) })
    ∧ (∀ e, r < 32 → s.running r 4 = some e → e.moved < at_ e.bytes 0x18 8 → s.canMaster (s.ringOwner r) = true →
        let k := min (at_ e.bytes 0x18 8 - e.moved) 4096
        ∃ t, exec (.archiveWrite r) s = .next t ∧ t.running r 4 = some { e with moved := e.moved + k } ∧ t.host.mem = s.host.mem
          ∧ t.arch = { s.arch with bytes := t.arch.bytes }
          ∧ t.arch.bytes = aputs 0xFF s.arch.bytes (4 * 2 ^ 27 + at_ e.bytes 0x10 8 + e.moved) (s.hostRead (at_ e.bytes 8 8 + e.moved) k))
    ∧ (DocketHead s r 5 b → ∃ t, exec (.measureLogRead r) s = .next t ∧ Started r n s t
          ∧ t.hostRead (at_ b 8 8) n = (s.sec.measLog.map MeasEntry.toBytes).flatten.take n)
    ∧ (∀ e, r < 32 → s.inProgress r = [e] → e.finished = false → at_ e.bytes 0 1 ≠ 6 →
        (at_ e.bytes 0 1 = 1 ∨ at_ e.bytes 0 1 = 2 ∨ at_ e.bytes 0 1 = 4 → e.moved = at_ e.bytes 0x18 8) →
        ∃ t, exec (.docketEntryDone r 0) s = .next t ∧ Finished r s t ∧ t.arch.slotA = s.arch.slotA ∧ t.arch.slotB = s.arch.slotB)

/-- R461, R462: a DMA write moves the next page of host bytes into the Vault or the Store, a read the other way; each counts its
bytes in MIB_COUNT. A page that reads as poison stops the channel. The first step of an entry consumes it. -/
def Obligations.DmaMovesPages : Prop :=
  ∀ (s : State) (r : Nat) (b : List Byte),
    (DocketHead s r 1 b → s.dmaPaused = false → ∃ t, exec (.dmaWrite r 0) s = .next t ∧ Started r 0 s t)
    ∧ (DocketHead s r 2 b → s.dmaPaused = false → ∃ t, exec (.dmaRead r 0) s = .next t ∧ Started r 0 s t)
    ∧ (∀ e, r < 32 → e.moved < at_ e.bytes 0x18 8 → s.dmaPaused = false → s.canMaster (s.ringOwner r) = true →
        let a := at_ e.bytes 0x10 8 + e.moved
        let h := at_ e.bytes 8 8 + e.moved
        let n := min (at_ e.bytes 0x18 8 - e.moved) (4096 - a % 4096)
        let mib := min 0xFFFFFFFF (s.rn (rg rHST_DMA_MIB_COUNT r) + (aget 0 s.host.dmaBytes r + n) / 2 ^ 20)
        (∀ v, s.running r 1 = some e → whereIs a = (if v then .vault else .store) → s.pair.freeze = none → s.pair.blocked = false →
            s.memDead v ((s.mem v).phys a) = false → n = 4096 ∨ s.pageOff a = false → s.hostReaches a n = true →
            s.storeShut a n = false →
            ∃ t, exec (.dmaWrite r 1) s = .next t ∧ t.running r 1 = some { e with moved := e.moved + n }
              ∧ (∀ i, i < n → aget 0 (t.mem v).cells ((t.mem v).phys a + i) = (s.hostRead h n).getD i 0)
              ∧ t.mem (!v) = s.mem (!v) ∧ t.rn (rg rHST_DMA_MIB_COUNT r) = mib
              ∧ (n = 4096 → (s.mem v).held = [] → t.host.mem = s.host.mem ∧ (t.mem v).redirect = (s.mem v).redirect ∧ (∀ x, x / 4096 ≠ pageOf ((s.mem v).phys a) → aget 0 (t.mem v).cells x = aget 0 (s.mem v).cells x)
                  ∧ (v = true → RegsBut [rg rHST_DMA_MIB_COUNT r] s t)))
        ∧ (s.running r 2 = some e → (s.modRead a n rdDMA).1.poison = none → s.storeShut a n = false →
            ∃ t, exec (.dmaRead r 1) s = .next t ∧ t.running r 2 = some { e with moved := e.moved + n }
              ∧ t.hostRead h n = (s.modRead a n rdDMA).1.bytes ∧ t.rn (rg rHST_DMA_MIB_COUNT r) = mib
              ∧ t.vault = (s.modRead a n rdDMA).2.vault ∧ t.store = (s.modRead a n rdDMA).2.store)
        ∧ (∀ x k, s.inProgress r = [e] → s.running r 2 = some e → (s.modRead a n rdDMA).1.poison = some (x, k) → s.storeShut a n = false →
            ∃ t, exec (.dmaRead r 1) s = .next t ∧ t.inProgress r = [] ∧ t.f (rg rHST_RING_STAT r) 2 1 = 1
              ∧ t.vault = (s.modRead a n rdDMA).2.vault ∧ t.store = (s.modRead a n rdDMA).2.store))

/-- R460, R462, R463, R469, R477: FW_STAGE empties the slot that is not in service, and its end fills it with an image that verifies,
STAGED in DEPLOYED and PENDING elsewhere; an opcode no ring defines is answered; a completion timeout of a DMA write, or of an
entry's fetch, is counted and stops the channel or the ring; RESTART clears HALTED, for a ring's owner alone. -/
def Obligations.DocketsStageAndFail : Prop :=
  ∀ (s : State) (r : Nat) (b : List Byte),
    (DocketHead s r 6 b → ∃ t, exec (.fwStage r) s = .next t ∧ Consumed r s t ∧ t.fwSlot s.stageSlot = ⟨0, []⟩
          ∧ t.fwSlot (1 - s.stageSlot) = s.fwSlot (1 - s.stageSlot) ∧ RegsButRecords [bootStat] s t)
    ∧ (∀ e, r < 32 → s.inProgress r = [e] → e.finished = false → at_ e.bytes 0 1 = 6 → s.canMaster (s.ringOwner r) = true →
        let img := s.hostRead (at_ e.bytes 8 8) (at_ e.bytes 0x18 8)
        ∃ t, exec (.docketEntryDone r 0) s = .next t ∧ t.inProgress r = []
          ∧ t.fwSlot s.stageSlot = (if s.fwVerify img then ⟨if s.lifecycle = 2 then 1 else 2, img⟩ else s.fwSlot s.stageSlot))
    ∧ (r < 32 → s.ringLive r = true → s.ringCount r ≠ 0 → 6 < at_ (s.ringEntry r 0) 0 1 → s.inProgress r = [] →
        ∃ t, exec (.badOpcodeEntry r) s = .next t ∧ Consumed r s t ∧ Finished r s t)
    ∧ (s.ringLive planRing = true → s.ringCount planRing ≠ 0 → (at_ (s.ringEntry planRing 0) 0 1 < 0x20 ∨ 0x26 < at_ (s.ringEntry planRing 0) 0 1) → s.planBusy = false →
        s.inProgress planRing = [] → ∃ t, exec (.badOpcodeEntry planRing) s = .next t ∧ Consumed planRing s t ∧ Finished planRing s t)
    ∧ (∀ e, r < 32 → s.inProgress r = [e] → e.finished = false → at_ e.bytes 0 1 = 1 →
        ∃ t, exec (.pcieCompletionTimeout r) s = .next t ∧ Finished r s t ∧ t.f (rg rHST_RING_STAT r) 2 1 = 1
          ∧ t.rn (winBase .hst 0 + rHST_HOST_ERROR_COUNT) = min 0xFFFFFFFF (s.rn (winBase .hst 0 + rHST_HOST_ERROR_COUNT) + 1))
    ∧ (r ≤ 32 → s.inProgress r = [] → s.ringLive r = true → 0 < s.ringCount r →
        ∃ t, exec (.pcieCompletionTimeout r) s = .next t ∧ t.ringState r = 3 ∧ t.f (rg rHST_RING_STAT r) 4 4 = 2
          ∧ t.rn (rg rHST_RING_HEAD r) = s.rn (rg rHST_RING_HEAD r) ∧ RegsButRecords [] s t)
    ∧ (∀ side, r < 32 → s.reaches side = true → s.ringOwner r = .pf0 ∨ side = .pf1 →
        ∃ t, exec (.restart r side) s = .next t ∧ OnlyRegs s t ∧ t.f (rg rHST_RING_STAT r) 2 1 = 0 ∧ RegsBut [rg rHST_RING_STAT r] s t)
    ∧ (∀ side, r < 32 → s.reaches side = true → s.ringOwner r = .pf1 → side ≠ .pf1 →
        ∃ t, exec (.restart r side) s = .next t ∧ t = s.filterReject)

/-- R457, R458, R468: ENABLE set by the ring's owner zeroes its counts; a count within the ring moves TAIL, one beyond it is TAIL_BAD;
a logbook count that does not pass the producer moves CONSUMER; a side that does not own the ring is counted and changes nothing else. -/
def Obligations.RingsAndDoorbells : Prop :=
  ∀ (s : State) (d count : Nat) (side : Side), s.reaches side = true →
    (d ≤ 32 → s.ownerOfRing d ≠ .pf1 ∨ side = .pf1 → s.f (ringCfg d) 8 1 = 0 →
        ∃ t, exec (.ringEnable d 1 side) s = .next t ∧ OnlyRegs s t ∧ t.f (ringCfg d) 8 1 = 1 ∧ t.rn (rg rHST_RING_HEAD d) = 0
          ∧ t.rn (rg rHST_RING_TAIL d) = 0 ∧ t.ringState d = 1
          ∧ RegsBut [ringCfg d, rg rHST_RING_HEAD d, rg rHST_RING_TAIL d, rg rHST_RING_STAT d] s t)
    ∧ (d ≤ 32 → s.ownerOfRing d ≠ .pf1 ∨ side = .pf1 → s.f (ringCfg d) 8 1 = 1 → s.inProgress d = [] →
        ∃ t, exec (.ringEnable d 0 side) s = .next t ∧ OnlyRegs s t ∧ t.f (ringCfg d) 8 1 = 0 ∧ t.ringState d = 0
          ∧ RegsBut [ringCfg d, rg rHST_RING_STAT d] s t)
    ∧ (32 < d → d ≤ 36 → s.ownerOfRing d ≠ .pf1 ∨ side = .pf1 → s.f (ringCfg d) 8 1 = 0 →
        ∃ t, exec (.ringEnable d 1 side) s = .next t ∧ OnlyRegs s t ∧ t.f (ringCfg d) 8 1 = 1 ∧ t.rn (lg rHST_LOG_PROD (d - 33)) = 0
          ∧ t.rn (lg rHST_LOG_CONS (d - 33)) = 0
          ∧ RegsBut [ringCfg d, lg rHST_LOG_PROD (d - 33), lg rHST_LOG_CONS (d - 33)] s t)
    ∧ (d ≤ 36 → s.ownerOfRing d = .pf1 → side ≠ .pf1 → ∀ on, on ≤ 1 →
        ∃ t, exec (.ringEnable d on side) s = .next t ∧ t = s.filterReject)
    ∧ (d ≤ 32 → s.ownerOfRing d = side → (side = .pf0 → s.halted .rgs = false ∧ s.halted .hst = false) → s.f (ringCfg d) 8 1 = 1 → s.ringState d ≠ 3 → s.inRecovery = false ∨ d = 0 →
        let n := (count % 2 ^ 32 + 2 ^ 32 - s.rn (rg rHST_RING_HEAD d)) % 2 ^ 32
        ∃ t, exec (.docketDoorbell d count side) s = .next t ∧ t.rn (rg rHST_RING_TAIL d) = count % 2 ^ 32
          ∧ t.rn (rg rHST_RING_HEAD d) = s.rn (rg rHST_RING_HEAD d) ∧ RegsButRecords [] s t
          ∧ (n ≤ 2 ^ s.f (ringCfg d) 0 5 → OnlyRegs s t ∧ RegsBut [rg rHST_RING_TAIL d] s t)
          ∧ (2 ^ s.f (ringCfg d) 0 5 < n → t.ringState d = 3 ∧ t.f (rg rHST_RING_STAT d) 4 4 = 1))
    ∧ (d ≤ 36 → s.ownerOfRing d ≠ side → ∃ t, (if d ≤ 32 then exec (.docketDoorbell d count side) s
          else exec (.logbookDoorbell (d - 33) count side) s) = .next t ∧ t = s.filterReject)
    ∧ (∀ l, l ≤ 3 → s.ownerOfRing (33 + l) = side → (side = .pf0 → s.halted .rgs = false ∧ s.halted .hst = false) → s.f (ringCfg (33 + l)) 8 1 = 1 → s.inRecovery = false →
        let was := s.rn (lg rHST_LOG_CONS l)
        let past := decide ((s.rn (lg rHST_LOG_PROD l) + 2 ^ 32 - was) % 2 ^ 32 < (count % 2 ^ 32 + 2 ^ 32 - was) % 2 ^ 32)
        ∃ t, exec (.logbookDoorbell l count side) s = .next t ∧ OnlyRegs s t
          ∧ t.rn (lg rHST_LOG_CONS l) = (if past then was else count % 2 ^ 32) ∧ RegsBut [lg rHST_LOG_CONS l] s t)

/-- R433, R466, R468, R469: with space for two records LOST_RECORDS tells how many were lost and the SEQ of the first; it goes to
the place PRODUCER names, PRODUCER rises and the status block follows. A link trained at a rate and width shows both and carries
the records that waited, here one. -/
def Obligations.RecordsReachTheirRing : Prop :=
  ∀ (s : State) (l : Nat),
    l < 4 → s.logEnabled l = true →
    let p := s.rn (lg rHST_LOG_PROD l)
    let place := s.rd64 (lg rHST_LOG_BASE_LO l) (lg rHST_LOG_BASE_HI l) + p % 2 ^ s.f (lg rHST_LOG_CFG l) 0 5 * 32
    let stat := s.rd64 (lg rHST_LOG_STATUS_LO l) (lg rHST_LOG_STATUS_HI l)
    (stat + 8 ≤ place ∨ place + 32 ≤ stat) →
    (∀ n first, s.logOpen l = true → aget (0, 0) s.host.lost l = (n, first) → 0 < n → 2 ≤ s.logFree l →
        ∃ t, exec (.logbookSpaceReturn l) s = .next t ∧ t.rn (lg rHST_LOG_PROD l) = (p + 1) % 2 ^ 32
          ∧ t.hostRead place 32 = recordBytes 0x11 .hst 0 s.host.seq s.timer (leBytes 4 n ++ leBytes 4 first)
          ∧ at_ (t.hostRead stat 4) 0 4 = (p + 1) % 2 ^ 32 ∧ (aget (0, 0) t.host.lost l).1 = 0
          ∧ t.host.seq = (s.host.seq + 1) % 2 ^ 32 ∧ RegsBut [lg rHST_LOG_PROD l] s t)
    ∧ (∀ rate width rec, rate ∈ [1, 5, 6, 7] → width ∈ [4, 8, 16] → rec.length = 32 → s.host.queue = [(l, rec)] →
        s.host.d3 = [] → s.host.noMaster = [] → (aget (0, 0) s.host.lost l).1 = 0 → 1 ≤ s.logFree l → s.inRecovery = false →
        ∃ t, exec (.logQueueFlush rate width) s = .next t ∧ t.host.linkUp = true ∧ t.host.queue = [] ∧ t.hostRead place 32 = rec
          ∧ t.host.flitMode = decide (5 ≤ rate) ∧ t.f (winBase .hst 0 + rHST_STAT) 0 3 = rate ∧ t.f (winBase .hst 0 + rHST_STAT) 4 5 = width
          ∧ t.rn (lg rHST_LOG_PROD l) = (p + 1) % 2 ^ 32 ∧ RegsBut [winBase .hst 0 + rHST_STAT, lg rHST_LOG_PROD l] s t)

/-- R454, R455, R487, R496: BAR2 reads and writes a byte of the Vault through its window; an FLR disables a function's rings and
resets HST_BAR2_BASE of PF0; D3hot and Bus Master Enable are a function's own; PERST and a lost link take the link down; a notice
leaves at once when 1 ms has passed, else it waits. -/
def Obligations.HostFunctions : Prop :=
  ∀ (s : State),
    (∀ off, off < 2 ^ 36 → s.barOpen .pf0 = true → s.f (winBase .pwr 0 + rPWR_STATE_STAT) 0 3 ≠ 4 → whereIs (s.bar2Addr off) = .vault →
        s.wiping true = false → s.hostReaches (s.bar2Addr off) 1 = true → s.vault.held = [] →
        (∀ x, s.frozenPage (s.bar2Addr off) = none → s.peek true (s.bar2Addr off) = .ok x →
          ∃ t, exec (.bar2Read off 1) s = .next t ∧ t.out = s.out ++ [.read (2 ^ 36 + off) [x] .data] ∧ RegsBut [] s t
            ∧ t.vault.cells = s.vault.cells ∧ t.store = s.store)
        ∧ (∀ x, s.memDead true (s.vault.phys (s.bar2Addr off)) = false → s.pageOff (s.bar2Addr off) = false → s.pair.blocked = false → s.pair.freeze = none →
          ∃ t, exec (.bar2Write off [x]) s = .next t ∧ aget 0 t.vault.cells (t.vault.phys (s.bar2Addr off)) = BitVec.ofNat 8 x
            ∧ t.store.cells = s.store.cells ∧ t.out = s.out))
    ∧ (∀ off n, off + n ≤ 2 ^ 36 → 1 ≤ n → n ≤ 4096 → s.barOpen .pf0 = false →
        ∃ t, exec (.bar2Read off n) s = .next t ∧ t = { s with out := s.out ++ [.read (2 ^ 36 + off) [] .unsupported] })
    ∧ (∀ pf, pf < 2 → s.host.entries = [] → let own : Side := if pf = 0 then .pf0 else .pf1
        ∃ t, exec (.flr pf) s = .next t ∧ OnlyRegs s t
          ∧ (∀ d, d ≤ 36 → s.ownerOfRing d = own → t.f (ringCfg d) 8 1 = 0 ∧ t.rn (ringCfg d) = (resetVal (ringCfg d)).toNat)
          ∧ (∀ d, d ≤ 36 → s.ownerOfRing d ≠ own → t.rn (ringCfg d) = s.rn (ringCfg d))
          ∧ (pf = 0 → t.rn (winBase .hst 0 + rHST_BAR2_BASE) = 0))
    ∧ (∀ pf d3 bme, pf < 2 → let own : Side := if pf = 0 then .pf0 else .pf1
        ∃ t, exec (.functionStateChange pf d3 bme) s = .next t ∧ t = { s with host := { s.host with d3 := t.host.d3, noMaster := t.host.noMaster } }
          ∧ (own ∈ t.host.d3 ↔ d3 = 1) ∧ (own ∈ t.host.noMaster ↔ bme = 0)
          ∧ ∀ x, x ≠ own → (x ∈ t.host.d3 ↔ x ∈ s.host.d3) ∧ (x ∈ t.host.noMaster ↔ x ∈ s.host.noMaster))
    ∧ (s.host.entries = [] → ∃ t, exec .perst s = .next t ∧ t.host.linkUp = false ∧ t.host.d3 = [] ∧ t.host.noMaster = [.pf0, .pf1]
          ∧ (∀ d, d ≤ 36 → t.f (ringCfg d) 8 1 = 0) ∧ t.rn (winBase .hst 0 + rHST_BAR2_BASE) = 0)
    ∧ (s.host.linkUp = true → ∃ t, exec .pcieLinkDown s = .next t ∧ t.host.linkUp = false ∧ t.host.flitMode = false
          ∧ t.f (winBase .hst 0 + rHST_STAT) 0 3 = 0 ∧ RegsButRecords [] s t)
    ∧ (∀ v side, s.collector = true → s.inRecovery = false → s.reaches side = true →
        (s.host.noticeLast = none ∨ (∃ x, s.host.noticeLast = some x ∧ x + 200000 ≤ s.timer) →
          ∃ t m, exec (.wardenNoticeWrite v side) s = .next t ∧ t.host.noticeWaiting = none ∧ t.host.noticeLast = some s.timer
            ∧ t.out = s.out ++ [.warden m] ∧ at_ m 5 1 = 0xC0 ∧ at_ m 32 1 = 5 ∧ at_ m 40 8 = v % 2 ^ 32 ∧ RegsBut [] s t)
        ∧ (∀ x, s.host.noticeLast = some x → s.timer < x + 200000 →
          ∃ t, exec (.wardenNoticeWrite v side) s = .next t ∧ t = { s with host := { s.host with noticeWaiting := some (v % 2 ^ 32) } })
        ∧ (∀ x, s.host.noticeWaiting = some v → s.host.noticeLast = some x → x + 200000 ≤ s.timer →
          ∃ t m, exec .noticeSend s = .next t ∧ t.host.noticeWaiting = none ∧ t.out = s.out ++ [.warden m] ∧ RegsBut [] s t))

/-- R254, R260, R265 to R267, R270, R280: a good DATA flit next in sequence joins the crates in order, one of an earlier SEQ is
counted and discarded; CONTROL acknowledges and releases, names bad slots to send again and returns credits; CREDIT returns
credits; IDLE carries FAULT; a flit RS cannot decode is counted, and its slot will be reported. -/
def Obligations.FlitsAreTaken : Prop :=
  ∀ (s : State) (j l : Nat) (raw : List Nat),
    s.receives j l = true → raw.length = 280 → s.linkState j l = 2 →
    let x := s.chan j
    (∀ n h p, GoodFlit s j l raw n h p →
      let corrected := fun (t : State) => t.rn (cr j rWNG_FEC_CORR_COUNT) = min 0xFFFFFFFF (s.rn (cr j rWNG_FEC_CORR_COUNT) + n)
      let back := fun (t : State) => ∀ c, c < 4 → s.p1 j = false →
        ((t.chan j).cls c).freedH = (if seqBefore (x.cls c).freedH (at_ p (8 + 2 * c) 2) then at_ p (8 + 2 * c) 2 else (x.cls c).freedH)
        ∧ ((t.chan j).cls c).freedD = (if seqBefore (x.cls c).freedD (at_ p (16 + 2 * c) 2) then at_ p (16 + 2 * c) 2 else (x.cls c).freedD)
      (fld h 60 4 = 1 → let f := s.flitOf j h p; f.cls ≠ 1 ∨ s.feature j 0 = true →
        (fld h 42 16 = (x.cls f.cls).next → x.held = [] →
          ∃ t, exec (.dataFlit j l raw) s = .next t ∧ (t.chan j).ready = x.ready ++ [f] ∧ (t.chan j).held = []
            ∧ ((t.chan j).cls f.cls).next = (fld h 42 16 + 1) % 2 ^ 16 ∧ (t.chan j).inOrder = x.inOrder + 1 ∧ corrected t
            ∧ RegsBut [cr j rWNG_FEC_CORR_COUNT] s t)
        ∧ (0x8000 ≤ (fld h 42 16 + 2 ^ 16 - (x.cls f.cls).next) % 2 ^ 16 →
          ∃ t, exec (.dataFlit j l raw) s = .next t ∧ (t.chan j).ready = x.ready ∧ (t.chan j).held = x.held ∧ (t.chan j).classes = x.classes
            ∧ t.rn (cr j rWNG_DUP_COUNT) = min 0xFFFFFFFF (s.rn (cr j rWNG_DUP_COUNT) + 1)
            ∧ RegsBut [cr j rWNG_FEC_CORR_COUNT, cr j rWNG_DUP_COUNT] s t))
      ∧ (fld h 60 4 = 2 → controlOk true h p = true → at_ p 25 1 = 3 → bit (at_ p 26 1) 0 = false →
          ∃ t, exec (.controlFlit j l raw) s = .next t ∧ corrected t ∧ back t ∧ RegsBut [cr j rWNG_FEC_CORR_COUNT] s t
            ∧ (∀ c, c < 4 → ((t.chan j).cls c).acked = if seqBefore (x.cls c).acked (at_ p (2 * c) 2) then at_ p (2 * c) 2 else (x.cls c).acked)
            ∧ (∀ e, e ∈ (t.chan j).replay ↔ e ∈ x.replay ∧ ¬ (e.2.2.cls < 4 ∧ seqBefore (x.cls e.2.2.cls).acked (at_ p (2 * e.2.2.cls) 2) = true
                ∧ seqBefore e.1 (at_ p (2 * e.2.2.cls) 2) = true))
            ∧ (∀ i z, i < at_ p 24 1 → let y := at_ p (32 + 4 * i) 4
                (x.link (fld y 16 1)).log.find? (fun e => e.1 == fld y 0 16) = some z →
                (∃ e ∈ (t.chan j).replay, e.1 = z.2.2 ∧ e.2.2.cls = z.2.1) → (z.2.1, z.2.2) ∈ (t.chan j).retx))
      ∧ (fld h 60 4 = 3 → controlOk false h p = true →
          ∃ t, exec (.creditFlit j l raw) s = .next t ∧ corrected t ∧ back t ∧ (t.chan j).replay = x.replay ∧ (t.chan j).retx = x.retx
            ∧ RegsBut [cr j rWNG_FEC_CORR_COUNT] s t)
      ∧ (fld h 60 4 = 4 → fld h 0 25 = 0 → zeroIn p 0 256 = true →
          ∃ t, exec (.idleFlit j l raw) s = .next t ∧ corrected t ∧ ((t.chan j).link l).fault = bit h 25
            ∧ (t.chan j).classes = x.classes ∧ RegsBut [cr j rWNG_FEC_CORR_COUNT, cr j rWNG_CHAN_STAT] s t))
    ∧ (∀ n, checkFlit raw = .uncorr → (x.link l).rxLsn = some n →
        ∃ t, exec (.badFlit j l raw) s = .next t ∧ (t.chan j).naks = x.naks ++ [(l, n)] ∧ (t.chan j).controlDue = true
          ∧ ((t.chan j).link l).rxLsn = some ((n + 1) % 2 ^ 16) ∧ (t.chan j).classes = x.classes ∧ (t.chan j).held = x.held
          ∧ t.rn (cr j rWNG_FEC_UNCORR_COUNT) = min 0xFFFFFFFF (s.rn (cr j rWNG_FEC_UNCORR_COUNT) + 1)
          ∧ RegsBut [cr j rWNG_FEC_UNCORR_COUNT] s t)

/-- The registers that say which lane is on which slot of a link's channel. -/
def laneRegs (j l : Nat) : List Nat :=
  (List.range 36).map (sl j · rWNG_RX_SLOT_STAT) ++ (List.range 36).map (sl j · rWNG_TX_SLOT_STAT) ++ (List.range 16).map (steer j l)

/-- R262, R272, R273, R277, R278: the first INIT of a channel gives it its peer, the INSTANCE and the lower of the two levels; an
exchange that does not complete starts again from lane training, and takes the channel down where it was open and its other link
is down; a rejoin opens an exchange with REJOIN, where the lanes not lost carry a width. -/
def Obligations.InitOpensAChannel : Prop :=
  ∀ (s : State) (j l : Nat),
    j < 36 → l < 2 →
    (∀ raw n h p, raw.length = 280 → GoodFlit s j l raw n h p → fld h 60 4 = 5 → initOk h p = true → at_ p 0 1 = 2 →
        ((s.chan j).link l).init = true → (s.chan j).peerInstance = none → (s.lane j l).lost = [] →
        ∃ t, exec (.initFlit j l raw) s = .next t ∧ (t.chan j).peerInstance = some (at_ p 12 2) ∧ ((t.chan j).link l).gotInit = true
          ∧ t.rn (cr j rWNG_CHAN_PEER) = at_ p 2 2 + at_ p 4 1 % 64 * 2 ^ 16 + at_ p 1 1 % 16 * 2 ^ 24 + 2 * 2 ^ 28
          ∧ t.f (cr j rWNG_CHAN_STAT) 16 4 = min (s.f (wg (j / 9) rWNG_FEATURE_CFG) 0 8) (at_ p 1 1) % 16
          ∧ (∀ c, c < 4 → ((t.chan j).cls c).advH = at_ p (16 + 2 * c) 2 ∧ ((t.chan j).cls c).advD = at_ p (24 + 2 * c) 2)
          ∧ RegsButRecords ([cr j rWNG_CHAN_STAT, cr j rWNG_CHAN_PEER, cr j rWNG_CHAN_RTT, cr j rWNG_FEC_CORR_COUNT] ++ laneRegs j l) s t)
    ∧ (((s.chan j).link l).init = true →
        (s.linkState j l = 0 ∨ s.linkState j (1 - l) ≠ 0 →
          ∃ t n, exec (.initTimeout j l) s = .next t ∧ t.linkState j l = 0 ∧ t.bringup j l = 1 ∧ ((t.chan j).link l).init = false
            ∧ t.lane j l = { LaneLink.reset with nonce := n, interval := (s.lane j l).interval }
            ∧ t.out = s.out ++ (List.range 18).map fun x => Out.training (j / 9) (2 * (j % 9) + l) (leBytes 32 (t.frame j l x false)))
        ∧ (s.linkState j l ≠ 0 → s.linkState j (1 - l) = 0 →
          ∃ t, exec (.initTimeout j l) s = .next t ∧ t.linkState j l = 0 ∧ t.chan j = { Chan.reset with isolated := (s.chan j).isolated }))
    ∧ (s.linkState j l = 1 → s.p1 j = false → ((s.chan j).link l).init = false → let w := s.widthFor j (s.linkWidth j l - (s.lane j l).lost.length)
        (w < 8 → ∃ t, exec (.linkRejoin j l) s = .next t ∧ t = s)
        ∧ (8 ≤ w → ∃ t, exec (.linkRejoin j l) s = .next t ∧ ((t.chan j).link l).init = true ∧ ((t.chan j).link l).lsn = 0
          ∧ ((t.chan j).link l).rejoin = true ∧ ((t.chan j).link l).width = w
          ∧ (t.chan j).replay = (s.chan j).replay ∧ RegsBut [cr j rWNG_CHAN_STAT] s t))

/-- R249, R255, R263 to R265, R268, R270, R280, R320, R437: a slot carries IDLE with FAULT in Lockdown, a new DATA flit with the next
SEQ of its class where nothing else is due, what is due again before it, and IDLE where there is nothing; a whole crate in order leaves the reorder buffer
and frees its credits; the timers make CONTROL, CREDIT and retransmission due. -/
def Obligations.SlotsAndTimers : Prop :=
  ∀ (s : State) (j l : Nat),
    j < 36 → l < 2 →
    let x := s.chan j
    let slot := (x.link l).lsn
    let sent := fun (h : Nat) (p : List Byte) => s.out ++ [Out.flit (j / 9) (2 * (j % 9) + l) ((sealFlit h p).map (BitVec.ofNat 8))]
    (s.receives j l = true → s.locked = true →
        ∃ t, exec (.flitSlot j l) s = .next t ∧ t.out = sent (4 * 2 ^ 60 + slot * 2 ^ 26 + 2 ^ 25) [] ∧ RegsBut [] s t
          ∧ ((t.chan j).link l).lsn = (slot + 1) % 2 ^ 16)
    ∧ (s.receives j l = true → s.locked = false → s.halted .wng (j / 9) = false → (x.link l).init = false → x.controlDue = false → (x.link l).widthDue = false →
        x.creditDue = false → (x.link l).sinceOther < 255 → s.chanState j ≠ 5 → s.peerOk j = true →
        (∀ e, s.nextResend j l = some e → e.2.2.congested = false →
          ∃ t, exec (.flitSlot j l) s = .next t ∧ t.out = sent (s.dataHeader j e.1 e.2.2) e.2.2.payload
            ∧ t.rn (cr j rWNG_REPLAY_COUNT) = min 0xFFFFFFFF (s.rn (cr j rWNG_REPLAY_COUNT) + 1) ∧ RegsBut [cr j rWNG_REPLAY_COUNT] s t
            ∧ (t.chan j).queue = x.queue ∧ (t.chan j).retx = x.retx.erase (e.2.2.cls, e.1))
        ∧ (x.resends = [] → ∀ f, s.nextNew j l = some f → f.congested = false → f.cls < 4 → let q := (x.cls f.cls).nextSeq
          ∃ t, exec (.flitSlot j l) s = .next t ∧ t.out = sent (s.dataHeader j q f) f.payload ∧ RegsBut [] s t
            ∧ ((t.chan j).cls f.cls).nextSeq = (q + 1) % 2 ^ 16 ∧ (t.chan j).queue = x.queue.erase f
            ∧ (t.chan j).replay = x.replay ++ [(q, l, f)] ∧ ((t.chan j).link l).lsn = (slot + 1) % 2 ^ 16)
        ∧ (x.resends = [] → s.nextNew j l = none → ∃ t, exec (.flitSlot j l) s = .next t ∧ t.out = sent (4 * 2 ^ 60 + slot * 2 ^ 26) [] ∧ RegsBut [] s t))
    ∧ (∀ c f rest d, x.ready.filter (fun g => g.cls == c) = f :: rest → f.last = true → crateOf j [f] = some d →
        s.unset = false → s.substMod d.destModule = s.myId → (d.destTile % 64 ≤ 32 ∨ d.tc = 3) → (d.op = 4 ∨ c = 1 → ∀ q ∈ s.fab.collIn, q.via ≠ d.via) →
        (d.op = 0x11 → s.fab.heldWaves.length + s.fab.regIn.length < 64) → s.f (winBase .gal 0 + rGAL_STAT) 0 1 = 0 →
        (c = 1 → s.halted .col (j / 9) = false) →
        ∃ t, exec (.reorderRelease j c) s = .next t ∧ (t.chan j).ready = x.ready.erase f ∧ (t.chan j).replay = x.replay
          ∧ ((t.chan j).cls c).outH = ((x.cls c).outH + 1) % 2 ^ 16 ∧ ((t.chan j).cls c).outD = ((x.cls c).outD + 1) % 2 ^ 16
          ∧ (d.op = 4 → t.fab.collIn = s.fab.collIn ++ [{ d with destModule := s.myId }]))
    ∧ (0 < x.inOrder → ∃ t, exec (.ackTimerExpiry j) s = .next t ∧ t = s.mapChan j fun y => { y with controlDue := true })
    ∧ (∀ c, c < 4 → x.controlDue = false → (x.cls c).outH ≠ (x.cls c).repH →
        ∃ t, exec (.creditTimerExpiry j) s = .next t ∧ t = s.mapChan j fun y => { y with creditDue := true })
    ∧ (s.quietChan j = false → ∃ t, exec (.replayTimerExpiry j l) s = .next t ∧ (t.chan j).replay = x.replay ∧ RegsBut [] s t
          ∧ (∀ e ∈ x.replay, e.2.1 = l → (e.2.2.cls, e.1) ∈ (t.chan j).retx) ∧ (∀ e ∈ x.retx, e ∈ (t.chan j).retx))

/-- R275, R276, R278, R279: suspension keeps the channel's buffers, counts and asks for CONTROL; a link goes down, and the channel is
reset when its sibling is down as well; a width change holds the link, asks for CONTROL and retrains its lanes, their moves abandoned; a
channel reset discards every flit and counts them from 0; a grant is taken within R271. -/
def Obligations.LinksComeAndGo : Prop :=
  ∀ (s : State) (j l : Nat),
    j < 36 → l < 2 →
    let x := s.chan j
    let stat := cr j rWNG_CHAN_STAT
    (s.linkState j l = 2 ∨ s.linkState j l = 3 ∨ (x.link l).init = true → ∃ t, exec (.linkSuspend j l) s = .next t ∧ t.linkState j l = 1 ∧ t.linkState j (1 - l) = s.linkState j (1 - l)
        ∧ (t.chan j).controlDue = true ∧ (t.chan j).replay = x.replay ∧ (∀ e ∈ x.replay, e.2.1 = l → (e.2.2.cls, e.1) ∈ (t.chan j).retx)
        ∧ t.rn (cr j rWNG_FAILOVER_COUNT) = min 0xFFFFFFFF (s.rn (cr j rWNG_FAILOVER_COUNT) + 1)
        ∧ RegsButRecords [stat, cr j rWNG_FAILOVER_COUNT] s t)
    ∧ (s.linkState j l ≠ 0 → s.linkState j (1 - l) ≠ 0 →
        let down := fun (t : State) => t.linkState j l = 0 ∧ t.f stat (8 + 2 * l) 2 = 3 ∧ t.bringup j l = 5
          ∧ t.linkState j (1 - l) = s.linkState j (1 - l) ∧ (t.chan j).replay = x.replay ∧ (t.chan j).controlDue = true
          ∧ (∀ e ∈ x.replay, e.2.1 = l → (e.2.2.cls, e.1) ∈ (t.chan j).retx) ∧ RegsButRecords [stat, lk j l rWNG_LINK_STAT, wg (j / 9) rWNG_CAL_ABANDON_COUNT] s t
        (∀ side, ∃ t, exec (.linkDown j l side) s = .next t ∧ down t)
        ∧ (s.linkState j l = 1 → (x.link l).init = false → ∃ t, exec (.linkDownTimer j l) s = .next t ∧ down t)
        ∧ (∀ c, s.p1 j = true → s.quietChan j = false → s.classWaits j c = true → (x.cls c).creditLink = l →
            ∃ t, exec (.creditTimeout j c) s = .next t ∧ down t))
    ∧ (∀ side, s.linkState j l ≠ 0 → s.linkState j (1 - l) = 0 → x.isolated = false →
        ∃ t, exec (.linkDown j l side) s = .next t ∧ t.chan j = Chan.reset ∧ t.chanState j = 1)
    ∧ (∀ width code, (width, code) ∈ [(16, 0), (12, 1), (8, 2)] → s.linkState j l = 2 → s.f stat (8 + 2 * l) 2 ≠ code →
        (code = 1 → s.feature j 1 = true) → (∀ m ∈ (s.lane j l).moves, m.2 < 36) →
        ∃ t, exec (.widthChange j l width) s = .next t ∧ t.linkState j l = 3 ∧ (t.chan j).widthReq = some (l, code)
          ∧ (t.chan j).controlDue = true ∧ ((t.chan j).link l).width = width ∧ ((t.chan j).link l).init = false ∧ (t.lane j l).moves = []
          ∧ (t.lane j (s.rxFibre j l)).rxDone = false ∧ (t.lane j l).peerDone = false
          ∧ t.out = s.out ++ (List.range 18).map (fun y => Out.training (j / 9) (2 * (j % 9) + l) (leBytes 32 (t.frame j l y false)))
          ∧ (t.lane j l).nonce = Config.entropy s.free % 2 ^ 16 ∧ (t.chan j).replay = x.replay
          ∧ RegsBut ([stat, wg (j / 9) rWNG_CAL_ABANDON_COUNT] ++ laneRegs j l) s t)
    ∧ (∀ side, ∃ t, exec (.channelReset j side) s = .next t ∧ t.chan j = { Chan.reset with isolated := x.isolated }
        ∧ (x.isolated = false → t.chanState j = 1) ∧ (∀ k, k ≠ j → t.chan k = s.chan k)
        ∧ t.rn (cr j rWNG_DROP_COUNT) = min 0xFFFFFFFF (x.replay.length + x.queue.length + x.held.length + x.ready.length))
    ∧ (∀ w c v side, w < 4 → c < 4 → v < 2 ^ 32 → let a := wg w (rWNG_CREDIT_ADV + 4 * c)
        let new := v &&& 0x3FFF0FFF ||| s.rn a &&& 0xC000F000
        let fits := (s.wn a new).creditAdvOk w
        ∃ t, exec (.creditAdvWrite w c v side) s = .next t ∧ OnlyRegs s t ∧ t.rn a = (if fits then new else s.rn a)
          ∧ t.rn (wg w rWNG_CFG_REJECT_COUNT) = (if fits then s.rn (wg w rWNG_CFG_REJECT_COUNT)
              else min 0xFFFFFFFF (s.rn (wg w rWNG_CFG_REJECT_COUNT) + 1))
          ∧ RegsBut [a, wg w rWNG_CFG_REJECT_COUNT] s t)

/-- R333, R337 to R342: bring-up starts with the link's rings locked, a NONCE and a frame on each of its 18 slots; a good frame gives
its slot lock and says who sends it, and the pair's frames say so; one whose slot fits neither order, or whose sender is another
channel than the sibling fibre's, is a MAPPING failure; a margin test fills the slots in and
sets RX_DONE; 5 ms end a bring-up; a retry waits twice as long the next time, up to 1 s. -/
def Obligations.LinksAreBroughtUp : Prop :=
  ∀ (s : State) (j l : Nat),
    j < 36 → l < 2 →
    let stat := lk j l rWNG_LINK_STAT
    let frames := fun (t : State) => t.out = s.out ++ (List.range 18).map fun x => Out.training (j / 9) (2 * (j % 9) + l) (leBytes 32 (t.frame j l x false))
    let starts := fun (t : State) => t.bringup j l = 1 ∧ frames t ∧ (∀ x, x < 18 → t.f (sl j (18 * s.rxFibre j l + x) rWNG_CAL_RX) 14 1 = 1
        ∧ t.f (sl j (18 * l + x) rWNG_RING_TX) 14 1 = 1)
    (s.bringup j l = 0 → s.linkState j l = 0 → (s.chan j).isolated = false → s.dark = false →
        ∃ t n, exec (.bringupStart j l) s = .next t ∧ starts t ∧ t.lane j l = { LaneLink.reset with nonce := n, interval := (s.lane j l).interval })
    ∧ (∀ r frame b inv, r < 18 → 1 ≤ s.bringup j l → s.bringup j l ≤ 3 → s.rxFibre j l = l → openFrame frame = some (b, inv) → let x := fld b 22 5
        (x = r ∨ x + r = 17 → s.miscabled j l b = false → bit b 68 = false →
          ∃ t, exec (.trainingFrame j l r frame) s = .next t ∧ ((s.lane j l).heard ≠ some (fld b 21 1) → frames t)
            ∧ (t.lane j l).sender = some (fld b 0 15, fld b 15 6) ∧ (t.lane j l).heard = some (fld b 21 1) ∧ (t.lane j l).peerNonce = fld b 33 16
            ∧ t.f (sl j (18 * l + x) rWNG_RX_SLOT_STAT) 8 1 = 1 ∧ t.f (sl j (18 * l + x) rWNG_RX_SLOT_STAT) 7 1 = b2n inv
            ∧ RegsBut [sl j (18 * l + x) rWNG_RX_SLOT_STAT, stat] s t)
        ∧ ((x ≠ r ∧ x + r ≠ 17) ∨ s.miscabled j l b = true → ∃ t, exec (.trainingFrame j l r frame) s = .next t ∧ t.bringup j l = 5 ∧ t.f stat 16 4 = 3
            ∧ RegsButRecords [stat, cr j rWNG_CHAN_STAT] s t))
    ∧ (∀ ms, s.bringup j l = 1 → s.rxFibre j l = l → (s.lane j l).rxDone = false → ms.length = 18 → (s.lane j l).peerDone = false → (s.lane j (1 - l)).peerDone = false →
        ∃ t, exec (.marginTestDone j l ms) s = .next t ∧ (t.lane j l).rxDone = true ∧ t.bringup j l = 2 ∧ frames t
          ∧ (∀ x, x < 18 → t.f (sl j (18 * l + x) rWNG_RX_SLOT_STAT) 16 8 = min 255 (ms.getD x 0)
              ∧ (s.rxForeign j (18 * l + x) = false → t.rxUse j (18 * l + x) = if t.rxTakes j (18 * l + x) then 0 else 2))
          ∧ RegsButRecords (stat :: (List.range 18).map fun x => sl j (18 * l + x) rWNG_RX_SLOT_STAT) s t)
    ∧ (1 ≤ s.bringup j l → s.bringup j l ≤ 3 → ∃ t, exec (.bringupTimeout j l) s = .next t ∧ t.bringup j l = 5 ∧ t.f stat 16 4 = 5
          ∧ RegsButRecords [stat, cr j rWNG_CHAN_STAT] s t)
    ∧ (s.bringup j l = 5 → s.cur.now = none ∨ (s.chanMap j).level ≠ 0 → (s.chan j).isolated = false → s.dark = false →
        (s.p1 j = false ∨ ((s.chan j).link l).fell = false) →
        let n := (s.lane j l).interval
        ∃ t, exec (.retrainRetry j l) s = .next t ∧ starts t
          ∧ (t.lane j l).interval = (if n = 0 then s.f (wg (j / 9) rWNG_RETRAIN_TIME) 0 10 else min 1000 (2 * n))
          ∧ t.rn (wg (j / 9) rWNG_RETRAIN_COUNT) = min 0xFFFFFFFF (s.rn (wg (j / 9) rWNG_RETRAIN_COUNT) + 1))

/-- R335, R344 to R346, R350 to R352, R275: a request is answered by MOVE to a free slot or by REFUSE; a move named by the partner is a
target; the receiver takes the lane from its new slot and says so, and the sender releases the old one; without an answer the
slot goes back. A Suspect slot is never taken (R364). A lane that unlocks, or whose error rate stays high for three updates, asks to move; a lagging or refused lane is
lost; width rises when both directions can carry more; in a width change margins are measured anew (R339), and when both ends know
them the exchange of INIT begins; DATA resumes once that is complete, unless fewer than 8 lanes are left. -/
def Obligations.LanesMove : Prop :=
  ∀ (s : State) (j l b : Nat),
    let used := s.laneUsed j l b = true
    let k := s.lane j l
    let said := fun (t : State) (op slot fibre : Nat) =>
      t.out = s.out ++ [Out.laneFrame (j / 9) (2 * (j % 9) + l) (leBytes 4 (laneFrame op (s.peerLink j l) b slot fibre))]
    (∀ ms, used → k.moves.any (fun m => m.1 == b) = false →
        (∀ x, s.freeSlot j l (fun y => ms.getD y 0) = some x → ∃ t, exec (.laneRequest j l b ms) s = .next t
          ∧ said t 2 (x % 18) (b2n (x / 18 != l)) ∧ t.lane j l = { k with moves := k.moves ++ [(b, x)] } ∧ t.txUse j x = 2
          ∧ t.f (steer j l b) 15 1 = 1 ∧ RegsBut [sl j x rWNG_TX_SLOT_STAT, steer j l b] s t)
        ∧ (s.freeSlot j l (fun y => ms.getD y 0) = none → ∃ t, exec (.laneRequest j l b ms) s = .next t ∧ said t 4 0 0 ∧ t.lane j l = k
          ∧ t.rn (wg (j / 9) rWNG_REFUSE_COUNT) = min 0xFFFFFFFF (s.rn (wg (j / 9) rWNG_REFUSE_COUNT) + 1)
          ∧ RegsButRecords [wg (j / 9) rWNG_REFUSE_COUNT] s t))
    ∧ (∀ slot fibre, used → slot < 18 → fibre < 2 → let x := 18 * (if fibre = 1 then 1 - s.rxFibre j l else s.rxFibre j l) + slot
        s.rxUse j x ≠ 1 → (s.f (sl j x rWNG_RX_SLOT_STAT) 9 1 = 1 → ∃ t, exec (.laneMove j l b slot fibre) s = .next t ∧ t = s)
          ∧ (s.f (sl j x rWNG_RX_SLOT_STAT) 9 1 = 0 → aget none s.light.calNow j = none → ∃ t, exec (.laneMove j l b slot fibre) s = .next t
          ∧ t.lane j l = { k with asked := k.asked.filter (· != b), targets := (k.targets.filter fun m => m.1 != b) ++ [(b, x)] }
          ∧ t.f (steer j l b) 15 1 = 1 ∧ RegsBut [steer j l b] s t))
    ∧ (∀ x, used → k.targets.find? (fun m => m.1 == b) = some (b, x) → x < 36 → s.f (sl j x rWNG_RX_SLOT_STAT) 8 1 = 1 → s.f (sl j x rWNG_RX_SLOT_STAT) 9 1 = 0 →
        ∃ t, exec (.laneTakeNewSlot j l b) s = .next t ∧ said t 3 (x % 18) (b2n (x / 18 != s.rxFibre j l)) ∧ t.rxUse j x = 1 ∧ t.f (sl j x rWNG_RX_SLOT_STAT) 2 4 = b
          ∧ t.rxSlotOf j l b = x ∧ (t.lane j l).targets = k.targets.filter (fun m => m.1 != b) ∧ (t.lane j l).moves = k.moves
          ∧ RegsBut [sl j x rWNG_RX_SLOT_STAT, sl j (s.rxSlotOf j l b) rWNG_RX_SLOT_STAT, steer j l b] s t)
    ∧ (∀ x, used → k.moves.find? (fun m => m.1 == b) = some (b, x) → x < 36 →
        (∃ t, exec (.laneSwitched j l b) s = .next t ∧ t.txSlotOf j l b = x ∧ t.txUse j x = (if s.slotDead j x then 3 else 1)
          ∧ (s.txSlotOf j l b ≠ x → s.txSlotOf j l b < 36 → t.txUse j (s.txSlotOf j l b) = if s.txPasses j (s.txSlotOf j l b) then 0 else 3)
          ∧ (t.lane j l).moves = k.moves.filter (fun m => m.1 != b)
          ∧ t.rn (wg (j / 9) rWNG_MOVE_COUNT) = min 0xFFFFFFFF (s.rn (wg (j / 9) rWNG_MOVE_COUNT) + 1)
          ∧ RegsBut [sl j x rWNG_TX_SLOT_STAT, sl j (s.txSlotOf j l b) rWNG_TX_SLOT_STAT, steer j l b, wg (j / 9) rWNG_MOVE_COUNT] s t)
        ∧ (∃ t, exec (.steerTimeout j l b) s = .next t ∧ t.txUse j x = (if s.slotDead j x then 3 else 0) ∧ t.txSlotOf j l b = s.txSlotOf j l b
          ∧ t.rn (wg (j / 9) rWNG_STEER_FAIL_COUNT) = min 0xFFFFFFFF (s.rn (wg (j / 9) rWNG_STEER_FAIL_COUNT) + 1)
          ∧ RegsButRecords [sl j x rWNG_TX_SLOT_STAT, steer j l b, wg (j / 9) rWNG_STEER_FAIL_COUNT] s t))
    ∧ (used → k.asked.contains b = false → k.targets.any (fun m => m.1 == b) = false →
        (∃ t, exec (.laneUnlock j l b) s = .next t ∧ (t.lane j l).asked = k.asked ++ [b] ∧ said t 1 0 0
          ∧ t.f (sl j (s.rxSlotOf j l b) rWNG_RX_SLOT_STAT) 8 1 = 0 ∧ RegsButRecords [sl j (s.rxSlotOf j l b) rWNG_RX_SLOT_STAT] s t)
        ∧ (∀ side, b < s.linkWidth j l → ∃ t, exec (.spare (j / 9) (2 * (j % 9) + l) b side) s = .next t
          ∧ (t.lane j l).asked = k.asked ++ [b] ∧ said t 1 0 0 ∧ RegsBut [] s t))
    ∧ (∀ side x, used → b < s.linkWidth j l → k.assignTx[b]? = some x → s.txSlotOf j l b ≠ x → s.txUse j x = 0 → s.txPasses j x = true →
        s.swapSlot j x = false → s.swapHeld j x = false → k.moves.any (fun m => m.1 == b) = false →
        ∃ t, exec (.restore (j / 9) (2 * (j % 9) + l) b side) s = .next t ∧ (t.lane j l).moves = k.moves ++ [(b, x)] ∧ t.txUse j x = 2)
    ∧ (s.linkState j l ≠ 2 → aget none s.light.calNow j = none →
        (k.asked.contains b = true → ∃ t, exec (.laneRefuse j l b) s = .next t ∧ b ∈ (t.lane j l).lost
          ∧ (t.lane j l).asked = k.asked.filter (· != b) ∧ RegsBut [] s t)
        ∧ (used → ∃ t, exec (.laneLag j l b) s = .next t ∧ b ∈ (t.lane j l).lost
          ∧ t.rn (wg (j / 9) rWNG_LAG_FAIL_COUNT) = min 0xFFFFFFFF (s.rn (wg (j / 9) rWNG_LAG_FAIL_COUNT) + 1)
          ∧ RegsButRecords [wg (j / 9) rWNG_LAG_FAIL_COUNT] s t))
    ∧ (∀ v, used → s.linkState j l = 2 → aget none s.light.calNow j = none →
        s.widthFor j (s.linkWidth j l - (if k.lost.contains b then k.lost else k.lost ++ [b]).length) = v → v ≠ 0 → v ≠ s.linkWidth j l →
        (∃ t, exec (.laneLag j l b) s = .next t ∧ t.linkState j l = 3 ∧ ((t.chan j).link l).width = v)
        ∧ (k.asked.contains b = true → ∃ t, exec (.laneRefuse j l b) s = .next t ∧ t.linkState j l = 3 ∧ ((t.chan j).link l).width = v))
    ∧ (∀ w n eye exp, w < 4 → n < 324 → eye < 256 → exp < 16 → exp < s.f (wg w rWNG_SPARE_EXP) 0 4 → 2 ≤ aget 0 s.light.bad (324 * w + n) →
        let c := 9 * w + n / 36
        let st := s.rn (sl c (n % 36) rWNG_RX_SLOT_STAT)
        let m := s.fibreLink c (n % 36 / 18)
        let o := if bit st 6 then 1 - m else m
        fld st 0 2 = 1 → (s.lane c o).targets.any (fun z => z.1 == fld st 2 4) = false →
        ∃ t, exec (.qualityUpdate w n eye exp) s = .next t ∧ fld st 2 4 ∈ (t.lane c o).asked ∧ aget 0 t.light.bad (324 * w + n) = 0
          ∧ RegsBut [wg w (rWNG_RX_SLOT_QUAL + 4 * n)] s t)
    ∧ (∀ w n eye exp, w < 4 → n < 324 → eye < 256 → exp < 16 → s.f (wg w rWNG_SPARE_EXP) 0 4 ≤ exp ∨ s.rxUse (9 * w + n / 36) (n % 36) ≠ 1 →
        ∃ t, exec (.qualityUpdate w n eye exp) s = .next t ∧ t.rn (wg w (rWNG_RX_SLOT_QUAL + 4 * n)) = eye + exp * 2 ^ 8
          ∧ aget 0 t.light.bad (324 * w + n) = 0 ∧ t.out = s.out ∧ RegsBut [wg w (rWNG_RX_SLOT_QUAL + 4 * n)] s t)
    ∧ (∀ v, j < 36 → l < 2 → s.linkState j l = 2 → s.assignWidth j l = v → s.linkWidth j l < v → (∀ m ∈ k.moves, m.2 < 36) →
        ∃ t, exec (.widthRiseTimer j l) s = .next t ∧ t.linkState j l = 3 ∧ ((t.chan j).link l).width = v
          ∧ RegsBut ([cr j rWNG_CHAN_STAT, wg (j / 9) rWNG_CAL_ABANDON_COUNT] ++ laneRegs j l) s t)
    ∧ (∀ ms f, j < 36 → f < 2 → s.fibreTrains j f = false → s.fibreRetrains j f = true → (s.lane j f).rxDone = false → ms.length = 18 →
        l = s.fibreLink j f → let u := s.takeMargins j f ms
        ∃ t, exec (.marginTestDone j f ms) s = .next t ∧ (t.lane j f).rxDone = true
          ∧ (∀ x, x < 18 → t.f (sl j (18 * f + x) rWNG_RX_SLOT_STAT) 16 8 = min 255 (ms.getD x 0))
          ∧ (k.peerDone = false → t.linkState j l = 3 ∧ ((t.chan j).link l).init = false
              ∧ t.out = s.out ++ (List.range 18).map fun x => Out.training (j / 9) (2 * (j % 9) + l) (leBytes 32 (t.frame j l x false)))
          ∧ (k.peerDone = true → s.rxFibre j l = f → u.assignWidth j l ≠ 0 → t.linkState j l = 3 ∧ ((t.chan j).link l).init = true
              ∧ ((t.chan j).link l).rejoin = true ∧ ((t.chan j).link l).width = min ((s.chan j).link l).width (u.assignWidth j l))
          ∧ (k.peerDone = true → s.rxFibre j l = f → u.assignWidth j l = 0 → t.linkState j l = 1))
    ∧ (∀ locked, let y := (s.chan j).link l;
        let w := min (s.linkWidth j l) ((s.takeLocks j (s.rxFibre j l) locked).assignWidth j l)
        j < 36 → l < 2 → s.linkState j l = 3 → y.init = true → y.gotInit = true → y.sentAcked = true → y.gotAcked = true →
        s.linkWidth j l ∈ [16, 12, 8] →
        (w < 8 → ∃ t, exec (.widthChangeDone j l locked) s = .next t ∧ t.linkState j l = 1 ∧ (t.chan j).controlDue = true)
        ∧ (8 ≤ w → ∃ t, exec (.widthChangeDone j l locked) s = .next t ∧ t.linkState j l = 2 ∧ t.linkWidth j l = w ∧ (t.chan j).controlDue = true
          ∧ ((t.chan j).link l).init = false ∧ ((t.chan j).link l).rxLsn = y.rxLsn ∧ (t.lane j l).moves = [] ∧ (t.lane j l).targets = []
          ∧ t.rn (cr j rWNG_WIDTH_CHANGE_COUNT) = min 0xFFFFFFFF (s.rn (cr j rWNG_WIDTH_CHANGE_COUNT) + 1)))

/-- R355, R360, R367 to R369: a bias below every limit is only noted; at LMP_SWAP_THRESH with a free reserve the position swaps, as it
does on SWAP of LMP_CTRL, at once or when nothing holds it; in Lockdown and on a halted Lamp the bias is held; a warm reserve waits for a free slot on each fibre and holds it; a swap that ends leaves the reserve in
use and is counted; one that fails leaves the reserve failed; a laser that fails swaps, or without a reserve is dead. -/
def Obligations.LasersAreSwapped : Prop :=
  ∀ (s : State) (p i : Nat),
    isLaser p i = true →
    let a := lz p i
    let x := s.swap p i
    (∀ bias power, bias < s.f (winBase .lmp p + rLMP_WATCH_THRESH) 0 8 → bias < s.swapBias p → bias < 200 →
        power < 256 → s.laser p i = 1 → s.f (winBase .pwr 0 + rPWR_STATE_STAT) 0 3 < 3 → s.biasHeld p i = false →
        ∃ t, exec (.laserBiasUpdate p i bias power) s = .next t ∧ OnlyRegs s t ∧ t.f a 0 8 = bias ∧ t.f a 8 8 = power ∧ t.laser p i = 1
          ∧ RegsBut [a] s t)
    ∧ (∀ bias power, bias < 256 → power < 256 → s.laser p i ≠ 4 → s.f (winBase .pwr 0 + rPWR_STATE_STAT) 0 3 < 3 → s.biasHeld p i = true →
        ∃ t, exec (.laserBiasUpdate p i bias power) s = .next t ∧ OnlyRegs s t ∧ t.f a 0 8 = s.f a 0 8 ∧ t.f a 8 8 = power
          ∧ t.laser p i = s.laser p i ∧ RegsBut [a] s t)
    ∧ (∀ bias power, s.swapBias p ≤ bias → bias < 256 → power < 256 → s.laser p i = 1 ∨ s.laser p i = 2 →
        s.f (winBase .pwr 0 + rPWR_STATE_STAT) 0 3 < 3 → s.reserveFree p i = true → x.step = 0 → s.swapsBeside p i < 2 → s.lightHeld p = false →
        ∃ t, exec (.laserBiasUpdate p i bias power) s = .next t ∧ t.laser p i = 3 ∧ (t.swap p i).step = 1
          ∧ RegsButRecords [a, winBase .rgs 0 + rRGS_COND_SEQ] s t)
    ∧ (∀ side, s.laser p i = 1 ∨ s.laser p i = 2 → s.reserveFree p i = true → x.step = 0 →
        ∃ t, exec (.swap p i side) s = .next t ∧ t.laser p i = 3 ∧ RegsBut [a] s t
          ∧ (s.lightHeld p = false → s.swapsBeside p i < 2 → t.swap p i = ⟨1, [], s.f a 0 8, x.watched || s.laser p i == 2, []⟩)
          ∧ (s.lightHeld p = true ∨ 2 ≤ s.swapsBeside p i → (t.swap p i).step = 0))
    ∧ (s.halted .lmp p = true → ∃ t, exec (.swapWarmDone p i) s = .next t ∧ t = s)
    ∧ (x.step = 1 ∨ x.step = 2 → s.halted .lmp p = false →
        ((laserFibres p i).all (s.fibreFree i) = false → ∃ t, exec (.swapWarmDone p i) s = .next t ∧ t = s.setSwap p i { x with step := 2 })
        ∧ ((laserFibres p i).all (s.fibreFree i) = true →
            ∃ t, exec (.swapWarmDone p i) s = .next t ∧ (t.swap p i).step = 3 ∧ t.rd a = s.rd a
              ∧ ∀ f ∈ laserFibres p i, ∃ y ∈ (t.swap p i).held, y / 36 = f.1 ∧ y % 36 / 18 = f.2 ∧ s.swapTarget i f.1 (y % 36) = true))
    ∧ (x.step = 3 → ∃ t, exec (.swapLockDone p i) s = .next t ∧ t.swap p i = { x with step := 4 }
        ∧ (∀ f ∈ laserFibres p i, t.f (sl f.1 (18 * f.2 + i / 9) rWNG_RING_TX) 14 1 = 1)
        ∧ RegsBut ((laserFibres p i).map fun f => sl f.1 (18 * f.2 + i / 9) rWNG_RING_TX) s t)
    ∧ (x.step = 4 → x.moved = [] → ∃ t, exec (.swapReturn p i) s = .next t ∧ t.laser p i = 1 ∧ (t.swap p i).step = 0 ∧ t.f a 19 1 = 1 ∧ t.f a 20 1 = 1
        ∧ t.rn (winBase .lmp p + rLMP_SWAP_COUNT) = min 0xFFFFFFFF (s.rn (winBase .lmp p + rLMP_SWAP_COUNT) + 1)
        ∧ RegsBut [a, winBase .lmp p + rLMP_SWAP_COUNT, winBase .rgs 0 + rRGS_COND_SEQ] s t)
    ∧ (1 ≤ x.step → x.moved = [] → s.f a 20 1 = 0 → ∃ t, exec (.laserSwapFail p i) s = .next t ∧ (t.swap p i).step = 0 ∧ t.f a 21 1 = 1
        ∧ t.laser p i = (if x.watched = true then 2 else 1) ∧ t.f a 19 1 = s.f a 19 1
        ∧ t.rn (winBase .lmp p + rLMP_SWAP_FAIL_COUNT) = min 0xFFFFFFFF (s.rn (winBase .lmp p + rLMP_SWAP_FAIL_COUNT) + 1)
        ∧ RegsButRecords [a, winBase .lmp p + rLMP_SWAP_FAIL_COUNT] s t)
    ∧ (s.laser p i = 1 ∨ s.laser p i = 2 → x.step = 0 → s.f a 19 1 = 0 →
        ∃ t, exec (.laserFail p i) s = .next t ∧ t.f a 20 1 = 1 ∧ t.laser p i = (if s.f a 21 1 = 0 then 3 else 4)
          ∧ t.rn (winBase .lmp p + rLMP_FAIL_COUNT) = min 0xFFFFFFFF (s.rn (winBase .lmp p + rLMP_FAIL_COUNT) + 1)
          ∧ (s.f a 21 1 = 1 → ∀ f ∈ laserFibres p i, t.txUse f.1 (18 * f.2 + i / 9) = 3))

/-- R358, R359, R361 to R366, R373: light that returns, a filter ring that relocks, the host's command, a temperature away from the
slot's own and two band-gaps that differ each queue the slot; the head of a channel's queue is calibrated and its lane asked to
move; an attempt whose light moved above 1.0 dB is abandoned; two measurements that agree are applied and recorded, others count and go to the end of the queue; ten seconds' wait and
a PIC above its limit are reported. -/
def Obligations.RingsAreCalibrated : Prop :=
  ∀ (s : State) (w n : Nat),
    isSlot w n = true →
    let wait := fun (rank excess : Nat) => s.light.cal ++ [⟨w, n, rank, excess, s.timer, false⟩]
    let waits := fun (t : State) (m : Nat) => t.light.cal.any (fun c => c.wing == w && c.slot == m) = true
    (s.light.cal.find? (fun c => c.wing == w && c.slot == n) = none →
        (∃ t, exec (.relight w n) s = .next t ∧ t.light.cal = wait 0 0 ∧ t.f (rxReg w n) 8 1 = 1 ∧ RegsBut [rxReg w n] s t)
        ∧ (∃ t, exec (.ringRelock w n 0) s = .next t ∧ t.light.cal = wait 0 0 ∧ t.f (calReg w n) 14 1 = 1 ∧ t.f (rxReg w n) 8 1 = 1
            ∧ RegsBut [rxReg w n, calReg w n] s t)
        ∧ (∀ side, ∃ t, exec (.calibrate w n side) s = .next t ∧ t = { s with light := { s.light with cal := wait 1 0 } })
        ∧ (∀ side, ∃ t, exec (.clearSuspect w n side) s = .next t ∧ t.light.cal = wait 1 0 ∧ RegsBut [] s t
            ∧ (s.f (rxReg w n) 9 1 = 1 → 324 * w + n ∈ t.light.clearing)))
    ∧ (∀ m, m = 1 ∨ m = 2 → let a := wg w (rWNG_RING_TX + 4 * n)
        ∃ t, exec (.ringRelock w n m) s = .next t ∧ t.f a 14 1 = (if m = 1 then 1 else s.f a 14 1) ∧ ringNo w m n ∉ t.light.ringsOut
          ∧ t.light.cal = s.light.cal ∧ RegsBut [a] s t)
    ∧ (∀ m, m < 3 →
        let j := 9 * w + n / 36
        let a := wg w ((if m = 1 then rWNG_RING_TX else rWNG_CAL_RX) + 4 * n)
        ∃ t, exec (.ringUnlock w n m) s = .next t ∧ t.f a 14 1 = (if m = 2 then s.f a 14 1 else 0) ∧ ringNo w m n ∈ t.light.ringsOut
          ∧ t.rn (wg w rWNG_RING_UNLOCK_COUNT) = min 0xFFFFFFFF (s.rn (wg w rWNG_RING_UNLOCK_COUNT) + 1)
          ∧ RegsButRecords [a, wg w rWNG_RING_UNLOCK_COUNT, rxReg w n, wg w rWNG_CAL_ABANDON_COUNT] s t
          ∧ t.f (rxReg w n) 8 1 = (if m = 0 then 0 else s.f (rxReg w n) 8 1)
          ∧ (∀ o b, m = 0 → s.rxLane j (n % 36) = some (o, b) → (s.lane j o).targets.any (fun z => z.1 == b) = false → b ∈ (t.lane j o).asked)
          ∧ (∀ c, m = 0 → aget none s.light.calNow j = some c → c.slot = n → aget none t.light.calNow j = none ∧ t.light.cal = c :: s.light.cal)
          ∧ (m ≠ 0 ∨ aget none s.light.calNow j = none → t.light.cal = s.light.cal ∧ t.light.calNow = s.light.calNow))
    ∧ (∀ p side, p < 18 → ∃ t, exec (.calibrateLink w p side) s = .next t ∧ (∀ x, x < 18 → waits t (18 * p + x)) ∧ RegsBut [] s t)
    ∧ (∀ die ref second,
        ((max ref second - min ref second) * 200 ≤ ref → ∃ t, exec (.bandgapCheck die ref second) s = .next t ∧ t = s)
        ∧ (ref < (max ref second - min ref second) * 200 → die % 4 = w → 8 ≤ die → die < 16 →
            ∃ t, exec (.bandgapCheck die ref second) s = .next t ∧ (∀ m, m < 324 → waits t m)
              ∧ (∀ e ∈ s.arch.calRecs, e.1 % 2048 / 512 = w → t.validRec e.1 = none) ∧ RegsButRecords [winBase .rgs 0 + rRGS_COND_SEQ] s t)
        ∧ (ref < (max ref second - min ref second) * 200 → die < 8 ∨ die = 16 ∨ die = 17 →
            ∃ t, exec (.bandgapCheck die ref second) s = .next t ∧ t.light = s.light ∧ RegsButRecords [winBase .rgs 0 + rRGS_COND_SEQ] s t
              ∧ t.rn (winBase .rgs 0 + rRGS_COND_SEQ) = (s.rn (winBase .rgs 0 + rRGS_COND_SEQ) + 1) % 2 ^ 32))
    ∧ (∀ temp slope, temp < 4096 → slope < 256 →
        ∃ t, exec (.picTempUpdate w temp slope) s = .next t ∧ t.rn (wg w rWNG_PIC_TEMP) = temp + slope * 2 ^ 16
          ∧ (2 * s.f (wg w rWNG_CAL_TEMP_THRESH) 0 6 < (sext 12 temp - s.calTemp w n).natAbs → waits t n)
          ∧ RegsButRecords [wg w rWNG_PIC_TEMP] s t)
    ∧ (∃ t, exec (.picThermal w) s = .next t ∧ RegsButRecords [] s t ∧ w ∈ t.light.unlocked ∧ aget false t.inc.level (ikey .wng w 16) = true
          ∧ t.f (ir .wng w rINC_COUNT + 64) 8 24 = (if aget false s.inc.level (ikey .wng w 16) = true then s.f (ir .wng w rINC_COUNT + 64) 8 24
              else min 0xFFFFFF (s.f (ir .wng w rINC_COUNT + 64) 8 24 + 1)))
    ∧ (∀ j c, j < 36 → aget none s.light.calNow j = none → s.lightHeld (j / 18) = false → s.calHead j = some c →
        s.rxUse j (c.slot % 36) ≠ 1 → ∃ t, exec (.calAttempt j) s = .next t ∧ aget none t.light.calNow j = some c
          ∧ t.light.cal = s.light.cal.erase c ∧ t.out = s.out ∧ RegsBut [] s t)
    ∧ (∀ j h1 e1 h2 e2 margin d exp tco c, d ≤ 10 → j < 36 → h1 < 16384 → h2 < 16384 → e1 < 256 → e2 < 256 → margin < 256 → exp < 16 → tco < 256 →
        aget none s.light.calNow j = some c → c.wing = w → c.slot = n → s.rxUse j (n % 36) ≠ 1 →
        (calAgrees h1 e1 h2 e2 = true → ∃ t, exec (.calMeasureDone j h1 e1 h2 e2 (margin, some d) exp tco) s = .next t ∧ aget none t.light.calNow j = none
          ∧ t.f (calReg w n) 0 14 = (h1 + h2) / 2 ∧ t.f (calReg w n) 14 1 = 1 ∧ t.f (calReg w n) 22 2 = 0 ∧ t.f (rxReg w n) 16 8 = margin
          ∧ t.rn (wg w (rWNG_RX_SLOT_QUAL + 4 * n)) = (e1 + e2) / 2 + exp * 2 ^ 8
          ∧ t.rn (wg w rWNG_CAL_COUNT) = min 0xFFFFFFFF (s.rn (wg w rWNG_CAL_COUNT) + 1)
          ∧ RegsBut [calReg w n, rxReg w n, wg w (rWNG_RX_SLOT_QUAL + 4 * n), wg w rWNG_CAL_COUNT] s t)
        ∧ (calAgrees h1 e1 h2 e2 = false → ∃ t, exec (.calMeasureDone j h1 e1 h2 e2 (margin, some d) exp tco) s = .next t ∧ aget none t.light.calNow j = none
          ∧ t.f (calReg w n) 22 2 = min 3 (s.f (calReg w n) 22 2 + 1) ∧ t.f (calReg w n) 0 14 = s.f (calReg w n) 0 14 ∧ waits t n
          ∧ (2 ≤ s.f (calReg w n) 22 2 → t.f (rxReg w n) 9 1 = 1)
          ∧ t.rn (wg w rWNG_CAL_DISAGREE_COUNT) = min 0xFFFFFFFF (s.rn (wg w rWNG_CAL_DISAGREE_COUNT) + 1)))
    ∧ (∀ j h1 e1 h2 e2 margin moved exp tco c, moved = none ∨ (∃ d, moved = some d ∧ 10 < d) → j < 36 → h1 < 16384 → h2 < 16384 → e1 < 256 →
        e2 < 256 → margin < 256 → exp < 16 → tco < 256 → aget none s.light.calNow j = some c → s.rxUse j (c.slot % 36) ≠ 1 →
        let k := wg (j / 9) rWNG_CAL_ABANDON_COUNT
        ∃ t, exec (.calMeasureDone j h1 e1 h2 e2 (margin, moved) exp tco) s = .next t ∧ aget none t.light.calNow j = none
          ∧ t.light.cal = c :: s.light.cal ∧ t.rn k = min 0xFFFFFFFF (s.rn k + 1) ∧ RegsBut [rxReg c.wing c.slot, k] s t)
    ∧ (∀ c, s.light.cal.find? (fun d => d.wing == w && d.slot == n) = some c → c.deferred = false → s.calStuck c = true →
        tenSeconds ≤ (s.timer + 2 ^ 64 - c.since) % 2 ^ 64 →
        ∃ t, exec (.calDeferred w n) s = .next t ∧ { c with deferred := true } ∈ t.light.cal
          ∧ t.rn (wg w rWNG_CAL_DEFER_COUNT) = min 0xFFFFFFFF (s.rn (wg w rWNG_CAL_DEFER_COUNT) + 1) ∧ RegsButRecords [wg w rWNG_CAL_DEFER_COUNT] s t)

/-- R36, R370 to R372, R375 to R377, R383, R428, R438, R501: each tile's pace goes one sixteenth towards its loop's, 1/16 in Lockdown or a
halted PWR and 16/16 under OVERRIDE, in effect at the tile's step boundary; above the budget of the cap the tiles' clocks fall a step,
as far as the slew limit goes (by the cost of log entry 53), not while the mean falls by it, and in A1 and below neither changes; a tile
above the temperature limit is lowered a step; a slack sample keeps the lowest; a summary is the next condition
record, and a new interval begins. -/
def Obligations.ClimateAndCondition : Prop :=
  ∀ (s : State),
    let all := fun (span : Nat) => (s.governedTiles.map s.clockCost).foldl (· + ·) 0 ≤ s.slewRoom span
    (∀ power input rest pace, (∀ e ∈ pace, 1 ≤ e.2 ∧ e.2 ≤ 16) → power < 65536 → input < 65536 → rest < 65536 →
        let old := s.light.means.getLastD power
        let ps := State.paces old power pace (State.followBudget old power rest (s.slewRoom 1, s))
        let v := fun u => (lookup? ps u).getD 16
        ∃ t, exec (.governorSample (power, rest) input pace) s = .next t
          ∧ (s.asleep = true → t.light.pace = s.light.pace ∧ t.light.capped = s.light.capped)
          ∧ (s.asleep = false →
              (∀ u ∈ allTiles, (s.locked = true ∨ s.halted .pwr = true → v u = 1)
                ∧ (s.locked = false → s.halted .pwr = false → s.overridden = true → v u = 16)
                ∧ (s.locked = false → s.halted .pwr = false → s.overridden = false → 1 ≤ s.paceNext u → s.paceNext u ≤ v u + 1 ∧ v u ≤ s.paceNext u + 1
                    ∧ (old + s.slew < power → v u ≤ s.paceNext u)))
              ∧ (∀ u ∈ allTiles, s.boundaryWaits u = false → t.paceOf u = v u)
              ∧ (∀ u ∈ s.poweredTiles, s.boundaryWaits u = true → t.paceOf u = s.paceOf u
                  ∧ (t.paceOf u = v u ∨ (t.tile u).deferred.getLast? = some (.pace (v u))))
              ∧ (s.budget rest < power → s.overridden = true ∨ old < power + s.slew → all 1 → ∀ u ∈ s.governedTiles, 0 < (s.clockNext u).1 →
                  aget 0 s.light.capped u + 1 ≤ aget 0 t.light.capped u)
              ∧ (s.budget rest < power → s.overridden = false → power + s.slew ≤ old → t.light.capped = s.light.capped)
              ∧ ((allTiles.filter fun u => aget 0 t.light.capped u != aget 0 s.light.capped u).map s.clockCost).foldl (· + ·) 0 ≤ s.slewRoom 1)
          ∧ t.light.means = (power :: s.light.means).take 100 ∧ t.light.lowered = s.light.lowered
          ∧ t.f (pw rPWR_GOV_STAT) 16 16 = power ∧ t.f (pw rPWR_GOV_STAT) 8 1 = b2n t.slewLimited ∧ t.f (pw rPWR_INPUT) 16 16 = input
          ∧ t.rn (pw rPWR_GOV_LIMIT_COUNT) = (if t.slewLimited = true ∨ s.f (pw rPWR_GOV_STAT) 9 1 = 1 ∨ t.light.capped ≠ []
              then min 0xFFFFFFFF (s.rn (pw rPWR_GOV_LIMIT_COUNT) + 1) else s.rn (pw rPWR_GOV_LIMIT_COUNT))
          ∧ RegsButRecords ([pw rPWR_GOV_STAT, pw rPWR_INPUT, pw rPWR_GOV_LIMIT_COUNT] ++ s.poweredTiles.map fun u => tr u rTILE_CLOCK) s t)
    ∧ (∃ t, exec .governorTempStep s = .next t
        ∧ (all 10 → ∀ u ∈ s.governedTiles, s.tooHot u = true → 0 < (s.clockNext u).1 → aget 0 s.light.lowered u + 1 ≤ aget 0 t.light.lowered u)
        ∧ (∀ u ∈ s.governedTiles, s.tooHot u = false → aget 0 t.light.lowered u ≤ aget 0 s.light.lowered u)
        ∧ (∀ u, u ∉ s.governedTiles → aget 0 t.light.lowered u = aget 0 s.light.lowered u)
        ∧ t.f (pw rPWR_GOV_STAT) 9 1 = b2n (t.light.lowered != []))
    ∧ (∃ t, exec .slackSample s = .next t ∧ t = { s with light := { s.light with cond := t.light.cond } }
        ∧ ∀ u ∈ s.governedTiles, t.light.cond.slackMin ≤ s.f (tr u rTILE_CPM) 0 8 ∧ (s.f (tr u rTILE_CPM) 0 8 < 16 → u ∈ t.light.cond.slackLow))
    ∧ (∀ dmax dmean weak c side, c = .condSummary dmax dmean weak ∨ c = .writeNow dmax dmean weak side →
        s.rn (rgsr rRGS_COND_REPLAN_EN) % 16 = 0 → let n := (s.rn (rgsr rRGS_COND_SEQ) + 1) % 2 ^ 32
        ∃ t, exec c s = .next t ∧ t.rn (rgsr rRGS_COND_SEQ) = n ∧ t.light.cond.slackLow = [] ∧ t.light.cond.slackMin = 255 ∧ t.light.cond.stretch = []
          ∧ agets 0xFF t.arch.bytes (2 * 2 ^ 27 + n % 131072 * 128) 8 = leBytes 1 1 ++ leBytes 1 1 ++ leBytes 2 128 ++ leBytes 4 n
          ∧ RegsBut [rgsr rRGS_COND_SEQ] s t)

/-- R222, R227, R230, R231, R233 to R236, R243, R247: a held page is released when its decode ends; the scrub moves on page by page and
counts its passes; a failed die is recorded and all its pages fall due; failing rows are recorded while spares last; channels
fail, train, refresh, count what their link ECC corrected and enter self-refresh, which drops a segment that holds nothing. -/
def Obligations.MemoriesAreKept : Prop :=
  ∀ (s : State),
    (∀ mem p, ∃ t, exec (.pageDecodeDone mem p) s = .next t ∧ (t.mem (mem == 1)).held.any (fun h => h.1 == p) = false
        ∧ ((s.mem (mem == 1)).suspects p = [] → (t.mem (mem == 1)).cells = (s.mem (mem == 1)).cells ∧ RegsBut [] s t))
    ∧ (∀ mem, let v := mem == 1
        let p := scrubPage v (s.mem v).scrubNext
        let n := (s.mem v).scrubNext + 1
        let count := mreg v rVLT_SCRUB_PASS_COUNT rSTO_SCRUB_PASS_COUNT
        s.f (mreg v rVLT_SCRUB_TIME rSTO_SCRUB_TIME) 0 16 ≠ 0 → s.locked = false → s.wiping v = false → (s.mem v).held.any (fun h => h.1 == p) = false →
        ∃ t, exec (.scrubPage mem) s = .next t ∧ (t.mem v).scrubNext = (if n < scrubPages v then n else 0)
          ∧ t.rn count = (if n < scrubPages v then s.rn count else min 0xFFFFFFFF (s.rn count + 1))
          ∧ ((s.mem v).pagePoisoned (s.bankKey v (p * 4096)) p = true → (t.mem v).cells = (s.mem v).cells ∧ RegsBut [count] s t))
    ∧ (∀ die, die < 8 → s.vault.deadDies.contains die = false → ∃ t, exec (.vaultDieFail die) s = .next t
        ∧ t.vault.deadDies = s.vault.deadDies ++ [die] ∧ t.f (winBase .vlt 0 + rVLT_SPARE_ROWS + 4 * die) 31 1 = 1 ∧ t.vault.cells = s.vault.cells
        ∧ (∀ p ∈ diePages die, s.vault.retired.contains p = false → p ∈ t.vault.due)
        ∧ RegsButRecords [winBase .vlt 0 + rVLT_SPARE_ROWS + 4 * die] s t)
    ∧ (∀ p r ps, s.vault.retired.contains p = true → let d := dieOf (p * 4096)
        ∃ t, exec (.marchTest p [(r, ps)]) s = .next t
          ∧ t.vault.softSpare = (if s.vault.spares d < 64 then s.vault.softSpare ++ [(d + 8 * (r % 8192), ps)] else s.vault.softSpare)
          ∧ RegsBut [winBase .rgs 0 + rRGS_COND_SEQ] s t)
    ∧ (∀ c, c < 64 → s.f (chanStat c) 0 3 ≠ 4 → ∃ t, exec (.storeChannelFail c) s = .next t ∧ t.f (chanStat c) 0 3 = 4
        ∧ t.store = s.store ∧ RegsButRecords [chanStat c] s t)
    ∧ (∀ pass, let a := winBase .sto 0 + rSTO_STAT
        s.f a 1 1 = 1 → s.pwr.memWait = [] → ∃ t, exec (.storeTrainingDone pass) s = .next t ∧ t.f a 1 1 = 0
          ∧ t.f a 0 1 = (if s.f (winBase .rgs 0 + rRGS_BOOT_STAT) 14 1 = 0 then 1 else s.f a 0 1)
          ∧ t.wiping true = false
          ∧ (pass ≠ 0 → OnlyRegs s t ∧ RegsBut [a, winBase .vlt 0 + rVLT_STAT] s t) ∧ RegsButRecords [a, winBase .vlt 0 + rVLT_STAT] s t)
    ∧ (s.pwr.memWait = [] → ∃ t, exec .storeWipeDone s = .next t ∧ OnlyRegs s t ∧ t.wiping false = false ∧ t.wiping true = false
        ∧ RegsBut [winBase .sto 0 + rSTO_STAT, winBase .vlt 0 + rVLT_STAT] s t)
    ∧ (∀ v op pp res side, s.pwr.memWait = [.raw v op pp res side] → s.rawAllowed side = false →
        ∃ t, exec .storeWipeDone s = .next t ∧ t.pwr.memWait = [] ∧ t.f (rawReg v rVLT_RAW_CMD) 16 1 = 1 ∧ t.f (rawReg v rVLT_RAW_CMD) 17 1 = 1)
    ∧ (∀ c temp, c < 64 → s.f (chanStat c) 0 3 = 0 → ∃ t, exec (.storeRefresh c temp) s = .next t ∧ OnlyRegs s t
        ∧ t.f (chanStat c) 8 8 = min 125 temp ∧ t.f (chanStat c) 0 3 = 0 ∧ RegsBut [chanStat c] s t)
    ∧ (∀ c b, ∃ t, exec (.storeRfm c b) s = .next t ∧ t = s)
    ∧ (∀ c, ∃ t, exec (.zqLatch c) s = .next t ∧ t = s)
    ∧ (∀ c drift, c < 64 → s.f (chanStat c) 0 3 = 0 → let a := winBase .sto 0 + rSTO_RETRAIN_COUNT
        let e := winBase .sto 0 + rSTO_LINK_ECC_COUNT
        let n := Config.choice s.free
        let k := ir .sto 0 rINC_COUNT + 20
        ∃ t, exec (.wck2dqOscRead c drift) s = .next t ∧ t.rn e = min 0xFFFFFFFF (s.rn e + n) ∧ t.f k 8 24 = min 0xFFFFFF (s.f k 8 24 + n)
          ∧ t.vault = s.vault ∧ t.out = s.out ∧ (Config.choice (s.free + 1) % 2 ≠ 1 → t.store = s.store)
          ∧ RegsButRecords ([a, e, winBase .rgs 0 + rRGS_COND_SEQ] ++ (List.range 4).map (fun k => chanStat (c / 4 * 4 + k))
              ++ [rSTO_CORR_COUNT, rSTO_UNCORR_COUNT, rSTO_UNDETECTED_COUNT, rSTO_LAST_ERR_LO, rSTO_LAST_ERR_HI, rSTO_LAST_ERR_INFO, rSTO_SPARE_FREE,
                  rSTO_RETIRED_PAGE_COUNT].map (winBase .sto 0 + ·)) s t
          ∧ t.f (chanStat c) 0 3 = (if 16 < drift then 3 else 0)
          ∧ t.rn a = if 16 < drift then min 0xFFFFFFFF (s.rn a + 1) else s.rn a)
    ∧ (∀ c, c < 64 → s.f (chanStat c) 0 3 = 0 →
        (2 ≤ s.f (winBase .pwr 0 + rPWR_STATE_STAT) 0 3 ∨ s.locked = true ∧ s.tilesQuiet = true →
          ∃ t, exec (.selfRefreshEntry c []) s = .next t ∧ OnlyRegs s t ∧ t.f (chanStat c) 0 3 = 1 ∧ RegsBut [chanStat c] s t)
        ∧ (∀ g, 2 ≤ s.f (winBase .pwr 0 + rPWR_STATE_STAT) 0 3 → g < 1760 → s.segInUse g = false → s.partOn g c = true →
          ∃ t, exec (.selfRefreshEntry c [g]) s = .next t ∧ t.f (chanStat c) 0 3 = 2 ∧ aget false t.store.off (partKey g c) = true
            ∧ (∀ k, k ≠ partKey g c → aget false t.store.off k = aget false s.store.off k)
            ∧ t.store.cells = s.store.cells ∧ RegsBut [chanStat c] s t))

/-- R245 to R247: a raw command waits while its memory is wiped; one without authority is refused and marks it; one with it acts on the word at the physical address:
data bytes alone, parity bits alone, one page-parity byte alone, or a read of any of them, or the checked path. -/
def Obligations.RawModeActsOnStoredBits : Prop :=
  ∀ (s : State) (mem pp res : Nat) (side : Side),
    let v := mem == 1
    let cmd := rawReg v rVLT_RAW_CMD
    let data := fun (t : State) (i : Nat) => t.rn (rawReg v rVLT_RAW_DATA + 4 * i)
    let words := (List.range 8).map fun k => rawReg v rVLT_RAW_DATA + 4 * k
    let waits := fun (c : Instr) (op : Nat) => ∃ t, exec c s = .next t ∧ t.pwr.memWait = s.pwr.memWait ++ [.raw v op pp res side] ∧ t.f cmd 16 1 = 0
      ∧ t.mem v = s.mem v ∧ RegsBut [cmd] s t
    (s.wiping v = true → waits (.readRaw mem pp res side) 0 ∧ waits (.writeData mem pp res side) 1 ∧ waits (.writeParity mem pp res side) 2
        ∧ waits (.readPageParity mem pp res side) 3 ∧ waits (.writePageParity mem pp res side) 4 ∧ waits (.checkedRead mem pp res side) 5)
    ∧ (s.wiping v = false → (∀ c, c ∈ [Instr.readRaw mem pp res side, .writeData mem pp res side, .writeParity mem pp res side, .readPageParity mem pp res side,
          .writePageParity mem pp res side, .checkedRead mem pp res side] → s.rawAllowed side = false →
        ∃ t, exec c s = .next t ∧ OnlyRegs s t ∧ t.f cmd 16 1 = 1 ∧ t.f cmd 17 1 = 1 ∧ RegsBut [cmd] s t)
    ∧ (∀ x, s.rawAllowed side = true → s.rawAddr v res = some x →
        let ph := (s.mem v).phys x
        let m := s.mem v
        aget false m.off (s.bankKey v ph) = false → s.poisonedAt v ph = false → m.held.any (fun h => h.1 == pageOf ph) = false →
        let done := fun (t : State) => t.f cmd 16 1 = 1 ∧ t.f cmd 17 1 = 0 ∧ t.mem (!v) = s.mem (!v)
        (∃ t, exec (.readRaw mem pp res side) s = .next t ∧ done t ∧ t.mem v = m ∧ (∀ i, i < 8 → data t i = at_ (agets 0 m.cells ph 32) (4 * i) 4)
          ∧ (∀ i, i < 32 → bit (t.rn (rawReg v rVLT_RAW_PARITY)) i = m.parityBit (ph + i)) ∧ RegsBut (cmd :: rawReg v rVLT_RAW_PARITY :: words) s t)
        ∧ (∃ t, exec (.writeData mem pp res side) s = .next t ∧ done t ∧ RegsBut [cmd] s t
          ∧ (∀ i, i < 32 → aget 0 (t.mem v).cells (ph + i) = (s.rawData v).getD i 0 ∧ (t.mem v).parityBit (ph + i) = m.parityBit (ph + i))
          ∧ (∀ a, a < ph ∨ ph + 32 ≤ a → aget 0 (t.mem v).cells a = aget 0 m.cells a))
        ∧ (∃ t, exec (.writeParity mem pp res side) s = .next t ∧ done t ∧ RegsBut [cmd] s t ∧ (t.mem v).cells = m.cells ∧ (t.mem v).ppDiff = m.ppDiff
          ∧ (∀ i, i < 32 → (t.mem v).parityBit (ph + i) = bit (s.rn (rawReg v rVLT_RAW_PARITY)) i))
        ∧ (∃ t, exec (.readPageParity mem pp res side) s = .next t ∧ done t ∧ t.mem v = m
          ∧ t.f (rawReg v rVLT_RAW_DATA) 0 8 = (m.ppByte (pageOf ph) (pp % 128)).toNat ∧ RegsBut [cmd, rawReg v rVLT_RAW_DATA] s t)
        ∧ (∃ t, exec (.writePageParity mem pp res side) s = .next t ∧ done t ∧ RegsBut [cmd] s t ∧ (t.mem v).cells = m.cells ∧ (t.mem v).parBad = m.parBad
          ∧ (t.mem v).ppByte (pageOf ph) (pp % 128) = BitVec.ofNat 8 (s.f (rawReg v rVLT_RAW_DATA) 0 8))
        ∧ ((∀ i, i < 32 → m.bad (ph + i) = false ∧ s.peek v (ph + i) = .ok (aget 0 m.cells (ph + i))) →
          ∃ t, exec (.checkedRead mem pp res side) s = .next t ∧ done t ∧ t.f cmd 18 3 = 0 ∧ (t.mem v).cells = m.cells
            ∧ (∀ i, i < 8 → data t i = at_ (agets 0 m.cells ph 32) (4 * i) 4) ∧ RegsBut (cmd :: words) s t)
        ∧ (∀ k, s.peek v ph = .poison k → ∃ t, exec (.checkedRead mem pp res side) s = .next t ∧ done t
            ∧ t.f cmd 18 3 = if k = 1 then 2 else if k = 2 then 3 else 4)))

/-- R391 to R394, R398: the duplicate filter writes and tickets a first copy, counts and discards a second and a stale one; a block whose
second copy is late is counted once; a disputed shard's tiles hold issue until their self-tests end, a silent member counts as
failed, and the copy that R394 names falls due for rebuild. -/
def Obligations.TwinsAndDisputes : Prop :=
  ∀ (s : State),
    (∀ j c, s.fab.corridor[j]? = some c → s.mayArrive j c = true → s.routerBad c.destTile = false → s.halted .sto = false →
      s.pair.blocked = false → c.op = 0x12 → s.landing c.destTile c = some .scratch → (s.tile c.destTile).scrErr = [] →
      4 < s.tensorFormat c.destTile c.tensor → s.f (tk c.destTile c.ticket) 0 16 + c.ticketAdd ≤ 65535 →
      s.pair.filter.all (fun e => decide (s.filterUsed e.tile < 2048)) = true →
      let u := c.destTile
      let keyed := fun (e : TwinEntry) => e.tile == u && e.shard == c.request && e.epoch == c.epoch && e.tensor == c.tensor && e.offset == c.offset
      let gone := fun (t : State) => t.fab = { s.fab with corridor := s.fab.corridor.eraseIdx j }
      (s.newestEpoch u c.request = none → s.pair.filter.find? keyed = none →
        ∃ t, exec (.crateTwinWrite j) s = .next t ∧ gone t ∧ t.pair.filter.find? keyed = some ⟨u, c.request, c.epoch, c.tensor, c.offset, c.srcModule, false⟩
          ∧ (∀ k, k < c.data.length → (aget 0 (t.tile u).scratch (c.offset + k)) = c.data.getD k 0)
          ∧ (∀ o, o < c.offset ∨ c.offset + c.data.length ≤ o → aget 0 (t.tile u).scratch o = aget 0 (s.tile u).scratch o)
          ∧ t.f (tk u c.ticket) 0 16 = s.f (tk u c.ticket) 0 16 + c.ticketAdd ∧ RegsBut [tk u c.ticket, tr u rTILE_CRATE_IN_COUNT] s t)
      ∧ (∀ e, s.newestEpoch u c.request = some c.epoch → s.pair.filter.find? keyed = some e → e.src ≠ c.srcModule →
        s.pair.filter.all (fun e => !(e.tile == u && e.shard == c.request && epochBefore e.epoch c.epoch)) = true →
        ∃ t, exec (.crateTwinWrite j) s = .next t ∧ gone t ∧ t.tiles = s.tiles
          ∧ t.pair.filter = s.pair.filter.map (fun x => if keyed x then { x with done := true } else x)
          ∧ t.rn (pr rPAIR_DUP_COUNT) = min 0xFFFFFFFF (s.rn (pr rPAIR_DUP_COUNT) + 1) ∧ RegsBut [pr rPAIR_DUP_COUNT] s t)
      ∧ (∀ n, s.newestEpoch u c.request = some n → epochBefore c.epoch n = true →
        ∃ t, exec (.crateTwinWrite j) s = .next t ∧ gone t ∧ t.tiles = s.tiles ∧ t.pair = s.pair
          ∧ t.rn (pr rPAIR_STALE_COUNT) = min 0xFFFFFFFF (s.rn (pr rPAIR_STALE_COUNT) + 1) ∧ RegsBut [pr rPAIR_STALE_COUNT] s t))
    ∧ (∀ ix b, s.pair.blocks[ix]? = some b → b.closed = false → ∃ t, exec (.compareTimeout ix) s = .next t
        ∧ t.pair = { s.pair with blocks := s.pair.blocks.set ix { b with closed := true } }
        ∧ t.rn (pr rPAIR_UNMATCHED_COUNT) = min 0xFFFFFFFF (s.rn (pr rPAIR_UNMATCHED_COUNT) + 1) ∧ RegsBut [pr rPAIR_UNMATCHED_COUNT] s t)
    ∧ (∀ ix c, s.fab.inbox[ix]? = some c → c.op = 0x10 → at_ c.data 0 1 = 0x44 → let sh := at_ c.data 8 2 % 2 ^ 14
        (s.otherMember sh).isSome = true → s.pair.arbs.any (fun a => a.shard == sh && a.epoch == at_ c.data 12 4) = false →
        ∃ t, exec (.dispute ix) s = .next t ∧ t.fab = { s.fab with inbox := s.fab.inbox.eraseIdx ix } ∧ RegsBut [] s t
          ∧ t.pair.arbs = s.pair.arbs ++ [⟨sh, at_ c.data 12 4, true, none, none, 0, false⟩]
          ∧ (∀ u ∈ s.ledgerTiles sh, (t.tile u).holdIssue = true) ∧ (∀ u, u ∉ s.ledgerTiles sh → t.tile u = s.tile u))
    ∧ (∀ sh ep a, s.pair.arbs = [a] → a.shard = sh → a.epoch = ep → a.started = true → a.own = none → a.other = none →
        ∃ t, exec (.katDone sh ep []) s = .next t ∧ t.pair.arbs = [{ a with own := some false, sentAt := s.timer }]
          ∧ (∀ u ∈ s.ledgerTiles sh, t.tile u = { s.tile u with holdIssue := false })
          ∧ t.rn (pr rPAIR_ARBITRATE_COUNT) = min 0xFFFFFFFF (s.rn (pr rPAIR_ARBITRATE_COUNT) + 1) ∧ RegsBut [pr rPAIR_ARBITRATE_COUNT] s t)
    ∧ (∀ sh ep a k m own, s.pair.arbs = [a] → a.shard = sh → a.epoch = ep → a.own = some own → a.other = none → a.closed = false →
        s.shardOf sh = some (k, m) → s.pair.rebuilds = [] →
        let decided := fun (failed : Bool) (t : State) => t.pair.arbs = [{ a with other := some failed, closed := true }]
          ∧ t.pair.rebuilds = [(if (if k = s.myId then own && !failed else failed && !own) then ⟨sh, m, k, false⟩ else ⟨sh, k, m, false⟩)]
          ∧ t.tiles = s.tiles ∧ RegsButRecords [pr rPAIR_STAT] s t
        (∃ t, exec (.arbitrateTimeout sh ep) s = .next t ∧ decided true t)
        ∧ (∀ ix c, s.fab.inbox[ix]? = some c → c.op = 0x10 → at_ c.data 0 1 = 0x45 → at_ c.data 8 2 % 2 ^ 14 = sh → at_ c.data 12 4 = ep →
          s.otherMember sh = some (msgSender c.data) →
          ∃ t, exec (.arbitrate ix) s = .next t ∧ decided (at_ c.data 16 1 != 0) t ∧ t.fab = { s.fab with inbox := s.fab.inbox.eraseIdx ix }))
    ∧ (∀ u fail, isTile u = true → s.ts u = tsIDLE → fail ≠ 0 → ∃ t, exec (.idleSelfTest u fail) s = .next t
        ∧ t.rn (pr rPAIR_KAT_FAIL_COUNT) = min 0xFFFFFFFF (s.rn (pr rPAIR_KAT_FAIL_COUNT) + 1) ∧ s.timer ∈ (t.tile u).trapTimes
        ∧ (s.readySlot = none → RegsButRecords [pr rPAIR_KAT_FAIL_COUNT] s t))

/-- R396, R399, R401, R402, R404, R407: beacons set and clear the missed counts, the module that misses both partners is fenced, and one
whose buddy has taken over is fenced and then REPLACED; the
reserve confirms the loss of a silent module to its buddy, which takes over; a substitution is installed once; a handover
fences its module. -/
def Obligations.LossesAreSurvived : Prop :=
  ∀ (s : State),
    let msg := fun (ix ty : Nat) (c : Crate) => s.fab.inbox[ix]? = some c ∧ c.op = 0x10 ∧ at_ c.data 0 1 = ty
    let read := fun (ix : Nat) (t : State) => t.fab.inbox = s.fab.inbox.eraseIdx ix
    (∀ r b v, s.roles = some r → r.reserveRole = false → s.buddy = some b → s.reserveMod = some v → b ≠ v →
        let now := fun (m at0 : Nat) => if s.pair.heard.contains m then 0 else min 255 (s.f (pr rPAIR_MISSED) at0 8 + 1)
        ∃ t, exec .beaconTimer s = .next t ∧ t.f (pr rPAIR_MISSED) 0 8 = now b 0 ∧ t.f (pr rPAIR_MISSED) 8 8 = now v 8
          ∧ t.pair.heard = [] ∧ t.tiles = s.tiles ∧ RegsButRecords [pr rPAIR_MISSED, pr rPAIR_STAT] s t
          ∧ (s.pairState ≠ 5 → s.pairState ≠ 6 → s.lostThresh - 1 ≤ now b 0 → s.lostThresh - 1 ≤ now v 8 → t.pairState = 5))
    ∧ (∀ ix c b, msg ix 0x40 c → s.buddy = some b → msgSender c.data = b → b ∈ s.partners →
        ∃ t, exec (.beacon ix) s = .next t ∧ read ix t ∧ b ∈ t.pair.heard ∧ t.f (pr rPAIR_MISSED) 0 8 = 0
          ∧ t.pairState = (if bit (at_ c.data 8 1) 4 ∧ s.pairState ≠ 6 then (if s.pairState = 5 then 6 else 5) else s.pairState)
          ∧ RegsButRecords [pr rPAIR_MISSED, pr rPAIR_STAT] s t)
    ∧ (∀ ix c r a, msg ix 0x41 c → s.roles = some r → r.sets.find? (fun x => x.guarded == at_ c.data 8 2 % 32768) = some a →
        s.pairState ≠ 5 → s.locked = false → s.pair.lost = [] →
        (s.missedOf a.guarded < s.lostThresh - 1 → ∃ t, exec (.witnessQuery ix) s = .next t ∧ read ix t ∧ t.pair = s.pair ∧ RegsButRecords [] s t)
        ∧ (s.lostThresh - 1 ≤ s.missedOf a.guarded → a.buddy = msgSender c.data → s.f (pr rPAIR_STAT) 6 1 = 0 → s.pair.numbers = [] →
            s.myId ≠ a.guarded → s.f (pr rPAIR_SUBST) 31 1 = 0 →
            ∃ t, exec (.witnessQuery ix) s = .next t ∧ read ix t ∧ t.pair.lost = [(a.guarded, a.buddy)]
              ∧ t.rn (pr rPAIR_SUBST) = a.guarded + s.myId * 2 ^ 16 + 2 ^ 31 ∧ t.f (pr rPAIR_STAT) 6 1 = 1))
    ∧ (∀ ix c r b v, msg ix 0x42 c → s.roles = some r → s.buddy = some b → s.reserveMod = some v → at_ c.data 8 2 % 32768 = b →
        msgSender c.data = v → s.pair.takeover = false → s.pairState ≠ 5 → s.pairState ≠ 6 →
        (at_ c.data 10 1 = 1 → ∃ t, exec (.witnessAnswer ix) s = .next t ∧ read ix t ∧ t.pair.takeover = true ∧ t.pairState = 3
          ∧ t.f (pr rPAIR_STAT) 3 1 = 1)
        ∧ (at_ c.data 10 1 = 0 → ∃ t, exec (.witnessAnswer ix) s = .next t ∧ read ix t ∧ t.pair = { s.pair with asking := false } ∧ RegsBut [] s t))
    ∧ (∀ ix c, msg ix 0x43 c → let lost := at_ c.data 8 2 % 32768
        (at_ c.data 12 4 ∈ s.pair.numbers → ∃ t, exec (.substitute ix) s = .next t ∧ t = { s with fab := { s.fab with inbox := s.fab.inbox.eraseIdx ix } })
        ∧ (at_ c.data 12 4 ∉ s.pair.numbers → s.f (pr rPAIR_SUBST) 31 1 = 0 → ∃ t, exec (.substitute ix) s = .next t ∧ read ix t
            ∧ t.rn (pr rPAIR_SUBST) = lost + at_ c.data 10 2 % 32768 * 2 ^ 16 + 2 ^ 31 ∧ at_ c.data 12 4 ∈ t.pair.numbers
            ∧ (lost = s.myId → s.unset = false → t.pairState = 6)))
    ∧ (∀ ix c b, msg ix 0x46 c → s.buddy = some b → msgSender c.data = b → at_ c.data 8 2 % 32768 = b →
        ∃ t, exec (.handoverMessage ix) s = .next t ∧ read ix t ∧ t.pair = { s.pair with asking := true } ∧ RegsBut [] s t)
    ∧ (s.pairState = 3 → ∃ t, exec .switchoverClose s = .next t ∧ OnlyRegs s t ∧ t.pairState = 4 ∧ RegsBut [pr rPAIR_STAT] s t)
    ∧ (∀ side b v, s.buddy = some b → s.reserveMod = some v → s.pairState ≠ 6 →
        ∃ t, exec (.handover side) s = .next t ∧ t.pairState = 5 ∧ t.pair = { s.pair with handed := true })
    ∧ (∀ b r, s.buddy = some b → s.roles = some r → s.pairState ≠ 6 → s.pair.takeover = false →
        (∃ t, exec (.forceTakeover .pf1) s = .next t ∧ t.pair.takeover = true ∧ t.pairState = 3)
        ∧ (∃ t, exec (.forceTakeover .pf0) s = .next t ∧ t.pair = s.pair ∧ RegsButRecords [] s t))
    ∧ (∀ side, s.pairState = 5 → ∃ t, exec (.unfence side) s = .next t ∧ OnlyRegs s t ∧ RegsBut [pr rPAIR_STAT] s t
        ∧ t.pairState = match s.roles with | none => 0 | some r => if r.reserveRole then 7 else if s.pair.takeover then 4 else 1)

/-- R395, R403, R410, R413, R415: the end of a rebuild lets its destination's ledger go on and ends its source's freeze; a stocktake contributes
to its marker group under its NUMBER, its drain ends with DRAINED, and RELEASE ends its freeze; CLEAR_SUBST clears what no
route names. -/
def Obligations.CopiesAndStocktakes : Prop :=
  ∀ (s : State),
    let stat := pr rPAIR_STOCKTAKE_STAT
    (∀ r sh dest, s.roles = some r → s.pair.rebuilds = [⟨sh, s.myId, dest, true⟩] → dest ≠ s.myId → s.pairState = 4 → dest < 2 ^ 15 →
        ∃ t, exec (.rebuildDone sh) s = .next t ∧ t.pair.rebuilds = [] ∧ t.pair.freeze = none ∧ t.pair.takeover = false ∧ t.pairState = 1
          ∧ t.f (pr rPAIR_PEERS) 0 16 = dest ∧ t.f (pr rPAIR_STAT) 4 2 = 0 ∧ t.tiles = s.tiles
          ∧ RegsBut [pr rPAIR_STAT, pr rPAIR_PEERS, pr rPAIR_DRAIN_COUNT] s t)
    ∧ (∀ r sh src, s.roles = some r → s.pair.rebuilds = [⟨sh, src, s.myId, true⟩] → src ≠ s.myId → s.pairState = 1 →
        ∃ t, exec (.rebuildDone sh) s = .next t ∧ t.pair = { s.pair with rebuilds := [] } ∧ t.pairState = 1
          ∧ (∀ u ∈ s.ledgerTiles sh, t.f (tk u r.rebuildTicket) 0 16 = 1) ∧ OnlyRegs s { t with pair := s.pair })
    ∧ (∀ g n side r, s.group g = some r → r.kind = 6 → s.f stat 0 3 = 0 → (s.wave g).phase = 0 →
        ∃ t, exec (.stocktake g n side) s = .next t ∧ t.pair.marker = some g ∧ t.f stat 16 16 = n % 2 ^ 16)
    ∧ (∀ side, s.f stat 0 3 = 3 → ∃ t, exec (.stocktakeRelease side) s = .next t ∧ t.f stat 0 3 = 0
        ∧ t.pair = { s.pair with freeze := none, draining := false, marker := none } ∧ OnlyRegs s { t with pair := s.pair, free := s.free } ∧ RegsBut [stat] s t)
    ∧ (∀ side, ∃ t, exec (.clearSubst side) s = .next t ∧ OnlyRegs s t
        ∧ (∀ k, k < 16 → let a := pr rPAIR_SUBST + 4 * k
          t.rn a = if s.f a 31 1 = 1 ∧ s.cur.now.all (fun p => p.routes.all fun r => r.dest != s.f a 0 15) = true then 0 else s.rn a)
        ∧ RegsBut ((List.range 16).map fun k => pr rPAIR_SUBST + 4 * k) s t)
    ∧ (∀ r b, s.roles = some r → s.buddy = some b → s.pair.draining = true → ∃ t, exec .drainDone s = .next t
        ∧ t.pair = { s.pair with draining := false } ∧ t.f stat 3 1 = 1 ∧ t.tiles = s.tiles ∧ RegsButRecords [stat, pr rPAIR_DRAIN_COUNT] s t)

/-- R417, R419, R421, R424 to R429, R431: in an incident block a window ends, a level repeats, FORCE injects one event into the sources it
names, a chance timer ends in its action or in a cancel, and the writes of the block's registers cancel, resume, clear and set
policy. -/
def Obligations.IncidentsAreActedOn : Prop :=
  ∀ (s : State) (blk inst : Nat) (b : Blk), incBlock blk inst = some b →
    let a := fun (off : Nat) => ir b inst off
    let other := fun (k : Nat) => b = .hst → k ≠ 1
    let counted := fun (k : Nat) (t : State) =>
      t.f (a rINC_COUNT + 4 * k) 8 24 = min 0xFFFFFF (s.f (a rINC_COUNT + 4 * k) 8 24 + 1) ∧ RegsButRecords [] s t
    let open_ := s.incReached b inst = true ∧ s.incHeld b = false
    (∀ k, k < 24 → s.f (a rINC_COUNT + 4 * k) 0 8 ≠ 0 → aget 0 s.inc.winEnd (ikey b inst k) ≤ s.nowOf b inst →
        ∃ t, exec (.incidentWindowEnd blk inst k) s = .next t ∧ OnlyRegs s t ∧ t.f (a rINC_COUNT + 4 * k) 0 8 = 0
          ∧ t.f (a rINC_COUNT + 4 * k) 8 24 = s.f (a rINC_COUNT + 4 * k) 8 24 ∧ RegsBut [a rINC_COUNT + 4 * k] s t)
    ∧ (∀ k, k < 24 → hasSource b k = true → other k → aget false s.inc.level (ikey b inst k) = true →
        ∃ t, exec (.levelRepeat blk inst k) s = .next t ∧ counted k t)
    ∧ (∀ k, k < 24 → hasSource b k = true → other k → open_ → s.f (a rINC_FORCE) 31 1 = 0 →
        (∃ t, exec (.incForce blk inst (2 ^ k) .pf1) s = .next t ∧ counted k t)
        ∧ ∃ t, exec (.incForce blk inst (2 ^ k) .pf0) s = .next t ∧ t = s.filterReject)
    ∧ (∀ k, k < 24 → other k → s.f (a rINC_ACTION) k 1 = 1 → (b = .tile → (s.tile inst).deferred = []) →
        (levelSource b k = true → aget false s.inc.level (ikey b inst k) = false →
          ∃ t, exec (.chanceTimerExpiry blk inst k) s = .next t ∧ t.f (a rINC_ACTION) k 1 = 0 ∧ RegsButRecords [] s t)
        ∧ (levelSource b k = false ∨ aget false s.inc.level (ikey b inst k) = true →
          (s.actOf b inst k = 2 → ∃ t, exec (.chanceTimerExpiry blk inst k) s = .next t ∧ t.f (a rINC_ACTION) k 1 = 0 ∧ t.halted b inst = true)
          ∧ (s.actOf b inst k = 3 → s.injOf b inst k = 0 → ∃ t, exec (.chanceTimerExpiry blk inst k) s = .next t
              ∧ t.f (a rINC_ACTION) k 1 = 0 ∧ t.locked = true)
          ∧ (s.actOf b inst k = 1 → b = .pair → s.pairState ≠ 6 →
              ∃ t, exec (.chanceTimerExpiry blk inst k) s = .next t ∧ t.f (a rINC_ACTION) k 1 = 0 ∧ t.pairState = 5
                ∧ RegsButRecords [pr rPAIR_STAT] s t)))
    ∧ (∀ k side, k < 24 → other k → open_ → s.f (a rINC_ACTION) k 1 = 1 → (wardenSide side = true ∨ s.sevOf b inst k ≠ 3) →
        ∃ t, exec (.actionCancel blk inst (2 ^ k) side) s = .next t ∧ t.f (a rINC_ACTION) k 1 = 0 ∧ RegsButRecords [] s t)
    ∧ (∀ k side, k < 24 → open_ → wardenSide side = false → s.sevOf b inst k = 3 →
        ∃ t, exec (.actionCancel blk inst (2 ^ k) side) s = .next t ∧ t = s)
    ∧ (∀ side, open_ → b ≠ .lmp → (b = .sto → s.pwr.memWait = []) → s.halted b inst = true → ((List.range 24).any fun k => bit (s.rn (a rINC_STAT)) k && s.actOf b inst k == 2) = false →
        ∃ t, exec (.resume blk inst side) s = .next t ∧ OnlyRegs s t ∧ t.halted b inst = false
          ∧ (∀ k, k < 24 → bit (t.rn (a rINC_STAT)) k = bit (s.rn (a rINC_STAT)) k) ∧ RegsBut [a rINC_STAT] s t)
    ∧ (∀ side, open_ → ∃ t, exec (.latchClear blk inst side) s = .next t ∧ OnlyRegs s t ∧ t.rn (a rINC_FIRST) = 0 ∧ RegsBut [a rINC_FIRST] s t)
    ∧ (∀ mask side, open_ → ∃ t, exec (.raisedClear blk inst mask side) s = .next t ∧ OnlyRegs s t ∧ RegsBut [a rINC_STAT] s t
        ∧ (∀ k, k < 32 → bit (t.rn (a rINC_STAT)) k = (bit (s.rn (a rINC_STAT)) k && !(decide (k < 24) && bit mask k))))
    ∧ (∀ k v side, hasSource b k = true → open_ → v < 2 ^ 32 → let p := a rINC_POLICY + 4 * k
        ((wardenSide side = true ∨ lockdownSource b k = false) →
          ∃ t, exec (.policyWrite blk inst k v side) s = .next t ∧ OnlyRegs s t ∧ RegsBut [p] s t
            ∧ t.f p 0 8 = (if fld v 0 8 = 0 then s.f p 0 8 else fld v 0 8) ∧ t.f p 8 16 = max 1 (min 60000 (fld v 8 16))
            ∧ t.f p 24 2 = fld v 24 2 ∧ t.f p 26 2 = fld v 26 2)
        ∧ (wardenSide side = false → lockdownSource b k = true →
          ∃ t, exec (.policyWrite blk inst k v side) s = .next t ∧ RegsButRecords [] s t
            ∧ t.f p 24 2 = max (s.f p 24 2) (fld v 24 2) ∧ t.f p 26 2 = s.f p 26 2))

/-- R430, R436 to R443: FORCE from the warden side, a self-fault and a stalled firmware lead to Lockdown with their cause, and every
pending action ends; the host's FORCE is refused; CLEAR ends a Lockdown whose causes are gone, not one that only a reset or the
warden side may end; under QUIET the module leaves by itself, at most three times. -/
def Obligations.LockdownIsEnteredAndLeft : Prop :=
  ∀ (s : State) (side : Side),
    let lockCount := winBase .rgs 0 + rRGS_LOCK_COUNT
    (wardenSide side = true → s.locked = false → ∃ t, exec (.forceLockdown side) s = .next t ∧ t.locked = true ∧ t.f lockStat 2 1 = 1
        ∧ t.f lockStat 8 4 = 11 ∧ t.f lockStat 16 11 = 0 ∧ t.f lockStat 27 5 = 31 ∧ t.rn lockCount = min 0xFFFFFFFF (s.rn lockCount + 1)
        ∧ t.inc.entered = s.timer ∧ (∀ a b i, blkOf a = some (b, i, rINC_ACTION) → t.rn a = 0))
    ∧ (wardenSide side = false → ∃ t, exec (.forceLockdown side) s = .next t ∧ t = s.filterReject)
    ∧ (∀ blk inst b, incBlock blk inst = some b → ∃ t, exec (.selfFault blk inst) s = .next t ∧ t.locked = true ∧ t.f (ir b inst rINC_STAT) 31 1 = 1
        ∧ t.f lockStat 6 1 = 1 ∧ t.f lockStat 3 1 = 1
        ∧ (s.locked = false → t.f lockStat 8 4 = b.code ∧ t.f lockStat 16 11 = instCode b inst ∧ t.f lockStat 27 5 = 31))
    ∧ (∃ t, exec .firmwareStall s = .next t ∧ t.locked = true ∧ t.f lockStat 3 1 = 1
        ∧ (s.locked = false → t.f lockStat 8 4 = 11 ∧ t.f lockStat 27 5 = 1))
    ∧ (∃ t, exec (.lockdownClear .pf0) s = .next t ∧ t = s.filterReject)
    ∧ (side ≠ .pf0 → s.locked = true →
        (s.resetOnly = true ∨ (s.f lockStat 2 1 = 1 ∧ wardenSide side = false) ∨ s.causeHolds = true →
          ∃ t, exec (.lockdownClear side) s = .next t ∧ t.locked = true ∧ t.f lockStat 5 1 = 1 ∧ RegsButRecords [lockStat] s t)
        ∧ (s.resetOnly = false → (s.f lockStat 2 1 = 0 ∨ wardenSide side = true) → s.causeHolds = false →
          ∃ t, exec (.lockdownClear side) s = .next t ∧ t.locked = false ∧ t.f lockStat 2 1 = 0 ∧ t.f lockStat 5 1 = 0 ∧ t.inc.exits = s.inc.exits))
    ∧ (s.locked = true → s.exitPolicy = 1 → s.resetOnly = false → s.f lockStat 2 1 = 0 → s.f lockStat 3 1 = 0 →
        let due := max s.inc.entered s.inc.lastRaise + s.f (winBase .rgs 0 + rRGS_LOCK_QUIET_TIME) 0 14 * 200000 ≤ s.timer
        (due → s.recentExits < 3 → s.causeHolds = false → ∃ t, exec .lockdownExitCheck s = .next t ∧ t.locked = false
          ∧ t.inc.exits = s.inc.exits ++ [s.timer])
        ∧ (due → s.recentExits = 3 → ∃ t, exec .lockdownExitCheck s = .next t ∧ t.locked = true ∧ t.f lockStat 3 1 = 1 ∧ OnlyRegs s t
          ∧ RegsBut [lockStat] s t)
        ∧ (¬ due → ∃ t, exec .lockdownExitCheck s = .next t ∧ t.locked = true ∧ OnlyRegs s t ∧ RegsBut [lockStat] s t))
    ∧ (∃ t, exec .quietExitAgeing s = .next t ∧ OnlyRegs s { t with inc := s.inc } ∧ (∀ x ∈ t.inc.exits, x ∈ s.inc.exits ∧ s.timer < x + 600000 * 200000)
        ∧ RegsBut [] s t)

/-- R7, R9, R453, R478, R488: REGISTER_WRITE of a register of the Registrar, the power, plan, Curator, fabric, pairing, Gallery and memory
blocks stores each field by its access, W1C clears, RO and WO keep, WDN keeps and is counted for the host; a write that no open
BAR carries, that RECOVERY does not serve or that does not reach its window is ignored. CUR_PAGE_THRESH takes its value too, and leaves the other
registers alone while no slot is READY. An address that no register table defines, and that is no doorbell page,
reads 0 and ignores writes. -/
def Obligations.RegisterWrites : Prop :=
  ∀ (s : State) (a v : Nat) (side : Side), v < 2 ^ 32 → a % 4 = 0 →
    (regRow a = none → (0x200000 ≤ a ∧ a < 0x225000 ∧ a % 0x1000 = 0 → False) →
      s.readReg a = (0, s) ∧ ∃ t, exec (.registerWrite a v side) s = .next t ∧ t = s)
    ∧ (wardenSide side = false → s.barOpen side = false → ∃ t, exec (.registerWrite a v side) s = .next t ∧ t = s)
    ∧ (∀ b i o, blkOf a = some (b, i, o) → (wardenSide side = true ∨ s.barOpen side = true) →
        (s.inRecovery = true → b ≠ .hst → ∃ t, exec (.registerWrite a v side) s = .next t ∧ t = s)
        ∧ (s.windowReached b i = false → plainReg b o = true → ∃ t, exec (.registerWrite a v side) s = .next t ∧ t = s)
        ∧ (b = .cur → o = rCUR_PAGE_THRESH → s.inRecovery = false → ∃ t, exec (.registerWrite a v side) s = .next t
          ∧ t.f a 0 11 = (if fld v 0 11 = 0 then s.f a 0 11 else min 1024 (fld v 0 11)) ∧ (s.readySlot = none → OnlyRegs s { t with cur := s.cur } ∧ RegsBut [a] s t))
        ∧ (plainReg b o = true → s.inRecovery = false → s.windowReached b i = true →
          (∀ r k, regRow a = some (b, i, r, k) → ∃ t, exec (.registerWrite a v side) s = .next t ∧ RegsButRecords [a] s t
            ∧ (r.fields.all (fun f => f.acc != .wdn) = true → OnlyRegs s t ∧ RegsBut [a] s t)
            ∧ (∀ f ∈ r.fields, let old := s.f a f.lo f.width
                let new := fld v f.lo f.width
                let put := match limitOf b r.off f.lo with
                  | none => new
                  | some (.clamp lo hi) => max lo (min hi new)
                  | some (.nonzero hi) => if new = 0 then old else min hi new
                  | some (.least m) => if new = 0 then 0 else max m new
                  | some (.notEqual x) => if new = x then old else new
                t.f a f.lo f.width = match f.acc with
                  | .rw => put
                  | .wdn => if wardenSide side then put else old
                  | .w1c => old ^^^ (old &&& new)
                  | .w1s => old ||| new
                  | .ro | .wo => old))))

/-- R478, R481, R500, R512 to R516, R318: each reset of the module leaves it as R514 says, with its cause; power lost and back clears all but
the Archive flash and the fuses, and completes a lifecycle change that was committed (the model's reading, log entry 198); a Gallery reset clears tiles, Vault and Catalogue and keeps the Store; the firmware confirms the
slot that runs; PF0 may reset neither. -/
def Obligations.ResetsRun : Prop :=
  ∀ (s : State) (side : Side),
    let by_ := fun (cause : Nat) (t : State) => Restarted t ∧ t.f causeReg 0 3 = cause
    (side ≠ .pf0 → ∃ t, exec (.moduleReset side) s = .next t ∧ by_ (if wardenSide side then 2 else 1) t ∧ t.timer = s.timer)
    ∧ (∃ t, exec (.moduleReset .pf0) s = .next t ∧ t = s.filterReject)
    ∧ (s.f bootStat 14 1 = 0 → s.inRecovery = false →
        (∃ t, exec .bootTimeout s = .next t ∧ by_ 5 t)
        ∧ (s.host.linkUp = true → s.f (winBase .sto 0 + rSTO_STAT) 1 1 = 0 → let k := s.f bootStat 0 1
          ∃ t, exec .firmwareReady s = .next t ∧ t.f bootStat 14 1 = 1 ∧ RegsBut [bootStat] s t
            ∧ (t.fwSlot k).state = (if (s.fwSlot k).state = 3 then 4 else (s.fwSlot k).state)
            ∧ (t.fwSlot (1 - k)).state = (if (s.fwSlot k).state = 3 ∧ (s.fwSlot (1 - k)).state = 4 then 5 else (s.fwSlot (1 - k)).state)))
    ∧ (∃ t, exec .powerLoss s = .next t ∧ Restarted t ∧ t.timer = 0 ∧ t.host.linkUp = false ∧ t.pwr.opened = true ∧ t.arch = s.arch
        ∧ t.host.mem = s.host.mem)
    ∧ (∃ t, exec .powerOnReset s = .next t ∧ Restarted t ∧ t.rn causeReg = (if s.pwr.opened then 8 else 0) ∧ t.pwr.opened = false
        ∧ t.arch.powerOn = s.arch.powerOn + 1 ∧ t.arch.fuse = s.arch.fuse ∧ t.rn (winBase .pwr 0 + rPWR_CAP) = (if s.arch.life = none then s.arch.cap.getD 0x640 else 0x640) % 2 ^ 32
        ∧ (∀ new, s.arch.life = some new → t.arch.life = none ∧ t.lifecycle = new % 8 ∧ t.arch.config = [] ∧ t.arch.tenantKeys = [])
        ∧ t.f (winBase .sto 0 + rSTO_STAT) 1 1 = 1)
    ∧ (s.f galStat 0 1 = 0 → s.f stateStat 0 3 ≠ 4 →
        (∃ t, exec (.galleryReset .pf0) s = .next t ∧ t = s.filterReject)
        ∧ (side ≠ .pf0 → s.hangOut = false → ∃ t, exec (.galleryReset side) s = .next t ∧ t.f galStat 0 1 = 1 ∧ t.wiping true = true
          ∧ (∀ u, isTile u = true → t.ts u = tsOFF) ∧ t.vault.cells = [] ∧ t.store = s.store ∧ t.cur.place = none ∧ t.fab.corridor = []
          ∧ t.planGen = s.planGen ∧ (∀ k, k < 4 → t.slotState k ≠ 5 ∧ t.slotState k ≠ 6)))
    ∧ (s.f galStat 0 1 = 1 → s.pwr.galWait = false → s.pwr.memWait = [] → ∃ t, exec .galleryResetDone s = .next t ∧ OnlyRegs s t ∧ t.f galStat 0 1 = 0
        ∧ t.wiping true = false ∧ RegsBut [galStat, winBase .vlt 0 + rVLT_STAT] s t)
    ∧ (∃ t, exec (.fabricReset .pf0) s = .next t ∧ t = s.filterReject)
    ∧ (side ≠ .pf0 → ∃ t n, exec (.fabricReset side) s = .next t ∧ by_ 3 t ∧ t.fab.resetSeen = s.fab.resetSeen ++ [n])
    ∧ (∀ ix c, s.fab.regIn[ix]? = some c → c.op = 0x11 → at_ c.data 1 1 = 0xFF → let n := at_ c.data 8 8
        (s.f (winBase .fab 0 + rFAB_RESET_CFG) 0 1 = 0 ∨ n ∈ s.fab.resetSeen →
          ∃ t, exec (.fabricResetMessage ix) s = .next t ∧ t = { s with fab := { s.fab with regIn := s.fab.regIn.eraseIdx ix } })
        ∧ (s.f (winBase .fab 0 + rFAB_RESET_CFG) 0 1 = 1 → n ∉ s.fab.resetSeen →
          ∃ t, exec (.fabricResetMessage ix) s = .next t ∧ by_ 3 t ∧ t.fab.resetSeen = s.fab.resetSeen ++ [n]))
    ∧ (∀ m, s.sec.lifecycle = some m → let new := at_ m 0x20 1
        ∃ t, exec .lifecycleEraseDone s = .next t ∧ by_ 4 t ∧ t.sec.lifecycle = none ∧ t.lifecycle = new % 8 ∧ t.arch.tenantKeys = []
          ∧ t.arch.config = [] ∧ t.arch.operator = s.arch.operator ∧ t.arch.life = none)

/-- R499, R501, R504 to R509, R432: a request for a power state is refused with the reason that R505 gives, or starts the change; at its end
the module is in the target state, with the tile writes held on the way released in A0; an input voltage out of range and a
converter's fault are events. -/
def Obligations.PowerStatesChange : Prop :=
  ∀ (s : State) (side : Side) (target : Nat),
    let busyPlan := s.hangState ≠ 0 ∨ s.preparing.isSome = true
    let starting := s.f galStat 0 1 = 1 ∨ s.f bootStat 14 1 = 0
    let paired := (target = 3 ∨ target = 4) ∧ s.pairState ≠ 0 ∧ s.pairState ≠ 6
    let now := s.f stateStat 0 3
    let refused := fun (r : Nat) => ∃ t, exec (.powerStateRequest target side) s = .next t ∧ OnlyRegs s t ∧ t.f stateStat 8 3 = r
      ∧ t.f stateStat 0 8 = s.f stateStat 0 8 ∧ RegsBut [stateStat] s t
    (target < 8 →
      (paired → refused 1)
      ∧ (¬ paired → target ≠ 0 → busyPlan → refused 2)
      ∧ (¬ paired → target = 0 ∨ ¬ busyPlan → s.locked = true → refused 3)
      ∧ (¬ paired → target = 0 ∨ ¬ busyPlan → s.locked = false → starting → refused 4)
      ∧ (target = 0 ∨ ¬ busyPlan → s.locked = false → ¬ starting → 5 ≤ target → refused 5)
      ∧ (¬ paired → target = 0 ∨ ¬ busyPlan → s.locked = false → ¬ starting → target < 5 →
        ∃ t, exec (.powerStateRequest target side) s = .next t ∧ OnlyRegs s t ∧ t.f stateStat 8 3 = 0 ∧ t.f stateStat 4 3 = target
          ∧ t.f stateStat 0 3 = now ∧ t.f stateStat 3 1 = (if now = target then 0 else 1)
          ∧ RegsBut [stateStat, winBase .sto 0 + rSTO_STAT] s t))
    ∧ (s.f stateStat 3 1 = 1 → s.f stateStat 4 3 = target → (now = 4 → target = 4 ∨ s.f (winBase .sto 0 + rSTO_STAT) 1 1 = 0) →
        (∃ t, exec .powerStateDone s = .next t ∧ t.f stateStat 0 3 = target ∧ t.f stateStat 3 1 = 0)
        ∧ (now = 0 → target = 1 → ∃ t, exec .powerStateDone s = .next t ∧ OnlyRegs s t ∧ RegsBut [stateStat] s t)
        ∧ (now = 1 → target = 0 → ∃ t, exec .powerStateDone s = .next t ∧ t.pwr.heldWrites = [])
        ∧ (now < 4 → target = 4 → ∃ t, exec .powerStateDone s = .next t ∧ t.f galStat 1 1 = 0 ∧ (∀ u, isTile u = true → t.ts u = tsOFF)
          ∧ t.cur.place = none ∧ (∀ b ∈ allBanks, aget false t.vault.off b = true)))
    ∧ (∀ volts, volts < 65536 → ∃ t, exec (.inputOutOfRange volts) s = .next t ∧ t.f (winBase .pwr 0 + rPWR_INPUT) 0 16 = volts
        ∧ aget false t.inc.level (ikey .pwr 0 0) = decide (volts < 4000) ∧ aget false t.inc.level (ikey .pwr 0 1) = decide (5000 < volts)
        ∧ RegsButRecords [winBase .pwr 0 + rPWR_INPUT] s t)
    ∧ (let n := ir .pwr 0 rINC_COUNT + 4 * 3
        ∃ t, exec .polFault s = .next t ∧ t.f n 8 24 = min 0xFFFFFF (s.f n 8 24 + 1) ∧ RegsButRecords [] s t)

/-- R448, R471, R472, R492: a read of RGS_MEAS_DATA latches the register that RGS_MEAS_INDEX names, and is an Unsupported Request where
no BAR decodes; PF1 answers DOE discovery and, in the order of the
exchange, each SPDM request with its response; a request before its turn or one that R471 does not list gets ERROR. -/
def Obligations.SpdmAnswers : Prop :=
  ∀ (s : State) (msg : List Nat), s.host.linkUp = true → let b := payload msg
    let ver := at_ b 0 1
    let is_ := fun (code stage : Nat) => 4 ≤ b.length ∧ at_ b 1 1 = code ∧ stage ≤ s.sec.spdmStage ∧ (2 ≤ stage → ver = s.sec.spdmVersion)
    (s.hostOpen = false → ∃ t, exec .measDataRead s = .next t
        ∧ t = { s with out := s.out ++ [.read (winBase .rgs 0 + rRGS_MEAS_DATA) [] .unsupported] })
    ∧ (s.hostOpen = true → s.inRecovery = false → ∃ t, exec .measDataRead s = .next t ∧ t.sec.measLatch = s.sec.measReg s.measIndex ∧ t.sec.countLatch = s.sec.measCount s.measIndex
        ∧ t.out = s.out ++ [.read (winBase .rgs 0 + rRGS_MEAS_DATA) ((s.sec.measReg s.measIndex).take 4) .data] ∧ RegsBut [] s t)
    ∧ (∀ k, k < 2 → ∃ t, exec (.doeDiscovery k) s = .next t ∧ t = { s with out := s.out ++ [.doe (leBytes 2 1 ++ leBytes 2 0 ++ leBytes 4 3
        ++ leBytes 2 1 ++ leBytes 1 k ++ leBytes 1 (1 - k))] })
    ∧ (is_ 0x84 0 → ∃ t, exec (.getVersion msg) s = .next t ∧ t.sec.spdmStage = 1
        ∧ SpdmSent s t 0x04 0 0 (leBytes 1 0 ++ leBytes 1 2 ++ leBytes 2 0x1200 ++ leBytes 2 0x1300))
    ∧ (is_ 0xE1 1 → ver = 0x12 ∨ ver = 0x13 → ∃ t rest, exec (.getCapabilities msg) s = .next t ∧ t.sec.spdmStage = 2 ∧ t.sec.spdmVersion = ver
        ∧ SpdmSent s t 0x61 0 0 rest ∧ at_ rest 4 4 = 0x36)
    ∧ (is_ 0xE3 2 → ∃ t rest, exec (.negotiateAlgorithms msg) s = .next t ∧ t.sec.spdmStage = 3 ∧ SpdmSent s t 0x63 0 0 rest
        ∧ at_ rest 4 4 = 4 ∧ at_ rest 8 4 = 0x80 ∧ at_ rest 12 4 = 2)
    ∧ (is_ 0x81 3 → ∃ t, exec (.getDigests msg) s = .next t ∧ SpdmSent s t 0x01 0 1 (sha384 s.arch.chain))
    ∧ (is_ 0x82 3 → at_ b 2 1 % 16 = 0 → at_ b 4 2 ≤ s.arch.chain.length →
        let part := (s.arch.chain.drop (at_ b 4 2)).take (at_ b 6 2)
        ∃ t, exec (.getCertificate msg) s = .next t
          ∧ SpdmSent s t 0x02 0 0 (leBytes 2 part.length ++ leBytes 2 (s.arch.chain.length - at_ b 4 2 - part.length) ++ part))
    ∧ (is_ 0x83 3 → at_ b 2 1 % 16 = 0 → ∃ t rest, exec (.challenge msg) s = .next t ∧ SpdmSent s t 0x03 0 1 rest
        ∧ rest.take 48 = (sha384 s.arch.chain).take 48 ∧ t.sec.transcript = [] ∧ 96 ≤ rest.length)
    ∧ (is_ 0xE0 3 → (at_ b 3 1 = 0 → ∃ t rest, exec (.getMeasurements msg) s = .next t ∧ SpdmSent s t 0x60 7 0 rest ∧ at_ rest 0 1 = 0)
        ∧ (1 ≤ at_ b 3 1 → at_ b 3 1 ≤ 7 → ∃ t rest, exec (.getMeasurements msg) s = .next t ∧ SpdmSent s t 0x60 0 0 rest ∧ at_ rest 0 1 = 1
          ∧ at_ rest 4 1 = at_ b 3 1 ∧ ((s.sec.measReg (at_ b 3 1)).length = 48 → (rest.drop 11).take 48 = s.sec.measReg (at_ b 3 1))))
    ∧ (is_ 0xFF 2 → ∃ t, exec (.respondIfReady msg) s = .next t ∧ SpdmSent s t 0x7F 4 0 [] ∧ t = { s with out := t.out })
    ∧ (4 ≤ b.length → at_ b 1 1 ∉ spdmCodes → ∃ t, exec (.spdmUnsupported msg) s = .next t ∧ SpdmSent s t 0x7F 7 (at_ b 1 1) []
        ∧ t = { s with out := t.out })
    ∧ (4 ≤ b.length → s.sec.spdmStage = 0 → ∀ c ∈ [(0xE1, Instr.getCapabilities msg), (0xE3, .negotiateAlgorithms msg), (0x81, .getDigests msg),
          (0x82, .getCertificate msg), (0x83, .challenge msg), (0xE0, .getMeasurements msg), (0xFF, .respondIfReady msg)], at_ b 1 1 = c.1 →
        ∃ t, exec c.2 s = .next t ∧ SpdmSent s t 0x7F 4 0 [] ∧ t = { s with out := t.out })

/-- R482 to R486: the Warden port answers a request by the first of R484's checks that it fails, its state then as it was; one that the flash
holds off is BUSY, its COUNTER spent; ARP and ICMP are answered for the module's own address. -/
def Obligations.WardenRequestsAreChecked : Prop :=
  ∀ (s : State) (msg : List Nat) (flash : Nat), s.inRecovery = false → let m := payload msg
    let quiet := fun (t : State) => t = { s with out := t.out, free := t.free }
    let commands := [(1, Instr.statusGet msg), (2, .regRead msg), (3, .regWrite msg), (4, .powerCapSet msg flash), (5, .lifecycleSet msg),
      (6, .fwAuthorise msg flash), (7, .fwCommitSvn msg), (8, .historyRead msg), (10, .tenantKeySet msg flash), (11, .configSet msg flash),
      (12, .provision msg flash), (13, .wardenArchiveRead msg)]
      ++ (if at_ (wBody m) 0 1 = 1 then [(9, Instr.wardenLockdownForce msg)] else if at_ (wBody m) 0 1 = 2 then [(9, .wardenLockdownClear msg)] else [])
    (∀ e ∈ commands, at_ m 5 1 = e.1 →
        (headerOk m = false ∨ bodyOk e.1 (wBody m) = false → ∃ t, exec e.2 s = .next t ∧ Replied s t m 1 [] ∧ quiet t)
        ∧ (headerOk m = true → bodyOk e.1 (wBody m) = true →
          (at_ m 0x10 8 ≠ s.serial → ∃ t, exec e.2 s = .next t ∧ Replied s t m 4 [] ∧ quiet t)
          ∧ (at_ m 0x10 8 = s.serial →
            (at_ m 8 8 < s.counterMin (at_ m 6 1) → ∃ t, exec e.2 s = .next t ∧ Replied s t m 3 [] ∧ quiet t)
            ∧ (s.counterMin (at_ m 6 1) ≤ at_ m 8 8 →
              (s.wardenKey m = none → ∃ t, exec e.2 s = .next t ∧ Replied s t m 2 [] ∧ quiet t)
              ∧ ∃ t, exec e.2 s = .next t ∧ (s.wardenVerify m = false → Replied s t m 2 [] ∧ quiet t)
                ∧ (s.wardenVerify m = true → s.maySend e.1 (at_ m 6 1) (wBody m) = false → Replied s t m 5 [] ∧ quiet t)
                ∧ (s.wardenVerify m = true → s.maySend e.1 (at_ m 6 1) (wBody m) = true → s.wardenBusy e.1 = true →
                    Replied s t m 6 [] ∧ Spent t m ∧ RegsBut [] s t ∧ t.arch = s.arch)))))
    ∧ (headerOk m = false ∨ at_ m 5 1 = 0 ∨ 13 < at_ m 5 1 → ∃ t, exec (.badFormatRequest msg) s = .next t ∧ Replied s t m 1 [] ∧ quiet t)
    ∧ (∀ ip data, (at_ s.arch.config 0 4 ≠ 0 → ip = at_ s.arch.config 0 4 →
          (∃ t mac, exec (.arpRequest ip) s = .next t ∧ t = { s with out := s.out ++ [.arp ip mac] })
          ∧ ∃ t, exec (.icmpEcho ip data) s = .next t ∧ t = { s with out := s.out ++ [.icmp ip (payload data)] })
        ∧ (at_ s.arch.config 0 4 ≠ 0 → ip ≠ at_ s.arch.config 0 4 → ∃ t, exec (.arpRequest ip) s = .next t ∧ t = s))

/-- R473, R475, R479 to R481, R485, R501: each request of the Warden port that passes the checks spends its COUNTER, has its effect and is answered
with its body. Whether the signature verifies is left open (log entry 5), so each effect is stated under it. -/
def Obligations.WardenRequestsTakeEffect : Prop :=
  ∀ (s : State) (msg : List Nat), let m := payload msg
    let b := wBody m
    let done := fun (c : Instr) (effect : State → Prop) => ∃ t, exec c s = .next t ∧ (s.wardenVerify m = true → effect t)
    let ok := fun (t : State) => Spent t m ∧ Replied s t m 0 []
    let reads := fun (t : State) (body : List Byte) => Spent t m ∧ Replied s t m 0 body ∧ t.arch = s.arch ∧ RegsBut [] s t
    (WellSent s 1 m → done (.statusGet msg) fun t => ∃ body, reads t body ∧ body.length = 28 ∧ at_ body 0 4 = s.rn lifeReg ∧ at_ body 12 4 = s.rn bootStat
        ∧ at_ body 20 4 = s.f (winBase .pwr 0 + rPWR_INPUT) 16 16 ∧ at_ body 24 4 = s.f (winBase .pwr 0 + rPWR_CAP) 0 11)
    ∧ (WellSent s 2 m → at_ b 4 2 = 1 → done (.regRead msg) fun t => reads t (leBytes 4 (s.readReg (at_ b 0 4)).1))
    ∧ (WellSent s 8 m → done (.historyRead msg) fun t => ∃ body, reads t body ∧ body.length = 32 * at_ b 4 2 ∧ (∀ i, i < at_ b 4 2 →
        (body.drop (32 * i)).take 32 = agets 0xFF s.arch.bytes (5 * 2 ^ 27 + (at_ b 0 4 + i) % 1048576 * 32) 32))
    ∧ (WellSent s 13 m → at_ b 0 1 ≠ 1 → at_ b 0 1 ≠ 3 → done (.wardenArchiveRead msg) fun t =>
        reads t (agets 0xFF s.arch.bytes (at_ b 0 1 * 2 ^ 27 + at_ b 1 4) (at_ b 5 2)))
    ∧ (WellSent s 3 m → at_ b 8 4 = 0xFFFFFFFF → done (.regWrite msg) fun t => Replied s t m 0 []
        ∧ ∃ u, exec (.registerWrite (at_ b 0 4) (at_ b 4 4) .warden) ((s.keepCounter m true).wardenNotice 3 0 0) = .next u ∧ t.regs = u.regs)
    ∧ (WellSent s 4 m → let cap := max 470 (min 1600 (at_ b 0 2))
        done (.powerCapSet msg 0) (fun t => ok t ∧ t.rn (winBase .pwr 0 + rPWR_CAP) = cap ∧ t.arch.cap = some cap
          ∧ RegsButRecords [winBase .pwr 0 + rPWR_CAP] s t)
        ∧ done (.powerCapSet msg 1) (fun t => Replied s t m 7 [] ∧ t.arch.cap = s.arch.cap ∧ RegsButRecords [] s t))
    ∧ (WellSent s 5 m → done (.lifecycleSet msg) fun t => Spent t m ∧ t.locked = true ∧ t.sec.lifecycle = some m ∧ t.arch.life = some (at_ b 0 1)
        ∧ t.arch.operator = (if at_ b 0 1 = 2 then (m.drop 0x21).take 97 else if s.lifecycle = 2 then [] else s.arch.operator))
    ∧ (WellSent s 6 m → let k := at_ b 0 1
        ((s.fwSlot k).state = 1 → done (.fwAuthorise msg 0) fun t => Spent t m
          ∧ (s.coSigned b = true → ok t ∧ (t.fwSlot k).state = 2) ∧ (s.coSigned b = false → Replied s t m 2 [] ∧ t.fwSlot k = s.fwSlot k))
        ∧ ((s.fwSlot k).state ≠ 1 → done (.fwAuthorise msg 0) fun t => Replied s t m 5 [] ∧ t.fwSlot k = s.fwSlot k))
    ∧ (WellSent s 7 m → let n := at_ b 0 1
        (s.arch.fuse ≤ n ∧ n ≤ 64 ∧ s.activeSvn.any (fun v => decide (n ≤ v)) = true → done (.fwCommitSvn msg) fun t => ok t ∧ t.arch.fuse = n
          ∧ t.f (winBase .rgs 0 + rRGS_SVN) 0 7 = n ∧ (∀ k ∈ [0, 1], (s.fwSlot k).state ≠ 0 → imageSvn (s.fwSlot k).image < n → (t.fwSlot k).state = 6))
        ∧ (n < s.arch.fuse ∨ 64 < n ∨ s.activeSvn = none → done (.fwCommitSvn msg) fun t => Replied s t m 5 [] ∧ t.arch.fuse = s.arch.fuse))
    ∧ (WellSent s 9 m → at_ b 0 1 = 1 → done (.wardenLockdownForce msg) fun t => ok t ∧ t.locked = true)
    ∧ (WellSent s 9 m → at_ b 0 1 = 2 → s.locked = true →
        (s.resetOnly = true → done (.wardenLockdownClear msg) fun t => Replied s t m 5 [] ∧ t.locked = true)
        ∧ (s.resetOnly = false → s.causeHolds = false → done (.wardenLockdownClear msg) fun t => ok t ∧ t.locked = false))
    ∧ (WellSent s 10 m → let i := at_ b 0 1
        let key := if (b.drop 1).all (· == 0) then [] else b.drop 1
        done (.tenantKeySet msg 0) fun t => ok t ∧ aget [] t.arch.tenantKeys i = key ∧ (∀ j, j ≠ i → aget [] t.arch.tenantKeys j = aget [] s.arch.tenantKeys j)
          ∧ t.f lifeReg (8 + i) 1 = (if key = [] then 0 else 1) ∧ RegsButRecords [lifeReg] s t)
    ∧ (WellSent s 11 m → done (.configSet msg 0) fun t => ok t ∧ t.arch.config = b ∧ RegsButRecords [] s t)
    ∧ (WellSent s 12 m → b ≠ [] → done (.provision msg 0) fun t => ok t ∧ (t.arch.chain.drop (at_ b 0 4)).take (b.length - 4) = b.drop 4
        ∧ t.arch.chain.take (at_ b 0 4) = padTo (at_ b 0 4) (s.arch.chain.take (at_ b 0 4)) ∧ RegsButRecords [] s t)
    ∧ (WellSent s 12 m → b = [] → done (.provision msg 0) fun t => ∃ body, 1 ≤ body.length ∧ body.length ≤ 1296 ∧ reads t body)
end

