-- ==== Sys2Proof/Laws/Assoc.lean ====
section
/-! SUPPORT. Sparse tables: a read after a write, and the canonical form that every write keeps. -/

namespace Sys2Proof.Machine

open Sys2Proof

section
variable {α : Type} [DecidableEq α] (d : α)

omit [DecidableEq α] in
/-- A key above every key that `dropWhile` removes is looked up as before. -/
theorem aget_dropWhile_le (m : Assoc α) {k x : Nat} (h : k < x) :
    aget d (m.dropWhile fun e => decide (e.1 ≤ k)) x = aget d m x := by
  induction m with
  | nil => rfl
  | cons e m ih =>
    obtain ⟨j, w⟩ := e
    by_cases hj : j ≤ k
    · simp only [List.dropWhile_cons, hj, decide_true, if_true, ih, aget]
      rw [if_pos (Nat.lt_of_le_of_lt hj h)]
    · simp [hj]

omit [DecidableEq α] in
/-- After dropping the keys up to `k`, no key up to `k` is found. -/
theorem aget_dropWhile_ge (m : Assoc α) {k x : Nat} (h : x ≤ k) :
    aget d (m.dropWhile fun e => decide (e.1 ≤ k)) x = d := by
  induction m with
  | nil => rfl
  | cons e m ih =>
    obtain ⟨j, w⟩ := e
    by_cases hj : j ≤ k
    · simp only [List.dropWhile_cons, hj, decide_true, if_true, ih]
    · have h1 : ¬ j < x := by omega
      have h2 : j ≠ x := by omega
      simp [hj, aget, h1, h2]

/-- A key reads what was last written to it. -/
@[simp] theorem aget_aput_same (m : Assoc α) (k : Nat) (v : α) : aget d (aput d m k v) k = v := by
  induction m with
  | nil => by_cases h : v = d <;> simp [aput, aget, h]
  | cons e m ih =>
    obtain ⟨j, w⟩ := e
    by_cases hj : j < k
    · simp [aput, aget, hj, ih]
    · by_cases hv : v = d
      · subst hv
        simp only [aput, hj, if_false, if_true]
        exact aget_dropWhile_ge _ _ (Nat.le_refl k)
      · simp [aput, hj, hv, aget]

/-- A write leaves every other key as it was. -/
theorem aget_aput_ne (m : Assoc α) {k x : Nat} (v : α) (h : x ≠ k) : aget d (aput d m k v) x = aget d m x := by
  induction m with
  | nil =>
    by_cases hv : v = d
    · simp [aput, hv]
    · have h2 : k ≠ x := fun e => h e.symm
      simp [aput, hv, aget, h2]
  | cons e m ih =>
    obtain ⟨j, w⟩ := e
    by_cases hj : j < k
    · simp only [aput, hj, if_true, aget, ih]
    · have key : aget d (((j, w) :: m).dropWhile fun e => decide (e.1 ≤ k)) x = aget d ((j, w) :: m) x ∨ x < k := by
        by_cases hx : x < k
        · exact .inr hx
        · exact .inl (aget_dropWhile_le d _ (by omega))
      rcases key with hk | hx
      · by_cases hv : v = d
        · simp only [aput, hj, if_false, hv, if_true, hk]
        · by_cases hx : x < k
          · have h1 : ¬ k < x := by omega
            have h2 : k ≠ x := by omega
            have h3 : ¬ j < x := by omega
            have h4 : j ≠ x := by omega
            simp [aput, hj, hv, aget, h1, h2, h3, h4]
          · have h1 : k < x := by omega
            simp only [aput, hj, if_false, hv]
            rw [aget, if_pos h1, hk]
      · have h3 : ¬ j < x := by omega
        have h4 : j ≠ x := by omega
        by_cases hv : v = d
        · simp only [aput, hj, if_false, hv, if_true]
          rw [aget_dropWhile_ge d _ (by omega)]
          simp [aget, h3, h4]
        · have h1 : ¬ k < x := by omega
          have h2 : k ≠ x := by omega
          simp [aput, hj, hv, aget, h1, h2, h3, h4]

/-- Both cases of a read after a write. -/
theorem aget_aput (m : Assoc α) (k x : Nat) (v : α) : aget d (aput d m k v) x = if x = k then v else aget d m x := by
  by_cases h : x = k
  · subst h; simp
  · simp [h, aget_aput_ne d m v h]

omit [DecidableEq α] in
/-- A run read back reads what each key holds. -/
theorem agets_length (m : Assoc α) (k n : Nat) : (agets d m k n).length = n := by
  induction n generalizing k with
  | zero => rfl
  | succ n ih => simp [agets, ih]

/-! ### The canonical form -/

/-- Canonical above a bound, without its own bound. -/
theorem awf_weaken {m : Assoc α} {lo : Option Nat} (h : awf d lo m = true) : awf d none m = true := by
  cases m with
  | nil => rfl
  | cons e m => obtain ⟨j, w⟩ := e; cases lo <;> simp_all [awf]

/-- Canonical above a bound is canonical above a lower one. -/
theorem awf_mono {m : Assoc α} {a b : Nat} (hab : a ≤ b) (h : awf d (some b) m = true) : awf d (some a) m = true := by
  cases m with
  | nil => rfl
  | cons e m =>
    obtain ⟨j, w⟩ := e
    simp only [awf, Bool.and_eq_true, decide_eq_true_eq] at h ⊢
    exact ⟨⟨by omega, h.1.2⟩, h.2⟩

/-- A tail of a canonical table whose keys up to `k` are dropped is canonical above `k`. -/
theorem awf_dropWhile {m : Assoc α} (k : Nat) {lo : Option Nat} (h : awf d lo m = true) :
    awf d (some k) (m.dropWhile fun e => decide (e.1 ≤ k)) = true := by
  induction m generalizing lo with
  | nil => rfl
  | cons e m ih =>
    obtain ⟨j, w⟩ := e
    simp only [awf, Bool.and_eq_true, decide_eq_true_eq] at h
    by_cases hj : j ≤ k
    · simp only [List.dropWhile_cons, hj, decide_true, if_true]
      exact ih h.2
    · simp only [List.dropWhile_cons, hj, decide_false, Bool.false_eq_true, if_false, awf, Bool.and_eq_true, decide_eq_true_eq]
      exact ⟨⟨by omega, h.1.2⟩, h.2⟩

/-- A canonical table stays canonical under a write, above any bound that the key keeps. -/
theorem awf_aput_lo {m : Assoc α} {k : Nat} {lo : Option Nat} (v : α) (hlo : ∀ l, lo = some l → l < k) (h : awf d lo m = true) :
    awf d lo (aput d m k v) = true := by
  induction m generalizing lo with
  | nil =>
    by_cases hv : v = d
    · simp [aput, hv, awf]
    · cases lo with
      | none => simp [aput, hv, awf]
      | some l => simp [aput, hv, awf, hlo l rfl]
  | cons e m ih =>
    obtain ⟨j, w⟩ := e
    have h0 := h
    simp only [awf, Bool.and_eq_true, decide_eq_true_eq] at h
    by_cases hj : j < k
    · simp only [aput, hj, if_true, awf, Bool.and_eq_true, decide_eq_true_eq]
      exact ⟨h.1, ih (fun l hl => by simp only [Option.some.injEq] at hl; omega) h.2⟩
    · have tail := awf_dropWhile d k h0
      by_cases hv : v = d
      · simp only [aput, hj, if_false, hv, if_true]
        cases lo with
        | none => exact awf_weaken d tail
        | some l => exact awf_mono d (Nat.le_of_lt (hlo l rfl)) tail
      · simp only [aput, hj, if_false, hv, awf, Bool.and_eq_true, decide_eq_true_eq]
        refine ⟨⟨?_, hv⟩, tail⟩
        cases lo with
        | none => rfl
        | some l => simp [hlo l rfl]

/-- A write keeps the canonical form. -/
theorem awf_aput {m : Assoc α} (k : Nat) (v : α) (h : awf d none m = true) : awf d none (aput d m k v) = true :=
  awf_aput_lo d v (fun _ hl => nomatch hl) h

/-- A run of writes keeps it. -/
theorem awf_aputs {m : Assoc α} (k : Nat) (vs : List α) (h : awf d none m = true) : awf d none (aputs d m k vs) = true := by
  induction vs generalizing m k with
  | nil => exact h
  | cons v vs ih => exact ih (k + 1) (awf_aput d k v h)

/-- Entries taken away leave it canonical. -/
theorem awf_filter_lo {m : Assoc α} (p : Nat × α → Bool) {lo : Option Nat} (h : awf d lo m = true) : awf d lo (m.filter p) = true := by
  induction m generalizing lo with
  | nil => rfl
  | cons e m ih =>
    obtain ⟨j, w⟩ := e
    simp only [awf, Bool.and_eq_true, decide_eq_true_eq] at h
    by_cases hp : p (j, w) = true
    · simp only [List.filter_cons, hp, if_true, awf, Bool.and_eq_true, decide_eq_true_eq]
      exact ⟨h.1, ih h.2⟩
    · simp only [List.filter_cons, hp]
      have t := ih h.2
      cases lo with
      | none => exact awf_weaken d t
      | some l =>
        have hl : l < j := by simpa using h.1.1
        exact awf_mono d (Nat.le_of_lt hl) t

theorem awf_filter {m : Assoc α} (p : Nat × α → Bool) (h : awf d none m = true) : awf d none (m.filter p) = true :=
  awf_filter_lo d p h

/-- Forgetting a range keeps it. -/
theorem awf_acut {m : Assoc α} (lo hi : Nat) (h : awf d none m = true) : awf d none (acut m lo hi) = true := awf_filter d _ h

/-- New values at the same keys keep it, where no new value is the default. -/
theorem awf_map_lo {m : Assoc α} (g : Nat × α → α) {lo : Option Nat} (hg : ∀ e ∈ m, g e ≠ d) (h : awf d lo m = true) :
    awf d lo (m.map fun e => (e.1, g e)) = true := by
  induction m generalizing lo with
  | nil => rfl
  | cons e m ih =>
    obtain ⟨j, w⟩ := e
    simp only [awf, Bool.and_eq_true, decide_eq_true_eq] at h
    simp only [List.map_cons, awf, Bool.and_eq_true, decide_eq_true_eq]
    exact ⟨⟨h.1.1, hg _ (List.mem_cons_self ..)⟩, ih (fun e he => hg e (List.mem_cons_of_mem _ he)) h.2⟩

/-- A fold of canonical-keeping steps keeps it. -/
theorem awf_foldl {β : Type} {m : Assoc α} (g : Assoc α → β → Assoc α) (hg : ∀ m b, awf d none m = true → awf d none (g m b) = true) (bs : List β)
    (h : awf d none m = true) : awf d none (bs.foldl g m) = true := by
  induction bs generalizing m with
  | nil => exact h
  | cons b bs ih => exact ih (hg m b h)

end

end Sys2Proof.Machine
end

