-- ==== Sys2Proof/Laws/Flit.lean ====
section
/-! SUPPORT. The CRC-32C taken byte by byte with a number at every step, which the kernel can follow over a whole flit. -/

namespace Sys2Proof.Machine

open Sys2Proof

/-- A left fold whose accumulator is a number at every step. -/
def foldRun (f : Nat → Nat → Nat) : List Nat → Nat → Nat
  | [], a => a
  | b :: bs, a => match f a b with
    | 0 => foldRun f bs 0
    | n + 1 => foldRun f bs (n + 1)

theorem foldRun_eq (f : Nat → Nat → Nat) (bs : List Nat) (a : Nat) : foldRun f bs a = bs.foldl f a := by
  induction bs generalizing a with
  | nil => rfl
  | cons b bs ih =>
    rw [foldRun, List.foldl_cons]
    cases h : f a b <;> exact ih _

theorem crc32c_eq (bs : List Nat) : crc32c bs = foldRun crcByte bs 0xFFFFFFFF ^^^ 0xFFFFFFFF := by rw [foldRun_eq]; rfl

/-- `checkFlit` with the CRC so taken. -/
theorem checkFlit_eq (raw : List Nat) : checkFlit raw =
    match flitDecode (interleave 0 raw), flitDecode (interleave 1 raw) with
    | some (a, m), some (b, n) =>
      let w := weave a b
      let body := w.take 264
      if foldRun crcByte body 0xFFFFFFFF ^^^ 0xFFFFFFFF = at_ ((w.drop 264).map (BitVec.ofNat 8)) 0 4 then
        .good (m + n) (at_ (body.map (BitVec.ofNat 8)) 0 8) ((body.drop 8).map (BitVec.ofNat 8))
      else .crcFail (m + n)
    | _, _ => .uncorr := by
  unfold checkFlit; simp only [crc32c_eq] <;> rfl

end Sys2Proof.Machine
end

