-- ==== Sys2Proof/Laws/Ops.lean ====
section
/-! SUPPORT. Fields of words, and what the register operations do: a register reads what was written, and every other reads as
before. -/

namespace Sys2Proof.Machine

open Sys2Proof

/-! ### Fields -/

theorem fld_lt (w lo n : Nat) : fld w lo n < 2 ^ n := Nat.mod_lt _ (Nat.two_pow_pos n)

/-- A field reads what was set, cut to its width. -/
@[simp] theorem fld_setFld_same (w lo n v : Nat) : fld (setFld w lo n v) lo n = v % 2 ^ n := by
  unfold fld setFld
  have h1 : w % 2 ^ lo < 2 ^ lo := Nat.mod_lt _ (Nat.two_pow_pos lo)
  have h2 : w % 2 ^ lo + 2 ^ lo * (v % 2 ^ n) + 2 ^ (lo + n) * (w / 2 ^ (lo + n))
      = 2 ^ lo * (v % 2 ^ n + 2 ^ n * (w / 2 ^ (lo + n))) + w % 2 ^ lo := by rw [Nat.pow_add]; ring
  rw [h2, Nat.mul_add_div (Nat.two_pow_pos lo), Nat.div_eq_of_lt h1, Nat.add_zero, Nat.add_mul_mod_self_left, Nat.mod_mod]

/-- A field below the one set is as it was. -/
theorem fld_setFld_below (w lo n v a k : Nat) (h : a + k ≤ lo) : fld (setFld w lo n v) a k = fld w a k := by
  unfold fld setFld
  obtain ⟨c, rfl⟩ := Nat.exists_eq_add_of_le h
  have hw := Nat.div_add_mod w (2 ^ (a + k + c))
  have e1 : w % 2 ^ (a + k + c) + 2 ^ (a + k + c) * (v % 2 ^ n) + 2 ^ (a + k + c + n) * (w / 2 ^ (a + k + c + n))
      = w % 2 ^ (a + k + c) + 2 ^ a * (2 ^ k * (2 ^ c * ((v % 2 ^ n) + 2 ^ n * (w / 2 ^ (a + k + c + n))))) := by
    simp only [Nat.pow_add]; ring
  have e2 : w = w % 2 ^ (a + k + c) + 2 ^ a * (2 ^ k * (2 ^ c * (w / 2 ^ (a + k + c)))) := by
    conv_lhs => rw [← hw]
    simp only [Nat.pow_add]; ring
  rw [e1, Nat.add_mul_div_left _ _ (Nat.two_pow_pos a), Nat.add_mul_mod_self_left]
  conv_rhs => rw [e2]
  rw [Nat.add_mul_div_left _ _ (Nat.two_pow_pos a), Nat.add_mul_mod_self_left]

/-- A field above the one set is as it was. -/
theorem fld_setFld_above (w lo n v a k : Nat) (h : lo + n ≤ a) : fld (setFld w lo n v) a k = fld w a k := by
  unfold fld setFld
  obtain ⟨c, rfl⟩ := Nat.exists_eq_add_of_le h
  have h1 : w % 2 ^ lo + 2 ^ lo * (v % 2 ^ n) < 2 ^ (lo + n) := by
    have a1 : w % 2 ^ lo < 2 ^ lo := Nat.mod_lt _ (Nat.two_pow_pos lo)
    have a2 : v % 2 ^ n + 1 ≤ 2 ^ n := Nat.mod_lt _ (Nat.two_pow_pos n)
    calc w % 2 ^ lo + 2 ^ lo * (v % 2 ^ n) < 2 ^ lo + 2 ^ lo * (v % 2 ^ n) := Nat.add_lt_add_right a1 _
      _ = 2 ^ lo * (v % 2 ^ n + 1) := by ring
      _ ≤ 2 ^ lo * 2 ^ n := Nat.mul_le_mul_left _ a2
      _ = 2 ^ (lo + n) := (Nat.pow_add 2 lo n).symm
  have e : (w % 2 ^ lo + 2 ^ lo * (v % 2 ^ n) + 2 ^ (lo + n) * (w / 2 ^ (lo + n))) / 2 ^ (lo + n) = w / 2 ^ (lo + n) := by
    rw [Nat.add_mul_div_left _ _ (Nat.two_pow_pos _), Nat.div_eq_of_lt h1, Nat.zero_add]
  rw [Nat.pow_add (m := lo + n), ← Nat.div_div_eq_div_mul, ← Nat.div_div_eq_div_mul, e]

/-- Setting a field of a 32-bit word leaves a 32-bit word. -/
theorem setFld_lt {w lo n v : Nat} (hw : w < 2 ^ 32) (h : lo + n ≤ 32) : setFld w lo n v < 2 ^ 32 := by
  unfold setFld
  obtain ⟨c, hc⟩ := Nat.exists_eq_add_of_le h
  have a1 : w % 2 ^ lo < 2 ^ lo := Nat.mod_lt _ (Nat.two_pow_pos lo)
  have a2 : v % 2 ^ n + 1 ≤ 2 ^ n := Nat.mod_lt _ (Nat.two_pow_pos n)
  have h1 : w % 2 ^ lo + 2 ^ lo * (v % 2 ^ n) < 2 ^ (lo + n) := by
    calc w % 2 ^ lo + 2 ^ lo * (v % 2 ^ n) < 2 ^ lo + 2 ^ lo * (v % 2 ^ n) := Nat.add_lt_add_right a1 _
      _ = 2 ^ lo * (v % 2 ^ n + 1) := by ring
      _ ≤ 2 ^ lo * 2 ^ n := Nat.mul_le_mul_left _ a2
      _ = 2 ^ (lo + n) := (Nat.pow_add 2 lo n).symm
  have h2 : w / 2 ^ (lo + n) + 1 ≤ 2 ^ c := by
    rw [hc, Nat.pow_add] at hw
    exact (Nat.div_lt_iff_lt_mul (Nat.two_pow_pos _)).2 (by rw [Nat.mul_comm]; exact hw)
  calc w % 2 ^ lo + 2 ^ lo * (v % 2 ^ n) + 2 ^ (lo + n) * (w / 2 ^ (lo + n))
      < 2 ^ (lo + n) + 2 ^ (lo + n) * (w / 2 ^ (lo + n)) := Nat.add_lt_add_right h1 _
    _ = 2 ^ (lo + n) * (w / 2 ^ (lo + n) + 1) := by ring
    _ ≤ 2 ^ (lo + n) * 2 ^ c := Nat.mul_le_mul_left _ h2
    _ = 2 ^ 32 := by rw [hc]; simp only [Nat.pow_add]

/-! ### Registers -/

@[simp] theorem State.rd_wr_same (s : State) (a : Nat) (v : Word) : (s.wr a v).rd a = v := by simp [State.rd, State.wr]

theorem State.rd_wr_ne (s : State) {a b : Nat} (v : Word) (h : b ≠ a) : (s.wr a v).rd b = s.rd b := by
  simp only [State.rd, State.wr]
  by_cases e : resetVal a = resetVal b
  · rw [e, aget_aput_ne _ _ _ h]
  · exact rd_other s.regs h
where
  /-- A lookup with another default: the two writes differ in what they list at the written key alone. -/
  rd_other (m : Assoc Word) {a b : Nat} {v : Word} (h : b ≠ a) : aget (resetVal b) (aput (resetVal a) m a v) b = aget (resetVal b) m b := by
    induction m with
    | nil =>
      have h2 : a ≠ b := fun e => h e.symm
      by_cases hv : v = resetVal a
      · simp [aput, hv]
      · simp [aput, hv, aget, h2]
    | cons e m ih =>
      obtain ⟨j, w⟩ := e
      by_cases hj : j < a
      · simp only [aput, hj, if_true, aget, ih]
      · by_cases hx : a < b
        · have hk := aget_dropWhile_le (resetVal b) ((j, w) :: m) (k := a) (x := b) hx
          by_cases hv : v = resetVal a
          · simp only [aput, hj, if_false, hv, if_true, hk]
          · simp only [aput, hj, if_false, hv]
            rw [aget, if_pos hx, hk]
        · have hb : b < a := by omega
          have h3 : ¬ j < b := by omega
          have h4 : j ≠ b := by omega
          have hk := aget_dropWhile_ge (resetVal b) ((j, w) :: m) (k := a) (x := b) (Nat.le_of_lt hb)
          by_cases hv : v = resetVal a
          · simp only [aput, hj, if_false, hv, if_true, hk]
            simp [aget, h3, h4]
          · have h1 : ¬ a < b := by omega
            have h2 : a ≠ b := by omega
            simp [aput, hj, hv, aget, h1, h2, h3, h4]

theorem State.rd_wr (s : State) (a b : Nat) (v : Word) : (s.wr a v).rd b = if b = a then v else s.rd b := by
  by_cases h : b = a
  · subst h; simp
  · simp [h, State.rd_wr_ne s v h]

@[simp] theorem State.rn_wn_same (s : State) (a v : Nat) : (s.wn a v).rn a = v % 2 ^ 32 := by simp [State.rn, State.wn]

theorem State.rn_wn_ne (s : State) {a b : Nat} (v : Nat) (h : b ≠ a) : (s.wn a v).rn b = s.rn b := by
  simp [State.rn, State.wn, State.rd_wr_ne s _ h]

theorem State.rn_lt (s : State) (a : Nat) : s.rn a < 2 ^ 32 := (s.rd a).isLt

/-- A field reads what was set in it. -/
theorem State.f_setf_same (s : State) (a : Nat) {lo w : Nat} (v : Nat) (h : lo + w ≤ 32) : (s.setf a lo w v).f a lo w = v % 2 ^ w := by
  simp only [State.f, State.setf, State.rn_wn_same]
  rw [Nat.mod_eq_of_lt (setFld_lt (s.rn_lt a) h), fld_setFld_same]

/-- A field apart from the one set is as it was. -/
theorem State.f_setf_apart (s : State) (a : Nat) {lo w : Nat} (v : Nat) {x k : Nat} (h : lo + w ≤ 32) (hd : x + k ≤ lo ∨ lo + w ≤ x) :
    (s.setf a lo w v).f a x k = s.f a x k := by
  simp only [State.f, State.setf, State.rn_wn_same]
  rw [Nat.mod_eq_of_lt (setFld_lt (s.rn_lt a) h)]
  rcases hd with hd | hd
  · exact fld_setFld_below _ _ _ _ _ _ hd
  · exact fld_setFld_above _ _ _ _ _ _ hd

theorem State.f_setf_ne (s : State) {a b : Nat} (lo w v x k : Nat) (h : b ≠ a) : (s.setf a lo w v).f b x k = s.f b x k := by
  simp [State.f, State.setf, State.rn_wn_ne s _ h]

/-- A counter rises by one until it is full. -/
theorem State.rn_bump (s : State) (a : Nat) : (s.bump a).rn a = min 0xFFFFFFFF (s.rn a + 1) := by
  simp only [State.bump, State.bumpN, State.rn_wn_same]
  exact Nat.mod_eq_of_lt (by omega)

theorem State.rn_bump_ne (s : State) {a b : Nat} (h : b ≠ a) : (s.bump a).rn b = s.rn b := by
  simp [State.bump, State.bumpN, State.rn_wn_ne s _ h]

/-! ### Frames over registers -/

theorem RegsBut.refl (as : List Nat) (s : State) : RegsBut as s s := fun _ _ => rfl

theorem RegsBut.trans {as : List Nat} {s t u : State} (h : RegsBut as s t) (k : RegsBut as t u) : RegsBut as s u :=
  fun a ha => (k a ha).trans (h a ha)

theorem RegsBut.mono {as bs : List Nat} {s t : State} (hs : ∀ a ∈ as, a ∈ bs) (h : RegsBut as s t) : RegsBut bs s t :=
  fun a ha => h a fun hm => ha (hs a hm)

theorem RegsBut.records {as : List Nat} {s t : State} (h : RegsBut as s t) : RegsButRecords as s t := fun a ha _ => h a ha

theorem RegsButRecords.trans {as : List Nat} {s t u : State} (h : RegsButRecords as s t) (k : RegsButRecords as t u) : RegsButRecords as s u :=
  fun a ha hr => (k a ha hr).trans (h a ha hr)

theorem RegsButRecords.mono {as bs : List Nat} {s t : State} (hs : ∀ a ∈ as, a ∈ bs) (h : RegsButRecords as s t) : RegsButRecords bs s t :=
  fun a ha hr => h a (fun hm => ha (hs a hm)) hr

theorem RegsBut.wr (s : State) (a : Nat) (v : Word) : RegsBut [a] s (s.wr a v) :=
  fun b hb => State.rd_wr_ne s v (by simpa using hb)

theorem RegsBut.wn (s : State) (a v : Nat) : RegsBut [a] s (s.wn a v) := RegsBut.wr s a _
theorem RegsBut.setf (s : State) (a lo w v : Nat) : RegsBut [a] s (s.setf a lo w v) := RegsBut.wn s a _
theorem RegsBut.bump (s : State) (a : Nat) : RegsBut [a] s (s.bump a) := RegsBut.wn s a _

theorem OnlyRegs.refl (s : State) : OnlyRegs s s := rfl

theorem OnlyRegs.trans {s t u : State} (h : OnlyRegs s t) (k : OnlyRegs t u) : OnlyRegs s u := by
  unfold OnlyRegs at *
  rw [k, h]

theorem OnlyRegs.wr (s : State) (a : Nat) (v : Word) : OnlyRegs s (s.wr a v) := rfl
theorem OnlyRegs.wn (s : State) (a v : Nat) : OnlyRegs s (s.wn a v) := rfl
theorem OnlyRegs.setf (s : State) (a lo w v : Nat) : OnlyRegs s (s.setf a lo w v) := rfl
theorem OnlyRegs.bump (s : State) (a : Nat) : OnlyRegs s (s.bump a) := rfl

/-! ### The canonical form of the register file (used by the invariant of every step) -/

/-- `WellKept`'s part on registers as one recursive check, from a bound. -/
theorem regsWf_wr {s : State} (a : Nat) (v : Word) (h : RegsWf s) : RegsWf (s.wr a v) := by
  obtain ⟨h1, h2⟩ := h
  have hsub : ∀ e ∈ (s.wr a v).regs, e ∈ s.regs ∨ (e = (a, v) ∧ v ≠ resetVal a) := by
    intro e he
    exact mem_aput s.regs he
  refine ⟨pairwise_aput s.regs h1, fun e he => ?_⟩
  rcases hsub e he with hm | ⟨rfl, hv⟩
  · exact h2 e hm
  · exact hv
where
  mem_aput {d v : Word} {a : Nat} (m : Assoc Word) {e : Nat × Word} (he : e ∈ aput d m a v) : e ∈ m ∨ (e = (a, v) ∧ v ≠ d) := by
    induction m with
    | nil =>
      by_cases hv : v = d
      · simp [aput, hv] at he
      · simp only [aput, hv, if_false, List.mem_singleton] at he
        exact .inr ⟨he, hv⟩
    | cons x m ih =>
      obtain ⟨j, w⟩ := x
      by_cases hj : j < a
      · simp only [aput, hj, if_true, List.mem_cons] at he
        rcases he with rfl | he
        · exact .inl (List.mem_cons_self ..)
        · rcases ih he with h | h
          · exact .inl (List.mem_cons_of_mem _ h)
          · exact .inr h
      · by_cases hv : v = d
        · simp only [aput, hj, if_false, hv, if_true] at he
          exact .inl ((List.dropWhile_sublist _).mem he)
        · simp only [aput, hj, if_false, hv, List.mem_cons] at he
          rcases he with rfl | he
          · exact .inr ⟨rfl, hv⟩
          · exact .inl ((List.dropWhile_sublist _).mem he)
  pairwise_aput {d v : Word} {a : Nat} (m : Assoc Word) (h : (m.map (·.1)).Pairwise (· < ·)) : ((aput d m a v).map (·.1)).Pairwise (· < ·) := by
    induction m with
    | nil => by_cases hv : v = d <;> simp [aput, hv]
    | cons x m ih =>
      obtain ⟨j, w⟩ := x
      simp only [List.map_cons, List.pairwise_cons] at h
      by_cases hj : j < a
      · simp only [aput, hj, if_true, List.map_cons, List.pairwise_cons]
        refine ⟨fun k hk => ?_, ih h.2⟩
        obtain ⟨e, he, rfl⟩ := List.mem_map.1 hk
        rcases mem_aput m he with hm | ⟨rfl, _⟩
        · exact h.1 _ (List.mem_map_of_mem hm)
        · exact hj
      · have hp : ((((j, w) :: m).dropWhile fun e => decide (e.1 ≤ a)).map (·.1)).Pairwise (· < ·) := by
          have : (((j, w) :: m).map (·.1)).Pairwise (· < ·) := by
            simp only [List.map_cons, List.pairwise_cons]; exact h
          exact this.sublist ((List.dropWhile_sublist _).map _)
        by_cases hv : v = d
        · simp only [aput, hj, if_false, hv, if_true]; exact hp
        · simp only [aput, hj, if_false, hv, List.map_cons, List.pairwise_cons]
          refine ⟨fun k hk => ?_, hp⟩
          obtain ⟨e, he, rfl⟩ := List.mem_map.1 hk
          exact drop_above _ (by simpa only [List.map_cons, List.pairwise_cons] using h) he
  drop_above {a : Nat} (m : Assoc Word) (h : (m.map (·.1)).Pairwise (· < ·)) {e : Nat × Word} (he : e ∈ m.dropWhile fun e => decide (e.1 ≤ a)) : a < e.1 := by
    induction m with
    | nil => simp at he
    | cons x m ih =>
      obtain ⟨j, w⟩ := x
      simp only [List.map_cons, List.pairwise_cons] at h
      by_cases hj : j ≤ a
      · simp only [List.dropWhile_cons, hj, decide_true, if_true] at he
        exact ih h.2 he
      · simp only [List.dropWhile_cons, hj, decide_false, Bool.false_eq_true, if_false, List.mem_cons] at he
        rcases he with rfl | he
        · omega
        · have := h.1 _ (List.mem_map_of_mem (f := (·.1)) he)
          omega

theorem regsWf_wn {s : State} (a v : Nat) (h : RegsWf s) : RegsWf (s.wn a v) := regsWf_wr a _ h
theorem regsWf_setf {s : State} (a lo w v : Nat) (h : RegsWf s) : RegsWf (s.setf a lo w v) := regsWf_wn a _ h
theorem regsWf_bump {s : State} (a : Nat) (h : RegsWf s) : RegsWf (s.bump a) := regsWf_wn a _ h

/-! ### Reset classes (R10) -/

/-- A field set to what it holds changes nothing. -/
@[simp] theorem setFld_fld (w lo n : Nat) : setFld w lo n (fld w lo n) = w := by
  unfold setFld fld
  rw [Nat.mod_mod]
  have h1 := Nat.div_add_mod w (2 ^ lo)
  have h2 := Nat.div_add_mod (w / 2 ^ lo) (2 ^ n)
  have h3 : w / 2 ^ (lo + n) = w / 2 ^ lo / 2 ^ n := by rw [Nat.pow_add, Nat.div_div_eq_div_mul]
  rw [h3, Nat.pow_add]
  calc w % 2 ^ lo + 2 ^ lo * (w / 2 ^ lo % 2 ^ n) + 2 ^ lo * 2 ^ n * (w / 2 ^ lo / 2 ^ n)
      = 2 ^ lo * (2 ^ n * (w / 2 ^ lo / 2 ^ n) + w / 2 ^ lo % 2 ^ n) + w % 2 ^ lo := by ring
    _ = w := by rw [h2, h1]

/-- A register at its reset value stays there under every reset. -/
theorem clearFields_self (fs : List RField) (rv : Nat) (ev : Cls) : clearFields fs rv rv ev = rv := by
  unfold clearFields
  induction fs with
  | nil => rfl
  | cons f fs ih =>
    rw [List.foldl_cons]
    by_cases h : f.cls.clearedBy ev = true
    · rw [if_pos h, setFld_fld]; exact ih
    · rw [if_neg h]; exact ih

theorem clearOne_resetVal (ev : Cls) (a : Nat) : clearOne ev a (resetVal a) = resetVal a := by
  unfold clearOne
  split
  · rfl
  · rw [clearFields_self, BitVec.ofNat_toNat, BitVec.setWidth_eq]

/-- A register no entry lists holds its reset value. -/
theorem State.rd_unlisted {s : State} {a : Nat} (h : a ∉ s.regs.map (·.1)) : s.rd a = resetVal a := by
  unfold State.rd
  generalize s.regs = m at h
  induction m with
  | nil => rfl
  | cons e m ih =>
    obtain ⟨j, w⟩ := e
    simp only [List.map_cons, List.mem_cons, not_or] at h
    have h2 : j ≠ a := fun e => h.1 e.symm
    simp only [aget, h2, if_false]
    split
    · exact ih h.2
    · rfl

/-- A reset of a class over a range: each register in it loses the fields that class clears, and every other stands. -/
theorem State.rd_clearRange {s : State} (hs : RegsWf s) (ev : Cls) (lo hi a : Nat) :
    (s.clearRange ev lo hi).rd a = if lo ≤ a ∧ a < hi then clearOne ev a (s.rd a) else s.rd a := by
  have key : ∀ (l : Assoc Word) (u : State), (l.map (·.1)).Pairwise (· < ·) →
      (l.foldl (fun st e => if lo ≤ e.1 ∧ e.1 < hi then st.wr e.1 (clearOne ev e.1 (st.rd e.1)) else st) u).rd a
        = if a ∈ l.map (·.1) ∧ lo ≤ a ∧ a < hi then clearOne ev a (u.rd a) else u.rd a := by
    intro l
    induction l with
    | nil => intro u _; simp
    | cons e l ih =>
      intro u hp
      simp only [List.map_cons, List.pairwise_cons] at hp
      rw [List.foldl_cons, ih _ hp.2]
      by_cases ha : a = e.1
      · subst ha
        have hn : e.1 ∉ l.map (·.1) := fun hm => Nat.lt_irrefl _ (hp.1 _ hm)
        by_cases hr : lo ≤ e.1 ∧ e.1 < hi
        · simp [hn, hr]
        · simp [hr]
      · have hu : (if lo ≤ e.1 ∧ e.1 < hi then u.wr e.1 (clearOne ev e.1 (u.rd e.1)) else u).rd a = u.rd a := by
          split
          · exact State.rd_wr_ne _ _ ha
          · rfl
        rw [hu]
        simp [ha]
  unfold State.clearRange
  rw [key _ _ hs.1]
  by_cases hr : lo ≤ a ∧ a < hi
  · by_cases hm : a ∈ s.regs.map (·.1)
    · simp only [hm, hr, and_self, if_true]
    · rw [if_neg (fun h => hm h.1), if_pos hr, State.rd_unlisted hm, clearOne_resetVal]
  · rw [if_neg (fun h => hr h.2), if_neg hr]

/-- A reset of a class changes nothing but registers. -/
theorem OnlyRegs.clearRange (s : State) (ev : Cls) (lo hi : Nat) : OnlyRegs s (s.clearRange ev lo hi) := by
  have key : ∀ (l : Assoc Word) (u : State), OnlyRegs s u →
      OnlyRegs s (l.foldl (fun st e => if lo ≤ e.1 ∧ e.1 < hi then st.wr e.1 (clearOne ev e.1 (st.rd e.1)) else st) u) := by
    intro l
    induction l with
    | nil => intro u h; exact h
    | cons e l ih =>
      intro u h
      refine ih _ ?_
      dsimp only
      split
      · exact OnlyRegs.trans h rfl
      · exact h
  exact key s.regs s rfl

theorem regsWf_clearRange {s : State} (h : RegsWf s) (ev : Cls) (lo hi : Nat) : RegsWf (s.clearRange ev lo hi) := by
  have key : ∀ (l : Assoc Word) (u : State), RegsWf u →
      RegsWf (l.foldl (fun st e => if lo ≤ e.1 ∧ e.1 < hi then st.wr e.1 (clearOne ev e.1 (st.rd e.1)) else st) u) := by
    intro l
    induction l with
    | nil => intro u h; exact h
    | cons e l ih =>
      intro u h
      refine ih _ ?_
      dsimp only
      split
      · exact regsWf_wr _ _ h
      · exact h
  exact key s.regs s h

end Sys2Proof.Machine
end

