-- ==== Sys2Proof/Laws/State.lean ====
section
/-! SUPPORT. What each update of State leaves: one lemma per field per update, each true by rfl or by the two cases of a memory. -/

namespace Sys2Proof.Machine

open Sys2Proof

/-! ### A register stored -/

@[simp] theorem State.wr_tiles (s : State) (a : Nat) (v : Word) : (s.wr a v).tiles = s.tiles := rfl
@[simp] theorem State.wr_vault (s : State) (a : Nat) (v : Word) : (s.wr a v).vault = s.vault := rfl
@[simp] theorem State.wr_store (s : State) (a : Nat) (v : Word) : (s.wr a v).store = s.store := rfl
@[simp] theorem State.wr_inc (s : State) (a : Nat) (v : Word) : (s.wr a v).inc = s.inc := rfl
@[simp] theorem State.wr_host (s : State) (a : Nat) (v : Word) : (s.wr a v).host = s.host := rfl
@[simp] theorem State.wr_cur (s : State) (a : Nat) (v : Word) : (s.wr a v).cur = s.cur := rfl
@[simp] theorem State.wr_fab (s : State) (a : Nat) (v : Word) : (s.wr a v).fab = s.fab := rfl
@[simp] theorem State.wr_light (s : State) (a : Nat) (v : Word) : (s.wr a v).light = s.light := rfl
@[simp] theorem State.wr_pair (s : State) (a : Nat) (v : Word) : (s.wr a v).pair = s.pair := rfl
@[simp] theorem State.wr_sec (s : State) (a : Nat) (v : Word) : (s.wr a v).sec = s.sec := rfl
@[simp] theorem State.wr_arch (s : State) (a : Nat) (v : Word) : (s.wr a v).arch = s.arch := rfl
@[simp] theorem State.wr_pwr (s : State) (a : Nat) (v : Word) : (s.wr a v).pwr = s.pwr := rfl
@[simp] theorem State.wr_timer (s : State) (a : Nat) (v : Word) : (s.wr a v).timer = s.timer := rfl
@[simp] theorem State.wr_free (s : State) (a : Nat) (v : Word) : (s.wr a v).free = s.free := rfl
@[simp] theorem State.wr_out (s : State) (a : Nat) (v : Word) : (s.wr a v).out = s.out := rfl
@[simp] theorem State.wr_pending (s : State) (a : Nat) (v : Word) : (s.wr a v).pending = s.pending := rfl

/-! ### A register stored from a number -/

@[simp] theorem State.wn_tiles (s : State) (a v : Nat) : (s.wn a v).tiles = s.tiles := rfl
@[simp] theorem State.wn_vault (s : State) (a v : Nat) : (s.wn a v).vault = s.vault := rfl
@[simp] theorem State.wn_store (s : State) (a v : Nat) : (s.wn a v).store = s.store := rfl
@[simp] theorem State.wn_inc (s : State) (a v : Nat) : (s.wn a v).inc = s.inc := rfl
@[simp] theorem State.wn_host (s : State) (a v : Nat) : (s.wn a v).host = s.host := rfl
@[simp] theorem State.wn_cur (s : State) (a v : Nat) : (s.wn a v).cur = s.cur := rfl
@[simp] theorem State.wn_fab (s : State) (a v : Nat) : (s.wn a v).fab = s.fab := rfl
@[simp] theorem State.wn_light (s : State) (a v : Nat) : (s.wn a v).light = s.light := rfl
@[simp] theorem State.wn_pair (s : State) (a v : Nat) : (s.wn a v).pair = s.pair := rfl
@[simp] theorem State.wn_sec (s : State) (a v : Nat) : (s.wn a v).sec = s.sec := rfl
@[simp] theorem State.wn_arch (s : State) (a v : Nat) : (s.wn a v).arch = s.arch := rfl
@[simp] theorem State.wn_pwr (s : State) (a v : Nat) : (s.wn a v).pwr = s.pwr := rfl
@[simp] theorem State.wn_timer (s : State) (a v : Nat) : (s.wn a v).timer = s.timer := rfl
@[simp] theorem State.wn_free (s : State) (a v : Nat) : (s.wn a v).free = s.free := rfl
@[simp] theorem State.wn_out (s : State) (a v : Nat) : (s.wn a v).out = s.out := rfl
@[simp] theorem State.wn_pending (s : State) (a v : Nat) : (s.wn a v).pending = s.pending := rfl

/-! ### A field set -/

@[simp] theorem State.setf_tiles (s : State) (a lo w v : Nat) : (s.setf a lo w v).tiles = s.tiles := rfl
@[simp] theorem State.setf_vault (s : State) (a lo w v : Nat) : (s.setf a lo w v).vault = s.vault := rfl
@[simp] theorem State.setf_store (s : State) (a lo w v : Nat) : (s.setf a lo w v).store = s.store := rfl
@[simp] theorem State.setf_inc (s : State) (a lo w v : Nat) : (s.setf a lo w v).inc = s.inc := rfl
@[simp] theorem State.setf_host (s : State) (a lo w v : Nat) : (s.setf a lo w v).host = s.host := rfl
@[simp] theorem State.setf_cur (s : State) (a lo w v : Nat) : (s.setf a lo w v).cur = s.cur := rfl
@[simp] theorem State.setf_fab (s : State) (a lo w v : Nat) : (s.setf a lo w v).fab = s.fab := rfl
@[simp] theorem State.setf_light (s : State) (a lo w v : Nat) : (s.setf a lo w v).light = s.light := rfl
@[simp] theorem State.setf_pair (s : State) (a lo w v : Nat) : (s.setf a lo w v).pair = s.pair := rfl
@[simp] theorem State.setf_sec (s : State) (a lo w v : Nat) : (s.setf a lo w v).sec = s.sec := rfl
@[simp] theorem State.setf_arch (s : State) (a lo w v : Nat) : (s.setf a lo w v).arch = s.arch := rfl
@[simp] theorem State.setf_pwr (s : State) (a lo w v : Nat) : (s.setf a lo w v).pwr = s.pwr := rfl
@[simp] theorem State.setf_timer (s : State) (a lo w v : Nat) : (s.setf a lo w v).timer = s.timer := rfl
@[simp] theorem State.setf_free (s : State) (a lo w v : Nat) : (s.setf a lo w v).free = s.free := rfl
@[simp] theorem State.setf_out (s : State) (a lo w v : Nat) : (s.setf a lo w v).out = s.out := rfl
@[simp] theorem State.setf_pending (s : State) (a lo w v : Nat) : (s.setf a lo w v).pending = s.pending := rfl

/-! ### A counter raised -/

@[simp] theorem State.bumpN_tiles (s : State) (a n : Nat) : (s.bumpN a n).tiles = s.tiles := rfl
@[simp] theorem State.bumpN_vault (s : State) (a n : Nat) : (s.bumpN a n).vault = s.vault := rfl
@[simp] theorem State.bumpN_store (s : State) (a n : Nat) : (s.bumpN a n).store = s.store := rfl
@[simp] theorem State.bumpN_inc (s : State) (a n : Nat) : (s.bumpN a n).inc = s.inc := rfl
@[simp] theorem State.bumpN_host (s : State) (a n : Nat) : (s.bumpN a n).host = s.host := rfl
@[simp] theorem State.bumpN_cur (s : State) (a n : Nat) : (s.bumpN a n).cur = s.cur := rfl
@[simp] theorem State.bumpN_fab (s : State) (a n : Nat) : (s.bumpN a n).fab = s.fab := rfl
@[simp] theorem State.bumpN_light (s : State) (a n : Nat) : (s.bumpN a n).light = s.light := rfl
@[simp] theorem State.bumpN_pair (s : State) (a n : Nat) : (s.bumpN a n).pair = s.pair := rfl
@[simp] theorem State.bumpN_sec (s : State) (a n : Nat) : (s.bumpN a n).sec = s.sec := rfl
@[simp] theorem State.bumpN_arch (s : State) (a n : Nat) : (s.bumpN a n).arch = s.arch := rfl
@[simp] theorem State.bumpN_pwr (s : State) (a n : Nat) : (s.bumpN a n).pwr = s.pwr := rfl
@[simp] theorem State.bumpN_timer (s : State) (a n : Nat) : (s.bumpN a n).timer = s.timer := rfl
@[simp] theorem State.bumpN_free (s : State) (a n : Nat) : (s.bumpN a n).free = s.free := rfl
@[simp] theorem State.bumpN_out (s : State) (a n : Nat) : (s.bumpN a n).out = s.out := rfl
@[simp] theorem State.bumpN_pending (s : State) (a n : Nat) : (s.bumpN a n).pending = s.pending := rfl

/-! ### A counter raised by one -/

@[simp] theorem State.bump_tiles (s : State) (a : Nat) : (s.bump a).tiles = s.tiles := rfl
@[simp] theorem State.bump_vault (s : State) (a : Nat) : (s.bump a).vault = s.vault := rfl
@[simp] theorem State.bump_store (s : State) (a : Nat) : (s.bump a).store = s.store := rfl
@[simp] theorem State.bump_inc (s : State) (a : Nat) : (s.bump a).inc = s.inc := rfl
@[simp] theorem State.bump_host (s : State) (a : Nat) : (s.bump a).host = s.host := rfl
@[simp] theorem State.bump_cur (s : State) (a : Nat) : (s.bump a).cur = s.cur := rfl
@[simp] theorem State.bump_fab (s : State) (a : Nat) : (s.bump a).fab = s.fab := rfl
@[simp] theorem State.bump_light (s : State) (a : Nat) : (s.bump a).light = s.light := rfl
@[simp] theorem State.bump_pair (s : State) (a : Nat) : (s.bump a).pair = s.pair := rfl
@[simp] theorem State.bump_sec (s : State) (a : Nat) : (s.bump a).sec = s.sec := rfl
@[simp] theorem State.bump_arch (s : State) (a : Nat) : (s.bump a).arch = s.arch := rfl
@[simp] theorem State.bump_pwr (s : State) (a : Nat) : (s.bump a).pwr = s.pwr := rfl
@[simp] theorem State.bump_timer (s : State) (a : Nat) : (s.bump a).timer = s.timer := rfl
@[simp] theorem State.bump_free (s : State) (a : Nat) : (s.bump a).free = s.free := rfl
@[simp] theorem State.bump_out (s : State) (a : Nat) : (s.bump a).out = s.out := rfl
@[simp] theorem State.bump_pending (s : State) (a : Nat) : (s.bump a).pending = s.pending := rfl

/-! ### A pair of registers stored -/

@[simp] theorem State.wr64_tiles (s : State) (lo hi v : Nat) : (s.wr64 lo hi v).tiles = s.tiles := rfl
@[simp] theorem State.wr64_vault (s : State) (lo hi v : Nat) : (s.wr64 lo hi v).vault = s.vault := rfl
@[simp] theorem State.wr64_store (s : State) (lo hi v : Nat) : (s.wr64 lo hi v).store = s.store := rfl
@[simp] theorem State.wr64_inc (s : State) (lo hi v : Nat) : (s.wr64 lo hi v).inc = s.inc := rfl
@[simp] theorem State.wr64_host (s : State) (lo hi v : Nat) : (s.wr64 lo hi v).host = s.host := rfl
@[simp] theorem State.wr64_cur (s : State) (lo hi v : Nat) : (s.wr64 lo hi v).cur = s.cur := rfl
@[simp] theorem State.wr64_fab (s : State) (lo hi v : Nat) : (s.wr64 lo hi v).fab = s.fab := rfl
@[simp] theorem State.wr64_light (s : State) (lo hi v : Nat) : (s.wr64 lo hi v).light = s.light := rfl
@[simp] theorem State.wr64_pair (s : State) (lo hi v : Nat) : (s.wr64 lo hi v).pair = s.pair := rfl
@[simp] theorem State.wr64_sec (s : State) (lo hi v : Nat) : (s.wr64 lo hi v).sec = s.sec := rfl
@[simp] theorem State.wr64_arch (s : State) (lo hi v : Nat) : (s.wr64 lo hi v).arch = s.arch := rfl
@[simp] theorem State.wr64_pwr (s : State) (lo hi v : Nat) : (s.wr64 lo hi v).pwr = s.pwr := rfl
@[simp] theorem State.wr64_timer (s : State) (lo hi v : Nat) : (s.wr64 lo hi v).timer = s.timer := rfl
@[simp] theorem State.wr64_free (s : State) (lo hi v : Nat) : (s.wr64 lo hi v).free = s.free := rfl
@[simp] theorem State.wr64_out (s : State) (lo hi v : Nat) : (s.wr64 lo hi v).out = s.out := rfl
@[simp] theorem State.wr64_pending (s : State) (lo hi v : Nat) : (s.wr64 lo hi v).pending = s.pending := rfl

/-! ### A tile moved to a state -/

@[simp] theorem State.setTs_tiles (s : State) (t v : Nat) : (s.setTs t v).tiles = s.tiles := rfl
@[simp] theorem State.setTs_vault (s : State) (t v : Nat) : (s.setTs t v).vault = s.vault := rfl
@[simp] theorem State.setTs_store (s : State) (t v : Nat) : (s.setTs t v).store = s.store := rfl
@[simp] theorem State.setTs_inc (s : State) (t v : Nat) : (s.setTs t v).inc = s.inc := rfl
@[simp] theorem State.setTs_host (s : State) (t v : Nat) : (s.setTs t v).host = s.host := rfl
@[simp] theorem State.setTs_cur (s : State) (t v : Nat) : (s.setTs t v).cur = s.cur := rfl
@[simp] theorem State.setTs_fab (s : State) (t v : Nat) : (s.setTs t v).fab = s.fab := rfl
@[simp] theorem State.setTs_light (s : State) (t v : Nat) : (s.setTs t v).light = s.light := rfl
@[simp] theorem State.setTs_pair (s : State) (t v : Nat) : (s.setTs t v).pair = s.pair := rfl
@[simp] theorem State.setTs_sec (s : State) (t v : Nat) : (s.setTs t v).sec = s.sec := rfl
@[simp] theorem State.setTs_arch (s : State) (t v : Nat) : (s.setTs t v).arch = s.arch := rfl
@[simp] theorem State.setTs_pwr (s : State) (t v : Nat) : (s.setTs t v).pwr = s.pwr := rfl
@[simp] theorem State.setTs_timer (s : State) (t v : Nat) : (s.setTs t v).timer = s.timer := rfl
@[simp] theorem State.setTs_free (s : State) (t v : Nat) : (s.setTs t v).free = s.free := rfl
@[simp] theorem State.setTs_out (s : State) (t v : Nat) : (s.setTs t v).out = s.out := rfl
@[simp] theorem State.setTs_pending (s : State) (t v : Nat) : (s.setTs t v).pending = s.pending := rfl

/-! ### A tile replaced -/

@[simp] theorem State.setTile_regs (s : State) (t : Nat) (x : Tile) : (s.setTile t x).regs = s.regs := rfl
@[simp] theorem State.setTile_vault (s : State) (t : Nat) (x : Tile) : (s.setTile t x).vault = s.vault := rfl
@[simp] theorem State.setTile_store (s : State) (t : Nat) (x : Tile) : (s.setTile t x).store = s.store := rfl
@[simp] theorem State.setTile_inc (s : State) (t : Nat) (x : Tile) : (s.setTile t x).inc = s.inc := rfl
@[simp] theorem State.setTile_host (s : State) (t : Nat) (x : Tile) : (s.setTile t x).host = s.host := rfl
@[simp] theorem State.setTile_cur (s : State) (t : Nat) (x : Tile) : (s.setTile t x).cur = s.cur := rfl
@[simp] theorem State.setTile_fab (s : State) (t : Nat) (x : Tile) : (s.setTile t x).fab = s.fab := rfl
@[simp] theorem State.setTile_light (s : State) (t : Nat) (x : Tile) : (s.setTile t x).light = s.light := rfl
@[simp] theorem State.setTile_pair (s : State) (t : Nat) (x : Tile) : (s.setTile t x).pair = s.pair := rfl
@[simp] theorem State.setTile_sec (s : State) (t : Nat) (x : Tile) : (s.setTile t x).sec = s.sec := rfl
@[simp] theorem State.setTile_arch (s : State) (t : Nat) (x : Tile) : (s.setTile t x).arch = s.arch := rfl
@[simp] theorem State.setTile_pwr (s : State) (t : Nat) (x : Tile) : (s.setTile t x).pwr = s.pwr := rfl
@[simp] theorem State.setTile_timer (s : State) (t : Nat) (x : Tile) : (s.setTile t x).timer = s.timer := rfl
@[simp] theorem State.setTile_free (s : State) (t : Nat) (x : Tile) : (s.setTile t x).free = s.free := rfl
@[simp] theorem State.setTile_out (s : State) (t : Nat) (x : Tile) : (s.setTile t x).out = s.out := rfl
@[simp] theorem State.setTile_pending (s : State) (t : Nat) (x : Tile) : (s.setTile t x).pending = s.pending := rfl

/-! ### A tile changed -/

@[simp] theorem State.mapTile_regs (s : State) (t : Nat) (g : Tile → Tile) : (s.mapTile t g).regs = s.regs := rfl
@[simp] theorem State.mapTile_vault (s : State) (t : Nat) (g : Tile → Tile) : (s.mapTile t g).vault = s.vault := rfl
@[simp] theorem State.mapTile_store (s : State) (t : Nat) (g : Tile → Tile) : (s.mapTile t g).store = s.store := rfl
@[simp] theorem State.mapTile_inc (s : State) (t : Nat) (g : Tile → Tile) : (s.mapTile t g).inc = s.inc := rfl
@[simp] theorem State.mapTile_host (s : State) (t : Nat) (g : Tile → Tile) : (s.mapTile t g).host = s.host := rfl
@[simp] theorem State.mapTile_cur (s : State) (t : Nat) (g : Tile → Tile) : (s.mapTile t g).cur = s.cur := rfl
@[simp] theorem State.mapTile_fab (s : State) (t : Nat) (g : Tile → Tile) : (s.mapTile t g).fab = s.fab := rfl
@[simp] theorem State.mapTile_light (s : State) (t : Nat) (g : Tile → Tile) : (s.mapTile t g).light = s.light := rfl
@[simp] theorem State.mapTile_pair (s : State) (t : Nat) (g : Tile → Tile) : (s.mapTile t g).pair = s.pair := rfl
@[simp] theorem State.mapTile_sec (s : State) (t : Nat) (g : Tile → Tile) : (s.mapTile t g).sec = s.sec := rfl
@[simp] theorem State.mapTile_arch (s : State) (t : Nat) (g : Tile → Tile) : (s.mapTile t g).arch = s.arch := rfl
@[simp] theorem State.mapTile_pwr (s : State) (t : Nat) (g : Tile → Tile) : (s.mapTile t g).pwr = s.pwr := rfl
@[simp] theorem State.mapTile_timer (s : State) (t : Nat) (g : Tile → Tile) : (s.mapTile t g).timer = s.timer := rfl
@[simp] theorem State.mapTile_free (s : State) (t : Nat) (g : Tile → Tile) : (s.mapTile t g).free = s.free := rfl
@[simp] theorem State.mapTile_out (s : State) (t : Nat) (g : Tile → Tile) : (s.mapTile t g).out = s.out := rfl
@[simp] theorem State.mapTile_pending (s : State) (t : Nat) (g : Tile → Tile) : (s.mapTile t g).pending = s.pending := rfl

/-! ### Host memory written -/

@[simp] theorem State.hostWrite_regs (s : State) (a : Nat) (bs : List Byte) : (s.hostWrite a bs).regs = s.regs := rfl
@[simp] theorem State.hostWrite_tiles (s : State) (a : Nat) (bs : List Byte) : (s.hostWrite a bs).tiles = s.tiles := rfl
@[simp] theorem State.hostWrite_vault (s : State) (a : Nat) (bs : List Byte) : (s.hostWrite a bs).vault = s.vault := rfl
@[simp] theorem State.hostWrite_store (s : State) (a : Nat) (bs : List Byte) : (s.hostWrite a bs).store = s.store := rfl
@[simp] theorem State.hostWrite_inc (s : State) (a : Nat) (bs : List Byte) : (s.hostWrite a bs).inc = s.inc := rfl
@[simp] theorem State.hostWrite_cur (s : State) (a : Nat) (bs : List Byte) : (s.hostWrite a bs).cur = s.cur := rfl
@[simp] theorem State.hostWrite_fab (s : State) (a : Nat) (bs : List Byte) : (s.hostWrite a bs).fab = s.fab := rfl
@[simp] theorem State.hostWrite_light (s : State) (a : Nat) (bs : List Byte) : (s.hostWrite a bs).light = s.light := rfl
@[simp] theorem State.hostWrite_pair (s : State) (a : Nat) (bs : List Byte) : (s.hostWrite a bs).pair = s.pair := rfl
@[simp] theorem State.hostWrite_sec (s : State) (a : Nat) (bs : List Byte) : (s.hostWrite a bs).sec = s.sec := rfl
@[simp] theorem State.hostWrite_arch (s : State) (a : Nat) (bs : List Byte) : (s.hostWrite a bs).arch = s.arch := rfl
@[simp] theorem State.hostWrite_pwr (s : State) (a : Nat) (bs : List Byte) : (s.hostWrite a bs).pwr = s.pwr := rfl
@[simp] theorem State.hostWrite_timer (s : State) (a : Nat) (bs : List Byte) : (s.hostWrite a bs).timer = s.timer := rfl
@[simp] theorem State.hostWrite_free (s : State) (a : Nat) (bs : List Byte) : (s.hostWrite a bs).free = s.free := rfl
@[simp] theorem State.hostWrite_out (s : State) (a : Nat) (bs : List Byte) : (s.hostWrite a bs).out = s.out := rfl
@[simp] theorem State.hostWrite_pending (s : State) (a : Nat) (bs : List Byte) : (s.hostWrite a bs).pending = s.pending := rfl

/-! ### A write held back -/

@[simp] theorem State.holdWrite_regs (s : State) (a v : Nat) (x : Side) : (s.holdWrite a v x).regs = s.regs := rfl
@[simp] theorem State.holdWrite_tiles (s : State) (a v : Nat) (x : Side) : (s.holdWrite a v x).tiles = s.tiles := rfl
@[simp] theorem State.holdWrite_vault (s : State) (a v : Nat) (x : Side) : (s.holdWrite a v x).vault = s.vault := rfl
@[simp] theorem State.holdWrite_store (s : State) (a v : Nat) (x : Side) : (s.holdWrite a v x).store = s.store := rfl
@[simp] theorem State.holdWrite_inc (s : State) (a v : Nat) (x : Side) : (s.holdWrite a v x).inc = s.inc := rfl
@[simp] theorem State.holdWrite_host (s : State) (a v : Nat) (x : Side) : (s.holdWrite a v x).host = s.host := rfl
@[simp] theorem State.holdWrite_cur (s : State) (a v : Nat) (x : Side) : (s.holdWrite a v x).cur = s.cur := rfl
@[simp] theorem State.holdWrite_fab (s : State) (a v : Nat) (x : Side) : (s.holdWrite a v x).fab = s.fab := rfl
@[simp] theorem State.holdWrite_light (s : State) (a v : Nat) (x : Side) : (s.holdWrite a v x).light = s.light := rfl
@[simp] theorem State.holdWrite_pair (s : State) (a v : Nat) (x : Side) : (s.holdWrite a v x).pair = s.pair := rfl
@[simp] theorem State.holdWrite_sec (s : State) (a v : Nat) (x : Side) : (s.holdWrite a v x).sec = s.sec := rfl
@[simp] theorem State.holdWrite_arch (s : State) (a v : Nat) (x : Side) : (s.holdWrite a v x).arch = s.arch := rfl
@[simp] theorem State.holdWrite_timer (s : State) (a v : Nat) (x : Side) : (s.holdWrite a v x).timer = s.timer := rfl
@[simp] theorem State.holdWrite_free (s : State) (a v : Nat) (x : Side) : (s.holdWrite a v x).free = s.free := rfl
@[simp] theorem State.holdWrite_out (s : State) (a v : Nat) (x : Side) : (s.holdWrite a v x).out = s.out := rfl
@[simp] theorem State.holdWrite_pending (s : State) (a v : Nat) (x : Side) : (s.holdWrite a v x).pending = s.pending := rfl

/-! ### A memory replaced -/

@[simp] theorem State.setMem_regs (s : State) (v : Bool) (m : Mem) : (s.setMem v m).regs = s.regs := by cases v <;> rfl
@[simp] theorem State.setMem_tiles (s : State) (v : Bool) (m : Mem) : (s.setMem v m).tiles = s.tiles := by cases v <;> rfl
@[simp] theorem State.setMem_inc (s : State) (v : Bool) (m : Mem) : (s.setMem v m).inc = s.inc := by cases v <;> rfl
@[simp] theorem State.setMem_host (s : State) (v : Bool) (m : Mem) : (s.setMem v m).host = s.host := by cases v <;> rfl
@[simp] theorem State.setMem_cur (s : State) (v : Bool) (m : Mem) : (s.setMem v m).cur = s.cur := by cases v <;> rfl
@[simp] theorem State.setMem_fab (s : State) (v : Bool) (m : Mem) : (s.setMem v m).fab = s.fab := by cases v <;> rfl
@[simp] theorem State.setMem_light (s : State) (v : Bool) (m : Mem) : (s.setMem v m).light = s.light := by cases v <;> rfl
@[simp] theorem State.setMem_pair (s : State) (v : Bool) (m : Mem) : (s.setMem v m).pair = s.pair := by cases v <;> rfl
@[simp] theorem State.setMem_sec (s : State) (v : Bool) (m : Mem) : (s.setMem v m).sec = s.sec := by cases v <;> rfl
@[simp] theorem State.setMem_arch (s : State) (v : Bool) (m : Mem) : (s.setMem v m).arch = s.arch := by cases v <;> rfl
@[simp] theorem State.setMem_pwr (s : State) (v : Bool) (m : Mem) : (s.setMem v m).pwr = s.pwr := by cases v <;> rfl
@[simp] theorem State.setMem_timer (s : State) (v : Bool) (m : Mem) : (s.setMem v m).timer = s.timer := by cases v <;> rfl
@[simp] theorem State.setMem_free (s : State) (v : Bool) (m : Mem) : (s.setMem v m).free = s.free := by cases v <;> rfl
@[simp] theorem State.setMem_out (s : State) (v : Bool) (m : Mem) : (s.setMem v m).out = s.out := by cases v <;> rfl
@[simp] theorem State.setMem_pending (s : State) (v : Bool) (m : Mem) : (s.setMem v m).pending = s.pending := by cases v <;> rfl

/-! ### What an update sets -/

@[simp] theorem State.mem_setMem (s : State) (v : Bool) (m : Mem) : (s.setMem v m).mem v = m := by cases v <;> rfl
@[simp] theorem State.mem_setMem_other (s : State) (v : Bool) (m : Mem) : (s.setMem v m).mem (!v) = s.mem (!v) := by cases v <;> rfl
@[simp] theorem State.vault_setMem_true (s : State) (m : Mem) : (s.setMem true m).vault = m := rfl
@[simp] theorem State.store_setMem_false (s : State) (m : Mem) : (s.setMem false m).store = m := rfl
@[simp] theorem State.store_setMem_true (s : State) (m : Mem) : (s.setMem true m).store = s.store := rfl
@[simp] theorem State.vault_setMem_false (s : State) (m : Mem) : (s.setMem false m).vault = s.vault := rfl

@[simp] theorem State.tile_wr (s : State) (a : Nat) (v : Word) (t : Nat) : (s.wr a v).tile t = s.tile t := rfl
@[simp] theorem State.mem_wr (s : State) (a : Nat) (v : Word) (x : Bool) : (s.wr a v).mem x = s.mem x := rfl
@[simp] theorem State.tile_wn (s : State) (a v : Nat) (t : Nat) : (s.wn a v).tile t = s.tile t := rfl
@[simp] theorem State.mem_wn (s : State) (a v : Nat) (x : Bool) : (s.wn a v).mem x = s.mem x := rfl
@[simp] theorem State.tile_setf (s : State) (a lo w v : Nat) (t : Nat) : (s.setf a lo w v).tile t = s.tile t := rfl
@[simp] theorem State.mem_setf (s : State) (a lo w v : Nat) (x : Bool) : (s.setf a lo w v).mem x = s.mem x := rfl
@[simp] theorem State.tile_bump (s : State) (a : Nat) (t : Nat) : (s.bump a).tile t = s.tile t := rfl
@[simp] theorem State.mem_bump (s : State) (a : Nat) (x : Bool) : (s.bump a).mem x = s.mem x := rfl
@[simp] theorem State.rd_setTile (s : State) (t : Nat) (x : Tile) (k : Nat) : (s.setTile t x).rd k = s.rd k := rfl
@[simp] theorem State.rn_setTile (s : State) (t : Nat) (x : Tile) (k : Nat) : (s.setTile t x).rn k = s.rn k := rfl
@[simp] theorem State.f_setTile (s : State) (t : Nat) (x : Tile) (k lo w : Nat) : (s.setTile t x).f k lo w = s.f k lo w := rfl
@[simp] theorem State.rd_mapTile (s : State) (t : Nat) (g : Tile → Tile) (k : Nat) : (s.mapTile t g).rd k = s.rd k := rfl
@[simp] theorem State.rn_mapTile (s : State) (t : Nat) (g : Tile → Tile) (k : Nat) : (s.mapTile t g).rn k = s.rn k := rfl
@[simp] theorem State.f_mapTile (s : State) (t : Nat) (g : Tile → Tile) (k lo w : Nat) : (s.mapTile t g).f k lo w = s.f k lo w := rfl
@[simp] theorem State.rd_hostWrite (s : State) (a : Nat) (bs : List Byte) (k : Nat) : (s.hostWrite a bs).rd k = s.rd k := rfl
@[simp] theorem State.rn_hostWrite (s : State) (a : Nat) (bs : List Byte) (k : Nat) : (s.hostWrite a bs).rn k = s.rn k := rfl
@[simp] theorem State.f_hostWrite (s : State) (a : Nat) (bs : List Byte) (k lo w : Nat) : (s.hostWrite a bs).f k lo w = s.f k lo w := rfl
@[simp] theorem State.rd_holdWrite (s : State) (a v : Nat) (x : Side) (k : Nat) : (s.holdWrite a v x).rd k = s.rd k := rfl
@[simp] theorem State.rn_holdWrite (s : State) (a v : Nat) (x : Side) (k : Nat) : (s.holdWrite a v x).rn k = s.rn k := rfl
@[simp] theorem State.f_holdWrite (s : State) (a v : Nat) (x : Side) (k lo w : Nat) : (s.holdWrite a v x).f k lo w = s.f k lo w := rfl
@[simp] theorem State.rd_setMem (s : State) (v : Bool) (m : Mem) (k : Nat) : (s.setMem v m).rd k = s.rd k := by cases v <;> rfl
@[simp] theorem State.rn_setMem (s : State) (v : Bool) (m : Mem) (k : Nat) : (s.setMem v m).rn k = s.rn k := by cases v <;> rfl
@[simp] theorem State.f_setMem (s : State) (v : Bool) (m : Mem) (k lo w : Nat) : (s.setMem v m).f k lo w = s.f k lo w := by cases v <;> rfl

end Sys2Proof.Machine
end

