-- ==== Sys2Proof/Laws/Records.lean ====
section
/-! SUPPORT. What events and records do, said once: they change registers, the incident logic, the host interface and the incident
history, and nothing else; and they keep the register file canonical. -/

namespace Sys2Proof.Machine

open Sys2Proof

/-- From `s` to `t` only what events and records may change differs, and a canonical register file stays canonical. -/
def Recorded (s t : State) : Prop :=
  (∃ r i h n b, t = { s with regs := r, inc := i, host := h, arch := { s.arch with histNo := n, bytes := b } }) ∧ (RegsWf s → RegsWf t)

theorem Recorded.refl (s : State) : Recorded s s := ⟨⟨s.regs, s.inc, s.host, s.arch.histNo, s.arch.bytes, rfl⟩, id⟩

theorem Recorded.trans {s t u : State} (h : Recorded s t) (k : Recorded t u) : Recorded s u := by
  obtain ⟨⟨_, _, _, _, _, rfl⟩, h⟩ := h
  obtain ⟨⟨r, i, ho, n, b, rfl⟩, k⟩ := k
  exact ⟨⟨r, i, ho, n, b, rfl⟩, fun x => k (h x)⟩

theorem Recorded.wn {s t : State} (h : Recorded s t) (a v : Nat) : Recorded s (t.wn a v) :=
  h.trans ⟨⟨_, t.inc, t.host, t.arch.histNo, t.arch.bytes, rfl⟩, regsWf_wn a v⟩

theorem Recorded.setf {s t : State} (h : Recorded s t) (a lo w v : Nat) : Recorded s (t.setf a lo w v) := h.wn a _
theorem Recorded.bump {s t : State} (h : Recorded s t) (a : Nat) : Recorded s (t.bump a) := h.wn a _

theorem Recorded.inc {s t : State} (h : Recorded s t) (i : IncState) : Recorded s { t with inc := i } :=
  h.trans ⟨⟨t.regs, i, t.host, t.arch.histNo, t.arch.bytes, rfl⟩, id⟩

theorem Recorded.host {s t : State} (h : Recorded s t) (x : HostState) : Recorded s { t with host := x } :=
  h.trans ⟨⟨t.regs, t.inc, x, t.arch.histNo, t.arch.bytes, rfl⟩, id⟩

theorem Recorded.hostWrite {s t : State} (h : Recorded s t) (a : Nat) (bs : List Byte) : Recorded s (t.hostWrite a bs) := h.host _

theorem Recorded.ite {s t u : State} {p : Prop} [Decidable p] (h : Recorded s t) (k : Recorded s u) : Recorded s (if p then t else u) := by
  split
  · exact h
  · exact k

theorem Recorded.foldl {α : Type} (g : State → α → State) (hg : ∀ t x, Recorded t (g t x)) (xs : List α) {s t : State} (h : Recorded s t) :
    Recorded s (xs.foldl g t) := by
  induction xs generalizing t with
  | nil => exact h
  | cons x xs ih => exact ih (h.trans (hg t x))

/-! ### Records -/

theorem State.logStatus_recorded (s : State) (l : Nat) : Recorded s (s.logStatus l) := (Recorded.refl s).hostWrite _ _

theorem State.logPut_recorded (s : State) (l : Nat) (r : List Byte) : Recorded s (s.logPut l r) :=
  (((Recorded.refl s).hostWrite _ _).wn _ _).trans (State.logStatus_recorded _ _)

theorem State.form_recorded (s : State) (ty : Nat) (b : Blk) (i : Nat) (body : List Byte) : Recorded s (s.form ty b i body).2 :=
  (Recorded.refl s).host _

theorem State.logMarker_recorded (s : State) (l : Nat) : Recorded s (s.logMarker l) :=
  (((Recorded.refl s).host _).host _).trans (State.logPut_recorded _ _ _)

theorem State.logDropOnly_recorded (s : State) (l : Nat) (r : List Byte) : Recorded s (s.logDropOnly l r) :=
  ((Recorded.refl s).host _).bump _

theorem State.logDeliver_recorded (s : State) (l : Nat) (r : List Byte) : Recorded s (s.logDeliver l r).1 := by
  unfold State.logDeliver
  simp only
  split
  · split
    · exact State.logPut_recorded _ _ _
    · split
      · exact (State.logMarker_recorded _ _).trans (State.logPut_recorded _ _ _)
      · exact State.logDropOnly_recorded _ _ _
  · split
    · exact (Recorded.refl s).host _
    · exact State.logDropOnly_recorded _ _ _

theorem State.logRoute_recorded (s : State) (l : Nat) (r : List Byte) : Recorded s (s.logRoute l r).1 := by
  unfold State.logRoute
  split
  · exact State.logDeliver_recorded _ _ _
  · split
    · exact State.logDeliver_recorded _ _ _
    · exact (Recorded.refl s).bump _

theorem State.keepHistory_recorded (s : State) (r : List Byte) : Recorded s (s.keepHistory r) := by
  unfold State.keepHistory
  simp only
  split
  · exact ⟨⟨s.regs, s.inc, s.host, _, _, rfl⟩, id⟩
  · exact Recorded.refl s

/-! ### Events -/

theorem State.incRecord_recorded (s : State) (b : Blk) (i k kind flags action d : Nat) : Recorded s (s.incRecord b i k kind flags action d).2 :=
  State.form_recorded _ _ _ _ _

theorem State.raise_recorded (s : State) (b : Blk) (i k : Nat) (inj : Bool) (d : Nat) : Recorded s (s.raise b i k inj d).2 := by
  unfold State.raise State.incRecord
  refine Recorded.trans ?_ (State.form_recorded _ _ _ _ _)
  refine Recorded.trans (t := _) ?_ (Recorded.ite ((Recorded.refl _).setf _ _ _ _) (Recorded.refl _))
  refine Recorded.trans (t := _) ?_ (Recorded.ite ((Recorded.refl _).inc _) (Recorded.refl _))
  refine Recorded.trans (t := _) ?_ (Recorded.ite ((Recorded.refl _).wn _ _) ((Recorded.refl _).setf _ _ _ _))
  exact ((Recorded.refl s).setf _ _ _ _).inc _

theorem State.coincide_recorded (s : State) (b : Blk) (i k : Nat) (inj : Bool) (d : Nat) : Recorded s (s.coincide b i k inj d).2 := by
  unfold State.coincide
  by_cases hi : inj = true
  · rw [if_pos hi]; exact Recorded.refl s
  · rw [if_neg hi]
    exact Recorded.ite (((Recorded.refl s).inc _).setf _ _ _ _) ((Recorded.refl s).inc _)

theorem State.eventCore_recorded (s : State) (b : Blk) (i k : Nat) (inj note : Bool) (d : Nat) : Recorded s (s.eventCore b i k inj note d).2 := by
  unfold State.eventCore
  by_cases hs : hasSource b k = true
  · rw [if_pos hs]
    have h0 := State.coincide_recorded s b i k inj d
    generalize s.coincide b i k inj d = x at h0
    obtain ⟨forced, t⟩ := x
    refine h0.trans ?_
    clear h0
    show Recorded t _
    dsimp -zeta only
    extract_lets cnt pol now key op w i1 u u2 u3 u4
    have h2 : Recorded t u2 := (Recorded.ite ((Recorded.refl t).inc _) (Recorded.refl t)).setf _ _ _ _
    have h3 : Recorded t u3 := h2.setf _ _ _ _
    have h4 : Recorded t u4 := h2.setf _ _ _ _
    split
    · split
      · exact h3.trans (State.incRecord_recorded u3 b i k 0 (b2n inj) (fld pol 26 2) d)
      · exact h3
    · split
      · exact h4
      · exact h4.trans (State.raise_recorded _ _ _ _ _ _)
  · rw [if_neg hs]
    exact Recorded.refl s

/-- A record sent to a ring (R467, R468). -/
theorem State.logSend_recorded (s : State) (l : Nat) (r : List Byte) : Recorded s (s.logSend l r) := by
  unfold State.logSend
  have h1 := State.logRoute_recorded s l r
  generalize s.logRoute l r = x at h1
  obtain ⟨t, dropped⟩ := x
  refine Recorded.ite ?_ h1
  have h2 := h1.trans (State.eventCore_recorded t .hst 0 1 false true (if t.logEnabled l then l else 0))
  generalize t.eventCore .hst 0 1 false true (if t.logEnabled l then l else 0) = y at h2
  exact Recorded.foldl _ (fun t x => (State.keepHistory_recorded t x).trans (State.logRoute_recorded _ _ _)) _ h2

theorem State.postTo_recorded (s : State) (l : Nat) (r : List Byte) : Recorded s (s.postTo l r) :=
  Recorded.ite (Recorded.refl s) ((State.keepHistory_recorded s r).trans (State.logSend_recorded _ _ _))

/-- A record posted (R433, R467). -/
theorem State.post_recorded (s : State) (ty : Nat) (b : Blk) (i : Nat) (body : List Byte) : Recorded s (s.post ty b i body) :=
  (State.form_recorded s ty b i body).trans (State.postTo_recorded _ _ _)

/-- An event of a source (R417, R419). -/
theorem State.event_recorded (s : State) (b : Blk) (i k d : Nat) (inj note : Bool) : Recorded s (s.event b i k d inj note) :=
  Recorded.foldl _ (fun t _ => State.postTo_recorded t _ _) _ (State.eventCore_recorded s b i k inj note d)

theorem State.postEvent_recorded (s : State) (b : Blk) (code x y : Nat) : Recorded s (s.postEvent b code x y) := State.post_recorded _ _ _ _ _

theorem State.filterReject_recorded (s : State) : Recorded s s.filterReject := State.event_recorded _ _ _ _ _ _ _

theorem State.setLevel_recorded (s : State) (b : Blk) (i k d : Nat) (on : Bool) : Recorded s (s.setLevel b i k on d) := by
  unfold State.setLevel
  refine Recorded.ite (Recorded.refl s) (Recorded.ite (((Recorded.refl s).inc _).trans (State.event_recorded _ _ _ _ _ _ _)) ((Recorded.refl s).inc _))

theorem State.condRecord_recorded (s : State) (ty : Nat) (body : List Byte) : Recorded s (s.condRecord ty body) :=
  ⟨⟨_, s.inc, s.host, s.arch.histNo, _, rfl⟩, regsWf_wn _ _⟩

theorem State.condEvent_recorded (s : State) (ev action subject before after : Nat) : Recorded s (s.condEvent ev action subject before after) :=
  State.condRecord_recorded _ _ _

/-! ### What stands after an event or a record -/

theorem Recorded.tiles {s t : State} (h : Recorded s t) : t.tiles = s.tiles := by obtain ⟨⟨_, _, _, _, _, rfl⟩, _⟩ := h; rfl
theorem Recorded.tile {s t : State} (h : Recorded s t) (u : Nat) : t.tile u = s.tile u := by unfold State.tile; rw [h.tiles]
theorem Recorded.vault {s t : State} (h : Recorded s t) : t.vault = s.vault := by obtain ⟨⟨_, _, _, _, _, rfl⟩, _⟩ := h; rfl
theorem Recorded.store {s t : State} (h : Recorded s t) : t.store = s.store := by obtain ⟨⟨_, _, _, _, _, rfl⟩, _⟩ := h; rfl
theorem Recorded.cur {s t : State} (h : Recorded s t) : t.cur = s.cur := by obtain ⟨⟨_, _, _, _, _, rfl⟩, _⟩ := h; rfl
theorem Recorded.fab {s t : State} (h : Recorded s t) : t.fab = s.fab := by obtain ⟨⟨_, _, _, _, _, rfl⟩, _⟩ := h; rfl
theorem Recorded.light {s t : State} (h : Recorded s t) : t.light = s.light := by obtain ⟨⟨_, _, _, _, _, rfl⟩, _⟩ := h; rfl
theorem Recorded.pair {s t : State} (h : Recorded s t) : t.pair = s.pair := by obtain ⟨⟨_, _, _, _, _, rfl⟩, _⟩ := h; rfl
theorem Recorded.sec {s t : State} (h : Recorded s t) : t.sec = s.sec := by obtain ⟨⟨_, _, _, _, _, rfl⟩, _⟩ := h; rfl
theorem Recorded.pwr {s t : State} (h : Recorded s t) : t.pwr = s.pwr := by obtain ⟨⟨_, _, _, _, _, rfl⟩, _⟩ := h; rfl
theorem Recorded.timer {s t : State} (h : Recorded s t) : t.timer = s.timer := by obtain ⟨⟨_, _, _, _, _, rfl⟩, _⟩ := h; rfl
theorem Recorded.free {s t : State} (h : Recorded s t) : t.free = s.free := by obtain ⟨⟨_, _, _, _, _, rfl⟩, _⟩ := h; rfl
theorem Recorded.out {s t : State} (h : Recorded s t) : t.out = s.out := by obtain ⟨⟨_, _, _, _, _, rfl⟩, _⟩ := h; rfl
theorem Recorded.pending {s t : State} (h : Recorded s t) : t.pending = s.pending := by obtain ⟨⟨_, _, _, _, _, rfl⟩, _⟩ := h; rfl
theorem Recorded.fuse {s t : State} (h : Recorded s t) : t.arch.fuse = s.arch.fuse := by obtain ⟨⟨_, _, _, _, _, rfl⟩, _⟩ := h; rfl
theorem Recorded.mem {s t : State} (h : Recorded s t) (v : Bool) : t.mem v = s.mem v := by unfold State.mem; rw [h.vault, h.store]

/-- An event or a record keeps what holds of every state a run reaches. -/
theorem Recorded.wellKept {s t : State} (h : Recorded s t) (k : WellKept s) : WellKept t :=
  ⟨h.2 k.1, by rw [h.vault]; exact k.2.1, by rw [h.store]; exact k.2.2.1, by rw [h.fuse]; exact k.2.2.2⟩

end Sys2Proof.Machine
end

