-- ==== Sys2Proof/Laws/Memory.lean ====
section
/-! SUPPORT. Every memory operation keeps the canonical form of a memory, and every operation of the Vault and the Store on the state
keeps what holds of every state a run reaches. -/

namespace Sys2Proof.Machine

open Sys2Proof

theorem Mem.wf_iff (m : Mem) : m.wf = true ↔ awf 0 none m.cells = true ∧ awf false none m.parBad = true ∧ awf 0 none m.ppDiff = true
    ∧ awf false none m.ppBad = true ∧ awf false none m.off = true ∧ awf none none m.poisoned = true ∧ awf [] none m.tracker = true := by
  simp only [Mem.wf, Bool.and_eq_true, and_assoc]

@[simp] theorem Mem.wf_wiped : Mem.wiped.wf = true := by decide

/-- A memory whose tables are those of another is canonical with it. -/
theorem Mem.wf_same {m n : Mem} (h : m.wf = true) (e1 : n.cells = m.cells) (e2 : n.parBad = m.parBad) (e3 : n.ppDiff = m.ppDiff)
    (e4 : n.ppBad = m.ppBad) (e5 : n.off = m.off) (e6 : n.poisoned = m.poisoned) (e7 : n.tracker = m.tracker) : n.wf = true := by
  rw [Mem.wf_iff] at *
  rw [e1, e2, e3, e4, e5, e6, e7]
  exact h

theorem Mem.wf_cells {m : Mem} (h : m.wf = true) {c : Assoc Byte} (hc : awf 0 none c = true) : ({ m with cells := c } : Mem).wf = true := by
  rw [Mem.wf_iff] at *; exact ⟨hc, h.2⟩

theorem Mem.wf_parBad {m : Mem} (h : m.wf = true) {c : Assoc Bool} (hc : awf false none c = true) : ({ m with parBad := c } : Mem).wf = true := by
  rw [Mem.wf_iff] at *; exact ⟨h.1, hc, h.2.2⟩

theorem Mem.wf_ppDiff {m : Mem} (h : m.wf = true) {c : Assoc Byte} (hc : awf 0 none c = true) : ({ m with ppDiff := c } : Mem).wf = true := by
  rw [Mem.wf_iff] at *; exact ⟨h.1, h.2.1, hc, h.2.2.2⟩

theorem Mem.wf_ppBad {m : Mem} (h : m.wf = true) {c : Assoc Bool} (hc : awf false none c = true) : ({ m with ppBad := c } : Mem).wf = true := by
  rw [Mem.wf_iff] at *; exact ⟨h.1, h.2.1, h.2.2.1, hc, h.2.2.2.2⟩

theorem Mem.wf_off {m : Mem} (h : m.wf = true) {c : Assoc Bool} (hc : awf false none c = true) : ({ m with off := c } : Mem).wf = true := by
  rw [Mem.wf_iff] at *; exact ⟨h.1, h.2.1, h.2.2.1, h.2.2.2.1, hc, h.2.2.2.2.2⟩

theorem Mem.wf_poisoned {m : Mem} (h : m.wf = true) {c : Assoc (Option (List Nat))} (hc : awf none none c = true) :
    ({ m with poisoned := c } : Mem).wf = true := by
  rw [Mem.wf_iff] at *; exact ⟨h.1, h.2.1, h.2.2.1, h.2.2.2.1, h.2.2.2.2.1, hc, h.2.2.2.2.2.2⟩

theorem Mem.wf_tracker {m : Mem} (h : m.wf = true) {c : Assoc (List TrackEntry)} (hc : awf [] none c = true) :
    ({ m with tracker := c } : Mem).wf = true := by
  rw [Mem.wf_iff] at *; exact ⟨h.1, h.2.1, h.2.2.1, h.2.2.2.1, h.2.2.2.2.1, h.2.2.2.2.2.1, hc⟩

theorem Mem.cells_wf {m : Mem} (h : m.wf = true) : awf 0 none m.cells = true := ((Mem.wf_iff m).1 h).1
theorem Mem.parBad_wf {m : Mem} (h : m.wf = true) : awf false none m.parBad = true := ((Mem.wf_iff m).1 h).2.1
theorem Mem.ppDiff_wf {m : Mem} (h : m.wf = true) : awf 0 none m.ppDiff = true := ((Mem.wf_iff m).1 h).2.2.1
theorem Mem.ppBad_wf {m : Mem} (h : m.wf = true) : awf false none m.ppBad = true := ((Mem.wf_iff m).1 h).2.2.2.1
theorem Mem.off_wf {m : Mem} (h : m.wf = true) : awf false none m.off = true := ((Mem.wf_iff m).1 h).2.2.2.2.1
theorem Mem.poisoned_wf {m : Mem} (h : m.wf = true) : awf none none m.poisoned = true := ((Mem.wf_iff m).1 h).2.2.2.2.2.1
theorem Mem.tracker_wf {m : Mem} (h : m.wf = true) : awf [] none m.tracker = true := ((Mem.wf_iff m).1 h).2.2.2.2.2.2

/-- A fold of steps that keep the form keeps it. -/
theorem Mem.wf_foldl {α : Type} (g : Mem → α → Mem) (hg : ∀ m x, m.wf = true → (g m x).wf = true) (xs : List α) {m : Mem} (h : m.wf = true) :
    (xs.foldl g m).wf = true := by
  induction xs generalizing m with
  | nil => exact h
  | cons x xs ih => exact ih (hg m x h)

theorem Mem.wf_ite {p : Prop} [Decidable p] {m n : Mem} (h : m.wf = true) (k : n.wf = true) : (if p then m else n).wf = true := by
  split
  · exact h
  · exact k

/-! ### One memory -/

/-- Power up a bank (R236). -/
theorem Mem.powerUp_wf {m : Mem} (h : m.wf = true) (bank : Nat) : (m.powerUp bank).wf = true :=
  Mem.wf_ite (Mem.wf_poisoned (Mem.wf_off h (awf_aput _ _ _ (Mem.off_wf h))) (awf_aput _ _ _ (Mem.poisoned_wf h))) h

/-- One bank goes dark: what it held is lost (R236). -/
theorem Mem.dark_wf {m : Mem} (h : m.wf = true) (bank : Nat) :
    (m.dark bank).wf = true :=
  Mem.wf_poisoned (Mem.wf_off h (awf_aput _ _ _ (Mem.off_wf h))) (awf_aput _ _ _ (Mem.poisoned_wf h))

/-- The parity difference of one byte (R218). -/
theorem Mem.addDiff_wf {m : Mem} (h : m.wf = true) (p o x : Nat) : (m.addDiff p o x).wf = true :=
  Mem.wf_ppDiff h (awf_foldl _ _ (fun _ _ k => awf_aput _ _ _ k) _ (Mem.ppDiff_wf h))

/-- One byte with its parity bit (R219). -/
theorem Mem.putByte_wf {m : Mem} (h : m.wf = true) (ph : Nat) (b : Byte) : (m.putByte ph b).wf = true :=
  Mem.wf_parBad (Mem.wf_cells h (awf_aput _ _ _ (Mem.cells_wf h))) (awf_aput _ _ _ (Mem.parBad_wf h))

/-- The check marks of a page cleared (R237). -/
theorem Mem.cleanPage_wf {m : Mem} (h : m.wf = true) (p : Nat) : (m.cleanPage p).wf = true :=
  Mem.wf_ppBad (Mem.wf_ppDiff (Mem.wf_parBad h (awf_acut _ _ _ (Mem.parBad_wf h))) (awf_acut _ _ _ (Mem.ppDiff_wf h))) (awf_acut _ _ _ (Mem.ppBad_wf h))

/-- A full page written (R237). -/
theorem Mem.putPage_wf {m : Mem} (h : m.wf = true) (p : Nat) (data : List (Byte × Bool)) : (m.putPage p data).wf = true := by
  have h2 := (Mem.wf_iff _).1 (Mem.cleanPage_wf h p)
  exact (Mem.wf_iff _).2 ⟨awf_aputs _ _ _ h2.1, awf_foldl _ _ (fun _ _ k => awf_aputs _ _ _ k) _ h2.2.1, h2.2.2⟩

/-- A page filled (R237). -/
theorem Mem.fillPage_wf {m : Mem} (h : m.wf = true) (bank p : Nat) : (m.fillPage bank p).wf = true := by
  unfold Mem.fillPage
  split
  · exact h
  · exact Mem.wf_ite h (Mem.wf_poisoned h (awf_aput _ _ _ (Mem.poisoned_wf h)))

/-- New lists under the same keys, where the empty ones are taken away. -/
theorem awf_tracker {m : Assoc (List TrackEntry)} (g : List TrackEntry → List TrackEntry) (h : awf [] none m = true) :
    awf [] none ((m.map fun t => (t.1, g t.2)).filter fun t => t.2 != []) = true := by
  have key : ∀ lo, awf [] lo m = true → awf [] lo ((m.map fun t => (t.1, g t.2)).filter fun t => t.2 != []) = true := by
    clear h
    induction m with
    | nil => intro lo _; rfl
    | cons e m ih =>
      obtain ⟨j, w⟩ := e
      intro lo h
      simp only [awf, Bool.and_eq_true, decide_eq_true_eq] at h
      have hm := ih _ h.2
      by_cases hg : g w = []
      · simp only [List.map_cons, List.filter_cons, hg, bne_self_eq_false, Bool.false_eq_true, if_false]
        cases lo with
        | none => exact awf_weaken _ hm
        | some l => exact awf_mono _ (Nat.le_of_lt (by simpa using h.1.1)) hm
      · have : (g w != []) = true := by simpa using hg
        simp only [List.map_cons, List.filter_cons, this, if_true, awf, Bool.and_eq_true, decide_eq_true_eq]
        exact ⟨⟨h.1.1, hg⟩, hm⟩
  exact key none h

/-- A full-page write over a page of a bank (R237). -/
theorem Mem.placePage_wf {m : Mem} (h : m.wf = true) (bank p : Nat) (data : List (Byte × Bool)) : (m.placePage bank p data).wf = true := by
  have h2 := Mem.fillPage_wf (Mem.putPage_wf (Mem.powerUp_wf h bank) p data) bank p
  exact Mem.wf_tracker (Mem.wf_same h2 rfl rfl rfl rfl rfl rfl rfl) (awf_tracker _ (Mem.tracker_wf h2))

/-- One corrected byte written back (R223). -/
theorem Mem.repair_wf {m : Mem} (h : m.wf = true) (p j : Nat) (e : Nat × Nat) : (m.repair p j e).wf = true := by
  refine Mem.wf_ite (Mem.addDiff_wf (Mem.wf_parBad (Mem.wf_cells h (awf_aput _ _ _ (Mem.cells_wf h))) (awf_aput _ _ _ (Mem.parBad_wf h))) _ _ _) ?_
  exact Mem.wf_ppBad (Mem.wf_ppDiff h (awf_aput _ _ _ (Mem.ppDiff_wf h))) (awf_aput _ _ _ (Mem.ppBad_wf h))

/-- A wipe (R235). -/
theorem Mem.wipe_wf (m : Mem) : m.wipe.wf = true := Mem.wf_same Mem.wf_wiped rfl rfl rfl rfl rfl rfl rfl

/-! ### The state -/

theorem WellKept.setMem {s : State} (h : WellKept s) (v : Bool) {m : Mem} (hm : m.wf = true) : WellKept (s.setMem v m) := by
  cases v
  · exact ⟨h.1, h.2.1, hm, h.2.2.2⟩
  · exact ⟨h.1, hm, h.2.2.1, h.2.2.2⟩

theorem WellKept.mem {s : State} (h : WellKept s) (v : Bool) : (s.mem v).wf = true := by
  cases v
  · exact h.2.2.1
  · exact h.2.1

theorem WellKept.wn {s : State} (h : WellKept s) (a v : Nat) : WellKept (s.wn a v) := ⟨regsWf_wn a v h.1, h.2⟩
theorem WellKept.setf {s : State} (h : WellKept s) (a lo w v : Nat) : WellKept (s.setf a lo w v) := h.wn a _
theorem WellKept.bump {s : State} (h : WellKept s) (a : Nat) : WellKept (s.bump a) := h.wn a _
theorem WellKept.event {s : State} (h : WellKept s) (b : Blk) (i k d : Nat) (inj note : Bool) : WellKept (s.event b i k d inj note) :=
  (State.event_recorded s b i k d inj note).wellKept h

theorem WellKept.ite {p : Prop} [Decidable p] {s t : State} (h : WellKept s) (k : WellKept t) : WellKept (if p then s else t) := by
  split
  · exact h
  · exact k

theorem WellKept.foldl {α : Type} (g : State → α → State) (hg : ∀ s x, WellKept s → WellKept (g s x)) (xs : List α) {s : State} (h : WellKept s) :
    WellKept (xs.foldl g s) := by
  induction xs generalizing s with
  | nil => exact h
  | cons x xs ih => exact ih (hg s x h)

/-- Fields that `WellKept` does not read. -/
theorem WellKept.same {s t : State} (h : WellKept s) (e1 : t.regs = s.regs) (e2 : t.vault = s.vault) (e3 : t.store = s.store)
    (e4 : t.arch.fuse = s.arch.fuse) : WellKept t := by
  obtain ⟨h1, h2, h3, h4⟩ := h
  exact ⟨by unfold RegsWf at *; rw [e1]; exact h1, by rw [e2]; exact h2, by rw [e3]; exact h3, by rw [e4]; exact h4⟩

/-- The Store replaced, and the pairing block's part of a freeze with it. -/
theorem WellKept.storePair {s : State} (h : WellKept s) {m : Mem} (hm : m.wf = true) (x : PairState) : WellKept { s with store := m, pair := x } :=
  ⟨h.1, h.2.1, hm, h.2.2.2⟩

theorem WellKept.storeOnly {s : State} (h : WellKept s) {m : Mem} (hm : m.wf = true) : WellKept { s with store := m } :=
  ⟨h.1, h.2.1, hm, h.2.2.2⟩

theorem WellKept.lastErr {s : State} (h : WellKept s) (v : Bool) (a k r : Nat) : WellKept (s.lastErr v a k r) := ((h.wn _ _).wn _ _).wn _ _

/-- One error reported (R239, R241). -/
theorem WellKept.memError {s : State} (h : WellKept s) (v : Bool) (a k r : Nat) : WellKept (s.memError v a k r) := by
  unfold State.memError
  exact WellKept.event (WellKept.lastErr (WellKept.ite (h.bump _) (WellKept.ite (h.bump _) h)) _ _ _ _) _ _ _ _ _ _

theorem WellKept.hold {s : State} (h : WellKept s) (v : Bool) (p r : Nat) : WellKept (s.hold v p r) :=
  WellKept.ite h (h.setMem v (Mem.wf_same (h.mem v) rfl rfl rfl rfl rfl rfl rfl))

theorem WellKept.unhold {s : State} (h : WellKept s) (v : Bool) (p : Nat) : WellKept (s.unhold v p) :=
  h.setMem v (Mem.wf_same (h.mem v) rfl rfl rfl rfl rfl rfl rfl)

/-- A channel's dropped parts come back poisoned (R236). -/
theorem WellKept.wakeParts {s : State} (h : WellKept s) (c : Nat) : WellKept (s.wakeParts c) :=
  h.storeOnly (Mem.wf_foldl _ (fun _ _ k => Mem.powerUp_wf k _) _ h.2.2.1)

theorem WellKept.wakeChan {s : State} (h : WellKept s) (a : Nat) : WellKept (s.wakeChan a) := by
  unfold State.wakeChan
  split
  · exact WellKept.ite ((h.wakeParts _).setf _ _ _ _) h
  · exact h

theorem WellKept.wakeSpan {s : State} (h : WellKept s) (v : Bool) (a n : Nat) : WellKept (s.wakeSpan v a n) :=
  WellKept.ite h (WellKept.foldl _ (fun _ _ k => WellKept.wakeChan k _) _ h)

theorem WellKept.absentAccess {s : State} (h : WellKept s) (x : Nat) : WellKept (s.absentAccess x) := (h.setf _ _ _ _).event _ _ _ _ _ _

theorem WellKept.untrack {s : State} (h : WellKept s) (v : Bool) (ph : Nat) : WellKept (s.untrack v ph) :=
  h.setMem v (Mem.wf_tracker (h.mem v) (awf_aput _ _ _ (Mem.tracker_wf (h.mem v))))

theorem WellKept.condEvent {s : State} (h : WellKept s) (a b c d e : Nat) : WellKept (s.condEvent a b c d e) :=
  (State.condEvent_recorded s a b c d e).wellKept h

/-- A Store page retired (R231). -/
theorem WellKept.storeRetire {s : State} (h : WellKept s) (p : Nat) : WellKept (s.storeRetire p) := by
  unfold State.storeRetire
  generalize s.pageData false true = data
  generalize s.bankKey false = bank
  generalize (reservedBase + 2 * 2 ^ 30) / 4096 = base
  extract_lets a free spare m l m2 m3 n u
  have hm2 : m2.wf = true := by
    simp only [m2]
    apply Mem.placePage_wf
    exact h.2.2.1
  clear_value m2
  have hm : m3.wf = true := Mem.wf_same hm2 rfl rfl rfl rfl rfl rfl rfl
  have hs : WellKept { s with store := m3 } := h.storeOnly hm
  clear_value m3
  have hu : WellKept u := (hs.setf _ _ _ _).bump _
  by_cases h1 : (s.store.retired.contains p || s.store.due.contains p) = true
  · rw [if_pos h1]; exact h
  · by_cases h2 : free = 0
    · rw [if_neg h1, if_pos h2]
      have hd : WellKept { s with store := { s.store with due := s.store.due ++ [p] } } :=
        h.storeOnly (Mem.wf_same h.2.2.1 rfl rfl rfl rfl rfl rfl rfl)
      exact hd.event _ _ _ _ _ _
    · rw [if_neg h1, if_neg h2]; exact hu.condEvent _ _ _ _ _

theorem WellKept.pageDue {s : State} (h : WellKept s) (v : Bool) (p : Nat) : WellKept (s.pageDue v p) := by
  unfold State.pageDue
  cases v
  · exact h.storeRetire p
  · rw [if_pos rfl]
    extract_lets m u
    have hu : WellKept u := ⟨h.1, Mem.wf_same h.2.1 rfl rfl rfl rfl rfl rfl rfl, h.2.2.1, h.2.2.2⟩
    exact WellKept.ite h (WellKept.ite (hu.same rfl rfl rfl rfl) hu)

theorem WellKept.failDie {s : State} (h : WellKept s) (d : Nat) : WellKept (s.failDie d) := by
  unfold State.failDie
  generalize diePages d = ps
  extract_lets m u u1
  have hu : WellKept u := ⟨h.1, Mem.wf_same h.2.1 rfl rfl rfl rfl rfl rfl rfl, h.2.2.1, h.2.2.2⟩
  exact WellKept.ite h (WellKept.foldl _ (fun _ _ k => WellKept.pageDue k _ _) _ ((hu.setf _ _ _ _).event _ _ _ _ _ _))

theorem WellKept.noteUncorr {s : State} (h : WellKept s) (v : Bool) (p : Nat) : WellKept (s.noteUncorr v p) := by
  unfold State.noteUncorr
  extract_lets d l m u cols
  have hu : WellKept u := ⟨h.1, Mem.wf_same h.2.1 rfl rfl rfl rfl rfl rfl rfl, h.2.2.1, h.2.2.2⟩
  exact WellKept.ite h (WellKept.ite (hu.failDie _) hu)

theorem WellKept.countPage {s : State} (h : WellKept s) (v : Bool) (p : Nat) : WellKept (s.countPage v p) := by
  have h2 : ∀ cs, WellKept (s.setMem v { s.mem v with counted := cs }) := fun cs =>
    h.setMem v (Mem.wf_same (h.mem v) rfl rfl rfl rfl rfl rfl rfl)
  exact WellKept.ite ((h2 _).pageDue v p) (h2 _)

theorem WellKept.trackWord {s : State} (h : WellKept s) (v c : Bool) (w mask : Nat) : WellKept (s.trackWord v c w mask) := by
  have h2 : ∀ k es, WellKept (s.setMem v { s.mem v with tracker := aput [] (s.mem v).tracker k es }) := fun k es =>
    h.setMem v (Mem.wf_tracker (h.mem v) (awf_aput _ _ _ (Mem.tracker_wf (h.mem v))))
  unfold State.trackWord
  extract_lets m k es keep
  split
  · exact h2 _ _
  · exact WellKept.ite (WellKept.countPage (h2 _ _) _ _) (h2 _ _)

theorem WellKept.queueKeep {s : State} (h : WellKept s) (v : Bool) (p : Nat) (er : List Nat) : WellKept (s.queueKeep v p er) :=
  WellKept.ite ⟨h.1, Mem.wf_same h.2.1 rfl rfl rfl rfl rfl rfl rfl, h.2.2.1, h.2.2.2⟩ h

theorem WellKept.decodeWord {s : State} (h : WellKept s) (v b : Bool) (p l r j : Nat) : WellKept (s.decodeWord v b p l r j).2 := by
  unfold State.decodeWord
  extract_lets m er u
  have hu : WellKept u := h.queueKeep _ _ _
  split
  · exact ((hu.memError _ _ _ _).pageDue _ _).noteUncorr _ _
  · extract_lets es unseen u1
    have hu1 : WellKept u1 := WellKept.ite hu (hu.setMem v (Mem.wf_foldl _ (fun _ _ k => Mem.repair_wf k _ _ _) _ (hu.mem v)))
    exact WellKept.foldl _ (fun _ _ k => WellKept.event (WellKept.lastErr (k.bump _) _ _ _ _) _ _ _ _ _ _) _ hu1

/-- A page decoded (R221 to R229). -/
theorem WellKept.decodePage {s : State} (h : WellKept s) (v : Bool) (p r : Nat) (b c : Bool) : WellKept (s.decodePage v p r b c) := by
  unfold State.decodePage
  extract_lets m l
  refine WellKept.ite h ?_
  have hf : ∀ (js : List Nat) (acc : List (Nat × Nat) × State), WellKept acc.2 →
      WellKept (js.foldl (fun (acc : List (Nat × Nat) × State) j =>
        match acc.2.decodeWord v b p l r j with | (w, st) => (acc.1 ++ w, st)) acc).2 := by
    intro js
    induction js with
    | nil => intro acc k; exact k
    | cons j js ih => intro acc k; exact ih _ (WellKept.decodeWord k v b p l r j)
  have h2 := hf (m.suspects p) ([], s) h
  generalize (m.suspects p).foldl (fun (acc : List (Nat × Nat) × State) j =>
        match acc.2.decodeWord v b p l r j with | (w, st) => (acc.1 ++ w, st)) ([], s) = x at h2
  obtain ⟨ws, u⟩ := x
  refine WellKept.foldl _ (fun _ _ k => WellKept.trackWord ?_ _ _ _ _) _ h2
  have k2 := (k.bump (mreg v rVLT_CORR_COUNT rSTO_CORR_COUNT))
  exact WellKept.ite ((k2.event _ _ _ _ _ _).event _ _ _ _ _ _) (k2.event _ _ _ _ _ _)

theorem WellKept.finishDecode {s : State} (h : WellKept s) (v : Bool) (p : Nat) (c : Bool) : WellKept (s.finishDecode v p c) := by
  unfold State.finishDecode
  split
  · exact h
  · exact (h.decodePage _ _ _ _ _).unhold _ _

theorem WellKept.settle {s : State} (h : WellKept s) (v : Bool) (a n : Nat) : WellKept (s.settle v a n) :=
  WellKept.foldl _ (fun _ _ k => WellKept.finishDecode k _ _ _) _ h

theorem WellKept.deadPage {s : State} (h : WellKept s) (v : Bool) (p r : Nat) : WellKept (s.deadPage v p r) :=
  (WellKept.foldl _ (fun _ _ k => WellKept.memError k _ _ _ _) _ h).pageDue _ _

theorem WellKept.tellPoison {s : State} (h : WellKept s) (v : Bool) (a n r : Nat) (got : Nat → ByteRes) :
    WellKept (s.tellPoison v a n r got) := by
  unfold State.tellPoison
  refine WellKept.foldl _ (fun u i k => ?_) _ h
  split
  · exact WellKept.ite (k.memError _ _ _ _) k
  · exact WellKept.ite (k.memError _ _ _ _) k
  · exact k

/-- A read (R221 to R224, R229, R236, R239). -/
theorem WellKept.memRead {s : State} (h : WellKept s) (v : Bool) (a n r : Nat) : WellKept (s.memRead v a n r).2 := by
  unfold State.memRead
  extract_lets s0 m pages got rs bytes pois banks u u1 u2
  have h0 : WellKept s0 := h.settle v a n
  have hu : WellKept u := WellKept.ite h0 (h0.setMem v (Mem.wf_foldl _ (fun _ _ k => Mem.powerUp_wf k _) _ (h0.mem v)))
  have hu1 : WellKept u1 := WellKept.foldl _ (fun _ _ k => WellKept.hold k _ _ _) _ (hu.wakeSpan _ _ _)
  exact WellKept.foldl _ (fun _ _ k => WellKept.deadPage k _ _ _) _ (hu1.tellPoison v a n r got)

/-- A copy's read of a page (R226, R230, R241, R412). -/
theorem WellKept.copyPage {s : State} (h : WellKept s) (v dec : Bool) (p r : Nat) : WellKept (s.copyPage v dec p r).2 := by
  unfold State.copyPage
  extract_lets l u q data u2
  have hu : WellKept u := h.finishDecode _ _ _
  show WellKept u2
  refine WellKept.ite (hu.memError _ _ _ _) (WellKept.ite (hu.deadPage _ _ _) ?_)
  split
  · exact WellKept.ite (hu.decodePage _ _ _ _ _) hu
  · exact WellKept.foldl _ (fun _ _ k => WellKept.memError k _ _ _ _) _ hu

theorem WellKept.cowFirst {s : State} (h : WellKept s) (v : Bool) (p w : Nat) : WellKept (s.cowFirst v p w) := by
  unfold State.cowFirst
  split
  · exact h
  · refine WellKept.ite h ?_
    split
    · exact h.storePair h.2.2.1 _
    · have hc := h.copyPage v false (pageOf ((s.mem v).phys (p * 4096))) w
      generalize s.copyPage v false (pageOf ((s.mem v).phys (p * 4096))) w = x at hc
      obtain ⟨data, u⟩ := x
      dsimp -zeta only
      extract_lets u1 ph
      have hu1 : WellKept u1 := (WellKept.finishDecode hc _ _ _).wakeSpan _ _ _
      exact hu1.storePair (Mem.placePage_wf hu1.2.2.1 _ _ _) _

/-- What a write takes from the decode of its page (R219). -/
theorem Mem.foldErrors_wf {m : Mem} (h : m.wf = true) (p o n : Nat) : (m.foldErrors p o n).wf = true :=
  Mem.wf_foldl _ (fun _ _ k => Mem.wf_foldl _ (fun _ _ k => Mem.repair_wf k _ _ _) _ k) _ h

/-- A write within one page (R219, R237, R238). -/
theorem WellKept.writeInPage {s : State} (h : WellKept s) (v : Bool) (a : Nat) (bs : List Byte) (full : Bool) (w : Nat) :
    WellKept (s.writeInPage v a bs full w) := by
  unfold State.writeInPage
  extract_lets u ph m u1 p u2 ph2 needs held u3 m3 ph3 m4 m5 u4
  have hu : WellKept u := h.cowFirst _ _ _
  have hm : m.wf = true := Mem.powerUp_wf (hu.mem v) _
  have hu1 : WellKept u1 := hu.setMem v hm
  refine WellKept.ite hu (WellKept.ite hu1 (WellKept.ite ?_ (WellKept.ite (hu1.bump _) ?_)))
  · have hu2 : WellKept u2 := hu1.finishDecode _ _ _
    exact hu2.setMem v (Mem.placePage_wf (hu2.mem v) _ _ _)
  · have hu3 : WellKept u3 := WellKept.ite (hu1.finishDecode _ _ _) (WellKept.ite (hu1.decodePage _ _ _ _ _) hu1)
    have hm4 : m4.wf = true := Mem.wf_ite (Mem.foldErrors_wf (hu3.mem v) _ _ _) (hu3.mem v)
    have hm5 : m5.wf = true := Mem.wf_foldl _ (fun _ _ k => Mem.putByte_wf k _ _) _ hm4
    exact WellKept.foldl _ (fun _ _ k => WellKept.ite (WellKept.untrack k _ _) k) _ (hu3.setMem v hm5)

/-- A write (R145, R219, R237). -/
theorem WellKept.memWrite {s : State} (h : WellKept s) (v : Bool) (a : Nat) (bs : List Byte) (full : Bool) (w n : Nat) :
    WellKept (s.memWrite v a bs full w n) := by
  induction n generalizing s a bs with
  | zero => exact h
  | succ n ih =>
    unfold State.memWrite
    exact WellKept.ite h (ih ((h.wakeSpan _ _ _).writeInPage _ _ _ _ _) _ _)

theorem WellKept.poisonWordAt {s : State} (h : WellKept s) (v : Bool) (a : Nat) : WellKept (s.poisonWordAt v a) :=
  WellKept.ite h (h.setMem v (Mem.wf_parBad (h.mem v) (awf_aputs _ _ _ (Mem.parBad_wf (h.mem v)))))

theorem WellKept.frozenRead {s : State} (h : WellKept s) (v : Bool) (a n r fuel : Nat) : WellKept (s.frozenRead v a n r fuel).2 := by
  induction fuel generalizing s a n with
  | zero => exact h
  | succ f ih =>
    unfold State.frozenRead
    cases s.frozenPage a with
    | none =>
      dsimp only
      split
      · exact h.memRead _ _ _ _
      · exact ih (h.memRead _ _ _ _) _ _
    | some q =>
      dsimp only
      split
      · exact h.memRead _ _ _ _
      · exact ih (h.memRead _ _ _ _) _ _

theorem WellKept.readFrozen {s : State} (h : WellKept s) (v : Bool) (a n r : Nat) : WellKept (s.readFrozen v a n r).2 := by
  unfold State.readFrozen
  split
  · exact h.memRead _ _ _ _
  · exact h.frozenRead _ _ _ _ _

/-- A read at a module memory address (R213). -/
theorem WellKept.modRead {s : State} (h : WellKept s) (a n r : Nat) : WellKept (s.modRead a n r).2 := by
  unfold State.modRead
  split
  · exact h
  · split
    · exact h.readFrozen _ _ _ _
    · exact h.readFrozen _ _ _ _
    · exact h.absentAccess _

/-- A write at a module memory address (R213). -/
theorem WellKept.modWrite {s : State} (h : WellKept s) (a : Nat) (bs : List Byte) (full : Bool) (w : Nat) : WellKept (s.modWrite a bs full w) := by
  unfold State.modWrite
  split
  · exact h
  · split
    · exact h.memWrite _ _ _ _ _ _
    · exact h.memWrite _ _ _ _ _ _
    · exact h.absentAccess _

/-- One byte of raw mode's WRITE_DATA (R245). -/
theorem Mem.rawByte_wf {m : Mem} (h : m.wf = true) (ph : Nat) (b : Byte) : (m.rawByte ph b).wf = true :=
  Mem.addDiff_wf (Mem.wf_parBad (Mem.wf_cells h (awf_aput _ _ _ (Mem.cells_wf h))) (awf_aput _ _ _ (Mem.parBad_wf h))) _ _ _

/-- The Vault as a Gallery reset wipes it (R235). -/
theorem Mem.galleryWipe_wf (m : Mem) : m.galleryWipe.wf = true := Mem.wf_same (Mem.wipe_wf m) rfl rfl rfl rfl rfl rfl rfl

/-- The Vault after a reset (R232 to R235). -/
theorem Mem.vaultReset_wf (m : Mem) : m.vaultReset.wf = true := Mem.wf_same (Mem.wipe_wf m.loadSpares) rfl rfl rfl rfl rfl rfl rfl

/-- Both memories after reset list nothing, so they are canonical. -/
theorem reset_vault_wf : State.reset.vault.wf = true := by decide
theorem reset_store_wf : State.reset.store.wf = true := by decide

end Sys2Proof.Machine
end

