-- ==== Sys2Proof/Laws/RecordRegs.lean ====
section
/-! SUPPORT. The registers events and records may write: those of a block's incident logic and of the HST_ window (R416, R456). -/

namespace Sys2Proof.Machine

open Sys2Proof

/-- The block has an instance of that number (R106, R456). -/
def hasInstance (b : Blk) (i : Nat) : Bool :=
  match b with
  | .wng | .col => decide (i < 4)
  | .lmp => decide (i < 2)
  | .tile => isTile i
  | _ => true

/-- A window of 64 KiB belongs to one block throughout. -/
theorem blkOf_window {n o : Nat} (ho : o < 0x10000) (hn : n < 0x100) :
    blkOf (0x10000 * n + o) = (blkOf (0x10000 * n)).map fun x => (x.1, x.2.1, o) := by
  have e1 : (0x10000 * n + o) / 0x10000 = n := by omega
  have e2 : (0x10000 * n + o) % 0x10000 = o := by omega
  have e3 : 0x10000 * n / 0x10000 = n := by omega
  unfold blkOf
  simp only [e1, e2, e3]
  split <;> first | rfl | skip
  by_cases h1 : 0x10 ≤ n ∧ n < 0x14
  · simp [h1]
  · by_cases h2 : 0x14 ≤ n ∧ n < 0x18
    · simp [h1, h2]
    · by_cases h3 : 0x18 ≤ n ∧ n < 0x1A
      · simp [h1, h2, h3]
      · rw [if_neg h1, if_neg h2, if_neg h3, if_neg (by omega), if_neg h1, if_neg h2, if_neg h3, if_neg (by omega)]; rfl

/-- The address of a register of a block's incident logic lies in that block's window. -/
theorem blkOf_ir {b : Blk} {i o : Nat} (h : hasInstance b i = true) (ho : o < 0x1000) : ∃ j, blkOf (ir b i o) = some (b, j, o) := by
  have win : ∀ n, n < 0x100 → ∀ c j, blkOf (0x10000 * n) = some (c, j, 0) → ∀ a, a = 0x10000 * n + o → blkOf a = some (c, j, o) := by
    intro n hn c j hc a ha
    rw [ha, blkOf_window (by omega) hn, hc]; rfl
  cases b
  case tile =>
    simp only [hasInstance] at h
    have hlt : i < 2048 := by simp only [isTile, Bool.and_eq_true, decide_eq_true_eq] at h; exact h.1
    refine ⟨i, ?_⟩
    have e1 : (0x1000000 + 0x1000 * i + o - 0x1000000) / 0x1000 = i := by omega
    have e2 : (0x1000000 + 0x1000 * i + o) % 0x1000 = o := by omega
    have e3 : 0x100 ≤ (0x1000000 + 0x1000 * i + o) / 0x10000 ∧ (0x1000000 + 0x1000 * i + o) / 0x10000 < 0x180 := by omega
    unfold blkOf ir winBase
    simp only [e1, e2, h, if_true]
    split <;> first | (exfalso; omega) | (rw [if_neg (by omega), if_neg (by omega), if_neg (by omega), if_pos e3])
  case hst => exact ⟨0, win 0 (by decide) _ _ (by decide) _ (by simp only [ir, winBase])⟩
  case rgs => exact ⟨0, win 1 (by decide) _ _ (by decide) _ (by simp only [ir, winBase])⟩
  case pwr => exact ⟨0, win 2 (by decide) _ _ (by decide) _ (by simp only [ir, winBase])⟩
  case pln => exact ⟨0, win 3 (by decide) _ _ (by decide) _ (by simp only [ir, winBase])⟩
  case cur => exact ⟨0, win 4 (by decide) _ _ (by decide) _ (by simp only [ir, winBase])⟩
  case fab => exact ⟨0, win 5 (by decide) _ _ (by decide) _ (by simp only [ir, winBase])⟩
  case pair => exact ⟨0, win 6 (by decide) _ _ (by decide) _ (by simp only [ir, winBase])⟩
  case gal => exact ⟨0, win 7 (by decide) _ _ (by decide) _ (by simp only [ir, winBase])⟩
  case vlt => exact ⟨0, win 8 (by decide) _ _ (by decide) _ (by simp only [ir, winBase])⟩
  case sto => exact ⟨0, win 9 (by decide) _ _ (by decide) _ (by simp only [ir, winBase])⟩
  case wng =>
    simp only [hasInstance, decide_eq_true_eq] at h
    have hb : ∀ i < 4, blkOf (0x10000 * (0x10 + i)) = some (.wng, i, 0) := by decide
    exact ⟨i, win (0x10 + i) (by omega) _ _ (hb i h) _ (by simp only [ir, winBase]; omega)⟩
  case col =>
    simp only [hasInstance, decide_eq_true_eq] at h
    have hb : ∀ i < 4, blkOf (0x10000 * (0x14 + i)) = some (.col, i, 0) := by decide
    exact ⟨i, win (0x14 + i) (by omega) _ _ (hb i h) _ (by simp only [ir, winBase]; omega)⟩
  case lmp =>
    simp only [hasInstance, decide_eq_true_eq] at h
    have hb : ∀ i < 2, blkOf (0x10000 * (0x18 + i)) = some (.lmp, i, 0) := by decide
    exact ⟨i, win (0x18 + i) (by omega) _ _ (hb i h) _ (by simp only [ir, winBase]; omega)⟩

/-- A register of a block's incident logic may be written by events. -/
theorem recordReg_ir {b : Blk} {i o : Nat} (h : hasInstance b i = true) (lo : 0x800 ≤ o) (hi : o < 0x900) : recordReg (ir b i o) = true := by
  obtain ⟨j, hj⟩ := blkOf_ir h (o := o) (by omega)
  simp [recordReg, hj, isIncReg, lo, hi]

/-- So may a register of the HST_ window. -/
theorem recordReg_hst {a : Nat} (h : a < 0x10000) : recordReg a = true := by simp [recordReg, h]

/-! ### Frames of records and events -/

/-- Only registers that records may write differ. -/
abbrev RecordFrame (s t : State) : Prop := RegsButRecords [] s t

theorem RecordFrame.refl (s : State) : RecordFrame s s := fun _ _ _ => rfl

theorem RecordFrame.trans {s t u : State} (h : RecordFrame s t) (k : RecordFrame t u) : RecordFrame s u := RegsButRecords.trans h k

theorem RecordFrame.wn {s t : State} (h : RecordFrame s t) {a : Nat} (v : Nat) (ha : recordReg a = true) : RecordFrame s (t.wn a v) := by
  intro b hb hr
  rw [← h b hb hr]
  exact State.rd_wr_ne t _ (fun e => by rw [e, ha] at hr; cases hr)

/-- What does not touch the register file. -/
theorem RecordFrame.same {s t u : State} (h : RecordFrame s t) (e : u.regs = t.regs) : RecordFrame s u := by
  intro b hb hr
  rw [← h b hb hr]
  simp only [State.rd, e]

theorem RecordFrame.ite {s t u : State} {p : Prop} [Decidable p] (h : RecordFrame s t) (k : RecordFrame s u) : RecordFrame s (if p then t else u) := by
  split
  · exact h
  · exact k

theorem State.logPut_frame (s : State) {l : Nat} (hl : l < 4) (r : List Byte) : RecordFrame s (s.logPut l r) := by
  refine RecordFrame.same (t := (s.hostWrite _ r).wn (lg rHST_LOG_PROD l) _) (RecordFrame.wn (RecordFrame.same (RecordFrame.refl s) rfl) _ ?_) rfl
  exact recordReg_hst (by simp only [lg, winBase, rHST_LOG_PROD]; omega)

theorem State.logMarker_frame (s : State) {l : Nat} (hl : l < 4) : RecordFrame s (s.logMarker l) :=
  RecordFrame.trans (RecordFrame.same (RecordFrame.refl s) rfl) (State.logPut_frame _ hl _)

theorem State.logDropOnly_frame (s : State) {l : Nat} (hl : l < 4) (r : List Byte) : RecordFrame s (s.logDropOnly l r) :=
  RecordFrame.wn (RecordFrame.same (RecordFrame.refl s) rfl) _ (recordReg_hst (by simp only [lg, winBase, rHST_LOG_DROP_COUNT]; omega))

theorem State.logDeliver_frame (s : State) {l : Nat} (hl : l < 4) (r : List Byte) : RecordFrame s (s.logDeliver l r).1 := by
  unfold State.logDeliver
  simp only
  split
  · split
    · exact State.logPut_frame _ hl _
    · split
      · exact (State.logMarker_frame _ hl).trans (State.logPut_frame _ hl _)
      · exact State.logDropOnly_frame _ hl _
  · split
    · exact RecordFrame.same (RecordFrame.refl s) rfl
    · exact State.logDropOnly_frame _ hl _

theorem State.logRoute_frame (s : State) {l : Nat} (hl : l < 4) (r : List Byte) : RecordFrame s (s.logRoute l r).1 := by
  unfold State.logRoute
  split
  · exact State.logDeliver_frame _ hl _
  · split
    · exact State.logDeliver_frame _ (by decide) _
    · exact (RecordFrame.refl s).wn _ (recordReg_hst (by decide))

theorem State.keepHistory_frame (s : State) (r : List Byte) : RecordFrame s (s.keepHistory r) := by
  refine RecordFrame.same (RecordFrame.refl s) ?_
  unfold State.keepHistory
  simp only
  split <;> rfl

theorem State.routeOf_lt (s : State) (b : Blk) : s.routeOf b < 4 := fld_lt _ _ 2

theorem State.raise_frame (s : State) {b : Blk} {i : Nat} (h : hasInstance b i = true) (k : Nat) (inj : Bool) (d : Nat) :
    RecordFrame s (s.raise b i k inj d).2 := by
  unfold State.raise State.incRecord
  refine RecordFrame.same ?_ (t := _) rfl
  refine RecordFrame.trans (t := _) ?_ (RecordFrame.ite ((RecordFrame.refl _).wn _ (recordReg_ir h (by decide) (by decide))) (RecordFrame.refl _))
  refine RecordFrame.trans (t := _) ?_ (RecordFrame.ite ((RecordFrame.refl _).same rfl) (RecordFrame.refl _))
  refine RecordFrame.trans (t := _) ?_ (RecordFrame.ite ((RecordFrame.refl _).wn _ (recordReg_ir h (by decide) (by decide)))
    ((RecordFrame.refl _).wn _ (recordReg_ir h (by decide) (by decide))))
  exact ((RecordFrame.refl s).wn _ (recordReg_ir h (by decide) (by decide))).same rfl

theorem State.coincide_frame (s : State) {b : Blk} {i : Nat} (h : hasInstance b i = true) (k : Nat) (inj : Bool) (d : Nat) :
    RecordFrame s (s.coincide b i k inj d).2 := by
  unfold State.coincide
  by_cases hi : inj = true
  · rw [if_pos hi]; exact RecordFrame.refl s
  · rw [if_neg hi]
    exact RecordFrame.ite (((RecordFrame.refl s).same rfl).wn _ (recordReg_ir h (by decide) (by decide))) ((RecordFrame.refl s).same rfl)

/-- A block's sources are numbered below 24. -/
theorem hasSource_lt {b : Blk} {k : Nat} (h : hasSource b k = true) : k < 24 := by
  simp only [hasSource, List.any_eq_true, beq_iff_eq] at h
  obtain ⟨x, hx, rfl⟩ := h
  have : ∀ c : Blk, ∀ x ∈ incSources c, x.1 < 24 := by intro c; cases c <;> decide
  exact this b x hx

theorem State.eventCore_frame (s : State) {b : Blk} {i : Nat} (h : hasInstance b i = true) (k : Nat) (inj note : Bool) (d : Nat) :
    RecordFrame s (s.eventCore b i k inj note d).2 := by
  unfold State.eventCore
  by_cases hs : hasSource b k = true
  · rw [if_pos hs]
    have hk := hasSource_lt hs
    have hc : recordReg (ir b i rINC_COUNT + 4 * k) = true := by
      have := recordReg_ir h (o := rINC_COUNT + 4 * k) (by simp only [rINC_COUNT]; omega) (by simp only [rINC_COUNT]; omega)
      rwa [show ir b i (rINC_COUNT + 4 * k) = ir b i rINC_COUNT + 4 * k from (Nat.add_assoc ..).symm] at this
    have h0 := State.coincide_frame s h k inj d
    generalize s.coincide b i k inj d = x at h0
    obtain ⟨forced, t⟩ := x
    refine h0.trans ?_
    clear h0
    show RecordFrame t _
    dsimp -zeta only
    extract_lets cnt pol now key op w i1 u u2 u3 u4
    have h1 : RecordFrame t u := RecordFrame.ite (RecordFrame.same (RecordFrame.refl t) rfl) (RecordFrame.refl t)
    have h2 : RecordFrame t u2 := h1.wn _ hc
    have h3 : RecordFrame t u3 := h2.wn _ hc
    have h4 : RecordFrame t u4 := h2.wn _ hc
    split
    · split
      · exact h3.same rfl
      · exact h3
    · split
      · exact h4
      · exact h4.trans (State.raise_frame _ h _ _ _)
  · rw [if_neg hs]
    exact RecordFrame.refl s

theorem RecordFrame.foldl {α : Type} (g : State → α → State) (hg : ∀ t x, RecordFrame t (g t x)) (xs : List α) {s t : State} (h : RecordFrame s t) :
    RecordFrame s (xs.foldl g t) := by
  induction xs generalizing t with
  | nil => exact h
  | cons x xs ih => exact ih (h.trans (hg t x))

theorem State.logSend_frame (s : State) {l : Nat} (hl : l < 4) (r : List Byte) : RecordFrame s (s.logSend l r) := by
  unfold State.logSend
  have h1 := State.logRoute_frame s hl r
  generalize s.logRoute l r = x at h1
  obtain ⟨t, dropped⟩ := x
  refine RecordFrame.ite ?_ h1
  have h2 := h1.trans (State.eventCore_frame t (b := .hst) (i := 0) rfl 1 false true (if t.logEnabled l then l else 0))
  generalize t.eventCore .hst 0 1 false true (if t.logEnabled l then l else 0) = y at h2
  exact RecordFrame.foldl _ (fun t x => (State.keepHistory_frame t x).trans (State.logRoute_frame _ (State.routeOf_lt _ _) _)) _ h2

theorem State.postTo_frame (s : State) {l : Nat} (hl : l < 4) (r : List Byte) : RecordFrame s (s.postTo l r) :=
  RecordFrame.ite (RecordFrame.refl s) ((State.keepHistory_frame s r).trans (State.logSend_frame _ hl _))

/-- A record posted writes no register but those of records. -/
theorem State.post_frame (s : State) (ty : Nat) (b : Blk) (i : Nat) (body : List Byte) : RecordFrame s (s.post ty b i body) :=
  RecordFrame.trans (t := (s.form ty b i body).2) ((RecordFrame.refl s).same rfl) (State.postTo_frame _ (State.routeOf_lt _ _) _)

/-- So does an event of a source. -/
theorem State.event_frame (s : State) {b : Blk} {i : Nat} (h : hasInstance b i = true) (k d : Nat) (inj note : Bool) :
    RecordFrame s (s.event b i k d inj note) :=
  RecordFrame.foldl _ (fun t _ => State.postTo_frame t (State.routeOf_lt _ _) _) _ (State.eventCore_frame s h k inj note d)

theorem State.postEvent_frame (s : State) (b : Blk) (code x y : Nat) : RecordFrame s (s.postEvent b code x y) := State.post_frame _ _ _ _ _

end Sys2Proof.Machine
end

