-- ==== Sys2Proof/WellFormed.lean ====
section
/-! DEFINITION. When a command is well formed: its operands lie in the ranges that the spec gives what they name. A meaning is
defined on any operands; one that names nothing has no effect. -/

namespace Sys2Proof

/-- A tile number: 32 rows of 33 columns, as row × 64 + column (R13). -/
def tileOk (t : Nat) : Bool := decide (t < 2048) && decide (t % 64 < 33)

/-- A 32-bit value (R7). -/
def wordOk (v : Nat) : Bool := decide (v < 4294967296)

/-- An aligned word of BAR0 (R453, R456). -/
def addressOk (a : Nat) : Bool := decide (a < 33554432) && a % 4 == 0

/-- Bytes. -/
def bytesOk (bs : List Nat) : Bool := bs.all fun b => decide (b < 256)

/-- The 280 bytes of a flit (R250). -/
def flitOk (bs : List Nat) : Bool := bs.length == 280 && bytesOk bs

/-- An instance of the block of a BLOCK code (R416). -/
def instanceOk (blk inst : Nat) : Bool :=
  match blk with
  | 1 => tileOk inst
  | 4 | 6 => decide (inst < 4)
  | 5 => decide (inst < 2)
  | _ => inst == 0

/-- Well-formed commands. -/
def Instr.wf : Instr → Bool
  | .nop t => tileOk t
  | .endStep t => tileOk t
  | .hangStep t => tileOk t
  | .hangPointReached t => tileOk t
  | .jump t => tileOk t
  | .branch t => tileOk t
  | .loopStep t => tileOk t
  | .salu t => tileOk t
  | .sread t => tileOk t
  | .fence t => tileOk t
  | .fenceComplete t => tileOk t
  | .wait t => tileOk t
  | .waitSatisfied t => tileOk t
  | .add t => tileOk t
  | .waveStep t => tileOk t
  | .copy t => tileOk t
  | .fill t => tileOk t
  | .dload t => tileOk t
  | .dstore t => tileOk t
  | .dadd t => tileOk t
  | .send t => tileOk t
  | .signal t => tileOk t
  | .read t => tileOk t
  | .collate t => tileOk t
  | .hold t => tileOk t
  | .mma t => tileOk t
  | .matrixClear t => tileOk t
  | .vecMove t => tileOk t
  | .vecAdd t => tileOk t
  | .vecSub t => tileOk t
  | .vecMul t => tileOk t
  | .vecFma t => tileOk t
  | .vecMin t => tileOk t
  | .vecMax t => tileOk t
  | .vecCmp t => tileOk t
  | .vecSelect t => tileOk t
  | .vecRcp t => tileOk t
  | .vecRsqrt t => tileOk t
  | .vecSqrt t => tileOk t
  | .vecExp2 t => tileOk t
  | .vecLog2 t => tileOk t
  | .vecSign t => tileOk t
  | .vecReduce t => tileOk t
  | .arith t => tileOk t
  | .statClear t => tileOk t
  | .trapEnable t => tileOk t
  | .perf t => tileOk t
  | .crateTime t => tileOk t
  | .unitStepComplete t _ => tileOk t
  | .tileCrateTimeout t => tileOk t
  | .tileHangTimeout t => tileOk t
  | .crateIngressTimeout t _ => tileOk t
  | .crateWrite _ => true
  | .crateReadReq _ => true
  | .crateReadResp _ => true
  | .crateTicket _ => true
  | .crateTwinWrite _ => true
  | .stop t _ => tileOk t
  | .releaseTrap t _ => tileOk t
  | .reset t _ => tileOk t
  | .perfClear t _ => tileOk t
  | .tileArithStatClear t mask _ => tileOk t && wordOk mask
  | .cycleCountLoRead t => tileOk t
  | .registerWrite addr value _ => addressOk addr && wordOk value
  | .thermalConversion t temp => tileOk t && decide (temp < 65536)
  | .cycleStretch t _ => tileOk t
  | .islandClockChange t _ _ => tileOk t
  | .routerFail t => tileOk t
  | .load => true
  | .loadCopyDone k _ => decide (k < 4)
  | .auditDone k => decide (k < 4)
  | .prepare => true
  | .autoPrepareStart => true
  | .prepareDone k tiles _ _ _ _ => decide (k < 4) && tiles.all (fun e => tileOk e.2)
  | .hang => true
  | .hangArmedAllAtPoint => true
  | .hangWaveComplete => true
  | .hangApply => true
  | .hangWaveSlow => true
  | .withdraw => true
  | .discard => true
  | .readPlacement => true
  | .readCatalogue => true
  | .placeQuery _ => true
  | .placeQueryRepeat => true
  | .placeAnswer _ => true
  | .placeMoved _ => true
  | .placeExchangeTimeout => true
  | .pageDecodeDone mem _ => decide (mem < 2)
  | .scrubPage mem => decide (mem < 2)
  | .vaultDieFail die => decide (die < 8)
  | .marchTest _ _ => true
  | .readRaw mem pp reserved _ => decide (mem < 2) && decide (pp < 128) && decide (reserved < 2)
  | .writeData mem pp reserved _ => decide (mem < 2) && decide (pp < 128) && decide (reserved < 2)
  | .writeParity mem pp reserved _ => decide (mem < 2) && decide (pp < 128) && decide (reserved < 2)
  | .readPageParity mem pp reserved _ => decide (mem < 2) && decide (pp < 128) && decide (reserved < 2)
  | .writePageParity mem pp reserved _ => decide (mem < 2) && decide (pp < 128) && decide (reserved < 2)
  | .checkedRead mem pp reserved _ => decide (mem < 2) && decide (pp < 128) && decide (reserved < 2)
  | .storeRefresh chan temp => decide (chan < 64) && decide (temp < 65536)
  | .storeRfm chan _ => decide (chan < 64)
  | .wck2dqOscRead chan _ => decide (chan < 64)
  | .zqLatch chan => decide (chan < 64)
  | .selfRefreshEntry chan _ => decide (chan < 64)
  | .flitSlot j l => decide (j < 36) && decide (l < 2)
  | .dataFlit j l raw => decide (j < 36) && decide (l < 2) && flitOk raw
  | .controlFlit j l raw => decide (j < 36) && decide (l < 2) && flitOk raw
  | .creditFlit j l raw => decide (j < 36) && decide (l < 2) && flitOk raw
  | .idleFlit j l raw => decide (j < 36) && decide (l < 2) && flitOk raw
  | .initFlit j l raw => decide (j < 36) && decide (l < 2) && flitOk raw
  | .badFlit j l raw => decide (j < 36) && decide (l < 2) && flitOk raw
  | .reorderRelease j c => decide (j < 36) && decide (c < 4)
  | .crateTransmitStart _ => true
  | .ackTimerExpiry j => decide (j < 36)
  | .creditTimerExpiry j => decide (j < 36)
  | .replayTimerExpiry j l => decide (j < 36) && decide (l < 2)
  | .linkSuspend j l => decide (j < 36) && decide (l < 2)
  | .linkRejoin j l => decide (j < 36) && decide (l < 2)
  | .linkDownTimer j l => decide (j < 36) && decide (l < 2)
  | .initTimeout j l => decide (j < 36) && decide (l < 2)
  | .creditTimeout j c => decide (j < 36) && decide (c < 4)
  | .widthChange j l _ => decide (j < 36) && decide (l < 2)
  | .widthChangeDone j l locked => decide (j < 36) && decide (l < 2) && decide (locked < 2 ^ 18)
  | .channelReset j _ => decide (j < 36)
  | .linkDown j l _ => decide (j < 36) && decide (l < 2)
  | .creditAdvWrite w c value _ => decide (w < 4) && decide (c < 4) && wordOk value
  | .requestEntryAlloc _ => true
  | .responseMatch _ => true
  | .requestTimeout _ => true
  | .requestRetry _ => true
  | .quarantineExpiry _ => true
  | .collateCrate _ => true
  | .collateStall _ => true
  | .colRedCfgWrite col r value _ => decide (col < 4) && decide (r < 4096) && wordOk value
  | .waveMessage _ => true
  | .waveSlow group => decide (group < 64)
  | .census group _ => decide (group < 64)
  | .fabricReset _ => true
  | .fabricResetMessage _ => true
  | .officeCrate _ => true
  | .bringupStart j l => decide (j < 36) && decide (l < 2)
  | .trainingFrame j k r _ => decide (j < 36) && decide (k < 2) && decide (r < 18)
  | .marginTestDone j k _ => decide (j < 36) && decide (k < 2)
  | .bringupTimeout j l => decide (j < 36) && decide (l < 2)
  | .retrainRetry j l => decide (j < 36) && decide (l < 2)
  | .laneRequest j l lane _ => decide (j < 36) && decide (l < 2) && decide (lane < 16)
  | .laneMove j l lane slot fibre => decide (j < 36) && decide (l < 2) && decide (lane < 16) && decide (slot < 36) && decide (fibre < 2)
  | .laneSwitched j l lane => decide (j < 36) && decide (l < 2) && decide (lane < 16)
  | .laneRefuse j l lane => decide (j < 36) && decide (l < 2) && decide (lane < 16)
  | .laneTakeNewSlot j l lane => decide (j < 36) && decide (l < 2) && decide (lane < 16)
  | .steerTimeout j l lane => decide (j < 36) && decide (l < 2) && decide (lane < 16)
  | .laneUnlock j l lane => decide (j < 36) && decide (l < 2) && decide (lane < 16)
  | .qualityUpdate w n _ _ => decide (w < 4) && decide (n < 324)
  | .laneLag j l lane => decide (j < 36) && decide (l < 2) && decide (lane < 16)
  | .widthRiseTimer j l => decide (j < 36) && decide (l < 2)
  | .spare w p lane _ => decide (w < 4) && decide (p < 18) && decide (lane < 16)
  | .restore w p lane _ => decide (w < 4) && decide (p < 18) && decide (lane < 16)
  | .laserBiasUpdate p pos _ power => decide (p < 2) && decide (pos < 162) && decide (power < 65536)
  | .swap p pos _ => decide (p < 2) && decide (pos < 162)
  | .swapWarmDone p pos => decide (p < 2) && decide (pos < 162)
  | .swapLockDone p pos => decide (p < 2) && decide (pos < 162)
  | .swapReturn p pos => decide (p < 2) && decide (pos < 162)
  | .laserSwapFail p pos => decide (p < 2) && decide (pos < 162)
  | .laserFail p pos => decide (p < 2) && decide (pos < 162)
  | .ringUnlock w n modulator => decide (w < 4) && decide (n < 324) && decide (modulator < 3)
  | .ringRelock w n modulator => decide (w < 4) && decide (n < 324) && decide (modulator < 3)
  | .bandgapCheck die _ _ => decide (die < 18)
  | .relight w n => decide (w < 4) && decide (n < 324)
  | .calAttempt j => decide (j < 36)
  | .calMeasureDone j _ _ _ _ _ _ _ => decide (j < 36)
  | .calDeferred w n => decide (w < 4) && decide (n < 324)
  | .calibrate w n _ => decide (w < 4) && decide (n < 324)
  | .calibrateLink w p _ => decide (w < 4) && decide (p < 18)
  | .clearSuspect w n _ => decide (w < 4) && decide (n < 324)
  | .governorSample draw input pace => decide (draw.1 < 65536) && decide (input < 65536) && decide (draw.2 < 65536) && pace.all fun e => tileOk e.1 && decide (1 ≤ e.2) && decide (e.2 ≤ 16)
  | .governorTempStep => true
  | .condSummary _ _ _ => true
  | .writeNow _ _ _ _ => true
  | .slackSample => true
  | .compareTimeout _ => true
  | .dispute _ => true
  | .katDone shard epoch _ => decide (shard < 16384) && wordOk epoch
  | .arbitrate _ => true
  | .arbitrateTimeout shard epoch => decide (shard < 16384) && wordOk epoch
  | .idleSelfTest t _ => tileOk t
  | .rebuildDone shard => decide (shard < 16384)
  | .beaconTimer => true
  | .beacon _ => true
  | .witnessQuery _ => true
  | .witnessAnswer _ => true
  | .substitute _ => true
  | .handoverMessage _ => true
  | .switchoverClose => true
  | .handover _ => true
  | .stocktake group number _ => decide (group < 64) && decide (number < 65536)
  | .stocktakeRelease _ => true
  | .clearSubst _ => true
  | .forceTakeover _ => true
  | .unfence _ => true
  | .drainDone => true
  | .incidentWindowEnd blk inst k => decide (blk < 14) && instanceOk blk inst && decide (k < 24)
  | .levelRepeat blk inst k => decide (blk < 14) && instanceOk blk inst && decide (k < 24)
  | .incForce blk inst value _ => decide (blk < 14) && instanceOk blk inst && wordOk value
  | .chanceTimerExpiry blk inst k => decide (blk < 14) && instanceOk blk inst && decide (k < 24)
  | .actionCancel blk inst mask _ => decide (blk < 14) && instanceOk blk inst && wordOk mask
  | .resume blk inst _ => decide (blk < 14) && instanceOk blk inst
  | .latchClear blk inst _ => decide (blk < 14) && instanceOk blk inst
  | .raisedClear blk inst mask _ => decide (blk < 14) && instanceOk blk inst && wordOk mask
  | .policyWrite blk inst k value _ => decide (blk < 14) && instanceOk blk inst && decide (k < 24) && wordOk value
  | .selfFault blk inst => decide (blk < 14) && instanceOk blk inst
  | .firmwareStall => true
  | .forceLockdown _ => true
  | .lockdownClear _ => true
  | .lockdownExitCheck => true
  | .docketDoorbell d count _ => decide (d < 33) && wordOk count
  | .logbookDoorbell l count _ => decide (l < 4) && wordOk count
  | .docketNop r => decide (r < 33)
  | .dmaWrite r _ => decide (r < 33)
  | .dmaRead r _ => decide (r < 33)
  | .archiveRead r => decide (r < 33)
  | .archiveWrite r => decide (r < 33)
  | .measureLogRead r => decide (r < 33)
  | .fwStage r => decide (r < 33)
  | .docketEntryDone r _ => decide (r < 33)
  | .restart r _ => decide (r < 33)
  | .ringEnable d on _ => decide (d < 37) && decide (on < 2)
  | .logbookSpaceReturn l => decide (l < 4)
  | .logQueueFlush _ _ => true
  | .wardenNoticeWrite value _ => wordOk value
  | .noticeSend => true
  | .bar2Read _ n => decide (n < 4294967296)
  | .bar2Write _ data => bytesOk data
  | .flr pf => decide (pf < 2)
  | .functionStateChange pf d3 bme => decide (pf < 2) && decide (d3 < 2) && decide (bme < 2)
  | .perst => true
  | .pcieLinkDown => true
  | .measDataRead => true
  | .doeDiscovery _ => true
  | .getVersion msg => bytesOk msg
  | .getCapabilities msg => bytesOk msg
  | .negotiateAlgorithms msg => bytesOk msg
  | .getDigests msg => bytesOk msg
  | .getCertificate msg => bytesOk msg
  | .challenge msg => bytesOk msg
  | .getMeasurements msg => bytesOk msg
  | .respondIfReady msg => bytesOk msg
  | .spdmUnsupported msg => bytesOk msg
  | .statusGet msg => bytesOk msg
  | .regRead msg => bytesOk msg
  | .regWrite msg => bytesOk msg
  | .powerCapSet msg _ => bytesOk msg
  | .lifecycleSet msg => bytesOk msg
  | .fwAuthorise msg _ => bytesOk msg
  | .fwCommitSvn msg => bytesOk msg
  | .historyRead msg => bytesOk msg
  | .wardenLockdownForce msg => bytesOk msg
  | .wardenLockdownClear msg => bytesOk msg
  | .tenantKeySet msg _ => bytesOk msg
  | .configSet msg _ => bytesOk msg
  | .provision msg _ => bytesOk msg
  | .wardenArchiveRead msg => bytesOk msg
  | .firmwareReady => true
  | .bootTimeout => true
  | .powerOnReset => true
  | .powerLoss => true
  | .inputOutOfRange volts => decide (volts < 65536)
  | .polFault => true
  | .powerStateRequest target _ => decide (target < 8)
  | .powerStateDone => true
  | .moduleReset _ => true
  | .galleryReset _ => true
  | .galleryResetDone => true
  | .storeChannelFail chan => decide (chan < 64)
  | .storeTrainingDone _ => true
  | .storeWipeDone => true
  | .picTempUpdate w temp _ => decide (w < 4) && decide (temp < 65536)
  | .picThermal w => decide (w < 4)
  | .pcieCompletionTimeout r => decide (r < 33)
  | .badOpcodeEntry r => decide (r < 33)
  | .badFormatRequest msg => bytesOk msg
  | .arpRequest ip => wordOk ip
  | .icmpEcho ip data => wordOk ip && bytesOk data
  | .lifecycleEraseDone => true
  | .quietExitAgeing => true

end Sys2Proof
end

