-- ==== Sys2Proof/Tests/Slice0.lean ====
section
/-! SUPPORT. Small tests: for each statement with hypotheses, states and operands that meet them; and single steps. -/

set_option Elab.async false

namespace Sys2Proof.Tests

open Sys2Proof Sys2Proof.Machine

/-- The state that a command's meaning leaves. -/
def ran (c : Instr) (s : State) : State :=
  match exec c s with
  | .next t => t
  | _ => s

/-- Tile 0 in RUN with an itinerary of given words. -/
def runs (ws : List Nat) (g : Tile → Tile := id) : State :=
  (State.reset.setTs 0 tsRUN).mapTile 0 fun x => g { x with half0 := ⟨true, ws.map (BitVec.ofNat 64)⟩ }

/-- A state in which a hang is armed. -/
def armed (s : State) : State := s.setf (winBase .pln 0 + rPLN_HANG_STAT) 0 3 2

/-- A step in a unit, nothing captured. -/
def inUnit (w : Nat) : Issued := ⟨BitVec.ofNat 64 w, 0, 0, 0, 0, 0, [], [], [], [], 0, []⟩

/-! ### The block -/

theorem wit_StepRunsFront : ({ State.reset with pending := [.quietExitAgeing] }).pending = .quietExitAgeing :: [] ∧ State.reset.pending = []
    ∧ State.reset.light.calDue = [] ∧ State.reset.fab.waves = [] ∧ State.reset.locked = false := by
  decide +kernel
theorem wit_ResetState : incBlock 4 3 = some .wng ∧ isTile (tileIx 31 32) = true := by decide +kernel
theorem wit_StepsKeepTheInvariant : let s := { (runs []).setf (winBase .pwr 0 + rPWR_CAP) 0 11 470 with arch := { ArchState.reset with fuse := 64 }, pending := [.quietExitAgeing] };
    WellKept s ∧ ∃ t, step s = .next t := by
  refine ⟨?_, _, rfl⟩
  unfold WellKept RegsWf
  decide +kernel

/-! ### Well-formed commands -/

/-- One command that each kind of check refuses. -/
theorem test_ill_formed_refused : ∀ c ∈ ([.nop 2048, .nop 33, .loadCopyDone 4 0, .prepareDone 0 [(0, 33)] [] [] [] 0, .levelRepeat 0 0 24, .levelRepeat 14 0 0, .levelRepeat 1 33 0,
   .levelRepeat 4 4 0, .levelRepeat 5 2 0, .levelRepeat 0 1 0, .registerWrite 0x2000000 0 .pf0, .registerWrite 2 0 .pf0,
   .registerWrite 0 0x100000000 .pf0, .docketDoorbell 33 0 .pf0, .ringEnable 37 0 .pf0, .ringEnable 0 2 .pf0, .logbookDoorbell 4 0 .pf0, .flr 2,
   .scrubPage 2, .vaultDieFail 8, .readRaw 0 128 0 .pf0, .readRaw 0 0 2 .pf0, .zqLatch 64]
  ++ [.flitSlot 36 0, .flitSlot 0 2, .badFlit 0 0 [], .badFlit 0 0 (List.replicate 280 256), .reorderRelease 0 4, .creditAdvWrite 4 0 0 .pf0,
   .colRedCfgWrite 4 0 0 .pf0, .colRedCfgWrite 0 4096 0 .pf0, .census 64 .pf0, .trainingFrame 0 2 0 0, .trainingFrame 0 0 18 0,
   .laneSwitched 0 0 16, .laneMove 0 0 0 36 0, .laneMove 0 0 0 0 2, .spare 0 18 0 .pf0, .swap 2 0 .pf0, .swap 0 162 .pf0, .relight 0 324,
   .ringUnlock 0 0 3, .bandgapCheck 18 0 0, .katDone 16384 0 [], .stocktake 0 65536 .pf0, .governorSample (0, 0) 0 [(0, 17)], .governorSample (65536, 0) 0 [(0, 1)], .governorSample (0, 65536) 0 [(0, 1)],
   .powerStateRequest 8 .pf0, .inputOutOfRange 65536, .getVersion [256], .docketNop 33, .functionStateChange 0 2 0] : List Instr), c.wf = false := by decide +kernel
/-- The last value of ranges. -/
theorem test_well_formed_accepted : ∀ c ∈ [Instr.nop (32 * 64 - 32), .levelRepeat 1 2016 23, .registerWrite 0x1FFFFFC 0xFFFFFFFF .pf1, .relight 3 323,
    .swap 1 161 .pf0, .flitSlot 35 1, .bandgapCheck 17 0 0, .getVersion [0x10, 0x84, 0, 255]], c.wf = true := by decide +kernel

/-! ### The spec's worked examples -/

/-- 02_arithmetic.md, example of FP32 to E4M3 with RNE and SAT = 1: 300, 460, 500, and 500 with SAT = 0. -/
theorem test_e4m3_example : (fmtE4M3.narrow .rne true 0 (.fin false 300 0)).code = 0x79 ∧ (fmtE4M3.narrow .rne true 0 (.fin false 460 0)).code = 0x7E
    ∧ (fmtE4M3.narrow .rne true 0 (.fin false 500 0)).code = 0x7E
    ∧ (fmtE4M3.narrow .rne true 0 (.fin false 500 0)).flags = fOverflow ||| fSaturate ||| fInexact
    ∧ (fmtE4M3.narrow .rne false 0 (.fin false 500 0)).code = 0x7F := by decide +kernel
/-- 02_arithmetic.md, example of stochastic rounding to BF16: 0x3F80_4CCD rounds up from r = 180. -/
theorem test_stochastic_example : (fmtBF16.narrow .stoch false 179 (ofF32 0x3F804CCD)).code = 0x3F80
    ∧ (fmtBF16.narrow .stoch false 180 (ofF32 0x3F804CCD)).code = 0x3F81 := by decide +kernel
/-- 02_arithmetic.md, example of compensated accumulation: four additions of 2⁻²⁵ to 1.0. -/
theorem test_compensated_example :
    ((List.range 4).foldl (fun (a : AccEl) _ => (accAdd true 0x33000000 a).1) ⟨0x3F800000, 0⟩).a = 0x3F800001 := by decide +kernel
/-- 06_vault_and_store.md, example of tile (5, 7): the module address, and bytes that fail their parity. -/
theorem test_vault_example : vaultAddr (tileIx 5 7) 0x1240 = 0x51C01240 ∧ evenParity 0x3C = true ∧ evenParity 0x91 = false ∧ evenParity 0x7B = true := by
  decide +kernel
/-- 11_pairs.md, example of R392: sums 0x4146_0000 against 0x4146_000C, 0x4146_00C6 and 0x4146_0100. -/
theorem test_compare_example : sumsAgree 0x41460000 0x4146000C (-1) (-1) = true ∧ sumsAgree 0x41460000 0x414600C6 (-1) (-1) = true
    ∧ sumsAgree 0x41460000 0x41460100 (-1) (-1) = false := by decide +kernel
/-- 12_incidents.md, example of Wing 1: the reset values of three policies, and the latch of RING_UNLOCK. -/
theorem test_policy_example : incPolicyReset .wng 13 = 0x0103E840 ∧ incPolicyReset .wng 7 = 0x0103E8FF ∧ incPolicyReset .wng 16 = 0x0F000101
    ∧ ((State.reset.setf (ir .wng 1 rINC_POLICY + 4 * 13) 0 8 1).event .wng 1 13).rn (ir .wng 1 rINC_FIRST) = 0x0001002D := by decide +kernel

/-! ### Tiles -/

/-- A step word from class, operation and operand bits. -/
def wd (cls op low : Nat) : Nat := cls * 2 ^ 60 + op * 2 ^ 56 + low

theorem wit_FlowStepsGoOn_nop : Ready (runs [wd 0 0 0]) 0 (wd 0 0 0) 0 0 ∧ Clean (wd 0 0 0) 0 ∧ GoesOn (runs [wd 0 0 0]) 0 0 := by
  unfold Ready Clean GoesOn; decide +kernel
theorem wit_FlowStepsGoOn_hang : Ready (runs [wd 0 2 0]) 0 (wd 0 2 0) 0 2 ∧ Clean (wd 0 2 0) 0 ∧ GoesOn (runs [wd 0 2 0]) 0 0
    ∧ (runs [wd 0 2 0]).hangArmed = false := by unfold Ready Clean GoesOn; decide +kernel
/-- BRANCH_NE of s0 and s0 is not taken. -/
theorem wit_FlowStepsGoOn_branch : let w := wd 0 4 (1 * 2 ^ 45 + 1); let s := runs [w];
    Ready s 0 w 0 4 ∧ Clean w (mk 45 11 + mk 0 12) ∧ GoesOn s 0 0 ∧ fld w 0 12 ≠ 0 ∧ fld w 45 3 < 6
    ∧ branchTaken (fld w 45 3) ((s.tile 0).sreg (fld w 52 4)) ((s.tile 0).sreg (fld w 48 4)) = false := by
  unfold Ready Clean GoesOn; decide +kernel
theorem wit_FlowStepsGoOn_fence : let w := wd 0 8 15; let s := runs [w];
    Ready s 0 w 0 8 ∧ Clean w (mk 0 4) ∧ GoesOn s 0 0 ∧ (s.tile 0).fenced (fld w 0 4) = true := by
  unfold Ready Clean GoesOn; decide +kernel
/-- A LOOP of count 0 in s1 whose body ends at the last step but one. -/
theorem wit_FlowStepsGoOn_loop : let w := wd 0 5 (2 ^ 55 + 1 * 2 ^ 48 + 4094); let s := runs [w];
    Ready s 0 w 0 5 ∧ Clean w (mk 55 1 + mk 48 4 + mk 0 12) ∧ (s.tile 0).sreg (fld w 48 4) = 0 ∧ fld w 0 12 ≠ 0
    ∧ (s.tile 0).loops.length < 4 ∧ (∀ l ∈ (s.tile 0).loops.head?, 0 + fld w 0 12 ≤ l.start + l.body)
    ∧ 0 + fld w 0 12 ≤ 4095 ∧ GoesOn s 0 (0 + fld w 0 12) := by
  unfold Ready Clean GoesOn; decide +kernel
theorem wit_StepsJumpAndLoop_jump : let w := wd 0 3 4095; let s := runs [w];
    Ready s 0 w 0 3 ∧ Clean w (mk 0 12) ∧ fld w 0 12 ≠ 0 ∧ s.pos 0 + fld w 0 12 ≤ 4095 := by
  unfold Ready Clean; decide +kernel
/-- BRANCH_EQ of s0 and s0 is taken. -/
theorem wit_StepsJumpAndLoop_branch : let w := wd 0 4 4095; let s := runs [w];
    Ready s 0 w 0 4 ∧ Clean w (mk 45 11 + mk 0 12) ∧ fld w 0 12 ≠ 0 ∧ fld w 45 3 < 6 ∧ s.pos 0 + fld w 0 12 ≤ 4095
    ∧ branchTaken (fld w 45 3) ((s.tile 0).sreg (fld w 52 4)) ((s.tile 0).sreg (fld w 48 4)) = true := by
  unfold Ready Clean; decide +kernel
theorem wit_StepsJumpAndLoop_loop : let w := wd 0 5 (0xFFFFFF * 2 ^ 24 + 4095); let s := runs [w];
    Ready s 0 w 0 5 ∧ Clean w (mk 24 24 + mk 0 12) ∧ fld w 0 12 ≠ 0 ∧ (s.tile 0).loops.length < 4
    ∧ (∀ l ∈ (s.tile 0).loops.head?, s.pos 0 + fld w 0 12 ≤ l.start + l.body) ∧ s.pos 0 + fld w 0 12 ≤ 4095 ∧ fld w 24 24 ≠ 0 := by
  unfold Ready Clean; decide +kernel
theorem wit_StepsJumpAndLoop_loopReg : let w := wd 0 5 (2 ^ 55 + 1 * 2 ^ 48 + 1); let s := runs [w] (fun x => x.setS 1 7);
    Ready s 0 w 0 5 ∧ Clean w (mk 55 1 + mk 48 4 + mk 0 12) ∧ bit w 55 = true ∧ fld w 0 12 ≠ 0 ∧ (s.tile 0).loops.length < 4
    ∧ (∀ l ∈ (s.tile 0).loops.head?, s.pos 0 + fld w 0 12 ≤ l.start + l.body) ∧ s.pos 0 + fld w 0 12 ≤ 4095
    ∧ ((s.tile 0).sreg (fld w 48 4)).toNat ≠ 0 := by unfold Ready Clean; decide +kernel
theorem wit_ScalarSteps_salu : let w := wd 0 6 (15 * 2 ^ 52 + 11 * 2 ^ 40 + 2 ^ 39 + 0xFFFFFFFF); let s := runs [w];
    GoesOn s 0 (s.pos 0) ∧ Ready s 0 w 0 6 ∧ Clean w (mk 39 17 + mk 0 32) ∧ fld w 40 4 < 12 ∧ fld w 44 4 = 0 := by
  unfold Ready Clean GoesOn; decide +kernel
theorem wit_ScalarSteps_sread : let w := wd 0 7 (1 * 2 ^ 52 + 63); let s := runs [w];
    GoesOn s 0 (s.pos 0) ∧ Ready s 0 w 0 7 ∧ Clean w (mk 52 4 + mk 40 8 + mk 0 6) ∧ fld w 40 8 = 0 := by
  unfold Ready Clean GoesOn; decide +kernel
theorem wit_ScalarSteps_sreadLoop : let w := wd 0 7 (1 * 2 ^ 52 + 1 * 2 ^ 40 + 3);
    let l : LoopLevel := ⟨0, 4, 1, 2⟩; let s := runs [w] (fun x => { x with loops := [l, l, l, l] });
    GoesOn s 0 (s.pos 0) ∧ Ready s 0 w 0 7 ∧ fld w 40 8 = 1 ∧ (s.tile 0).loops[fld w 0 6]? = some l := by
  unfold Ready GoesOn; decide +kernel
theorem wit_ScalarSteps_sreadOne : let w := fun k => wd 0 7 (1 * 2 ^ 52 + k * 2 ^ 40);
    Ready (runs [w 2]) 0 (w 2) 0 7 ∧ Ready (runs [w 3]) 0 (w 3) 0 7 ∧ Ready (runs [w 4]) 0 (w 4) 0 7 ∧ fld (w 4) 0 6 = 0 := by
  unfold Ready; decide +kernel
theorem wit_ScalarSteps_dadd : let w := wd 2 4 (15 * 2 ^ 52 + 0xFFFFFFFF); let s := runs [w];
    GoesOn s 0 (s.pos 0) ∧ Ready s 0 w 2 4 ∧ Clean w (mk 48 8 + mk 0 32) ∧ (s.tile 0).hazard [rDesc 15] [] = false := by
  unfold Ready Clean GoesOn; decide +kernel
theorem wit_HangAndFenceHold_hang : let w := wd 0 2 0; let s := armed (runs [w]);
    Ready s 0 w 0 2 ∧ Clean w 0 ∧ s.hangArmed = true := by unfold Ready Clean; decide +kernel
theorem wit_HangAndFenceHold_point : let s := armed (runs [0] fun x => { x with holding := .hang });
    s.ts 0 = tsRUN ∧ (s.tile 0).holding = .hang ∧ (s.tile 0).idle = true ∧ s.hangArmed = true ∧ GoesOn s 0 (s.pos 0) := by
  unfold GoesOn; decide +kernel
theorem wit_HangAndFenceHold_fence : let w := wd 0 8 0; let s := runs [w] fun x => { x with moveU := some (inUnit 0) };
    Ready s 0 w 0 8 ∧ Clean w (mk 0 4) ∧ GoesOn s 0 (s.pos 0) ∧ (s.tile 0).fenced (fld w 0 4) = false := by
  unfold Ready Clean GoesOn; decide +kernel
theorem wit_HangAndFenceHold_complete : let s := runs [0] fun x => { x with holding := .fence 8 };
    (s.tile 0).holding = .fence 8 ∧ s.ts 0 = tsRUN ∧ (s.tile 0).fenced 8 = true ∧ (s.tile 0).deferred.any (·.isClear) = false := by decide +kernel
theorem wit_EndStopsTheTile : Ready (runs [wd 0 1 0]) 0 (wd 0 1 0) 0 1 ∧ Clean (wd 0 1 0) 0 ∧ ((runs [wd 0 1 0]).tile 0).idle = true := by unfold Ready Clean; decide +kernel
/-- The least and the greatest amount that the counter covers. -/
theorem wit_TicketSteps_wait : let w := fun a => wd 1 0 (63 * 2 ^ 48 + a); let s := fun a => (runs [w a]).setf (tk 0 63) 0 16 65535;
    Ready (s 0) 0 (w 0) 1 0 ∧ Ready (s 65535) 0 (w 65535) 1 0 ∧ Clean (w 65535) (mk 47 7 + mk 40 4 + mk 0 16) ∧ GoesOn (s 0) 0 0
    ∧ 65535 ≤ (s 0).f (tk 0 63) 0 16 := by unfold Ready Clean GoesOn; decide +kernel
theorem wit_TicketSteps_waitReg : let w := wd 1 0 (63 * 2 ^ 48 + 2 ^ 47 + 1 * 2 ^ 40); let s := runs [w] fun x => x.setS 1 65535;
    Ready s 0 w 1 0 ∧ Clean w (mk 47 7 + mk 40 4 + mk 0 16) ∧ GoesOn s 0 0 ∧ s.f (tk 0 63) 0 16 < ((s.tile 0).sreg 1).toNat := by
  unfold Ready Clean GoesOn; decide +kernel
theorem wit_TicketSteps_satisfied :
    let s := ((runs [wd 1 0 1] fun x => { x with holding := .wait 0 1 }).setTs 0 tsWAIT).setf (tk 0 0) 0 16 1;
    (s.tile 0).holding = .wait 0 1 ∧ s.ts 0 = tsWAIT ∧ 1 ≤ s.f (tk 0 0) 0 16 ∧ (s.tile 0).holdIssue = false ∧ s.haltHolds 0 = false
    ∧ s.stopped = false ∧ (s.tile 0).deferred = [] ∧ GoesOn s 0 (s.pos 0) := by unfold GoesOn; decide +kernel
theorem wit_TicketSteps_add : let w := wd 1 1 (63 * 2 ^ 48 + 65535); let s := runs [w];
    Ready s 0 w 1 1 ∧ Clean w (mk 48 6 + mk 0 16) ∧ GoesOn s 0 0 ∧ s.f (tk 0 63) 0 16 + fld w 0 16 ≤ 65535 := by
  unfold Ready Clean GoesOn; decide +kernel
theorem wit_ConfigurationSteps : let w := fun k => wd 6 k (if k = 0 then 7 * 2 ^ 53 + 2 else if k = 3 then 2 ^ 55 + 3 else 0xFF);
    (∀ k ∈ [0, 1, 2, 3, 4], Ready (runs [w k]) 0 (w k) 6 k) ∧ GoesOn (runs [0]) 0 0 ∧ Clean (w 0) (mk 53 3 + mk 0 4)
    ∧ Clean (w 1) (mk 0 8) ∧ Clean (w 2) (mk 0 8) ∧ Clean (w 3) (mk 55 1 + mk 0 2) ∧ Clean (w 4) (mk 0 16) ∧ fld (w 0) 0 2 ≠ 3 := by
  unfold Ready Clean GoesOn; decide +kernel

/-- A descriptor of FP32 scratch data with one row of `n` elements (R137). -/
def flat (fmt n : Nat) : Desc := ⟨BitVec.ofNat 64 (fmt * 2 ^ 44), BitVec.ofNat 64 (n - 1), 0, 0⟩

/-- Tile 0 in RUN at one step, descriptors 0 and 1 naming 64 rows of one BF16 element, descriptor 2 256 FP32 values, one corridor. -/
def ops (w : Nat) : State :=
  runs [w] fun x => { x with
    d := [(0, ⟨BitVec.ofNat 64 (1 * 2 ^ 44), BitVec.ofNat 64 (63 * 2 ^ 16), 2, 0⟩), (1, ⟨BitVec.ofNat 64 (1 * 2 ^ 44 + 256), BitVec.ofNat 64 (63 * 2 ^ 16), 2, 0⟩),
      (2, flat 0 256), (3, ⟨BitVec.ofNat 64 (1 * 2 ^ 44 + 3 * 2 ^ 40), BitVec.ofNat 64 (63 * 2 ^ 16), 2, 0⟩)],
    corridors := [⟨0, 0, 0, 0, true⟩] }

theorem wit_MoveAndMatrixStepsIssue_copy : let w := wd 2 0 (1 * 2 ^ 52 + 0 * 2 ^ 48); let s := ops w;
    GoesOn s 0 (s.pos 0) ∧ Ready s 0 w 2 0 ∧ Clean w (mk 46 10) ∧ localCauses s 0 (s.tile 0) w 1 = []
    ∧ localCauses s 0 (s.tile 0) w 0 = [] ∧ ((s.tile 0).desc 1).elems = ((s.tile 0).desc 0).elems ∧ UnitFree s 0 .move w := by
  unfold Ready Clean GoesOn UnitFree; decide +kernel
theorem wit_MoveAndMatrixStepsIssue_fill : let w := wd 2 1 (2 * 2 ^ 52); let s := ops w;
    Ready s 0 w 2 1 ∧ Clean w (mk 46 10) ∧ localCauses s 0 (s.tile 0) w 2 = [] ∧ UnitFree s 0 .move w := by
  unfold Ready Clean UnitFree; decide +kernel
/-- The last descriptor slot of scratch. -/
theorem wit_MoveAndMatrixStepsIssue_dload : let w := wd 2 2 (15 * 2 ^ 52 + 0x3FFE0); let s := ops w;
    Ready s 0 w 2 2 ∧ Clean w (mk 48 8 + mk 0 18) ∧ descAddr (s.tile 0) w % 32 = 0 ∧ descAddr (s.tile 0) w + 32 ≤ 0x40000
    ∧ UnitFree s 0 .move w := by unfold Ready Clean UnitFree; decide +kernel
theorem wit_MoveAndMatrixStepsIssue_dstore : let w := wd 2 3 0; let s := ops w;
    Ready s 0 w 2 3 ∧ Clean w (mk 48 8 + mk 0 18) ∧ descAddr (s.tile 0) w = 0 ∧ UnitFree s 0 .move w := by
  unfold Ready Clean UnitFree; decide +kernel
theorem wit_MoveAndMatrixStepsIssue_hold : let w := wd 4 0 (1 * 2 ^ 52); let s := ops w; let d := (s.tile 0).desc 1;
    Ready s 0 w 4 0 ∧ Clean w (mk 52 4) ∧ matrixCauses s 0 (s.tile 0) w 1 = [] ∧ matrixFmt d.format = true
    ∧ d.n0 ≤ heldMax d.format ∧ d.n1 = 64 ∧ d.n2 = 1 ∧ UnitFree s 0 .matrix w := by unfold Ready Clean UnitFree; decide +kernel
/-- Output-stationary, A and B through descriptors 0 and 1. -/
theorem wit_MoveAndMatrixStepsIssue_mma : let w := wd 4 1 (2 ^ 55 + 0 * 2 ^ 49 + 1 * 2 ^ 45); let s := ops w;
    Ready s 0 w 4 1 ∧ Clean w (mk 42 14) ∧ fld w 43 2 ≠ 3 ∧ bit w 55 = true ∧ matrixCauses s 0 (s.tile 0) w 0 = []
    ∧ matrixCauses s 0 (s.tile 0) w 1 = [] ∧ mmaShapeOk (s.tile 0) w = true ∧ UnitFree s 0 .matrix w := by
  unfold Ready Clean UnitFree; decide +kernel
theorem wit_MoveAndMatrixStepsIssue_clear : let w := wd 4 2 (15 * 2 ^ 52); let s := ops w;
    Ready s 0 w 4 2 ∧ Clean w (mk 52 4) ∧ fld w 52 4 ≠ 0 ∧ UnitFree s 0 .matrix w := by unfold Ready Clean UnitFree; decide +kernel
/-- The first and the last operation: MOVE of v1 to v31, and REDUCE of 256 FP32 values in scratch to v0. -/
theorem wit_VectorStepsIssue : let w := wd 5 0 (31 * 2 ^ 48 + 1 * 2 ^ 40); let v := wd 5 15 (0x82 * 2 ^ 40);
    (Ready (ops w) 0 w 5 0 ∧ vecWordOk w = true ∧ GoesOn (ops w) 0 0 ∧ groupStoreOk ((ops w).tile 0) w 1 = true ∧ UnitFree (ops w) 0 .vector w)
    ∧ (Ready (ops v) 0 v 5 15 ∧ vecWordOk v = true ∧ GoesOn (ops v) 0 0 ∧ groupStoreOk ((ops v).tile 0) v 1 = true ∧ UnitFree (ops v) 0 .vector v
      ∧ ∀ b ∈ fld v 48 8 :: vecSrcs v, vecDescCauses (ops v) 0 ((ops v).tile 0) v b (fld v 13 8 + 1) = []) := by
  unfold Ready GoesOn UnitFree; decide +kernel
theorem wit_CrateStepsIssue : let w := fun k => wd 3 k ((if k = 1 then 0 else 3) * 2 ^ 48 + 0xFFFF * 2 ^ 16);
    (∀ k ∈ [0, 1, 2, 3], Ready (ops (w k)) 0 (w k) 3 k ∧ GoesOn (ops (w k)) 0 0 ∧ UnitFree (ops (w k)) 0 .crate (w k)
      ∧ Clean (w k) (mk 42 14 + mk 16 16))
    ∧ elementCauses (ops (w 0)) 0 ((ops (w 0)).tile 0) (w 0) 0 = [] ∧ localCauses (ops (w 3)) 0 ((ops (w 3)).tile 0) (w 3) 0 = []
    ∧ remoteCauses ((ops (w 0)).tile 0) (w 0) 3 = []
    ∧ (((ops (w 0)).tile 0).desc 0).format = (((ops (w 0)).tile 0).desc 3).format
    ∧ (((ops (w 0)).tile 0).desc 0).elems = (((ops (w 0)).tile 0).desc 3).elems := by
  unfold Ready Clean GoesOn UnitFree; decide +kernel
/-- FMA of v1, v2, v3 into v31. -/
theorem wit_VectorStepCompletes : let i := inUnit (wd 5 4 (31 * 2 ^ 48 + 1 * 2 ^ 40 + 2 * 2 ^ 32 + 3 * 2 ^ 24));
    let s := runs [0] fun x => { x with vectorU := some i }; let n := i.word.toNat;
    (s.tile 0).vectorU = some i ∧ s.pair.blocked = false ∧ (s.tile 0).pendTraps = [] ∧ (s.tile 0).holding = .none ∧ (s.tile 0).deferred = []
    ∧ fld n 60 4 = 5 ∧ fld n 56 4 < 15 ∧ fld n 13 8 = 0 ∧ fld n 54 2 = 0 ∧ fld n 46 2 = 0 ∧ fld n 38 2 = 0 ∧ fld n 30 2 = 0
    ∧ i.trapEn = 0 := by decide +kernel
theorem wit_SignalSendsItsTicket : let e : CorrEntry := ⟨0, 0, 0, 32, true⟩;
    let i := { inUnit (wd 3 1 (63 * 2 ^ 42 + 0xFFFF * 2 ^ 16)) with corridors := [e] };
    let s := runs [0] fun x => { x with crateU := some i };
    (s.tile 0).crateU = some i ∧ fld i.word.toNat 60 4 = 3 ∧ fld i.word.toNat 56 4 = 1 ∧ i.corridors[fld i.word.toNat 48 8]? = some e
    ∧ s.crateHeld 0 i = false ∧ s.pair.blocked = false ∧ s.substMod e.dstModule = s.myId ∧ s.pathOk 0 e.tile = true
    ∧ (s.tile 0).holding = .none := by decide +kernel

/-- A crate of an OP to tile 0. -/
def crateOf (op len : Nat) : Crate :=
  ⟨0, 1, op, 0, 63, len, 65535, 0, 0, 0, 0, List.replicate len 7, 0, 0, 0, 0, false, false, false, none, 0, false, false, none, none, [], false⟩

/-- A state with one crate on the corridors. -/
def withCrate (c : Crate) (s : State) : State := { s with fab := { s.fab with corridor := [c] } }

/-- A TICKET crate, and a WRITE crate that ends at the last byte of scratch. -/
theorem wit_CratesArrive : let c := crateOf 3 0; let d := { crateOf 0 4 with offset := 0x3FFFC };
    let s := withCrate c (runs []); let r := withCrate d (runs []);
    (s.fab.corridor[0]? = some c ∧ s.mayArrive 0 c = true ∧ s.routerBad 0 = false ∧ s.pair.blocked = false
      ∧ s.f (tk 0 63) 0 16 + 65535 ≤ 65535 ∧ (s.target 0 c).isSome = true)
    ∧ (r.mayArrive 0 d = true ∧ r.landing 0 d = some .scratch ∧ (r.tile 0).scrErr = []) := by decide +kernel
theorem wit_ReadsAreAnswered : let c := crateOf 1 4; let s := withCrate c (runs []);
    let d := crateOf 2 0; let q : ReadOut := ⟨0, inUnit 0, 0, 0, 0, 0⟩; let r := withCrate d (runs [] fun x => { x with reads := [q] });
    (s.mayArrive 0 c = true ∧ s.landing 0 c = some .scratch ∧ (s.tile 0).idle = true ∧ (s.tile 0).scrErr = [] ∧ (s.tile 0).scrPoison = []
      ∧ s.substMod c.srcModule = s.myId ∧ s.pathOk 0 c.srcTile = true)
    ∧ (r.mayArrive 0 d = true ∧ d.target ≠ 3 ∧ r.ts 0 ≠ tsOFF ∧ r.toStore 0 d = false
      ∧ (r.tile 0).reads.find? (fun z => z.id == d.request % 256) = some q
      ∧ r.f (tk 0 q.ticket) 0 16 + q.ticketAdd ≤ 65535 ∧ r.pair.freeze = none) := by decide +kernel
theorem wit_TileTimeouts : let s := (((runs [] fun x => { x with holding := .wait 0 1 }).setTs 0 tsWAIT).setf (tr 0 rTILE_CRATE_TIME) 0 16 1);
    let r := (armed (runs [])).setf (tr 0 rTILE_HANG_TIME) 0 16 1; let c := crateOf 3 0;
    (s.f (tr 0 rTILE_CRATE_TIME) 0 16 ≠ 0 ∧ s.ts 0 = tsWAIT ∧ (s.tile 0).holding = .wait 0 1 ∧ (s.tile 0).idle = true ∧ s.asleep = false
      ∧ (s.tile 0).pendTraps = [] ∧ (s.tile 0).deferred = [])
    ∧ (r.f (tr 0 rTILE_HANG_TIME) 0 16 ≠ 0 ∧ r.ts 0 = tsRUN ∧ (r.tile 0).holding = .none ∧ r.hangArmed = true ∧ r.asleep = false)
    ∧ (withCrate c s).mayArrive 0 c = true := by decide +kernel
theorem wit_TileCommands : (runs []).asleep = false ∧ (runs []).tileReached 0 = true ∧ (runs []).ts 0 = tsRUN
    ∧ ((runs []).setTs 0 tsWAIT).ts 0 = tsWAIT ∧ ((runs []).setTs 0 tsTRAP).ts 0 = tsTRAP ∧ ((runs []).tile 0).deferred = [] := by
  decide +kernel
/-- The last tile. -/
theorem wit_TileClearsAndReads : State.reset.hostOpen = false ∧ { State.reset with host := { State.reset.host with linkUp := true, flitMode := true, d3 := [] } }.hostOpen = true
    ∧ State.reset.asleep = false ∧ State.reset.tileReached (tileIx 31 32) = true
    ∧ (State.reset.setTs (tileIx 31 32) tsIDLE).ts (tileIx 31 32) = tsIDLE ∧ (runs []).ts 0 = tsRUN := by decide +kernel
theorem wit_TileMonitors : let u := tileIx 31 32; let s := State.reset.setTs u tsIDLE;
    isTile u = true ∧ s.ts u ≠ tsOFF ∧ s.tileReached u = true ∧ s.ts u = tsIDLE ∧ 80 ≤ aget 80 s.light.ceiling u
    ∧ (s.tile u).routerFailed = false ∧ s.asleep = false ∧ s.governed u = false
    ∧ (let h := (s.setf (tr u rTILE_TEMP) 0 12 2047).setf (tr u rTILE_CLOCK) 0 7 79; h.governed u = true ∧ (h.clockNext u).1 < 80) := by
  decide +kernel
theorem wit_IllegalStepTraps : let w := wd 0 0 1; let s := runs [w];
    Ready s 0 w 0 0 ∧ resOk w opMask = false ∧ (s.tile 0).idle = true := by unfold Ready; decide +kernel

/-! ### Plans and hangs -/

/-- The plan ring enabled with one entry of 64 bytes at host address 0x1000, owned by a function that may master. -/
def planCmd (bytes : List Byte) (s : State) : State :=
  let s := { s with host := { s.host with linkUp := true, d3 := [], noMaster := [], mem := aputs 0 s.host.mem 0x1000 (padTo 64 bytes) } }
  let s := (s.wn (rg rHST_RING_BASE_LO planRing) 0x1000).wn (rg rHST_RING_CFG planRing) 0x104
  (s.wn (rg rHST_RING_TAIL planRing) 1).wn (rg rHST_RING_STAT planRing) 1

/-- A plan entry: opcode, slot, NEXT or AUTO, host address and length. -/
def planBytes (op k flag addr len : Nat) : List Byte :=
  leBytes 1 op ++ leBytes 7 0 ++ leBytes 8 addr ++ leBytes 8 0 ++ leBytes 8 len ++ leBytes 1 k ++ leBytes 1 flag

/-- Slot `k` in a state, with what it holds. -/
def slotIs (k st : Nat) (g : Slot → Slot) (s : State) : State := (s.setSlotState k st).mapSlot k g

/-- An image of generation 1 with an empty exhibit and an empty itinerary section (R174 to R176, R184). -/
def image : List Byte :=
  let h := padTo 256 (leBytes 4 0x4C505641 ++ [0, 2] ++ leBytes 2 0x9120 ++ leBytes 4 256 ++ leBytes 4 304 ++ leBytes 8 1 ++ leBytes 8 0
    ++ [0, 0, 0, 2] ++ leBytes 4 0 ++ leBytes 8 0 ++ leBytes 2 0 ++ leBytes 2 0 ++ [0xFF] ++ leBytes 11 0
    ++ leBytes 4 1 ++ leBytes 4 256 ++ leBytes 4 0 ++ leBytes 4 0 ++ leBytes 4 2 ++ leBytes 4 256)
  h ++ sha384 h

/-- The longest image that the plan store takes. -/
theorem wit_SlotsLoadAuditDiscard_load : let b := padTo 64 (planBytes 0x20 3 1 0x10000 (2 ^ 28)); let s := planCmd b State.reset;
    PlanHead s 0x20 b ∧ s.slotState (at_ b 0x20 1) = 0 ∧ at_ b 0x18 8 ≤ 2 ^ 28
    ∧ recordSum (s.heldRecords (at_ b 0x20 1)) + at_ b 0x18 8 ≤ 2 ^ 30 := by unfold PlanHead; decide +kernel
theorem wit_SlotsLoadAuditDiscard_copy : let s := planCmd [] (slotIs 3 1 id State.reset);
    s.slotState 3 = 1 ∧ s.canMaster (s.ringOwner planRing) = true ∧ s.storeSound = true := by decide +kernel
/-- An empty image fails with SIZE; the image above passes. -/
theorem wit_SlotsLoadAuditDiscard_audit : let s := slotIs 0 2 id State.reset;
    let r := slotIs 3 2 (fun x => { x with image := image, length := 304 }) State.reset;
    s.slotState 0 = 2 ∧ s.storeSound = true ∧ r.storeSound = true ∧ (match s.audit 0 with | .error f => decide (f.code < 256) | .ok _ => false) = true
    ∧ r.slotState 3 = 2 ∧ (match r.audit 3 with | .error _ => false | .ok a => a.hdr.gen == 1) = true := by decide +kernel
theorem wit_SlotsLoadAuditDiscard_discard : let b := padTo 64 (planBytes 0x24 0 0 0 0); let s := planCmd b (slotIs 0 3 id State.reset);
    PlanHead s 0x24 b ∧ s.slotState 0 = 3 ∧ s.hangOut = false := by unfold PlanHead; decide +kernel
theorem wit_SlotsPrepare_prepare : let b := padTo 64 (planBytes 0x21 1 0 0 0);
    let s := planCmd b (slotIs 0 5 id (slotIs 1 3 (fun x => { x with plan := some Plan.empty }) State.reset));
    PlanHead s 0x21 b ∧ s.preparing = none ∧ s.hangOut = false ∧ s.slotState 1 = 3 ∧ s.readySlot = some 0 := by
  unfold PlanHead; decide +kernel
theorem wit_SlotsPrepare_auto : let s := { State.reset with cur := { State.reset.cur with autoQueue := [2] } };
    s.cur.autoQueue = [2] ∧ s.preparing = none ∧ s.readySlot = none ∧ s.stopped = false := by decide +kernel
theorem wit_SlotsPrepare_done : let s := slotIs 3 4 (fun x => { x with plan := some Plan.empty }) State.reset; let o : PlaceOut := ⟨[], [], [], 0⟩;
    s.slotState 3 = 4 ∧ (s.slot 3).plan = some Plan.empty ∧ s.storeSound = true ∧ (s.slot 3).draft = none
    ∧ s.samePast (s.placeIn 3 Plan.empty) o = true ∧ s.judge 3 Plan.empty o = .placed Placement.empty ∧ Plan.empty.remotes = [] := by decide +kernel

/-- Corridor 7 goes to exhibit 1 of module 5. -/
theorem wit_SlotsPrepare_asks : let p := { Plan.empty with corridors := [⟨7, 0, 1, 5, false, 0, 0⟩] };
    let s := slotIs 3 4 (fun x => { x with plan := some p }) State.reset;
    s.storeSound = true ∧ (s.slot 3).draft = none ∧ s.samePast (s.placeIn 3 p) ⟨[], [], [], 0⟩ = true ∧ s.judge 3 p ⟨[], [], [], 0⟩ = .placed Placement.empty ∧ p.remotes ≠ []
    ∧ s.knownRemotes 3 p [] = none := by decide +kernel
theorem wit_SlotsPrepare_ready : let s := slotIs 3 4 (fun x => { x with plan := some Plan.empty, draft := some Placement.empty, remote := [(7, 9)] }) State.reset;
    s.storeSound = true ∧ (s.slot 3).draft = some Placement.empty ∧ s.draftStands 3 Plan.empty = true ∧ (s.slot 3).waiting = [] := by decide +kernel

/-- A plan with one exhibit more than the module has tiles. -/
theorem wit_SlotsPrepare_fail : let e : ExhRec := ⟨0, 0, 0, 0, 0, [], [], 0, 0, 0, 0, 0, [], [], []⟩;
    let p := { Plan.empty with exhibits := List.replicate 1057 e };
    let s := slotIs 0 4 (fun x => { x with plan := some p }) State.reset;
    s.slotState 0 = 4 ∧ s.storeSound = true ∧ s.draftStands 0 p = false ∧ s.samePast (s.placeIn 0 p) ⟨[], [], [], 0⟩ = true ∧ (s.slot 0).plan = some p ∧ (allTiles.filter s.usable).length < p.exhibits.length := by
  decide +kernel
theorem wit_HangArmsAndWithdraws_hang : let b := padTo 64 (planBytes 0x22 3 0 0 0); let s := planCmd b (slotIs 3 5 id State.reset);
    PlanHead s 0x22 b ∧ s.hangOut = false ∧ s.slotState (at_ b 0x20 1) = 5 := by unfold PlanHead; decide +kernel

/-- A state with a HANG of slot 3 outstanding, in a state of the hang. -/
def hangs (st : Nat) (s : State) : State :=
  (slotIs 3 5 (fun x => { x with plan := some { Plan.empty with hangGroup := 0xFF }, place := some Placement.empty })
    { s with host := { s.host with entries := [⟨planRing, 0, planBytes 0x22 3 0 0 0, 0, 0, 0, false⟩] } }).wn hangReg (st + 3 * 2 ^ 4)

theorem wit_HangArmsAndWithdraws_withdraw : let b := padTo 64 (planBytes 0x23 0 0 0 0); let s := planCmd b (hangs 2 State.reset);
    PlanHead s 0x23 b ∧ s.cur.waitingHang = none ∧ s.hangOut = true ∧ s.canWithdraw = true ∧ s.cur.lostHang = false ∧ s.cur.lateTiles = []
    ∧ ∀ u, (s.tile u).pendTraps = [] ∧ ((s.tile u).holding = .hang → GoesOn s u (s.pos u)) := by
  refine ⟨by unfold PlanHead; decide +kernel, by decide +kernel, by decide +kernel, by decide +kernel, by decide +kernel, by decide +kernel, fun _ => ⟨rfl, ?_⟩⟩
  intro h; exact absurd (show Holding.none = Holding.hang from h) (by decide)
/-- A tile waiting at its HANG step as the hang ends. -/
theorem wit_HangArmsAndWithdraws_calm : let s := hangs 2 (runs [0, 0] fun x => { x with holding := .hang });
    (s.tile 0).holding = .hang ∧ GoesOn s 0 (s.pos 0) ∧ (s.tile 0).pendTraps = [] ∧ (s.setTs 0 tsHANG).ts 0 = tsHANG := by
  unfold GoesOn; decide +kernel
/-- A hang still arming, of a READY slot and of one that is so no longer. -/
theorem wit_HangArmsAndWithdraws_arming : let s := hangs 1 State.reset; let r := s.setSlotState 3 7;
    s.hangState = 1 ∧ s.slotState s.hangSlot = 5 ∧ s.pendingTiles = [] ∧ s.hanging = some ({ Plan.empty with hangGroup := 0xFF }, Placement.empty)
    ∧ r.hangState = 1 ∧ r.slotState r.hangSlot ≠ 5 := by decide +kernel
theorem wit_HangArmsAndWithdraws_point : let s := hangs 2 State.reset;
    s.hangState = 2 ∧ s.pendingTiles = [] ∧ s.hanging = some ({ Plan.empty with hangGroup := 0xFF }, Placement.empty) := by decide +kernel
theorem wit_HangArmsAndWithdraws_wave : let s := (hangs 3 State.reset).setf hangReg 3 1 1;
    let r := fun v => { s with cur := { s.cur with waveResult := some (0, v) } };
    s.hangState = 3 ∧ s.f hangReg 3 1 = 1 ∧ (r 0).cur.waveResult = some ((r 0).slotGen (r 0).hangSlot, (r 0).slotGen 3)
    ∧ (r 7).cur.waveResult = some (0, 7) ∧ ¬ (0 = (r 7).slotGen (r 7).hangSlot ∧ 7 = 0) ∧ s.cur.waveSlow = false ∧ (r 7).cur.lateTiles = []
    ∧ (s.setf (winBase .pln 0 + rPLN_HANG_WAVE_TIME) 0 16 1).f (winBase .pln 0 + rPLN_HANG_WAVE_TIME) 0 16 ≠ 0 := by decide +kernel
theorem wit_HangApplies : let s := hangs 4 State.reset;
    s.hangState = 4 ∧ s.drained = true ∧ s.hanging = some ({ Plan.empty with hangGroup := 0xFF }, Placement.empty) ∧ s.cur.lostHang = false
    ∧ (s.moveContents { Plan.empty with hangGroup := 0xFF } Placement.empty).pair.blocked = false := by decide +kernel
theorem wit_PlanDumps : let b := padTo 64 (planBytes 0x25 0 0 0x20000 16); let c := padTo 64 (planBytes 0x26 0 0 0x20000 16);
    let s := planCmd b State.reset; let r := planCmd c State.reset;
    PlanHead s 0x25 b ∧ PlanHead r 0x26 c ∧ at_ c 0x21 1 = 0 ∧ 16 ≤ at_ b 0x18 8 ∧ ∀ l, l < 4 → s.logEnabled l = false := by
  unfold PlanHead; decide +kernel

/-- A state with one Office message to the Registrar. -/
def officeMsg (data : List Byte) (s : State) : State :=
  { s with fab := { s.fab with inbox := [{ crateOf 0x10 0 with data := data, length := data.length }] } }

/-- An Office message of module 5: type, generation, exhibit, result, tile. -/
def office (ty g x res t : Nat) : List Byte :=
  padTo 24 (leBytes 1 ty ++ leBytes 1 0 ++ leBytes 2 5 ++ leBytes 4 0 ++ leBytes 8 g ++ leBytes 2 x ++ leBytes 1 res ++ leBytes 1 0 ++ leBytes 2 t)

theorem wit_PlacementExchange_query : let s := officeMsg (office 0x30 9 1 0 0) State.reset;
    let r := officeMsg (office 0x30 0 1 0 0) ((slotIs 2 6 id State.reset).setf (winBase .fab 0 + rFAB_MODULE_ID) 15 1 0);
    s.fab.inbox.length = 1 ∧ s.slotOfGen 9 = none ∧ r.slotOfGen 0 = some 2 ∧ r.unset = false := by decide +kernel
/-- Corridor 7 of slot 3 waits for exhibit 1 of module 5, in tile (31, 32). -/
theorem wit_PlacementExchange_answer : let b := office 0x31 0 1 0 (31 + 32 * 32);
    let s := officeMsg b (slotIs 3 4 (fun x => { x with waiting := [(7, 5, 1)] }) (State.reset.setf (winBase .fab 0 + rFAB_MODULE_ID) 15 1 0));
    s.preparing = some 3 ∧ s.slotGen 3 = at_ b 8 8 ∧ at_ b 0 1 = 0x31 ∧ at_ b 18 1 = 0 ∧ s.openCorridors = [] ∧ s.unset = false
    ∧ (∃ w ∈ (s.slot 3).waiting, s.substMod w.2.1 = msgSender b ∧ w.2.2 = at_ b 16 2) := by decide +kernel
theorem wit_PlacementExchange_moved : let b := office 0x32 0 1 0 32;
    let s := officeMsg b (runs [] fun x => { x with corridors := [⟨7, 1, 5, 0, true⟩] });
    at_ b 0 1 = 0x32 ∧ at_ b 8 8 = s.planGen ∧ (s.tile 0).corridors ≠ [] ∧ s.substMod 5 = msgSender b := by decide +kernel

/-! ### Fabric -/

/-- A module in service with ID 0 and a plan of one wave group. -/
def withGroup (r : GroupRec) (s : State) : State :=
  { s.setf (winBase .fab 0 + rFAB_MODULE_ID) 15 1 0 with cur := { s.cur with now := some { Plan.empty with groups := [r] } } }

/-- A SUM group of the whole machine with room for two contributions. -/
def sumGroup : GroupRec := ⟨63, 1, 3, 2, 0, 0⟩

/-- A WAVE message of group 63, wave 0. -/
def waveCrate (gen : Nat) : Crate := { crateOf 0x11 48 with data := waveData 63 1 1 0 gen ⟨5, 5, 0, 0⟩ }

theorem wit_WavesCollect : let w := wd 1 2 (63 * 2 ^ 42); let s := withGroup sumGroup (runs [w]);
    s.group 63 = some sumGroup ∧ Ready s 0 w 1 2 ∧ Clean w (mk 38 16) ∧ GoesOn s 0 (s.pos 0) ∧ fld w 42 6 = 63 ∧ sumGroup.kind < 4
    ∧ (s.wave 63).phase = 0 ∧ (s.wave 63).queued = [] ∧ (s.wave 63).count + 1 < sumGroup.localCount := by
  unfold Ready Clean GoesOn; decide +kernel
/-- A message of this generation, and one of the next while 63 are held. -/
theorem wit_WavesCollect_message : let f := fun c => let s := withGroup sumGroup State.reset; { s with fab := { s.fab with
      regIn := [c], heldWaves := List.replicate 63 (waveMsgOf c) } };
    (let c := waveCrate 0; let s := f c; s.fab.regIn[0]? = some c ∧ c.op = 0x11 ∧ at_ c.data 1 1 ≠ 0xFF ∧ s.unset = false ∧ at_ c.data 0 1 = 63
      ∧ at_ c.data 6 2 = s.rn (winBase .pln 0 + rPLN_GEN_LO) % 2 ^ 16 ∧ (s.wave 63).last = none ∧ (s.wave 63).phase = 0
      ∧ seqBefore (at_ c.data 4 2) (s.wave 63).wave = false)
    ∧ (let c := waveCrate 0x7FFF; let s := f c; at_ c.data 6 2 ≠ s.rn (winBase .pln 0 + rPLN_GEN_LO) % 2 ^ 16
      ∧ seqBefore (s.rn (winBase .pln 0 + rPLN_GEN_LO) % 2 ^ 16) (at_ c.data 6 2) = true ∧ s.fab.heldWaves.length < 64) := by decide +kernel
theorem wit_WavesCollect_slow : let s := (withGroup sumGroup State.reset).setf (winBase .fab 0 + rFAB_WAVE_TIME) 0 16 1;
    let t := s.setWave 63 { WaveState.idle with phase := 5 };
    (t.wave 63).phase ≠ 0 ∧ (t.wave 63).slow = false ∧ t.f (winBase .fab 0 + rFAB_WAVE_TIME) 0 16 ≠ 0 := by decide +kernel
theorem wit_WavesCollect_census : let r : GroupRec := ⟨63, 5, 0, 0, 0, 0⟩; let s := withGroup r State.reset;
    s.group 63 = some r ∧ (s.wave 63).phase = 0 ∧ (s.wave 63).queued = [] ∧ (s.wave 63).got = [] ∧ (s.wave 63).count = 0 ∧ s.censusRuns = false := by decide +kernel

/-- Channel 35 UP towards module 1 with credits for one crate of 16 flits in TC0, a route to module 1 by it, and a crate to go. -/
def byChannel (c : Crate) : State :=
  let s := withGroup sumGroup State.reset
  let s := s.setf (cr 35 rWNG_CHAN_STAT) 0 3 3
  let s := s.wn (cr 35 rWNG_CHAN_PEER) 1
  let s := { s with cur := { s.cur with now := some { Plan.empty with
    chans := List.replicate 35 (⟨0, 0, 0⟩ : ChanRec) ++ [(⟨1, 0, 1⟩ : ChanRec)], routes := [⟨1, 0, 0, false, 2 ^ 35, 0⟩] } } }
  let s := s.mapChan 35 fun x => x.mapCls 0 fun k => { k with advH := 1, advD := 16 }
  { s with fab := { s.fab with outbound := [c] } }

theorem wit_CratesLeaveByChannel : let c := { crateOf 0 4064 with destModule := 1 }; let s := byChannel c;
    s.waitingCrates[0]? = some (none, c) ∧ s.mayLeave 0 none c = true ∧ s.pickChannel c = some 35 ∧ s.halted .wng (35 / 9) = false
    ∧ s.halted .col (35 / 9) = false ∧ s.reachesWing (35 / 9) c = true ∧ ((s.chan 35).cls (s.classOn 35 c)).covers c.flits = true := by
  decide +kernel
theorem wit_CratesLeaveByChannel_none : let c := { crateOf 0 4 with destModule := 2 }; let s := byChannel c;
    s.waitingCrates[0]? = some (none, c) ∧ s.mayLeave 0 none c = true ∧ s.pickChannel c = none := by decide +kernel

/-- The last entry of Wing 3's bank in a state. -/
def withEntry (tries : Nat) (q : Bool) (s : State) : State :=
  s.setReq 16383 (some ⟨0, 255, { crateOf 1 0 with destModule := 1 }, 0, tries, q⟩)

theorem wit_RemoteRequests : let c := { crateOf 1 0 with destModule := 1 }; let s := byChannel c;
    let r := { s with fab := { s.fab with reqWait := [c], outbound := [], robin := [(3, 4095)] } };
    r.fab.reqWait[0]? = some c ∧ r.behindReq 0 c = false
    ∧ r.pickChannel c = some 35 ∧ r.freeEntry (35 / 9) = some 4095 := by decide +kernel
theorem wit_RemoteRequests_entry : let c := { crateOf 2 0 with request := 16383 };
    let s := { State.reset with fab := { State.reset.fab with respIn := [c] } };
    (∀ n ∈ [1, 2, 3], ((withEntry n false s).reqEntry 16383).map (·.tries) = some n ∧ ((withEntry n false s).tile 0).reads = [])
    ∧ ((withEntry 1 true s).reqEntry 16383).map (·.quarantined) = some true
    ∧ s.fab.respIn[0]? = some c ∧ s.reqEntry c.request = none ∧ s.wingBridged (c.request / 4096) = true := by decide +kernel
theorem wit_RemoteRequests_retry : let c := { crateOf 1 0 with destModule := 1 }; let s := withEntry 2 false (byChannel c);
    ∃ e, s.reqEntry 16383 = some e ∧ e.quarantined = false ∧ e.tries = 2 ∧ s.retryChannel e = some 35 :=
  ⟨_, rfl, by decide +kernel⟩

theorem wit_OfficeAndCollator : let c := { crateOf 4 4 with request := 4095, destModule := 1 };
    let s := State.reset.wn (redCfg 3 4095) (2 + 2 ^ 9 + 1 * 2 ^ 16); let s := { s with fab := { s.fab with collIn := [c], regIn := [crateOf 0x10 64] } };
    (∃ d, s.fab.regIn[0]? = some d ∧ d.op ≠ 0x11)
    ∧ s.fab.collIn[0]? = some c ∧ s.serving (c.request % 4096) = some 3
    ∧ s.behindColl 0 c = false ∧ s.bridgesTo 3 c = true
    ∧ s.halted .col 3 = false ∧ s.reachesWing 3 c = true ∧ s.fab.chunks.find? (sameChunk 3 (c.request % 4096) c) = none
    ∧ 2 ≤ s.f (redCfg 3 (c.request % 4096)) 0 5
    ∧ s.slotsHeld 3 (c.request % 4096) + (collElems (s.f (redCfg 3 (c.request % 4096)) 5 2) c.length + 1015) / 1016
        ≤ s.f (redCfg 3 (c.request % 4096)) 16 12 := ⟨⟨_, rfl, by decide +kernel⟩, by decide +kernel⟩
theorem wit_OfficeAndCollator_stall : let k : Chunk := ⟨3, 0, crateOf 4 4, 1, [], 1, false, false⟩;
    let s := { State.reset with fab := { State.reset.fab with chunks := [k] } };
    s.fab.chunks[0]? = some k ∧ k.stalled = false ∧ k.wing < 4 := by decide +kernel
/-- An entry that fits the totals and one that does not. -/
theorem wit_OfficeAndCollator_totals : (State.reset.wn (redCfg 3 4095) (16 + 2 ^ 9 + 2048 * 2 ^ 16)).redsOk 3 = true
    ∧ (State.reset.wn (redCfg 3 4095) (16 + 2 ^ 9 + 2049 * 2 ^ 16)).redsOk 3 = false := by decide +kernel

/-! ### Dockets -/

/-- Docket ring `r` enabled for its owner (0 PF0, 1 PF1) with one entry of 64 bytes at host address 0x1000. -/
def ringHas (r own : Nat) (bytes : List Byte) (s : State) : State :=
  let s := { s with host := { s.host with linkUp := true, flitMode := true, d3 := [], noMaster := [], mem := aputs 0 s.host.mem 0x1000 (padTo 64 bytes) } }
  let s := (s.wn (rg rHST_RING_BASE_LO r) 0x1000).wn (rg rHST_RING_CFG r) (0x104 + 128 * own)
  (s.wn (rg rHST_RING_TAIL r) 1).wn (rg rHST_RING_STAT r) 1

/-- A docket entry: opcode, host address, module address or offset, length, area. -/
def docBytes (op host off len area : Nat) : List Byte :=
  padTo 64 (leBytes 1 op ++ leBytes 7 0 ++ leBytes 8 host ++ leBytes 8 off ++ leBytes 8 len ++ leBytes 1 area)

/-- The first and the last ring, the last byte of the user area, one entry of the measurement log. -/
theorem wit_DocketsRun : let b := docBytes 0 0 0 0 0; let s := ringHas 31 0 b State.reset;
    let c := docBytes 3 0x9000 (64 * 2 ^ 20 - 1) 1 4; let t := ringHas 0 0 c State.reset;
    let d := docBytes 4 0x9000 (64 * 2 ^ 20 - 1) 1 4; let u := ringHas 0 1 d State.reset;
    let e := docBytes 5 0x9000 0 64 0; let v := ringHas 0 0 e State.reset;
    DocketHead s 31 0 b ∧ DocketHead t 0 3 c ∧ DocketHead u 0 4 d ∧ DocketHead v 0 5 e := by unfold DocketHead; decide +kernel

/-- A state with one entry in progress on a ring. -/
def entryIn (r : Nat) (bytes : List Byte) (moved : Nat) (s : State) : State :=
  { s with host := { s.host with entries := [⟨r, 0, bytes, moved, 0, 0, false⟩] } }

theorem wit_DocketsRun_done : let e : Entry := ⟨31, 0, docBytes 1 0 0 4096 0, 4096, 0, 0, false⟩;
    let s := entryIn 31 (docBytes 1 0 0 4096 0) 4096 State.reset;
    s.inProgress 31 = [e] ∧ e.finished = false ∧ at_ e.bytes 0 1 ≠ 6 ∧ e.moved = at_ e.bytes 0x18 8 := by decide +kernel
/-- The second piece of an archive write of 4097 bytes, its last byte; and one whose bytes are all moved. -/
theorem wit_DocketsRun_piece : let b := docBytes 4 0x9000 0 4097 4; let e : Entry := ⟨31, 0, b, 4096, 0, 0, false⟩;
    let s := ringHas 31 0 b (entryIn 31 b 4096 State.reset); let t := entryIn 31 b 4097 State.reset;
    s.running 31 4 = some e ∧ e.moved < at_ e.bytes 0x18 8 ∧ s.canMaster (s.ringOwner 31) = true
    ∧ t.inProgress 31 = [{ e with moved := 4097 }] ∧ 4097 = at_ b 0x18 8 := by decide +kernel
theorem wit_DmaMovesPages : let b := docBytes 1 0x9000 (0x108400000 - 4096) 4096 0; let c := docBytes 2 0x9000 storeBase 1 0;
    let s := ringHas 31 0 b State.reset; let t := ringHas 31 0 c State.reset;
    DocketHead s 31 1 b ∧ DocketHead t 31 2 c ∧ s.dmaPaused = false ∧ t.dmaPaused = false := by unfold DocketHead; decide +kernel
/-- The last page of the Vault and the last of the Store, and one byte of a page. -/
theorem wit_DmaMovesPages_write : ∀ a ∈ [0x1F8400000 - 4096, storeBase + storeSize - 4096],
    let b := docBytes 1 0x9000 a 4096 0; let e : Entry := ⟨31, 0, b, 0, 0, 0, false⟩; let s := ringHas 31 0 b (entryIn 31 b 0 State.reset);
    e.moved < at_ e.bytes 0x18 8 ∧ s.dmaPaused = false ∧ s.canMaster (s.ringOwner 31) = true ∧ s.running 31 1 = some e
    ∧ (whereIs a = .vault ∨ whereIs a = .store) ∧ s.pair.freeze = none ∧ s.pair.blocked = false
    ∧ s.memDead true (s.vault.phys a) = false ∧ s.memDead false (s.store.phys a) = false ∧ s.pageOff a = false ∧ s.hostReaches a 4096 = true
    ∧ s.vault.held = [] ∧ s.store.held = [] := by decide +kernel
theorem wit_DmaMovesPages_read : let b := docBytes 2 0x9000 storeBase 1 0; let s := ringHas 31 0 b (entryIn 31 b 0 State.reset);
    s.running 31 2 = some ⟨31, 0, b, 0, 0, 0, false⟩ ∧ (s.modRead storeBase 1 rdDMA).1.poison = none
    ∧ ({ s with store := { s.store with poisoned := [(0, some [])] } }.modRead storeBase 1 rdDMA).1.poison = some (storeBase, 2) := by
  decide +kernel
/-- A module whose BARs decode. -/
def barsOpen (s : State) : State :=
  { s.setf (winBase .rgs 0 + rRGS_LIFECYCLE) 0 3 2 with host := { s.host with linkUp := true, flitMode := true, d3 := [], noMaster := [] } }

theorem wit_DocketsStageAndFail : let b := docBytes 6 0x9000 0 512 0; let s := ringHas 0 1 b State.reset;
    let c := docBytes 7 0 0 0 0; let t := ringHas 31 0 c State.reset; let u := ringHas planRing 0 (docBytes 0x27 0 0 0 0) State.reset;
    DocketHead s 0 6 b ∧ t.ringLive 31 = true ∧ t.ringCount 31 ≠ 0 ∧ 6 < at_ (t.ringEntry 31 0) 0 1 ∧ t.inProgress 31 = []
    ∧ u.ringLive planRing = true ∧ u.ringCount planRing ≠ 0 ∧ 0x26 < at_ (u.ringEntry planRing 0) 0 1 ∧ u.planBusy = false
    ∧ u.inProgress planRing = [] := by unfold DocketHead; decide +kernel
theorem wit_DocketsStageAndFail_entries : (let b := docBytes 6 0 0 512 0; let s := ringHas 31 0 b (entryIn 31 b 0 State.reset);
      s.inProgress 31 = [⟨31, 0, b, 0, 0, 0, false⟩] ∧ at_ b 0 1 = 6 ∧ s.canMaster (s.ringOwner 31) = true ∧ (barsOpen s).reaches .pf0 = true ∧ s.reaches .pf1 = true)
    ∧ (let b := docBytes 1 0 0 512 0; (entryIn 31 b 0 State.reset).inProgress 31 = [⟨31, 0, b, 0, 0, 0, false⟩] ∧ at_ b 0 1 = 1)
    ∧ State.reset.ringOwner 31 = .pf0 ∧ (State.reset.setf (ringCfg 31) 7 1 1).ringOwner 31 = .pf1 := by decide +kernel
theorem wit_RingsAndDoorbells : let s := ringHas 32 0 [] State.reset; let t := ringHas 32 1 [] State.reset;
    let u := (State.reset.setf (ringCfg 36) 8 1 1);
    (barsOpen s).reaches .pf0 = true ∧ t.reaches .pf1 = true ∧ s.inRecovery = false
    ∧ State.reset.ownerOfRing 32 = .pf0 ∧ State.reset.f (ringCfg 32) 8 1 = 0 ∧ State.reset.f (ringCfg 36) 8 1 = 0 ∧ s.f (ringCfg 32) 8 1 = 1
    ∧ s.inProgress 32 = [] ∧ t.ownerOfRing 32 = .pf1 ∧ s.ringState 32 ≠ 3 ∧ s.halted .rgs = false ∧ s.halted .hst = false
    ∧ u.ownerOfRing 36 = .pf0 ∧ u.f (ringCfg 36) 8 1 = 1 := by decide +kernel
/-- A count that just fits the ring of 16 entries, and one past it; a count at the producer. -/
theorem wit_RingsAndDoorbells_counts : let s := ringHas 32 0 [] State.reset;
    2 ^ s.f (ringCfg 32) 0 5 = 16 ∧ (16 + 2 ^ 32 - s.rn (rg rHST_RING_HEAD 32)) % 2 ^ 32 = 16
    ∧ s.rn (lg rHST_LOG_PROD 3) = s.rn (lg rHST_LOG_CONS 3) := by decide +kernel

/-- Logbook ring `l` enabled with 256 places at host address 0x4000 and its status block at 0x3000, the link up. -/
def logOn (l : Nat) (s : State) : State :=
  let s := { s with host := { s.host with linkUp := true, flitMode := true, d3 := [], noMaster := [] } }
  ((s.wn (lg rHST_LOG_CFG l) 0x108).wn (lg rHST_LOG_BASE_LO l) 0x4000).wn (lg rHST_LOG_STATUS_LO l) 0x3000

theorem wit_RecordsReachTheirRing : let s := logOn 3 State.reset; let t := { s with host := { s.host with lost := [(3, (7, 9))] } };
    let u := { s with host := { s.host with linkUp := false, queue := [(3, List.replicate 32 1)] } };
    t.logEnabled 3 = true ∧ t.logOpen 3 = true ∧ aget (0, 0) t.host.lost 3 = (7, 9) ∧ 2 ≤ t.logFree 3
    ∧ s.rd64 (lg rHST_LOG_STATUS_LO 3) (lg rHST_LOG_STATUS_HI 3) + 8 ≤ s.rd64 (lg rHST_LOG_BASE_LO 3) (lg rHST_LOG_BASE_HI 3)
        + s.rn (lg rHST_LOG_PROD 3) % 2 ^ s.f (lg rHST_LOG_CFG 3) 0 5 * 32
    ∧ u.inRecovery = false ∧ u.host.queue = [(3, List.replicate 32 1)] ∧ u.logEnabled 3 = true ∧ (aget (0, 0) u.host.lost 3).1 = 0 ∧ 1 ≤ u.logFree 3 := by
  decide +kernel

theorem wit_HostFunctions : let s := barsOpen State.reset;
    s.barOpen .pf0 = true ∧ s.f (winBase .pwr 0 + rPWR_STATE_STAT) 0 3 ≠ 4 ∧ whereIs (s.bar2Addr 0) = .vault
    ∧ s.peek true (s.bar2Addr 0) = .ok 0 ∧ s.memDead true (s.vault.phys (s.bar2Addr 0)) = false ∧ s.pageOff (s.bar2Addr 0) = false
    ∧ s.wiping true = false ∧ s.hostReaches (s.bar2Addr 0) 1 = true ∧ s.vault.held = []
    ∧ s.pair.blocked = false ∧ s.pair.freeze = none ∧ s.frozenPage (s.bar2Addr 0) = none ∧ State.reset.barOpen .pf0 = false ∧ State.reset.host.entries = [] ∧ s.host.linkUp = true := by decide +kernel

/-- A collector is configured; notice 5 left at time 0. -/
def collecting (s : State) : State :=
  { s with arch := { s.arch with config := List.replicate 12 0 ++ leBytes 4 1 ++ leBytes 112 0 }, host := { s.host with noticeLast := some 0, noticeWaiting := some 5 } }

theorem wit_HostFunctions_notices : let s := collecting (barsOpen State.reset); let t := { s with timer := 200000 };
    s.collector = true ∧ s.host.noticeLast = some 0 ∧ s.timer < 0 + 200000 ∧ t.collector = true ∧ 0 + 200000 ≤ t.timer
    ∧ t.host.noticeWaiting = some 5 ∧ s.inRecovery = false ∧ s.reaches .pf0 = true ∧ s.reaches .warden = true := by decide +kernel

/-! ### Links -/

/-- Channel 35 with its links' states, and what one of them and the channel hold. -/
def chan35 (st0 st1 : Nat) (g : Chan → Chan) (s : State) : State :=
  (((s.setLink 35 0 st0).setLink 35 1 st1).setf (cr 35 rWNG_CHAN_STAT) 0 3 3).mapChan 35 g

/-- A flit of a header and payload with its CRC and parity bytes written out. -/
def flit (h : Nat) (p : List Byte) (chk : List Nat) : List Nat := (leBytes 8 h ++ padTo 256 p).map (·.toNat) ++ chk

/-- A DATA flit of class 3 and SEQ 0xFFFF, the last of its crate; a CONTROL flit that acknowledges it and names slot 9; CREDIT; IDLE
with FAULT; INIT. -/
def dataHdr : Nat := 2 ^ 60 + 3 * 2 ^ 58 + 0xFFFF * 2 ^ 42 + 1
def ctlPay : List Byte := leBytes 8 0 ++ leBytes 8 0 ++ leBytes 8 0 ++ leBytes 1 1 ++ leBytes 1 3 ++ leBytes 6 0 ++ leBytes 4 (9 + 2 ^ 16)
def initPay : List Byte := [2, 3, 1, 0, 5, 1, 16, 0] ++ leBytes 4 31 ++ leBytes 2 77 ++ leBytes 2 0 ++ (List.replicate 4 (leBytes 2 64)).flatten ++ (List.replicate 4 (leBytes 2 128)).flatten

/-- A good flit reaches link 1, whose slot is 9. -/
def hears : State :=
  let f : Flit := ⟨0, 0, 0, 0, false, false, false, true, [], none⟩
  chan35 2 2 (fun x => { x with
    peerInstance := some 7
    link1 := { x.link1 with rxLsn := some 9 }
    classes := [(3, { ClassState.reset with next := 0xFFFF })]
    replay := [(0xFFFF, 1, f)] }) State.reset

theorem wit_FlitsAreTaken_good : GoodFlit hears 35 1 (flit dataHdr [] [236, 72, 104, 120, 55, 131, 248, 206, 72, 78, 192, 110, 11, 209, 54, 111]) 0 dataHdr (padTo 256 []) ∧ (flit dataHdr [] [236, 72, 104, 120, 55, 131, 248, 206, 72, 78, 192, 110, 11, 209, 54, 111]).length = 280
    ∧ hears.linkState 35 1 = 2 ∧ fld dataHdr 60 4 = 1 ∧ (hears.flitOf 35 dataHdr []).cls = 3
    ∧ fld dataHdr 42 16 = ((hears.chan 35).cls 3).next ∧ (hears.chan 35).held = [] := by unfold GoodFlit; simp only [checkFlit_eq]; decide +kernel
/-- One symbol wrong, which RS corrects; and an old SEQ. -/
theorem wit_FlitsAreTaken_old : let h := 2 ^ 60 + 3 * 2 ^ 58 + 0x7FFF * 2 ^ 42;
    GoodFlit hears 35 1 ((flit h [] [36, 85, 192, 170, 84, 75, 216, 34, 22, 169, 64, 231, 198, 44, 7, 21]).set 5 0xEE) 1 h (padTo 256 [])
    ∧ 0x8000 ≤ (fld h 42 16 + 2 ^ 16 - ((hears.chan 35).cls 3).next) % 2 ^ 16 := by unfold GoodFlit; simp only [checkFlit_eq]; decide +kernel
theorem wit_FlitsAreTaken_control : let h := 2 * 2 ^ 60 + 9 * 2 ^ 26;
    GoodFlit hears 35 1 (flit h ctlPay [133, 237, 32, 74, 18, 129, 72, 147, 100, 141, 184, 109, 5, 220, 47, 142]) 0 h (padTo 256 ctlPay) ∧ controlOk true h (padTo 256 ctlPay) = true ∧ at_ (padTo 256 ctlPay) 25 1 = 3
    ∧ bit (at_ (padTo 256 ctlPay) 26 1) 0 = false ∧ 0 < at_ (padTo 256 ctlPay) 24 1 ∧ hears.p1 35 = false := by unfold GoodFlit; simp only [checkFlit_eq]; decide +kernel
theorem wit_FlitsAreTaken_credit : let h := 3 * 2 ^ 60 + 9 * 2 ^ 26; let g := 4 * 2 ^ 60 + 9 * 2 ^ 26 + 2 ^ 25;
    (GoodFlit hears 35 1 (flit h [] [158, 130, 117, 222, 115, 152, 205, 156, 215, 245, 127, 89, 165, 132, 88, 100]) 0 h (padTo 256 []) ∧ controlOk false h (padTo 256 []) = true)
    ∧ GoodFlit hears 35 1 (flit g [] [97, 18, 129, 1, 29, 200, 232, 176, 92, 34, 77, 179, 210, 100, 214, 248]) 0 g (padTo 256 []) ∧ fld g 0 25 = 0 ∧ zeroIn (padTo 256 []) 0 256 = true := by unfold GoodFlit; simp only [checkFlit_eq]; decide +kernel
/-- Bytes no codeword is near. -/
theorem wit_FlitsAreTaken_bad : let raw := (List.range 280).map (· * 37 % 256);
    checkFlit raw = .uncorr ∧ ((hears.chan 35).link 1).rxLsn = some 9 := by decide +kernel
theorem wit_InitOpensAChannel : let h := 5 * 2 ^ 60; let s := chan35 0 0 (fun x => { x with link1 := { x.link1 with init := true } }) State.reset;
    GoodFlit s 35 1 (flit h initPay [18, 58, 206, 111, 55, 182, 53, 167, 138, 60, 26, 66, 88, 135, 82, 239]) 0 h (padTo 256 initPay) ∧ fld h 60 4 = 5 ∧ initOk h (padTo 256 initPay) = true
    ∧ at_ (padTo 256 initPay) 0 1 = 2 ∧ ((s.chan 35).link 1).init = true ∧ (s.chan 35).peerInstance = none ∧ (s.lane 35 1).lost = [] := by unfold GoodFlit; simp only [checkFlit_eq]; decide +kernel
/-- An exchange of a link that opens its channel, of one whose sibling is up, and of one whose sibling is down. -/
theorem wit_InitOpensAChannel_timeout : let go := fun a b => chan35 a b (fun x => { x with link1 := { x.link1 with init := true } }) State.reset;
    ((go 0 0).linkState 35 1 = 0 ∧ (((go 0 0).chan 35).link 1).init = true) ∧ ((go 2 1).linkState 35 (1 - 1) ≠ 0 ∧ (((go 2 1).chan 35).link 1).init = true)
    ∧ (go 0 1).linkState 35 1 ≠ 0 ∧ (go 0 1).linkState 35 (1 - 1) = 0 ∧ (((go 0 1).chan 35).link 1).init = true := by decide +kernel
theorem wit_InitOpensAChannel_rejoin : let s := chan35 2 1 id State.reset;
    let w := fun (r : State) => r.widthFor 35 (r.linkWidth 35 1 - (r.lane 35 1).lost.length); let r := s.mapLane 35 1 fun k => { k with lost := List.range 9 };
    s.linkState 35 1 = 1 ∧ s.p1 35 = false ∧ ((s.chan 35).link 1).init = false ∧ 8 ≤ w (s.setWidth 35 1 0) ∧ w (r.setWidth 35 1 0) < 8 := by decide +kernel
theorem wit_SlotsAndTimers : let f : Flit := ⟨3, 0, 0, 0, false, false, false, true, [], none⟩; let s := chan35 2 2 (fun x => { x with queue := [f] }) State.reset;
    s.receives 35 1 = true ∧ s.locked = false ∧ s.halted .wng (35 / 9) = false ∧ ((s.chan 35).link 1).init = false ∧ (s.chan 35).controlDue = false ∧ ((s.chan 35).link 1).widthDue = false
    ∧ (s.chan 35).creditDue = false ∧ ((s.chan 35).link 1).sinceOther < 255 ∧ s.chanState 35 ≠ 5 ∧ s.peerOk 35 = true
    ∧ (s.chan 35).resends = [] ∧ s.nextNew 35 1 = some f ∧ f.congested = false ∧ f.cls < 4
    ∧ (chan35 2 2 id State.reset).nextNew 35 1 = none ∧ (chan35 2 2 id (State.reset.setf (winBase .rgs 0 + rRGS_LOCK_STAT) 0 1 1)).locked = true
    ∧ s.quietChan 35 = false := by decide +kernel
theorem wit_SlotsAndTimers_again : let f : Flit := ⟨3, 0, 0, 0, false, false, false, true, [], none⟩;
    let s := chan35 2 2 (fun x => { x with replay := [(0xFFFF, 0, f)], retx := [(3, 0xFFFF)] }) State.reset;
    s.receives 35 1 = true ∧ s.nextResend 35 1 = some (0xFFFF, 0, f) ∧ s.nextResend 35 0 = none ∧ s.peerOk 35 = true ∧ s.chanState 35 ≠ 5 := by decide +kernel
theorem wit_SlotsAndTimers_release : let f : Flit := ⟨0, 0, 32, 0, false, false, false, true, ([0, 0, 0, 0, 4] : List Byte), none⟩;
    let s := chan35 2 2 (fun x => { x with ready := [f], inOrder := 1, classes := [(0, { ClassState.reset with outH := 1 })] }) (State.reset.setf (winBase .fab 0 + rFAB_MODULE_ID) 15 1 0);
    (s.chan 35).ready.filter (fun g => g.cls == 0) = [f] ∧ f.last = true ∧ ((Machine.crateOf 35 [f]).map fun d => (d.op, s.substMod d.destModule == s.myId, decide (d.destTile % 64 ≤ 32))) = some (4, true, true)
    ∧ ((Machine.crateOf 35 [{ f with cls := 3 }]).map fun d => d.tc) = some 3
    ∧ s.unset = false ∧ s.fab.collIn = [] ∧ s.f (winBase .gal 0 + rGAL_STAT) 0 1 = 0 ∧ 0 < (s.chan 35).inOrder ∧ ((s.chan 35).cls 0).outH ≠ ((s.chan 35).cls 0).repH := by decide +kernel
theorem wit_LinksComeAndGo : let s := chan35 2 2 id State.reset; let r := chan35 1 2 id State.reset; let d := chan35 2 0 id State.reset;
    s.linkState 35 0 = 2 ∧ s.linkState 35 1 ≠ 0 ∧ r.linkState 35 0 = 1 ∧ ((r.chan 35).link 0).init = false ∧ d.linkState 35 0 ≠ 0
    ∧ d.linkState 35 (1 - 0) = 0 ∧ (d.chan 35).isolated = false ∧ s.f (cr 35 rWNG_CHAN_STAT) 8 2 ≠ 2 ∧ (s.lane 35 0).moves = [] ∧ (s.lane 35 0).moves.all (fun m => decide (m.2 < 36)) = true := by decide +kernel
theorem wit_LinksComeAndGo_p1 : let s := (chan35 2 2 (fun x => { x with waits := [(0, some (35, 0, 9))] }) State.reset).setf (cr 35 rWNG_CHAN_STAT) 3 1 1;
    s.p1 35 = true ∧ s.quietChan 35 = false ∧ s.classWaits 35 0 = true ∧ ((s.chan 35).cls 0).creditLink = 0 := by decide +kernel
/-- Grants that just fit and that do not. -/
theorem wit_LinksComeAndGo_grants : let a := wg 3 (rWNG_CREDIT_ADV + 12);
    (State.reset.wn a (1 + 16 * 2 ^ 16)).creditAdvOk 3 = true ∧ (State.reset.wn a (0 + 16 * 2 ^ 16)).creditAdvOk 3 = false := by decide +kernel

/-! ### Lanes -/

/-- A training frame of slot 17 in order and reversed. -/
def frameBits (b : Nat) : Nat := sealFrame b

theorem wit_LinksAreBroughtUp_start : let s := State.reset;
    s.bringup 35 1 = 0 ∧ s.linkState 35 1 = 0 ∧ (s.chan 35).isolated = false ∧ s.dark = false := by decide +kernel
theorem wit_LinksAreBroughtUp_frame : let s := State.reset.setf (lk 35 1 rWNG_LINK_STAT) 0 3 3; let b := 17 * 2 ^ 22; let c := 5 * 2 ^ 22;
    s.bringup 35 1 = 3 ∧ s.rxFibre 35 1 = 1 ∧ openFrame (frameBits b) = some (b, false) ∧ openFrame (2 ^ 256 - 1 - frameBits b) = some (b, true)
    ∧ s.miscabled 35 1 b = false ∧ (s.mapLane 35 0 fun k => { k with sender := some (0, 1) }).miscabled 35 1 b = true
    ∧ fld b 22 5 + 0 = 17 ∧ bit b 68 = false ∧ openFrame (frameBits c) = some (c, false) ∧ fld c 22 5 ≠ 17 ∧ fld c 22 5 + 17 ≠ 17 := by decide +kernel
theorem wit_LinksAreBroughtUp_margins : let s := State.reset.setf (lk 35 1 rWNG_LINK_STAT) 0 3 1;
    s.bringup 35 1 = 1 ∧ s.rxFibre 35 1 = 1 ∧ (s.lane 35 1).rxDone = false ∧ (List.replicate 18 300).length = 18 ∧ (s.lane 35 1).peerDone = false ∧ (s.lane 35 0).peerDone = false := by decide +kernel
theorem wit_LinksAreBroughtUp_retry : let s := State.reset.setf (lk 35 1 rWNG_LINK_STAT) 0 3 5;
    s.bringup 35 1 = 5 ∧ s.cur.now = none ∧ (s.chan 35).isolated = false ∧ s.dark = false ∧ s.p1 35 = false := by decide +kernel

/-- Lane 15 of link 1 of channel 35 in use on slot 0 of both directions, with a state of its link's lanes. -/
def lane15 (g : LaneLink → LaneLink) (s : State) : State := (s.wn (steer 35 1 15) (2 ^ 6 + 2 ^ 14)).mapLane 35 1 g

theorem wit_LanesMove_request : let s := lane15 id State.reset;
    s.laneUsed 35 1 15 = true ∧ (s.lane 35 1).moves.any (fun m => m.1 == 15) = false
    ∧ s.freeSlot 35 1 (fun y => (List.replicate 35 0 ++ [255]).getD y 0) = some 35 ∧ s.freeSlot 35 1 (fun y => ([] : List Nat).getD y 0) = none := by decide +kernel
theorem wit_LanesMove_move : let s := lane15 id State.reset;
    s.rxUse 35 (18 * s.rxFibre 35 1 + 17) ≠ 1 ∧ aget none s.light.calNow 35 = none ∧ s.f (sl 35 35 rWNG_RX_SLOT_STAT) 9 1 = 0
    ∧ (s.setf (sl 35 35 rWNG_RX_SLOT_STAT) 9 1 1).f (sl 35 35 rWNG_RX_SLOT_STAT) 9 1 = 1 ∧ (s.setf (sl 35 35 rWNG_RX_SLOT_STAT) 9 1 1).rxUse 35 35 ≠ 1 := by decide +kernel
theorem wit_LanesMove_take : let s := (lane15 (fun k => { k with targets := [(15, 35)] }) State.reset).setf (sl 35 35 rWNG_RX_SLOT_STAT) 8 1 1;
    s.laneUsed 35 1 15 = true ∧ (s.lane 35 1).targets.find? (fun m => m.1 == 15) = some (15, 35) ∧ s.f (sl 35 35 rWNG_RX_SLOT_STAT) 8 1 = 1
    ∧ s.f (sl 35 35 rWNG_RX_SLOT_STAT) 9 1 = 0 := by decide +kernel
theorem wit_LanesMove_switched : let s := lane15 (fun k => { k with moves := [(15, 35)] }) State.reset;
    s.laneUsed 35 1 15 = true ∧ (s.lane 35 1).moves.find? (fun m => m.1 == 15) = some (15, 35) ∧ s.txSlotOf 35 1 15 ≠ 35 ∧ s.txSlotOf 35 1 15 < 36 := by decide +kernel
theorem wit_LanesMove_ask : let s := lane15 id ((State.reset.setLink 35 1 2).setWidth 35 1 0);
    s.laneUsed 35 1 15 = true ∧ (s.lane 35 1).asked.contains 15 = false ∧ (s.lane 35 1).targets.any (fun m => m.1 == 15) = false
    ∧ 15 < s.linkWidth 35 1 ∧ s.linkState 35 1 = 2
    ∧ s.widthFor 35 (s.linkWidth 35 1 - (if (s.lane 35 1).lost.contains 15 then (s.lane 35 1).lost else (s.lane 35 1).lost ++ [15]).length) = 8
    ∧ 8 ≠ s.linkWidth 35 1 := by decide +kernel
theorem wit_LanesMove_restore : let s := lane15 (fun k => { k with assignTx := List.replicate 16 20, peerPass := 4 }) (State.reset.setWidth 35 1 0);
    15 < s.linkWidth 35 1 ∧ (s.lane 35 1).assignTx[15]? = some 20 ∧ s.txSlotOf 35 1 15 ≠ 20 ∧ s.txUse 35 20 = 0 ∧ s.txPasses 35 20 = true
    ∧ s.swapSlot 35 20 = false ∧ s.swapHeld 35 20 = false ∧ (s.lane 35 1).moves.any (fun m => m.1 == 15) = false := by decide +kernel
theorem wit_LanesMove_refuse : let s := lane15 (fun k => { k with asked := [15] }) State.reset;
    s.linkState 35 1 ≠ 2 ∧ (s.lane 35 1).asked.contains 15 = true ∧ s.laneUsed 35 1 15 = true := by decide +kernel
theorem wit_LanesMove_quality : let s := State.reset.setf (sl 35 35 rWNG_RX_SLOT_STAT) 0 2 1; let s := { s with light := { s.light with bad := [(324 * 3 + 323, 2)] } };
    s.f (wg 3 rWNG_SPARE_EXP) 0 4 ≤ 15 ∧ 0 < s.f (wg 3 rWNG_SPARE_EXP) 0 4 ∧ 2 ≤ aget 0 s.light.bad (324 * 3 + 323)
    ∧ fld (s.rn (sl 35 35 rWNG_RX_SLOT_STAT)) 0 2 = 1 ∧ (s.lane 35 1).targets.any (fun z => z.1 == 0) = false
    ∧ s.fibreLink 35 1 = 1 ∧ State.reset.rxUse 35 35 ≠ 1 := by decide +kernel
/-- All 18 slots of link 1 of channel 35 pass with lock in both directions. -/
def allPass (s : State) : State :=
  (List.range 18).foldl (fun (u : State) x => u.wn (sl 35 (18 + x) rWNG_RX_SLOT_STAT) (255 * 2 ^ 16 + 2 ^ 8)) (s.mapLane 35 1 fun k => { k with peerPass := 2 ^ 18 - 1 })
theorem wit_LanesMove_rise : let s := allPass ((State.reset.setLink 35 1 2).setWidth 35 1 2);
    s.linkState 35 1 = 2 ∧ s.assignWidth 35 1 = 16 ∧ s.linkWidth 35 1 < 16 ∧ (s.lane 35 1).moves = [] := by decide +kernel
/-- A fibre retrained to good and to bad margins, the partner's test done and not. -/
theorem wit_LanesMove_retrained : let s := allPass (chan35 2 3 id (State.reset.setWidth 35 1 2));
    let u := fun (ms : List Nat) (r : State) => (r.takeMargins 35 1 ms).assignWidth 35 1;
    s.fibreTrains 35 1 = false ∧ s.fibreRetrains 35 1 = true ∧ (s.lane 35 1).rxDone = false ∧ (List.replicate 18 255).length = 18 ∧ s.fibreLink 35 1 = 1
    ∧ s.rxFibre 35 1 = 1 ∧ (s.lane 35 1).peerDone = false ∧ ((s.mapLane 35 1 fun k => { k with peerDone := true }).lane 35 1).peerDone = true
    ∧ u (List.replicate 18 255) (s.mapLane 35 1 fun k => { k with peerDone := true }) = 16
    ∧ u (List.replicate 18 0) (s.mapLane 35 1 fun k => { k with peerDone := true }) = 0 := by decide +kernel
/-- Every slot with symbol lock, and none. -/
theorem wit_LanesMove_done : let s := allPass (chan35 2 3 (fun x => { x with link1 := { x.link1 with init := true, gotInit := true, sentAcked := true, gotAcked := true } }) (State.reset.setWidth 35 1 2));
    let w := fun locked => min (s.linkWidth 35 1) ((s.takeLocks 35 (s.rxFibre 35 1) locked).assignWidth 35 1);
    s.linkState 35 1 = 3 ∧ s.linkWidth 35 1 ∈ [16, 12, 8] ∧ 8 ≤ w (2 ^ 18 - 1) ∧ w 0 < 8
    ∧ ((s.chan 35).link 1).init ∧ ((s.chan 35).link 1).gotInit ∧ ((s.chan 35).link 1).sentAcked ∧ ((s.chan 35).link 1).gotAcked := by decide +kernel

/-! ### Light -/

/-- The last position of Lamp 1, LIT. -/
def lit (s : State) : State := s.setf (lz 1 161) 16 3 1

theorem wit_LasersAreSwapped_bias : let s := lit State.reset;
    isLaser 1 161 = true ∧ 0 < s.f (winBase .lmp 1 + rLMP_WATCH_THRESH) 0 8 ∧ 0 < s.swapBias 1 ∧ s.laser 1 161 = 1
    ∧ s.f (winBase .pwr 0 + rPWR_STATE_STAT) 0 3 < 3 ∧ s.swapBias 1 ≤ 255 ∧ s.reserveFree 1 161 = true
    ∧ (s.swap 1 161).step = 0 ∧ s.swapsBeside 1 161 < 2 ∧ s.lightHeld 1 = false ∧ s.biasHeld 1 161 = false ∧ s.halted .lmp 1 = false ∧ s.f (lz 1 161) 19 1 = 0 ∧ s.f (lz 1 161) 20 1 = 0
    ∧ (s.setf (lz 1 161) 21 1 1).f (lz 1 161) 21 1 = 1 := by decide +kernel
/-- Lockdown and a halted Lamp hold the bias; Lockdown holds a swap. -/
theorem wit_LasersAreSwapped_held : let s := (lit State.reset).setf lockStat 0 1 1; let h := (lit State.reset).setf (ir .lmp 1 rINC_STAT) 30 1 1;
    s.biasHeld 1 161 = true ∧ s.laser 1 161 = 1 ∧ s.lightHeld 1 = true ∧ s.reserveFree 1 161 = true ∧ (s.swap 1 161).step = 0
    ∧ h.halted .lmp 1 = true ∧ h.biasHeld 1 161 = true ∧ h.laser 1 161 = 1 := by decide +kernel
/-- A swap at each step; the four fibres with a free passing slot beside λ17, and without. -/
theorem wit_LasersAreSwapped_steps : (∀ k ∈ [1, 2, 3, 4], (((lit State.reset).setSwap 1 161 ⟨k, [], 0, true, []⟩).swap 1 161) = ⟨k, [], 0, true, []⟩)
    ∧ (laserFibres 1 161).all ((lit State.reset).fibreFree 161) = false
    ∧ (let s := (laserFibres 1 161).foldl (fun (u : State) f => u.mapLane f.1 f.2 fun k => { k with peerPass := 1 }) (lit State.reset);
      (laserFibres 1 161).all (s.fibreFree 161) = true) := by decide +kernel
/-- The last receive slot of Wing 3. -/
theorem wit_RingsAreCalibrated : isSlot 3 323 = true ∧ State.reset.light.cal.find? (fun c => c.wing == 3 && c.slot == 323) = none
    ∧ aget none State.reset.light.calNow (9 * 3 + 323 / 36) = none ∧ (max 200 201 - min 200 201) * 200 ≤ 200 ∧ 199 < (max 199 200 - min 199 200) * 200
    ∧ 15 % 4 = 3 ∧ 2 * State.reset.f (wg 3 rWNG_CAL_TEMP_THRESH) 0 6 < (sext 12 2047 - State.reset.calTemp 3 323).natAbs := by decide +kernel
/-- A ring of lane 0 of link 1 unlocks, one whose slot is being calibrated, and one of neither. -/
theorem wit_RingsAreCalibrated_unlock : let c : CalWait := ⟨3, 323, 1, 0, 0, false⟩; let s := State.reset.setf (sl 35 35 rWNG_RX_SLOT_STAT) 0 2 1;
    let t := { State.reset with light := { State.reset.light with calNow := [(35, some c)] } };
    s.rxLane (9 * 3 + 323 / 36) (323 % 36) = some (1, 0) ∧ (s.lane 35 1).targets.any (fun z => z.1 == 0) = false
    ∧ aget none t.light.calNow (9 * 3 + 323 / 36) = some c ∧ c.slot = 323 ∧ aget none s.light.calNow 35 = none := by decide +kernel
theorem wit_RingsAreCalibrated_attempt : let c : CalWait := ⟨3, 323, 1, 0, 0, false⟩; let s := State.reset.setLink 35 1 2;
    let r := { s with light := { s.light with cal := [c] } }; let t := { s with light := { s.light with calNow := [(35, some c)] } };
    r.calHead 35 = some c ∧ aget none r.light.calNow 35 = none ∧ r.lightHeld (35 / 18) = false
    ∧ r.rxUse 35 (c.slot % 36) ≠ 1 ∧ aget none t.light.calNow 35 = some c ∧ t.rxUse 35 35 ≠ 1 ∧ calAgrees 100 7 104 1 = true
    ∧ calAgrees 100 7 105 1 = false ∧ (none = (none : Option Nat) ∨ ∃ d, none = some d ∧ 10 < d) ∧ r.light.cal.find? (fun d => d.wing == 3 && d.slot == 323) = some c ∧ c.deferred = false
    ∧ ({ r with timer := tenSeconds }.setf (sl 35 35 rWNG_RX_SLOT_STAT) 0 2 1).calStuck c = true
    ∧ tenSeconds ≤ (tenSeconds + 2 ^ 64 - c.since) % 2 ^ 64 := by decide +kernel
/-- A tile above the limit, and one below; the re-planning off. -/
theorem wit_ClimateAndCondition : let s := ((State.reset.setTs 0 tsIDLE).setf (tr 0 rTILE_TEMP) 0 12 2047).setTs 1 tsIDLE;
    0 ∈ s.poweredTiles ∧ 1 ∈ s.poweredTiles ∧ (s.f (pw rPWR_GOV_TEMP_LIMIT) 0 12 : Int) < sext 12 (s.f (tr 0 rTILE_TEMP) 0 12)
    ∧ 0 < (s.clockNext 0).1 ∧ s.boundaryWaits 0 = false ∧ (s.setTs 0 tsRUN).boundaryWaits 0 = true
    ∧ 0 ∈ (s.setTs 0 tsRUN).poweredTiles ∧ s.budget 238 = 1210 ∧ s.slew = 150
    ∧ sext 12 (s.f (tr 1 rTILE_TEMP) 0 12) ≤ (s.f (pw rPWR_GOV_TEMP_LIMIT) 0 12 : Int)
    ∧ s.asleep = false ∧ (s.wn stateStat 1).asleep = true ∧ s.locked = false ∧ s.halted .pwr = false ∧ s.overridden = false
    ∧ s.governedTiles = [0, 1] ∧ s.tooHot 0 = true ∧ s.tooHot 1 = false ∧ (s.governedTiles.map s.clockCost).foldl (· + ·) 0 ≤ s.slewRoom 1
    ∧ s.light.means.getLastD 1211 = 1211 ∧ s.budget 238 < 1211 ∧ 1211 < 1211 + s.slew ∧ 1 ≤ s.paceNext 0
    ∧ (let d := { s with light := { s.light with means := [1400] } }; 1211 + d.slew ≤ d.light.means.getLastD 0)
    ∧ (s.setf lockStat 0 1 1).locked = true
    ∧ (s.wn (rgsr rRGS_COND_REPLAN_EN) 0).rn (rgsr rRGS_COND_REPLAN_EN) % 16 = 0 := by decide +kernel

/-! ### Memories -/

theorem wit_MemoriesAreKept : State.reset.vault.suspects 5 = [] ∧ (∀ v ∈ [true, false], State.reset.f (mreg v rVLT_SCRUB_TIME rSTO_SCRUB_TIME) 0 16 ≠ 0
    ∧ State.reset.wiping v = false ∧ (State.reset.mem v).held = []) ∧ State.reset.locked = false ∧ State.reset.vault.deadDies = []
    ∧ State.reset.f (chanStat 63) 0 3 = 0 ∧ (State.reset.setf (winBase .sto 0 + rSTO_STAT) 1 1 1).f (winBase .sto 0 + rSTO_STAT) 1 1 = 1
    ∧ State.reset.pwr.memWait = [] ∧ State.reset.f (chanStat 0) 0 3 = 0 ∧ State.reset.partOn 1759 63 = true
    ∧ State.reset.segInUse 1759 = false ∧ State.reset.tilesQuiet = true ∧ 2 ≤ (State.reset.wn (winBase .pwr 0 + rPWR_STATE_STAT) 2).f (winBase .pwr 0 + rPWR_STATE_STAT) 0 3 := by decide +kernel
/-- The last page of a scrub pass, poisoned; a retired page. -/
theorem wit_MemoriesAreKept_pass : let s := { State.reset with vault := { State.reset.vault with scrubNext := 1056 * 1024 - 1, poisoned := [(bankOf (scrubPage true (1056 * 1024 - 1) * 4096), some [])], retired := [9] } };
    s.vault.pagePoisoned (s.bankKey true (scrubPage true s.vault.scrubNext * 4096)) (scrubPage true s.vault.scrubNext) = true
    ∧ ¬ s.vault.scrubNext + 1 < scrubPages true ∧ s.vault.retired.contains 9 = true ∧ s.vault.spares (dieOf (9 * 4096)) < 64 := by decide +kernel

/-- Raw mode authorised in lifecycle RETURN, at the first word of a memory. -/
def rawOn (v : Bool) (s : State) : State :=
  let s := s.setf (winBase .rgs 0 + rRGS_LIFECYCLE) 0 3 3
  if v then s else s.wn (rawReg v rVLT_RAW_ADDR_HI) 0x80

theorem wit_RawModeActsOnStoredBits : (∀ v ∈ [true, false], (rawOn v State.reset).wiping v = false ∧ (rawOn v State.reset).rawAllowed .pf1 = true
      ∧ (rawOn v State.reset).rawAllowed .pf0 = false ∧ (rawOn v State.reset).poisonedAt v (if v then 0 else storeBase) = false
      ∧ ((rawOn v State.reset).mem v).held.any (fun h => h.1 == pageOf (if v then 0 else storeBase)) = false
      ∧ aget false ((rawOn v State.reset).mem v).off ((rawOn v State.reset).bankKey v (if v then 0 else storeBase)) = false)
    ∧ (rawOn true State.reset).rawAddr true 0 = some 0 ∧ (rawOn false State.reset).rawAddr false 0 = some storeBase
    ∧ (rawOn false State.reset).rawAddr false 1 = none
    ∧ (State.reset.startWipe true).wiping true = true ∧ ({ State.reset with pwr := ⟨[], [], [.raw false 3 1 0 .pf0], false, false⟩ }).rawAllowed .pf0 = false
    ∧ (∀ i, i < 32 → (rawOn true State.reset).vault.bad (0 + i) = false ∧ (rawOn true State.reset).peek true (0 + i) = .ok (aget 0 (rawOn true State.reset).vault.cells (0 + i)))
    ∧ ({ rawOn true State.reset with vault := { Mem.wiped with deadDies := [0] } }).peek true 0 = .poison 1 := by decide +kernel

/-! ### Pairs -/

/-- Module 1, keeper of shard 9 with its buddy 5 and its reserve 6; or a reserve that guards module 7 of buddy 5. -/
def paired (reserve : Bool) (s : State) : State :=
  let r : Roles := ⟨some 5, some 6, 9, 10, reserve, 1, 2, 3, 63, [⟨0, 7, 11, 12, 5⟩], [], [], [⟨9, 1, 5⟩]⟩
  let s := ((s.setf (winBase .fab 0 + rFAB_MODULE_ID) 15 1 0).setf (winBase .fab 0 + rFAB_MODULE_ID) 0 15 1).wn (pr rPAIR_PEERS) (5 + 6 * 2 ^ 16)
  ({ s with cur := { s.cur with now := some { Plan.empty with roles := some r } } }).setPair 1

/-- A message of a type and sender to the Office. -/
def pairMsg (ty sender : Nat) (body : List Byte) (s : State) : State :=
  officeMsg (padTo 32 (leBytes 1 ty ++ leBytes 1 0 ++ leBytes 2 sender ++ leBytes 4 0 ++ body)) s

/-- A twin crate of four bytes that ends at the last byte of scratch. -/
def twin : Crate := { crateOf 0x12 4 with offset := 0x3FFFC, request := 9, epoch := 3 }

/-- First, second and stale copies. -/
theorem wit_TwinsAndDisputes_twins : let c := twin; let s := withCrate c (runs []);
    let seen := fun (n : Nat) (es : List TwinEntry) => { s with pair := { s.pair with newest := [(0, 9, n)], filter := es } };
    let e : TwinEntry := ⟨0, 9, 3, c.tensor, c.offset, c.srcModule + 1, false⟩;
    (s.fab.corridor[0]? = some c ∧ s.mayArrive 0 c = true ∧ s.routerBad 0 = false ∧ s.halted .sto = false ∧ s.pair.blocked = false
      ∧ s.landing 0 c = some .scratch ∧ (s.tile 0).scrErr = [] ∧ 4 < s.tensorFormat 0 c.tensor ∧ s.f (tk 0 63) 0 16 + c.ticketAdd ≤ 65535
      ∧ s.pair.filter = [] ∧ s.newestEpoch 0 9 = none)
    ∧ (let r := seen 3 [e]; r.mayArrive 0 c = true ∧ r.newestEpoch 0 9 = some c.epoch ∧ r.filterUsed 0 < 2048 ∧ e.src ≠ c.srcModule ∧ epochBefore e.epoch c.epoch = false)
    ∧ (let r := seen 4 []; r.mayArrive 0 c = true ∧ r.newestEpoch 0 9 = some 4 ∧ epochBefore c.epoch 4 = true) := by decide +kernel
/-- A late block; disputes and their answers; a self-test in IDLE. -/
theorem wit_TwinsAndDisputes_disputes : let s := paired false State.reset; let b : TwinBlock := ⟨0, 9, 3, 1, 0, [], 0, false⟩;
    let a : Arbitration := ⟨9, 3, true, some false, none, 0, false⟩; let u := tileIx 31 32;
    ({ s with pair := { s.pair with blocks := [b] } }).pair.blocks[0]? = some b
    ∧ (let r := pairMsg 0x44 6 (leBytes 2 9 ++ leBytes 2 0 ++ leBytes 4 3) s;
      r.fab.inbox.length = 1 ∧ (r.otherMember 9).isSome = true ∧ r.pair.arbs = [])
    ∧ (let r := pairMsg 0x45 5 (leBytes 2 9 ++ leBytes 2 0 ++ leBytes 4 3 ++ leBytes 1 1) { s with pair := { s.pair with arbs := [a] } };
      r.shardOf 9 = some (1, 5) ∧ r.otherMember 9 = some 5 ∧ r.pair.arbs = [a] ∧ r.pair.rebuilds = [])
    ∧ isTile u = true ∧ (State.reset.setTs u tsIDLE).ts u = tsIDLE := by decide +kernel
/-- Partners that are silent up to the threshold; the module that hears of a TAKEOVER; a module lost and handed over. -/
theorem wit_LossesAreSurvived : let s := paired false State.reset; let v := paired true State.reset;
    (s.roles.isSome = true ∧ s.buddy = some 5 ∧ s.reserveMod = some 6 ∧ s.partners = [5, 6] ∧ s.pairState = 1)
    ∧ (let r := s.wn (pr rPAIR_MISSED) 0xFEFE; s.lostThresh - 1 ≤ r.f (pr rPAIR_MISSED) 0 8 + 1 ∧ r.pairState ≠ 5)
    ∧ (let r := pairMsg 0x41 5 (leBytes 2 7) v; r.missedOf 7 = 0 ∧ 0 < r.lostThresh - 1 ∧ r.pairState ≠ 5 ∧ r.locked = false ∧ r.pair.lost = [])
    ∧ (let r := ({ pairMsg 0x41 5 (leBytes 2 7) v with pair := { v.pair with missed := [(7, 4)] } });
      r.lostThresh - 1 ≤ r.missedOf 7 ∧ r.f (pr rPAIR_STAT) 6 1 = 0 ∧ r.pair.numbers = [] ∧ r.myId ≠ 7 ∧ r.f (pr rPAIR_SUBST) 31 1 = 0)
    ∧ (s.unset = false ∧ s.myId = 1 ∧ (s.setPair 3).pairState = 3 ∧ (s.setPair 5).pairState = 5 ∧ s.pair.takeover = false) := by decide +kernel
/-- A rebuild this module is the source or the destination of; a stocktake in each of its states. -/
theorem wit_CopiesAndStocktakes : let s := paired false State.reset; let g : GroupRec := ⟨63, 6, 3, 0, 0, 0⟩; let w := withGroup g State.reset;
    let run := fun (a b st : Nat) => ({ s with pair := { s.pair with rebuilds := [⟨9, a, b, true⟩] } }).setPair st;
    s.roles.isSome = true ∧ s.myId = 1 ∧ (run 1 5 4).pairState = 4 ∧ (run 5 1 1).pairState = 1 ∧ (run 5 1 1).myId = 1
    ∧ w.group 63 = some g ∧ w.f (pr rPAIR_STOCKTAKE_STAT) 0 3 = 0 ∧ (w.wave 63).phase = 0
    ∧ (s.setf (pr rPAIR_STOCKTAKE_STAT) 0 3 3).f (pr rPAIR_STOCKTAKE_STAT) 0 3 = 3 ∧ s.buddy = some 5 := by decide +kernel

/-! ### Incidents and Lockdown -/

/-- Source `k` of the power block with policy register `p`, raised and pending. -/
def waits (b : Blk) (i k p : Nat) (s : State) : State :=
  ((s.wn (ir b i rINC_POLICY + 4 * k) p).setf (ir b i rINC_ACTION) k 1 1).setf (ir b i rINC_STAT) k 1 1

theorem wit_IncidentsAreActedOn : let s := State.reset.setf (ir .pwr 0 rINC_COUNT + 4 * 5) 0 8 1; let w := waits .pair 0 8 0x06000000 State.reset;
    let h := waits .wng 3 17 0x0A000000 State.reset; let l := waits .tile (tileIx 31 32) 10 0x0F000000 State.reset;
    (incBlock 13 0 = some .pwr ∧ s.f (ir .pwr 0 rINC_COUNT + 4 * 5) 0 8 ≠ 0 ∧ aget 0 s.inc.winEnd (ikey .pwr 0 5) ≤ s.nowOf .pwr 0)
    ∧ (let r := ({ s with inc := { s.inc with level := [(ikey .pwr 0 5, true)] } }); aget false r.inc.level (ikey .pwr 0 5) = true ∧ hasSource .pwr 5 = true
      ∧ r.incReached .pwr 0 = true ∧ r.incHeld .pwr = false ∧ r.f (ir .pwr 0 rINC_FORCE) 31 1 = 0)
    ∧ ((waits .pwr 0 5 0x0B000000 s).f (ir .pwr 0 rINC_ACTION) 5 1 = 1 ∧ levelSource .pwr 5 = true ∧ aget false s.inc.level (ikey .pwr 0 5) = false)
    ∧ (incBlock 10 0 = some .pair ∧ w.f (ir .pair 0 rINC_ACTION) 8 1 = 1 ∧ w.actOf .pair 0 8 = 1 ∧ w.sevOf .pair 0 8 ≠ 3 ∧ w.pairState ≠ 6)
    ∧ (incBlock 4 3 = some .wng ∧ h.f (ir .wng 3 rINC_ACTION) 17 1 = 1 ∧ h.actOf .wng 3 17 = 2 ∧ hasSource .wng 17 = true)
    ∧ (incBlock 1 (tileIx 31 32) = some .tile ∧ l.actOf .tile (tileIx 31 32) 10 = 3 ∧ l.sevOf .tile (tileIx 31 32) 10 = 3
      ∧ l.injOf .tile (tileIx 31 32) 10 = 0 ∧ l.incReached .tile (tileIx 31 32) = true ∧ l.incHeld .tile = false
      ∧ (l.tile (tileIx 31 32)).deferred = []) := by decide +kernel
theorem wit_IncidentsAreActedOn_policy : let s := State.reset.setf (ir .wng 3 rINC_STAT) 30 1 1;
    s.halted .wng 3 = true ∧ ((List.range 24).any fun k => bit (s.rn (ir .wng 3 rINC_STAT)) k && s.actOf .wng 3 k == 2) = false
    ∧ s.pwr.memWait = [] ∧ lockdownSource .wng 16 = true ∧ lockdownSource .wng 17 = false ∧ s.incReached .wng 3 = true ∧ s.incHeld .wng = false := by decide +kernel

/-- A module in Lockdown since reset under QUIET, 50 ms ago, with a number of QUIET exits. -/
def quiet (exits : List Nat) : State :=
  let s := slotIs 1 6 id (State.reset.setf lockStat 0 1 1)
  { s with cur := { s.cur with now := some { Plan.empty with sizeClass := 3 } }, timer := 50 * 200000, inc := { s.inc with exits := exits } }

theorem wit_LockdownIsEnteredAndLeft : let s := quiet []; let r := quiet [1, 2, 3];
    (State.reset.locked = false ∧ wardenSide .warden = true ∧ wardenSide .pf1 = false ∧ incBlock 0 0 = some .gal)
    ∧ (s.locked = true ∧ s.resetOnly = false ∧ s.causeHolds = false ∧ s.f lockStat 2 1 = 0 ∧ (s.setPair 6).resetOnly = true)
    ∧ (s.exitPolicy = 1 ∧ s.f lockStat 3 1 = 0 ∧ max s.inc.entered s.inc.lastRaise + s.f (winBase .rgs 0 + rRGS_LOCK_QUIET_TIME) 0 14 * 200000 ≤ s.timer
      ∧ s.recentExits < 3)
    ∧ (r.recentExits = 3 ∧ r.exitPolicy = 1 ∧ r.resetOnly = false)
    ∧ ¬ (max s.inc.entered s.inc.lastRaise + s.f (winBase .rgs 0 + rRGS_LOCK_QUIET_TIME) 0 14 * 200000 ≤ 50 * 200000 - 1) := by decide +kernel

/-- A register with a WDN field at the end of a block's map, one of RW fields, and addresses without a register,
the last doorbell page and the word after the doorbells among them. -/
theorem wit_RegisterWrites : let s := barsOpen State.reset;
    (s.barOpen .pf1 = true ∧ State.reset.barOpen .pf1 = false ∧ s.inRecovery = false)
    ∧ (plainReg .pwr rPWR_CAP = true ∧ blkOf (winBase .pwr 0 + rPWR_CAP) = some (.pwr, 0, rPWR_CAP) ∧ (regRow (winBase .pwr 0 + rPWR_CAP)).isSome = true)
    ∧ (plainReg .vlt rVLT_SCRUB_TIME = true ∧ (regRow (winBase .vlt 0 + rVLT_SCRUB_TIME)).isSome = true)
    ∧ (regRow 0x907FC = none ∧ regRow 0x225000 = none ∧ regRow 0x224000 = none ∧ blkOf 0x907FC = some (.sto, 0, 0x7FC))
    ∧ (s.windowReached .vlt 0 = true ∧ (s.mapTile bridgeTile fun x => { x with routerFailed := true }).windowReached .vlt 0 = false)
    ∧ (blkOf (winBase .cur 0 + rCUR_PAGE_THRESH) = some (.cur, 0, rCUR_PAGE_THRESH) ∧ s.readySlot = none)
    ∧ (s.setf bootStat 13 1 1).inRecovery = true := by decide +kernel

/-! ### Resets and power -/

/-- A reset message of the fabric at the Registrar. -/
def resetMsg (n : Nat) (s : State) : State :=
  { s with fab := { s.fab with regIn := [{ crateOf 0x11 48 with data := padTo 48 (leBytes 1 0 ++ leBytes 1 0xFF ++ leBytes 6 0 ++ leBytes 8 n) }] } }

theorem wit_ResetsRun : let s := State.reset; let up := ({ s.setf (winBase .sto 0 + rSTO_STAT) 1 1 0 with host := { s.host with linkUp := true } });
    (up.f bootStat 14 1 = 0 ∧ up.inRecovery = false ∧ up.host.linkUp = true ∧ up.f (winBase .sto 0 + rSTO_STAT) 1 1 = 0)
    ∧ (s.f galStat 0 1 = 0 ∧ s.f stateStat 0 3 ≠ 4 ∧ s.hangOut = false ∧ (s.setf galStat 0 1 1).f galStat 0 1 = 1 ∧ s.pwr.galWait = false ∧ s.pwr.memWait = [])
    ∧ (let r := resetMsg (2 ^ 64 - 1) s; let c := (r.fab.regIn[0]?).getD (crateOf 0 0);
      r.fab.regIn.length = 1 ∧ c.op = 0x11 ∧ at_ c.data 1 1 = 0xFF ∧ at_ c.data 8 8 = 2 ^ 64 - 1 ∧ at_ c.data 8 8 ∉ r.fab.resetSeen)
    ∧ s.f (winBase .fab 0 + rFAB_RESET_CFG) 0 1 = 1
    ∧ s.arch.life = none ∧ ({ s with arch := { s.arch with life := some 4 } }).arch.life = some 4
    ∧ ({ s with sec := { s.sec with lifecycle := some [] } }).sec.lifecycle = some [] := by decide +kernel

/-- A module in power state `now`, in A0 to A4, its firmware READY. -/
def inPower (now pending changing : Nat) : State :=
  (State.reset.wn stateStat (now + changing * 8 + pending * 16)).setf bootStat 14 1 1

theorem wit_PowerStatesChange : let s := inPower 0 0 0;
    (s.pairState = 0 ∧ (s.setPair 1).pairState = 1 ∧ s.hangState = 0 ∧ s.preparing = none ∧ s.locked = false ∧ s.f galStat 0 1 = 0 ∧ s.f bootStat 14 1 ≠ 0)
    ∧ ((hangs 2 s).hangState ≠ 0 ∧ (s.setf lockStat 0 1 1).locked = true ∧ (s.setf galStat 0 1 1).f galStat 0 1 = 1)
    ∧ (∀ e ∈ [(0, 1), (1, 0), (3, 4), (4, 0)], (inPower e.1 e.2 1).f stateStat 3 1 = 1 ∧ (inPower e.1 e.2 1).f stateStat 4 3 = e.2
      ∧ (inPower e.1 e.2 1).f stateStat 0 3 = e.1)
    ∧ (State.reset.setf (winBase .sto 0 + rSTO_STAT) 1 1 0).f (winBase .sto 0 + rSTO_STAT) 1 1 = 0 := by decide +kernel

/-! ### SPDM and the Warden port -/

/-- A module whose SPDM exchange stands at a stage with version 1.2. -/
def spdmAt (stage : Nat) : State :=
  { State.reset with host := { State.reset.host with linkUp := true }, sec := { State.reset.sec with spdmStage := stage, spdmVersion := 0x12 } }

theorem wit_SpdmAnswers : State.reset.hostOpen = false ∧ (barsOpen (spdmAt 3)).hostOpen = true ∧ (barsOpen (spdmAt 3)).inRecovery = false
    ∧ (spdmAt 3).host.linkUp = true ∧ (spdmAt 0).sec.spdmStage = 0
    ∧ (∀ e ∈ [(0x84, 0), (0xE1, 1), (0xE3, 2), (0x81, 3), (0x82, 3), (0x83, 3), (0xE0, 3), (0xFF, 2)],
      let b := payload [0x12, e.1, 0, 0]; 4 ≤ b.length ∧ at_ b 1 1 = e.1 ∧ e.2 ≤ (spdmAt 3).sec.spdmStage ∧ at_ b 0 1 = (spdmAt 3).sec.spdmVersion
      ∧ at_ b 2 1 % 16 = 0 ∧ at_ b 4 2 ≤ (spdmAt 3).arch.chain.length)
    ∧ (let b := payload [0x12, 0xE0, 1, 7]; at_ b 3 1 = 7 ∧ ((spdmAt 3).sec.measReg 7).length = 48)
    ∧ at_ (payload [0x12, 0x8F, 0, 0]) 1 1 ∉ spdmCodes := by decide +kernel

/-- A request of the Warden port: TYPE, KEY, COUNTER and body, 96 zero bytes for its signature. -/
def request (ty key counter : Nat) (body : List Byte) : List Nat :=
  natsOf (leBytes 4 0x4E445257 ++ leBytes 1 1 ++ leBytes 1 ty ++ leBytes 1 key ++ leBytes 1 0 ++ leBytes 8 counter ++ leBytes 8 0
    ++ leBytes 2 body.length ++ leBytes 6 0 ++ body ++ List.replicate 96 0)

/-- A module in a lifecycle state with an operator key enrolled. -/
def ownedIn (life : Nat) : State :=
  let s := State.reset.setf lifeReg 0 3 life
  { s with arch := { s.arch with operator := [7], config := leBytes 4 0x0A000001 } }

theorem wit_WardenRequestsAreChecked : let s := ownedIn 2; let m := payload (request 4 0 5 (leBytes 2 1600));
    s.inRecovery = false ∧ headerOk m = true ∧ bodyOk 4 (wBody m) = true ∧ at_ m 0x10 8 = s.serial ∧ s.counterMin 0 ≤ at_ m 8 8
    ∧ headerOk (payload ((request 4 0 5 (leBytes 2 1600)).set 7 1)) = false ∧ bodyOk 13 (leBytes 7 0) = false
    ∧ at_ (payload ((request 4 0 5 (leBytes 2 1600)).set 0x10 1)) 0x10 8 ≠ s.serial
    ∧ ({ s with arch := { s.arch with counters := [(0, 6)] } }).counterMin 0 = 6
    ∧ State.reset.wardenKey m = none ∧ s.maySend 12 0 [] = false ∧ s.maySend 4 0 (wBody m) = true
    ∧ ({ s with sec := { s.sec with lifecycle := some [] } }).wardenBusy 4 = true
    ∧ at_ s.arch.config 0 4 = 0x0A000001 := by decide +kernel
/-- One request of each TYPE as (lifecycle state, TYPE, KEY, body). -/
def wellSent : List (Nat × Nat × Nat × List Byte) :=
  [(2, 1, 0, []), (2, 2, 1, leBytes 4 0x10000 ++ leBytes 2 1), (2, 3, 0, leBytes 4 0x20008 ++ leBytes 4 470 ++ leBytes 4 0xFFFFFFFF),
    (2, 4, 0, leBytes 2 0xFFFF), (2, 5, 0, [3]), (2, 6, 0, 1 :: List.replicate 96 0), (2, 7, 0, [64]), (2, 8, 0, leBytes 4 0 ++ leBytes 2 40),
    (2, 9, 0, [1]), (2, 9, 0, [2]), (2, 10, 0, 3 :: List.replicate 97 0), (2, 11, 0, List.replicate 18 0),
    (1, 12, 2, leBytes 4 (2 ^ 20 - 1) ++ [9]), (0, 12, 2, []), (2, 13, 1, leBytes 1 5 ++ leBytes 4 0 ++ leBytes 2 1024)]

theorem wit_WardenRequestsTakeEffect : ∀ e ∈ wellSent, WellSent (ownedIn e.1) e.2.1 (payload (request e.2.1 e.2.2.1 5 e.2.2.2)) := by
  unfold WellSent; decide +kernel
theorem wit_WardenRequestsTakeEffect_slots : let s := ownedIn 2; let img := List.replicate 6 0 ++ [64];
    let r := s.setFwSlot 0 { s.fwSlot 0 with state := 4, image := img }; let st := s.setFwSlot 1 { s.fwSlot 1 with state := 1 };
    (st.fwSlot 1).state = 1 ∧ (s.fwSlot 0).state ≠ 1 ∧ (r.arch.fuse ≤ 64 ∧ r.activeSvn.any (fun v => decide (64 ≤ v)) = true)
    ∧ (s.setf lockStat 0 1 1).locked = true ∧ ((s.setf lockStat 0 1 1).setPair 6).resetOnly = true ∧ s.resetOnly = false ∧ s.causeHolds = false := by
  decide +kernel

end Sys2Proof.Tests
end

/-! PROOFS. Writes of registers (R7, R9, R453, R478, R488): what the fields of a row hold after a write of the whole word, which
writes come down to that alone, and what a write of CUR_PAGE_THRESH does besides (R204, R205). -/

namespace Sys2Proof.Machine

open Sys2Proof

/-! ### The register tables -/

/-- A row that is found is one of the table, and the offset is one of its registers'. -/
theorem findRow_spec {rows : List RegRow} {o : Nat} {r : RegRow} {k : Nat} (h : findRow rows o = some (r, k)) :
    r ∈ rows ∧ r.off ≤ o ∧ o < r.off + r.count * r.stride ∧ (o - r.off) % r.stride = 0 := by
  induction rows with
  | nil => cases h
  | cons x xs ih =>
    rw [findRow] at h
    split at h
    · next hx =>
      obtain ⟨rfl, -⟩ := Prod.mk.inj (Option.some.inj h)
      exact ⟨List.mem_cons_self .., hx⟩
    · obtain ⟨hm, ho⟩ := ih h
      exact ⟨List.mem_cons_of_mem _ hm, ho⟩

/-- The row of an address is the one that its block's table has at its offset. -/
theorem regRow_of_blkOf {a : Nat} {b : Blk} {i o : Nat} {r : RegRow} {k : Nat} (hb : blkOf a = some (b, i, o))
    (h : regRow a = some (b, i, r, k)) : findRow (rowsOf b) o = some (r, k) := by
  unfold regRow at h
  simp only [hb] at h
  split at h
  · cases h
  · next r' k' hf =>
    simp only [Option.some.injEq, Prod.mk.injEq, true_and] at h
    rw [hf, h.1, h.2]

/-- No bit belongs to both fields. -/
def RField.apart (f g : RField) : Bool := decide (f.lo + f.width ≤ g.lo) || decide (g.lo + g.width ≤ f.lo)

/-- A value that the range puts in the place of another still fits the field. -/
def Limit.fits (w : Nat) : Option Limit → Bool
  | some (.clamp lo _) => decide (lo < 2 ^ w)
  | some (.least m) => decide (m < 2 ^ w)
  | _ => true

/-- The fields of a row lie in its word and apart from each other, and their ranges fit them. -/
def RegRow.Sound (b : Blk) (r : RegRow) : Prop :=
  (∀ f ∈ r.fields, 0 < f.width ∧ f.lo + f.width ≤ 32 ∧ Limit.fits f.width (limitOf b r.off f.lo) = true)
    ∧ r.fields.Pairwise fun f g => f.apart g = true

theorem rowsOf_sound (b : Blk) : ∀ r ∈ rowsOf b, r.Sound b := by
  unfold RegRow.Sound
  cases b <;> decide +kernel

/-- The registers of a row at INC_POLICY's offset are incident registers, in every block (R445). -/
theorem rowsOf_incPolicy (b : Blk) : ∀ r ∈ rowsOf b, r.off = rINC_POLICY → r.count * r.stride ≤ 0x60 := by
  cases b <;> decide +kernel

/-! ### Addresses -/

/-- An address is its block's window and the offset in it. -/
theorem winBase_add_of_blkOf {a : Nat} {b : Blk} {i o : Nat} (h : blkOf a = some (b, i, o)) : winBase b i + o = a := by
  unfold blkOf at h
  simp only at h
  split at h
  case h_11 =>
    split_ifs at h <;> obtain ⟨rfl, rfl, rfl⟩ := by simpa using h
    all_goals simp only [winBase]; omega
  all_goals
    obtain ⟨rfl, rfl, rfl⟩ := by simpa using h
    simp only [winBase]; omega

/-- No record is written at a register whose write only stores fields. -/
theorem recordReg_of_plainReg {a : Nat} {b : Blk} {i o : Nat} (h : blkOf a = some (b, i, o)) (hp : plainReg b o = true) :
    recordReg a = false := by
  have ha := winBase_add_of_blkOf h
  have hw : 0x10000 ≤ winBase b i := by cases b <;> simp_all [plainReg, winBase]
  have hi : isIncReg o = false := by
    cases hi : isIncReg o
    · rfl
    · simp [plainReg, hi] at hp
  simp [recordReg, h, hi]; omega

/-! ### Fields after a write -/

/-- A field reads as before where fields apart from it are set. -/
theorem fld_foldl_setFld_apart (g : RField → Nat) {f : RField} {fs : List RField} (h : ∀ x ∈ fs, f.apart x = true) (w : Nat) :
    fld (fs.foldl (fun w x => setFld w x.lo x.width (g x)) w) f.lo f.width = fld w f.lo f.width := by
  induction fs generalizing w with
  | nil => rfl
  | cons x xs ih =>
    obtain ⟨hx, hxs⟩ := List.forall_mem_cons.1 h
    rw [List.foldl_cons, ih hxs]
    simp only [RField.apart, Bool.or_eq_true, decide_eq_true_eq] at hx
    rcases hx with hx | hx
    · exact fld_setFld_below _ _ _ _ _ _ hx
    · exact fld_setFld_above _ _ _ _ _ _ hx

/-- Of fields that lie apart, each reads what was set in it. -/
theorem fld_foldl_setFld (g : RField → Nat) {fs : List RField} (hp : fs.Pairwise fun f x => f.apart x = true) {f : RField} (hf : f ∈ fs)
    (w : Nat) : fld (fs.foldl (fun w x => setFld w x.lo x.width (g x)) w) f.lo f.width = g f % 2 ^ f.width := by
  induction fs generalizing w with
  | nil => cases hf
  | cons x xs ih =>
    obtain ⟨hx, hxs⟩ := List.pairwise_cons.1 hp
    rcases List.mem_cons.1 hf with rfl | hf
    · rw [List.foldl_cons, fld_foldl_setFld_apart g hx, fld_setFld_same]
    · exact ih hxs hf _

/-- Fields set within a word leave a word. -/
theorem foldl_setFld_lt (g : RField → Nat) {fs : List RField} (h : ∀ f ∈ fs, f.lo + f.width ≤ 32) {w : Nat} (hw : w < 2 ^ 32) :
    fs.foldl (fun w x => setFld w x.lo x.width (g x)) w < 2 ^ 32 := by
  induction fs generalizing w with
  | nil => exact hw
  | cons x xs ih =>
    obtain ⟨hx, hxs⟩ := List.forall_mem_cons.1 h
    exact ih hxs (setFld_lt hw hx)

/-- What a field that held `o` holds once the side wrote `v` to it (R7). -/
def RField.written (b : Blk) (off : Nat) (side : Side) (f : RField) (o v : Nat) : Nat :=
  match f.acc with
  | .rw => Limit.take (limitOf b off f.lo) o v
  | .wdn => if wardenSide side then Limit.take (limitOf b off f.lo) o v else o
  | .w1c => o ^^^ (o &&& v)
  | .w1s => o ||| v
  | .ro | .wo => o

/-- A field of the word of ones holds ones. -/
theorem fld_ones {lo w : Nat} (h : lo + w ≤ 32) : fld 0xFFFFFFFF lo w = 2 ^ w - 1 := by
  apply Nat.eq_of_testBit_eq
  intro j
  have e : (0xFFFFFFFF : Nat) = 2 ^ 32 - 1 := rfl
  simp only [fld, e, Nat.testBit_mod_two_pow, Nat.testBit_div_two_pow, Nat.testBit_two_pow_sub_one]
  by_cases hj : j < w
  · have : j + lo < 32 := by omega
    simp [hj, this]
  · simp [hj]

/-- Bits taken out of a number that holds them with others. -/
theorem or_xor_right (o v : Nat) : (o ||| v) ^^^ v = o ^^^ (o &&& v) := by
  apply Nat.eq_of_testBit_eq
  intro j
  simp only [Nat.testBit_xor, Nat.testBit_or, Nat.testBit_and]
  cases o.testBit j <;> cases v.testBit j <;> rfl

/-- A write of the whole word puts the field's own part of it under its access. -/
theorem fieldAfter_ones (b : Blk) (off : Nat) (side : Side) (w old : Nat) {f : RField} (h0 : 0 < f.width) (h : f.lo + f.width ≤ 32) :
    fieldAfter b off side w 0xFFFFFFFF old f = f.written b off side (fld old f.lo f.width) (fld w f.lo f.width) := by
  have hm : ∀ x, x < 2 ^ f.width → x &&& (2 ^ f.width - 1) = x := fun x hx => by
    rw [Nat.and_two_pow_sub_one_eq_mod, Nat.mod_eq_of_lt hx]
  have h1 : 2 ^ f.width - 1 ≠ 0 := by
    have := Nat.one_lt_two_pow (n := f.width) (by omega)
    omega
  unfold fieldAfter RField.written
  simp only [fld_ones h, hm _ (fld_lt _ _ _), Nat.xor_self, Nat.zero_or, Nat.mod_eq_of_lt (fld_lt w f.lo f.width), or_xor_right]
  cases f.acc <;> cases wardenSide side <;> simp [h1]

theorem Limit.take_lt {l : Option Limit} {w o v : Nat} (hl : Limit.fits w l = true) (ho : o < 2 ^ w) (hv : v < 2 ^ w) :
    Limit.take l o v < 2 ^ w := by
  rcases l with _ | ⟨lo, hi⟩ | hi | m | x
  case none => exact hv
  case some.clamp => simp only [Limit.fits, decide_eq_true_eq] at hl; simp only [Limit.take]; omega
  case some.nonzero => simp only [Limit.take]; split <;> omega
  case some.least => simp only [Limit.fits, decide_eq_true_eq] at hl; simp only [Limit.take]; split <;> omega
  case some.notEqual => simp only [Limit.take]; split <;> assumption

theorem RField.written_lt {b : Blk} {off : Nat} (side : Side) {f : RField} {o v : Nat} (hl : Limit.fits f.width (limitOf b off f.lo) = true)
    (ho : o < 2 ^ f.width) (hv : v < 2 ^ f.width) : f.written b off side o v < 2 ^ f.width := by
  have ht := Limit.take_lt hl ho hv
  unfold RField.written
  split
  · exact ht
  · split <;> assumption
  · exact Nat.xor_lt_two_pow ho (Nat.and_lt_two_pow _ hv)
  · exact Nat.or_lt_two_pow ho hv
  · exact ho
  · exact ho

/-- Once a register stores a write of the whole word, each field holds what its access makes of its part. -/
theorem State.f_wn_valueAfter (s : State) (a : Nat) {b : Blk} {r : RegRow} (hr : r.Sound b) (side : Side) (w : Nat) {f : RField}
    (hf : f ∈ r.fields) : (s.wn a (valueAfter b r side w 0xFFFFFFFF (s.rn a))).f a f.lo f.width
      = f.written b r.off side (s.f a f.lo f.width) (fld w f.lo f.width) := by
  obtain ⟨hin, hapart⟩ := hr
  obtain ⟨h0, h32, hfit⟩ := hin f hf
  have hlt := foldl_setFld_lt (fieldAfter b r.off side w 0xFFFFFFFF (s.rn a)) (fun x hx => (hin x hx).2.1) (s.rn_lt a)
  simp only [State.f, State.rn_wn_same]
  rw [Nat.mod_eq_of_lt (show valueAfter b r side w 0xFFFFFFFF (s.rn a) < 2 ^ 32 from hlt), valueAfter, fld_foldl_setFld _ hapart hf,
    fieldAfter_ones _ _ _ _ _ h0 h32]
  exact Nat.mod_eq_of_lt (RField.written_lt side hfit (fld_lt _ _ _) (fld_lt _ _ _))

/-! ### Writes that only store fields -/

/-- A register whose write only stores fields is neither INC_POLICY nor CUR_PAGE_THRESH. -/
theorem off_of_plainReg {b : Blk} {o k : Nat} {r : RegRow} (hf : findRow (rowsOf b) o = some (r, k)) (hp : plainReg b o = true) :
    r.off ≠ rINC_POLICY ∧ (b = .cur → r.off ≠ rCUR_PAGE_THRESH) := by
  obtain ⟨hm, hlo, hhi, hmod⟩ := findRow_spec hf
  constructor
  · intro e
    have hc := rowsOf_incPolicy b r hm e
    simp only [rINC_POLICY] at e
    have : isIncReg o = true := by simp only [isIncReg, Bool.and_eq_true, decide_eq_true_eq]; omega
    simp [plainReg, this] at hp
  · rintro rfl e
    have hrow : ∀ r ∈ rowsOf .cur, r.off = rCUR_PAGE_THRESH → r.count * r.stride = 4 ∧ r.stride = 4 := by decide +kernel
    obtain ⟨hc, hs⟩ := hrow r hm e
    rw [hs] at hmod
    have : o = rCUR_PAGE_THRESH := by omega
    simp [plainReg, this] at hp

/-- A write stores the fields, and no more, where the register is none of those whose write a chapter checks. -/
theorem State.regStore_plain (s : State) {a : Nat} {b : Blk} {i o k : Nat} {r : RegRow} (hb : blkOf a = some (b, i, o))
    (hr : regRow a = some (b, i, r, k)) (hp : plainReg b o = true) (w m : Nat) (side : Side) :
    s.regStore a w m side = s.wn a (valueAfter b r side w m (s.rn a)) := by
  obtain ⟨hpol, hthr⟩ := off_of_plainReg (regRow_of_blkOf hb hr) hp
  have hw : b ≠ .wng ∧ b ≠ .col ∧ b ≠ .lmp := by cases b <;> simp_all [plainReg]
  have ht : (decide (b = .cur) && r.off == rCUR_PAGE_THRESH) = false := by simpa using hthr
  unfold State.regStore
  simp [hr, hpol, hw, ht, State.swapAbove]

/-- The state in which a write that may count in FILTER_REJECT stores its fields (R7). -/
def State.counted (s : State) (b : Blk) (r : RegRow) (side : Side) (w old : Nat) : State :=
  if filtered b r side w old 32 then s.filterReject else s

theorem State.filterReject_frame (s : State) : RecordFrame s s.filterReject := State.event_frame s rfl _ _ _ _

theorem State.counted_frame (s : State) (b : Blk) (r : RegRow) (side : Side) (w old : Nat) : RecordFrame s (s.counted b r side w old) :=
  RecordFrame.ite s.filterReject_frame (RecordFrame.refl s)

/-- Without a WDN field there is nothing to count. -/
theorem State.counted_eq (s : State) {b : Blk} {r : RegRow} (h : r.fields.all (fun f => f.acc != .wdn) = true) (side : Side) (w old : Nat) :
    s.counted b r side w old = s := by
  have : filtered b r side w old 32 = false := by
    simp only [List.all_eq_true, bne_iff_ne] at h
    simp only [filtered, Bool.and_eq_false_imp, List.any_eq_false]
    intro _ f hf
    simp [h f hf]
  simp [State.counted, this]

/-- A write of the whole of a register is counted, if it is to be, and then stored. -/
theorem State.plainWrite_ones (s : State) {a : Nat} {b : Blk} {i k : Nat} {r : RegRow} (hr : regRow a = some (b, i, r, k)) {v : Nat} (hv : v < 2 ^ 32)
    (side : Side) : s.plainWrite a v 0xFFFFFFFF side = (s.counted b r side v (s.rn a)).regStore a v 0xFFFFFFFF side := by
  have e : v &&& 0xFFFFFFFF = v := by
    rw [show (0xFFFFFFFF : Nat) = 2 ^ 32 - 1 from rfl, Nat.and_two_pow_sub_one_eq_mod, Nat.mod_eq_of_lt hv]
  unfold State.plainWrite
  simp [hr, e, State.counted]

/-! ### The way of a write to its register -/

/-- Offsets of a block's window whose write only stores fields reach `plainWrite`. -/
theorem State.blockWrite_plain (s : State) {b : Blk} {o : Nat} (hp : plainReg b o = true) (i v m : Nat) (side : Side) :
    s.blockWrite b i o v m side = s.plainWrite (winBase b i + o) v m side := by
  cases b <;> simp_all [plainReg, State.blockWrite]

/-- REGISTER_WRITE of an aligned word by a side that reaches BAR0. -/
theorem execRegisterWrite_open (s : State) {a v : Nat} {side : Side} (hv : v < 2 ^ 32) (h : wardenSide side = true ∨ s.barOpen side = true) :
    exec (.registerWrite a v side) s = .next (s.writeReg a v 0xFFFFFFFF side) := by
  show execRegisterWrite a v side s = _
  rw [execRegisterWrite, Nat.mod_eq_of_lt hv, if_neg]
  rcases h with h | h <;> simp [h]

/-- REGISTER_WRITE through a function whose BARs do not decode. -/
theorem execRegisterWrite_closed (s : State) (a v : Nat) {side : Side} (hw : wardenSide side = false) (hb : s.barOpen side = false) :
    exec (.registerWrite a v side) s = .next s := by
  show execRegisterWrite a v side s = _
  simp [execRegisterWrite, hw, hb]

/-- A write that meets no register leaves the state (R9), a doorbell page apart (R456). -/
theorem State.writeReg_none (s : State) {a : Nat} (hr : regRow a = none) (hd : 0x200000 ≤ a ∧ a < 0x225000 ∧ a % 0x1000 = 0 → False) (v m : Nat)
    (side : Side) : s.writeReg a v m side = s := by
  unfold State.writeReg
  split
  · rfl
  · split
    · have hpage : s.pageWrite a (v &&& m) side = s := by
        unfold State.pageWrite
        exact if_neg fun ⟨h1, h2, h3⟩ => hd ⟨h1, by omega, h3⟩
      rw [hpage, ite_self]
    · simp [hr]

/-- A write in RECOVERY to a block but HST_, or to the Vault past a failed bridge, leaves the state (R12, R478). -/
theorem State.writeReg_held (s : State) {a : Nat} {b : Blk} {i o : Nat} (hb : blkOf a = some (b, i, o))
    (h : (s.inRecovery = true ∧ b ≠ .hst) ∨ (b = .vlt ∧ s.routerBad bridgeTile = true)) (v m : Nat) (side : Side) : s.writeReg a v m side = s := by
  unfold State.writeReg
  split
  · rfl
  · rcases h with ⟨h, hn⟩ | ⟨rfl, h⟩ <;> simp_all

/-- A write that nothing stops reaches the block's window. -/
theorem State.writeReg_reached (s : State) {a : Nat} {b : Blk} {i o : Nat} (hb : blkOf a = some (b, i, o)) (ha : a % 4 = 0)
    (hr : (regRow a).isSome = true) (hrec : s.inRecovery = false) (hwin : s.windowReached b i = true) (htile : b ≠ .tile) (hinc : isIncReg o = false)
    (v m : Nat) (side : Side) : s.writeReg a v m side = s.blockWrite b i o v m side := by
  have hbridge : (b == .vlt && s.routerBad bridgeTile) = false := by
    cases b <;> simp_all [State.windowReached]
  obtain ⟨x, hx⟩ := Option.isSome_iff_exists.1 hr
  simp [State.writeReg, ha, hb, hx, hrec, hbridge, htile, hinc]

/-- A window of these blocks that an access does not reach is the Vault's, behind the failed bridge (R12, R15). -/
theorem State.windowReached_plain (s : State) {b : Blk} {i o : Nat} (hp : plainReg b o = true) (h : s.windowReached b i = false) :
    b = .vlt ∧ s.routerBad bridgeTile = true := by
  cases b <;> simp_all [plainReg, State.windowReached]

theorem State.readReg_none (s : State) {a : Nat} (hr : regRow a = none) : s.readReg a = (0, s) := by
  unfold State.readReg
  split
  · rfl
  · simp [hr]

/-- REGISTER_WRITE of a register whose write only stores fields: the write is counted, if it is to be, and the register stored. -/
theorem execRegisterWrite_plain (s : State) {a v : Nat} {side : Side} {b : Blk} {i o k : Nat} {r : RegRow} (hv : v < 2 ^ 32) (ha : a % 4 = 0)
    (hb : blkOf a = some (b, i, o)) (hr : regRow a = some (b, i, r, k)) (hside : wardenSide side = true ∨ s.barOpen side = true)
    (hp : plainReg b o = true) (hrec : s.inRecovery = false) (hwin : s.windowReached b i = true) :
    exec (.registerWrite a v side) s
      = .next ((s.counted b r side v (s.rn a)).wn a (valueAfter b r side v 0xFFFFFFFF ((s.counted b r side v (s.rn a)).rn a))) := by
  have htile : b ≠ .tile := by rintro rfl; simp [plainReg] at hp
  have hinc : isIncReg o = false := by simp only [plainReg, Bool.and_eq_true, Bool.not_eq_true'] at hp; exact hp.1
  rw [execRegisterWrite_open s hv hside, s.writeReg_reached hb ha (by simp [hr]) hrec hwin htile hinc, s.blockWrite_plain hp,
    winBase_add_of_blkOf hb, s.plainWrite_ones hr hv, State.regStore_plain _ hb hr hp]

/-! ### CUR_PAGE_THRESH (R204, R205) -/

/-- CUR_PAGE_THRESH. -/
def pageThresh : Nat := winBase .cur 0 + rCUR_PAGE_THRESH

theorem recordReg_pageThresh : recordReg pageThresh = false := by decide

/-- An event of the Curator leaves CUR_PAGE_THRESH. -/
theorem State.rd_pageThresh_event (s : State) (k d : Nat) : (s.event .cur 0 k d).rd pageThresh = s.rd pageThresh :=
  State.event_frame s rfl k d false true _ List.not_mem_nil recordReg_pageThresh

theorem State.rd_pageThresh_postRetired (s : State) (t d x : Nat) : (s.postRetired t d x).rd pageThresh = s.rd pageThresh :=
  State.postEvent_frame s .cur _ _ _ _ List.not_mem_nil recordReg_pageThresh

theorem State.rd_pageThresh_rejectSlot (s : State) (k c d : Nat) : (s.rejectSlot k c d).rd pageThresh = s.rd pageThresh := by
  have hs : pageThresh ≠ winBase .pln 0 + rPLN_SLOT_STAT + 0x20 * k := by
    simp only [pageThresh, winBase, rCUR_PAGE_THRESH, rPLN_SLOT_STAT]; omega
  have hd : pageThresh ≠ winBase .pln 0 + rPLN_SLOT_DETAIL + 0x20 * k := by
    simp only [pageThresh, winBase, rCUR_PAGE_THRESH, rPLN_SLOT_DETAIL]; omega
  unfold State.rejectSlot State.setSlotState State.setf State.wn
  simp only [State.rd_wr_ne _ _ hs, State.rd_wr_ne _ _ hd]

theorem State.rd_pageThresh_powerTile (s : State) (t : Nat) : (s.powerTile t).rd pageThresh = s.rd pageThresh := by
  have h : pageThresh ≠ tr t rTILE_STATE := by simp only [pageThresh, tr, winBase, rCUR_PAGE_THRESH, rTILE_STATE]; omega
  unfold State.powerTile
  split
  · exact State.rd_wr_ne _ _ h
  · rfl

theorem State.rd_mapSlot (s : State) (k : Nat) (g : Slot → Slot) (a : Nat) : (s.mapSlot k g).rd a = s.rd a := rfl

theorem State.rd_preloadTile (s : State) (t : Nat) (steps : List Word64) (a : Nat) : (s.preloadTile t steps).rd a = s.rd a := rfl

/-- A choice drawn only where there is one to make writes no register. -/
theorem State.rd_drawAmong (s : State) (p : Prop) [Decidable p] (n a : Nat) : (if p then (0, s) else s.draw n).2.rd a = s.rd a := by
  split <;> rfl

/-- The re-preparation of an exhibit leaves CUR_PAGE_THRESH, rejected or not. -/
theorem State.rd_pageThresh_reprepare (s : State) (k t x : Nat) (pl : Placement) (p : Plan) :
    (s.reprepare k t x pl p).rd pageThresh = s.rd pageThresh := by
  unfold State.reprepare
  dsimp only
  split
  · rw [State.rd_pageThresh_postRetired, State.rd_pageThresh_event, State.rd_pageThresh_rejectSlot]
  · rw [State.rd_mapSlot, State.rd_preloadTile, State.rd_pageThresh_powerTile, State.rd_drawAmong]

theorem State.rd_pageThresh_fallDue (s : State) (t : Nat) : (s.fallDue t).rd pageThresh = s.rd pageThresh := by
  unfold State.fallDue
  split
  · rfl
  · split
    · rfl
    · split
      · split
        · exact State.rd_pageThresh_reprepare _ _ _ _ _ _
        · rfl
      · rfl

theorem State.rd_pageThresh_wornSince (s old : State) : (s.wornSince old).rd pageThresh = s.rd pageThresh := by
  unfold State.wornSince
  generalize List.filter _ _ = ts
  induction ts generalizing s with
  | nil => rfl
  | cons t ts ih => rw [List.foldl_cons, ih, State.rd_pageThresh_fallDue]

/-- Without a READY slot nothing is re-prepared: a tile that falls due is at most left to the hang after (R205). -/
theorem State.fallDue_of_not_ready {s : State} (h : s.readySlot = none) (t : Nat) : ∃ c, s.fallDue t = { s with cur := c } := by
  unfold State.fallDue
  split
  · exact ⟨_, rfl⟩
  · rw [h]; exact ⟨s.cur, rfl⟩

theorem State.wornSince_of_not_ready {s : State} (h : s.readySlot = none) (old : State) : ∃ c, s.wornSince old = { s with cur := c } := by
  unfold State.wornSince
  generalize List.filter _ _ = ts
  induction ts generalizing s with
  | nil => exact ⟨s.cur, rfl⟩
  | cons t ts ih =>
    obtain ⟨c, hc⟩ := State.fallDue_of_not_ready h t
    rw [List.foldl_cons, hc]
    exact ih (s := { s with cur := c }) h

/-- The READY slot does not depend on CUR_PAGE_THRESH. -/
theorem State.readySlot_wn_pageThresh (s : State) (v : Nat) : (s.wn pageThresh v).readySlot = s.readySlot := by
  have h : ∀ k, (s.wn pageThresh v).slotState k = s.slotState k := fun k => by
    unfold State.slotState State.f
    rw [State.rn_wn_ne _ _ (by simp only [pageThresh, winBase, rCUR_PAGE_THRESH, rPLN_SLOT_STAT]; omega)]
  simp only [State.readySlot, h]

/-- The row of CUR_PAGE_THRESH (R212). -/
def pageThreshRow : RegRow := ⟨0x10, 1, 4, [⟨0, 11, .rw, 0x40, .mod⟩]⟩

theorem regRow_pageThresh : regRow pageThresh = some (.cur, 0, pageThreshRow, 0) := by decide +kernel

/-- REGISTER_WRITE of CUR_PAGE_THRESH: the register stored, then what becomes of the tiles that now fall due. -/
theorem execRegisterWrite_pageThresh (s : State) {v : Nat} {side : Side} (hv : v < 2 ^ 32)
    (hside : wardenSide side = true ∨ s.barOpen side = true) (hrec : s.inRecovery = false) :
    exec (.registerWrite pageThresh v side) s
      = .next ((s.wn pageThresh (valueAfter .cur pageThreshRow side v 0xFFFFFFFF (s.rn pageThresh))).wornSince s) := by
  have hb : blkOf pageThresh = some (.cur, 0, rCUR_PAGE_THRESH) := by decide
  have hblock : s.blockWrite .cur 0 rCUR_PAGE_THRESH v 0xFFFFFFFF side = s.plainWrite pageThresh v 0xFFFFFFFF side := by
    simp [State.blockWrite, pageThresh, rCUR_PAGE_THRESH, rCUR_CAT_INDEX, rCUR_PLACE_INDEX]
  rw [execRegisterWrite_open s hv hside, s.writeReg_reached hb (by decide) (by simp [regRow_pageThresh]) hrec rfl (by decide) (by decide), hblock,
    s.plainWrite_ones regRow_pageThresh hv, s.counted_eq (by decide)]
  unfold State.regStore
  simp [regRow_pageThresh, pageThreshRow, rINC_POLICY, rCUR_PAGE_THRESH]

theorem pageThreshRow_sound : pageThreshRow.Sound .cur := rowsOf_sound .cur _ (findRow_spec (o := 0x10) (k := 0) (by decide)).1

/-- CUR_PAGE_THRESH takes its value, cut to 1024, unless it is 0; without a READY slot no other register changes, and only the Curator does. -/
theorem registerWrite_pageThresh (s : State) {v : Nat} {side : Side} (hv : v < 2 ^ 32)
    (hside : wardenSide side = true ∨ s.barOpen side = true) (hrec : s.inRecovery = false) :
    ∃ t, exec (.registerWrite pageThresh v side) s = .next t
      ∧ t.f pageThresh 0 11 = (if fld v 0 11 = 0 then s.f pageThresh 0 11 else min 1024 (fld v 0 11))
      ∧ (s.readySlot = none → OnlyRegs s { t with cur := s.cur } ∧ RegsBut [pageThresh] s t) := by
  refine ⟨_, execRegisterWrite_pageThresh s hv hside hrec, ?_, fun h => ?_⟩
  · have hf := s.f_wn_valueAfter pageThresh pageThreshRow_sound side v (f := ⟨0, 11, .rw, 0x40, .mod⟩) (List.mem_cons_self ..)
    have hl : limitOf .cur pageThreshRow.off 0 = some (.nonzero 1024) := by decide
    unfold State.f State.rn at hf ⊢
    rw [State.rd_pageThresh_wornSince]
    simpa only [RField.written, hl, Limit.take] using hf
  · obtain ⟨c, hc⟩ := State.wornSince_of_not_ready (s := s.wn pageThresh (valueAfter .cur pageThreshRow side v 0xFFFFFFFF (s.rn pageThresh)))
      (by rw [State.readySlot_wn_pageThresh, h]) s
    rw [hc]
    exact ⟨rfl, RegsBut.wn s pageThresh _⟩

/-! ### The statement -/

/-- A register whose write only stores fields: every field as its access says, only the register and records written, and without a
WDN field the register alone. -/
theorem registerWrite_plain (s : State) {a v : Nat} {side : Side} {b : Blk} {i o k : Nat} {r : RegRow} (hv : v < 2 ^ 32) (ha : a % 4 = 0)
    (hb : blkOf a = some (b, i, o)) (hr : regRow a = some (b, i, r, k)) (hside : wardenSide side = true ∨ s.barOpen side = true)
    (hp : plainReg b o = true) (hrec : s.inRecovery = false) (hwin : s.windowReached b i = true) :
    ∃ t, exec (.registerWrite a v side) s = .next t ∧ RegsButRecords [a] s t
      ∧ (r.fields.all (fun f => f.acc != .wdn) = true → OnlyRegs s t ∧ RegsBut [a] s t)
      ∧ ∀ f ∈ r.fields, t.f a f.lo f.width = f.written b r.off side (s.f a f.lo f.width) (fld v f.lo f.width) := by
  have hframe := s.counted_frame b r side v (s.rn a)
  refine ⟨_, execRegisterWrite_plain s hv ha hb hr hside hp hrec hwin, ?_, fun hw => ?_, fun f hf => ?_⟩
  · exact RegsButRecords.trans (RegsButRecords.mono (by simp) hframe) (RegsBut.wn _ a _).records
  · rw [s.counted_eq hw]
    exact ⟨OnlyRegs.wn s a _, RegsBut.wn s a _⟩
  · have hsound := rowsOf_sound b r (findRow_spec (regRow_of_blkOf hb hr)).1
    have hold : (s.counted b r side v (s.rn a)).f a f.lo f.width = s.f a f.lo f.width := by
      rw [State.f, State.rn, hframe a List.not_mem_nil (recordReg_of_plainReg hb hp)]; rfl
    rw [State.f_wn_valueAfter _ a hsound side v hf, hold]

/-- Settles O55: a write that is stopped on its way leaves the state; one that reaches its register stores the fields under their access. -/
theorem registerWrites : Obligations.RegisterWrites := by
  intro s a v side hv ha
  refine ⟨fun hr hd => ⟨s.readReg_none hr, ?_⟩, fun hw hbar => ⟨s, execRegisterWrite_closed s a v hw hbar, rfl⟩, fun b i o hb hside => ?_⟩
  · cases hreach : (wardenSide side || s.barOpen side)
    · obtain ⟨hw, hbar⟩ := Bool.or_eq_false_iff.1 hreach
      exact ⟨s, execRegisterWrite_closed s a v hw hbar, rfl⟩
    · exact ⟨_, execRegisterWrite_open s hv (Bool.or_eq_true_iff.1 hreach), s.writeReg_none hr hd _ _ _⟩
  · refine ⟨fun hrec hn => ?_, fun hwin hp => ?_, fun hcur ho hrec => ?_, fun hp hrec hwin r k hr => ?_⟩
    · exact ⟨_, execRegisterWrite_open s hv hside, s.writeReg_held hb (.inl ⟨hrec, hn⟩) _ _ _⟩
    · exact ⟨_, execRegisterWrite_open s hv hside, s.writeReg_held hb (.inr (s.windowReached_plain hp hwin)) _ _ _⟩
    · subst hcur ho
      obtain rfl : pageThresh = a := (winBase_add_of_blkOf hb : winBase .cur i + rCUR_PAGE_THRESH = a)
      exact registerWrite_pageThresh s hv hside hrec
    · obtain ⟨t, ht, hrecs, honly, hfields⟩ := registerWrite_plain s hv ha hb hr hside hp hrec hwin
      refine ⟨t, ht, hrecs, honly, fun f hf => ?_⟩
      dsimp only
      rw [hfields f hf]
      unfold RField.written Limit.take
      cases f.acc <;> rfl

end Sys2Proof.Machine

/-! PROOFS. A step (R22, log entry 6): the command at the front of the queue, or one period of the Registrar timer. -/

namespace Sys2Proof.Machine

open Sys2Proof

/-! ### One period of the timer -/

/-- Nothing but registers and tiles differs. -/
def OnlyRegsTiles (s t : State) : Prop := t = { s with regs := t.regs, tiles := t.tiles }

theorem OnlyRegsTiles.refl (s : State) : OnlyRegsTiles s s := rfl

theorem OnlyRegsTiles.trans {s t u : State} (h : OnlyRegsTiles s t) (k : OnlyRegsTiles t u) : OnlyRegsTiles s u := by
  unfold OnlyRegsTiles at *
  rw [k, h]

/-- What differs in registers alone differs in registers and tiles alone. -/
theorem OnlyRegs.tiles {s t : State} (h : OnlyRegs s t) : OnlyRegsTiles s t := by
  unfold OnlyRegs at h
  unfold OnlyRegsTiles
  rw [h]

/-- Without a calibration record due, none is written (R366). -/
theorem State.writeCalRecs_of_none {s : State} (h : s.light.calDue = []) : s.writeCalRecs = s := by
  unfold State.writeCalRecs
  rw [h]
  rfl

/-- Arming the tiles of a hang writes PLN_HANG_STAT and nothing else (R195). -/
theorem State.armed_onlyRegs (s : State) : OnlyRegs s s.armed := by
  unfold State.armed
  dsimp only
  split
  · exact OnlyRegs.setf s _ _ _ _
  · exact OnlyRegs.refl s

theorem State.locked_armed (s : State) : s.armed.locked = s.locked := by
  unfold State.armed
  dsimp only
  split
  · unfold State.locked
    rw [State.f_setf_ne _ _ _ _ _ _ (by decide)]
  · rfl

/-- Without a wave in progress, none goes on (R312). -/
theorem State.pushWaves_of_idle {s : State} (h : ∀ e ∈ s.fab.waves, e.2.phase = 0) : s.pushWaves = s := by
  have hnone : (s.fab.waves.filter fun e => e.2.phase != 0) = [] :=
    List.filter_eq_nil_iff.2 fun e he => by simp [h e he]
  unfold State.pushWaves
  rw [hnone]
  rfl

/-- Out of Lockdown the Store does not go to rest (R437). -/
theorem State.storeRest_of_unlocked {s : State} (h : s.locked = false) : s.storeRest = s := by
  simp [State.storeRest, h]

/-- An island's cycles change its tile and its counters alone (R105). -/
theorem State.tileTick_onlyRegsTiles (s : State) (u : Nat) : OnlyRegsTiles s (s.tileTick u) := by
  unfold State.tileTick OnlyRegsTiles
  dsimp only
  split
  · rfl
  · split
    · rfl
    · split <;> rfl

theorem State.foldl_tileTick_onlyRegsTiles (us : List Nat) (s : State) :
    OnlyRegsTiles s (us.foldl (fun st u => st.tileTick u) s) := by
  induction us generalizing s with
  | nil => exact OnlyRegsTiles.refl s
  | cons u us ih => exact (s.tileTick_onlyRegsTiles u).trans (ih _)

/-- The timer one period on. -/
def State.timerOn (s : State) : State := { s with timer := (s.timer + 1) % 2 ^ 64 }

/-- A period in which no calibration record falls due, no wave is in progress and the module is not in Lockdown: the tiles of a hang
are armed, and the islands run. -/
theorem State.tick_of_quiet {s : State} (hcal : s.light.calDue = []) (hwaves : ∀ e ∈ s.fab.waves, e.2.phase = 0) (hlock : s.locked = false) :
    s.tick = if s.timerOn.armed.asleep then s.timerOn.armed
      else s.timerOn.armed.poweredTiles.foldl (fun st u => st.tileTick u) s.timerOn.armed := by
  have hwaves' : ∀ e ∈ s.timerOn.armed.fab.waves, e.2.phase = 0 := by
    rw [s.timerOn.armed_onlyRegs]; exact hwaves
  have hrest : s.timerOn.writeCalRecs.armed.pushWaves.storeRest = s.timerOn.armed := by
    rw [State.writeCalRecs_of_none (s := s.timerOn) hcal, State.pushWaves_of_idle hwaves',
      State.storeRest_of_unlocked (s.timerOn.locked_armed.trans hlock)]
  rw [← hrest]
  rfl

theorem State.tick_onlyRegsTiles {s : State} (hcal : s.light.calDue = []) (hwaves : ∀ e ∈ s.fab.waves, e.2.phase = 0) (hlock : s.locked = false) :
    OnlyRegsTiles s.timerOn s.tick := by
  rw [State.tick_of_quiet hcal hwaves hlock]
  refine s.timerOn.armed_onlyRegs.tiles.trans ?_
  split
  · exact OnlyRegsTiles.refl _
  · exact State.foldl_tileTick_onlyRegsTiles _ _

/-- Settles O1: the two cases of the queue, and for the empty one the parts of a timer period in turn. -/
theorem stepRunsFront : Obligations.StepRunsFront := by
  refine ⟨fun s c rest h => by unfold step; rw [h], fun s h => ⟨s.tick, by unfold step; rw [h], fun hcal hwaves hlock => ?_⟩⟩
  have ht : s.tick = { s.timerOn with regs := s.tick.regs, tiles := s.tick.tiles } := State.tick_onlyRegsTiles hcal hwaves hlock
  have htimer : s.tick.timer = (s.timer + 1) % 2 ^ 64 := congrArg State.timer ht
  exact ⟨htimer, by rw [htimer]; exact ht⟩

end Sys2Proof.Machine

/-! PROOFS. The monitors, clock and router of a tile (R21, R90 to R93, R204). -/

namespace Sys2Proof.Machine

open Sys2Proof

/-! ### Addresses of a tile's registers -/

/-- Registers at different offsets of tiles' windows are different registers. -/
theorem tr_ne_tr {u v o p : Nat} (ho : o < 0x1000) (hp : p < 0x1000) (h : o ≠ p) : tr u o ≠ tr v p := by
  simp only [tr, winBase]; omega

/-- The registers below the tiles' windows are none of a tile's. -/
theorem ne_tr {a u o : Nat} (h : a < 0x1000000) : a ≠ tr u o := by
  simp only [tr, winBase]; omega

/-- No record is written below the incident registers of a tile's window. -/
theorem recordReg_tr {u o : Nat} (hu : isTile u = true) (ho : o < 0x800) : recordReg (tr u o) = false := by
  obtain ⟨j, hj⟩ := blkOf_ir (b := .tile) (i := u) (o := o) hu (by omega)
  have hlow : ¬ tr u o < 0x10000 := by simp only [tr, winBase]; omega
  have hinc : isIncReg o = false := by simp only [isIncReg, Bool.and_eq_false_imp, decide_eq_true_eq]; omega
  simp only [recordReg, hlow, show blkOf (tr u o) = _ from hj, hinc, decide_false, Bool.or_false]

/-! ### Registers over a frame -/

theorem RegsBut.rn {as : List Nat} {s t : State} (h : RegsBut as s t) {a : Nat} (ha : a ∉ as) : t.rn a = s.rn a :=
  congrArg BitVec.toNat (h a ha)

theorem RegsBut.f {as : List Nat} {s t : State} (h : RegsBut as s t) {a : Nat} (ha : a ∉ as) (lo w : Nat) : t.f a lo w = s.f a lo w :=
  congrArg (fld · lo w) (h.rn ha)

theorem RecordFrame.rn {s t : State} (h : RecordFrame s t) {a : Nat} (ha : recordReg a = false) : t.rn a = s.rn a :=
  congrArg BitVec.toNat (h a List.not_mem_nil ha)

theorem RecordFrame.f {s t : State} (h : RecordFrame s t) {a : Nat} (ha : recordReg a = false) (lo w : Nat) : t.f a lo w = s.f a lo w :=
  congrArg (fld · lo w) (h.rn ha)

/-- A level that begins or ends writes no register but those of records. -/
theorem State.setLevel_frame (s : State) {b : Blk} {i : Nat} (h : hasInstance b i = true) (k : Nat) (on : Bool) (d : Nat) :
    RecordFrame s (s.setLevel b i k on d) := by
  unfold State.setLevel
  dsimp only
  refine RecordFrame.ite (RecordFrame.refl s) (RecordFrame.ite ?_ ((RecordFrame.refl s).same rfl))
  exact ((RecordFrame.refl s).same rfl).trans (State.event_frame _ h _ _ _ _)

/-! ### The temperature sensor -/

/-- A 12-bit code reads as the integer it was made from. -/
theorem sext_wrapInt {v : Int} (lo : -2048 ≤ v) (hi : v < 2048) : sext 12 (wrapInt 12 v) = v := by
  unfold sext wrapInt
  have h1 : ((v % (2 ^ 12 : Nat)).toNat : Int) = v % 4096 := Int.toNat_of_nonneg (Int.emod_nonneg _ (by decide))
  split <;> push_cast at * <;> omega

/-- THERMAL_CONVERSION leaves the limited reading in TILE_TEMP (R90). -/
theorem execThermalConversion_reading (s : State) {u : Nat} (hu : isTile u = true) (temp : Nat) :
    ∃ t, exec (.thermalConversion u temp) s = .next t
      ∧ sext 12 (t.f (tr u rTILE_TEMP) 0 12) = max (-160) (min 600 (sext 12 temp)) := by
  refine ⟨_, show execThermalConversion u temp s = .next _ by rw [execThermalConversion, if_pos hu], ?_⟩
  dsimp only
  rw [(State.setLevel_frame _ rfl _ _ _).f (recordReg_tr hu (by decide))]
  have hset := s.f_setf_same (tr u rTILE_TEMP) (lo := 0) (w := 12) (wrapInt 12 (max (-160) (min 600 (sext 12 temp)))) (by decide)
  have hlt : wrapInt 12 (max (-160) (min 600 (sext 12 temp))) < 2 ^ 12 := by unfold wrapInt; omega
  rw [Nat.mod_eq_of_lt hlt] at hset
  exact (congrArg (sext 12) hset).trans (sext_wrapInt (by omega) (by omega))

/-! ### The slack monitor -/

/-- SLACK and MIN_SLACK after a measurement (R91). -/
def State.measureSlack (s : State) (u slack : Nat) : State :=
  (s.setf (tr u rTILE_CPM) 0 8 slack).setf (tr u rTILE_CPM) 8 8 (min slack (s.f (tr u rTILE_CPM) 8 8))

/-- One more lengthened cycle of a tile since the last summary (R377). -/
def State.noteStretch (s : State) (u : Nat) : State :=
  { s with light := { s.light with cond := { s.light.cond with
      stretch := aput 0 s.light.cond.stretch u (aget 0 s.light.cond.stretch u + 1) } } }

/-- CYCLE_STRETCH of a tile whose island runs. -/
theorem execCycleStretch_eq (s : State) {u slack : Nat} (hu : isTile u = true) (hs : slack < 256) (hoff : s.ts u ≠ tsOFF) (ha : s.asleep = false) :
    exec (.cycleStretch u slack) s
      = .next (if slack < 4 then ((s.measureSlack u slack).noteStretch u).bump (tr u rTILE_STRETCH_COUNT) else s.measureSlack u slack) := by
  show execCycleStretch u slack s = _
  rw [execCycleStretch, if_pos (by simp [hu, hs, hoff, ha])]
  rfl

theorem State.f_measureSlack_slack (s : State) (u : Nat) {slack : Nat} (h : slack < 256) :
    (s.measureSlack u slack).f (tr u rTILE_CPM) 0 8 = slack := by
  unfold State.measureSlack
  rw [State.f_setf_apart _ _ _ (by decide) (.inl (by decide)), State.f_setf_same _ _ _ (by decide), Nat.mod_eq_of_lt (b := 2 ^ 8) h]

theorem State.f_measureSlack_min (s : State) (u : Nat) {slack : Nat} (h : slack < 256) :
    (s.measureSlack u slack).f (tr u rTILE_CPM) 8 8 = min slack (s.f (tr u rTILE_CPM) 8 8) := by
  unfold State.measureSlack
  rw [State.f_setf_same _ _ _ (by decide), Nat.mod_eq_of_lt (b := 2 ^ 8) (Nat.lt_of_le_of_lt (Nat.min_le_left _ _) h)]

theorem State.measureSlack_regsBut (s : State) (u slack : Nat) : RegsBut [tr u rTILE_CPM] s (s.measureSlack u slack) :=
  (RegsBut.setf s _ _ _ _).trans (RegsBut.setf _ _ _ _ _)

/-- Nothing but registers and the lengthened cycles since the last summary differs. -/
def OnlyStretch (s t : State) : Prop :=
  t = { s with regs := t.regs, light := { s.light with cond := { s.light.cond with stretch := t.light.cond.stretch } } }

/-- A measurement of CYCLE_STRETCH: SLACK and MIN_SLACK hold it, and a slack below 4 is a lengthened cycle (R91). -/
theorem execCycleStretch_measures (s : State) {u slack : Nat} (hu : isTile u = true) (hs : slack < 256) (hoff : s.ts u ≠ tsOFF)
    (ha : s.asleep = false) : ∃ t, exec (.cycleStretch u slack) s = .next t ∧ OnlyStretch s t
      ∧ aget 0 t.light.cond.stretch u = aget 0 s.light.cond.stretch u + (if slack < 4 then 1 else 0)
      ∧ t.f (tr u rTILE_CPM) 0 8 = slack ∧ t.f (tr u rTILE_CPM) 8 8 = min slack (s.f (tr u rTILE_CPM) 8 8)
      ∧ t.rn (tr u rTILE_STRETCH_COUNT)
        = (if slack < 4 then min 0xFFFFFFFF (s.rn (tr u rTILE_STRETCH_COUNT) + 1) else s.rn (tr u rTILE_STRETCH_COUNT))
      ∧ RegsBut [tr u rTILE_CPM, tr u rTILE_STRETCH_COUNT] s t := by
  have hcount : tr u rTILE_STRETCH_COUNT ∉ [tr u rTILE_CPM] := by
    simpa using tr_ne_tr (u := u) (v := u) (by decide) (by decide) (by decide)
  have hcpm : tr u rTILE_CPM ∉ [tr u rTILE_STRETCH_COUNT] := by
    simpa using tr_ne_tr (u := u) (v := u) (by decide) (by decide) (by decide)
  have hframe := s.measureSlack_regsBut u slack
  have hrn := hframe.rn hcount
  rw [execCycleStretch_eq s hu hs hoff ha]
  by_cases h4 : slack < 4
  · have hbump := RegsBut.bump ((s.measureSlack u slack).noteStretch u) (tr u rTILE_STRETCH_COUNT)
    simp only [h4, if_true]
    refine ⟨_, rfl, rfl, aget_aput_same 0 _ u _, ?_, ?_, ?_, ?_⟩
    · exact (hbump.f hcpm 0 8).trans (s.f_measureSlack_slack u hs)
    · exact (hbump.f hcpm 8 8).trans (s.f_measureSlack_min u hs)
    · exact (State.rn_bump _ _).trans (congrArg (fun n => min 0xFFFFFFFF (n + 1)) hrn)
    · have h1 : RegsBut [tr u rTILE_CPM, tr u rTILE_STRETCH_COUNT] s ((s.measureSlack u slack).noteStretch u) := hframe.mono (by simp)
      exact h1.trans (hbump.mono (by simp))
  · simp only [h4, if_false]
    exact ⟨_, rfl, rfl, rfl, s.f_measureSlack_slack u hs, s.f_measureSlack_min u hs, hrn, hframe.mono (by simp)⟩

/-! ### Clocks -/

/-- FREQ and VOLT of a tile. -/
def State.setClock (s : State) (u freq volt : Nat) : State :=
  (s.setf (tr u rTILE_CLOCK) 0 7 freq).setf (tr u rTILE_CLOCK) 8 7 volt

/-- Whether a change to a tile takes effect at once: in IDLE, TRAP and OFF (R29). -/
def State.atOnce (s : State) (u : Nat) : Bool := s.ts u = tsIDLE || s.ts u = tsTRAP || s.ts u = tsOFF

/-- A change of clock takes effect at once, or it waits for the step boundary (R29). -/
theorem State.tileChange_clock (s : State) (u freq volt : Nat) : s.tileChange u (.clock freq volt)
    = if s.atOnce u then s.setClock u freq volt else s.mapTile u fun x => { x with deferred := x.deferred ++ [.clock freq volt] } := by
  unfold State.tileChange
  by_cases hidle : s.ts u = tsIDLE
  · have hnow : s.atOnce u = true := by simp [State.atOnce, hidle]
    rw [if_pos hidle, if_pos hnow]
    rfl
  · have hnow : s.atOnce u = (s.ts u = tsTRAP || s.ts u = tsOFF : Bool) := by
      simp only [State.atOnce, hidle, decide_false, Bool.false_or]
    rw [if_neg hidle, hnow]
    rfl

theorem State.f_setClock_freq (s : State) (u freq volt : Nat) : (s.setClock u freq volt).f (tr u rTILE_CLOCK) 0 7 = freq % 2 ^ 7 := by
  unfold State.setClock
  rw [State.f_setf_apart _ _ _ (by decide) (.inl (by decide)), State.f_setf_same _ _ _ (by decide)]

theorem State.f_setClock_volt (s : State) (u freq volt : Nat) : (s.setClock u freq volt).f (tr u rTILE_CLOCK) 8 7 = volt % 2 ^ 7 :=
  State.f_setf_same _ _ _ (by decide)

theorem State.setClock_regsBut (s : State) (u freq volt : Nat) : RegsBut [tr u rTILE_CLOCK] s (s.setClock u freq volt) :=
  (RegsBut.setf s _ _ _ _).trans (RegsBut.setf _ _ _ _ _)

/-- ISLAND_CLOCK_CHANGE of an IDLE tile, within its ceiling and the governor's bound (R92, R93). -/
theorem execIslandClockChange_idle (s : State) {u freq volt : Nat} (hreach : s.tileReached u = true) (hidle : s.ts u = tsIDLE) (hf : freq ≤ 80)
    (hceil : freq ≤ aget 80 s.light.ceiling u) (hv : 20 ≤ volt) (hv' : volt ≤ 80) (hgov : s.governed u = false ∨ freq ≤ (s.clockNext u).1) :
    ∃ t, exec (.islandClockChange u freq volt) s = .next t ∧ (s.governed u = false → OnlyRegs s t)
      ∧ t.f (tr u rTILE_CLOCK) 0 7 = freq ∧ t.f (tr u rTILE_CLOCK) 8 7 = min 80 (volt + aget 0 s.light.volt u) ∧ RegsBut [tr u rTILE_CLOCK] s t := by
  have hgov' : (!s.governed u || decide (freq ≤ (s.clockNext u).1)) = true := by simpa using hgov
  have hat : ∀ s' : State, s'.regs = s.regs → s'.atOnce u = true := fun s' h => by
    have : s'.ts u = s.ts u := by unfold State.ts State.f State.rn State.rd; rw [h]
    simp [State.atOnce, this, hidle]
  refine ⟨_, show execIslandClockChange u freq volt s = .next _ by
    rw [execIslandClockChange, if_pos (by simp only [hreach, hceil, hv, hv', hgov', decide_true, Bool.and_self])], ?_⟩
  rw [State.tileChange_clock, if_pos (hat _ (by split <;> rfl)), State.f_setClock_freq, State.f_setClock_volt, Nat.mod_eq_of_lt (by omega),
    Nat.mod_eq_of_lt (by omega)]
  refine ⟨fun hg => ?_, rfl, rfl, ?_⟩
  · rw [if_neg (by simp [hg])]
    rfl
  · refine RegsBut.trans (t := if s.governed u && decide (freq < (s.clockNext u).1) then s.ungovern u else s) ?_ (State.setClock_regsBut _ _ _ _)
    split <;> exact fun _ _ => rfl

/-- A clock that the governor holds down is not raised (R36, R371). -/
theorem execIslandClockChange_held (s : State) {u freq : Nat} (volt : Nat) (hg : s.governed u = true) (hf : (s.clockNext u).1 < freq) :
    exec (.islandClockChange u freq volt) s = .next s := by
  show execIslandClockChange u freq volt s = _
  rw [execIslandClockChange, if_neg (by simp [hg, hf])]

/-! ### Routers -/

theorem State.tile_mapTile (s : State) (u v : Nat) (g : Tile → Tile) : (s.mapTile u g).tile v = if v = u then g (s.tile u) else s.tile v :=
  aget_aput _ _ _ _ _

/-- A key that does not read as the default is listed with its value. -/
theorem mem_of_aget_ne {α : Type} {d : α} {m : Assoc α} {k : Nat} (h : aget d m k ≠ d) : (k, aget d m k) ∈ m := by
  induction m with
  | nil => exact absurd rfl h
  | cons e m ih =>
    obtain ⟨j, v⟩ := e
    by_cases h1 : j < k
    · simp only [aget, h1, if_true] at h ⊢
      exact List.mem_cons_of_mem _ (ih h)
    · by_cases h2 : j = k
      · subst h2
        simp [aget]
      · simp [aget, h1, h2] at h

/-- The same routers have failed. -/
def SameRouters (s t : State) : Prop := ∀ v, (t.tile v).routerFailed = (s.tile v).routerFailed

theorem SameRouters.trans {s t u : State} (h : SameRouters s t) (k : SameRouters t u) : SameRouters s u := fun v => (k v).trans (h v)

theorem SameRouters.of_tiles {s t : State} (h : t.tiles = s.tiles) : SameRouters s t := fun v => by unfold State.tile; rw [h]

/-- A change of a tile that leaves its router as it is. -/
theorem SameRouters.mapTile (s : State) (u : Nat) {g : Tile → Tile} (h : ∀ x, (g x).routerFailed = x.routerFailed) : SameRouters s (s.mapTile u g) := by
  intro v
  rw [State.tile_mapTile]
  split
  · next hv => rw [h, hv]
  · rfl

/-- An event changes no tile. -/
theorem State.event_tiles (s : State) (b : Blk) (i k d : Nat) (inj note : Bool) : (s.event b i k d inj note).tiles = s.tiles :=
  (s.event_recorded b i k d inj note).tiles

/-- Crates that meet a failed router change no tile (R78). -/
theorem State.reroute_tiles (s : State) (u : Nat) : (s.reroute u).tiles = s.tiles := by
  unfold State.reroute
  refine List.foldlRecOn (motive := fun acc : List Crate × State => acc.2.tiles = s.tiles) s.fab.corridor _ rfl fun acc hacc c _ => ?_
  dsimp only
  split
  · exact hacc
  · split
    · exact hacc
    · split
      · exact hacc
      · refine Eq.trans ?_ hacc
        dsimp only
        split
        · exact State.event_tiles _ _ _ _ _ _ _
        · rfl

theorem State.powerTile_sameRouters (s : State) (u : Nat) : SameRouters s (s.powerTile u) := by
  unfold State.powerTile
  split
  · exact fun v => SameRouters.mapTile { s with vault := (s.vault.powerUp (2 * u)).powerUp (2 * u + 1) } u
      (g := fun x => { x with scratch := [], scrPoison := [], scrErr := [] }) (fun _ => rfl) v
  · exact fun _ => rfl

theorem State.preloadTile_sameRouters (s : State) (u : Nat) (steps : List Word64) : SameRouters s (s.preloadTile u steps) := by
  unfold State.preloadTile
  refine SameRouters.mapTile s u fun x => ?_
  dsimp only
  split <;> rfl

theorem State.mapSlot_sameRouters (s : State) (k : Nat) (g : Slot → Slot) : SameRouters s (s.mapSlot k g) := fun _ => rfl

/-- A choice drawn only where there is one to make changes no tile. -/
theorem State.drawAmong_sameRouters (s : State) (p : Prop) [Decidable p] (n : Nat) : SameRouters s (if p then (0, s) else s.draw n).2 := by
  split <;> exact fun _ => rfl

/-- The re-preparation of an exhibit leaves every router as it is, rejected or not (R205). -/
theorem State.reprepare_sameRouters (s : State) (k u x : Nat) (pl : Placement) (p : Plan) : SameRouters s (s.reprepare k u x pl p) := by
  unfold State.reprepare
  dsimp only
  split
  · exact SameRouters.of_tiles ((State.postEvent_recorded _ _ _ _ _).tiles.trans (State.event_tiles _ _ _ _ _ _ _))
  · intro v
    rw [State.mapSlot_sameRouters, State.preloadTile_sameRouters, State.powerTile_sameRouters, State.drawAmong_sameRouters]

theorem State.fallDue_sameRouters (s : State) (u : Nat) : SameRouters s (s.fallDue u) := by
  unfold State.fallDue
  split
  · exact fun _ => rfl
  · split
    · exact fun _ => rfl
    · split
      · split
        · exact State.reprepare_sameRouters _ _ _ _ _ _
        · exact fun _ => rfl
      · exact fun _ => rfl

theorem State.tileDue_sameRouters (s : State) (u : Nat) : SameRouters s (s.tileDue u) := by
  unfold State.tileDue
  dsimp only
  split
  · exact fun _ => rfl
  · have hdue := SameRouters.mapTile s u (g := fun x => { x with due := true }) fun _ => rfl
    split
    · exact hdue
    · exact hdue.trans (State.fallDue_sameRouters _ _)

/-- A tile whose router has failed is cut off: no path of the corridors leads to it or from it (R15). -/
theorem State.cutOff_of_routerFailed {s : State} {u : Nat} (h : (s.tile u).routerFailed = true) : s.routerBad u = true ∧ s.tileReached u = false := by
  have hbad : s.routerBad u = true := by simp [State.routerBad, h]
  have hne : s.tile u ≠ Tile.reset := fun e => by rw [e] at h; cases h
  have hmesh : s.meshSound = false := by
    simp only [State.meshSound, Bool.not_eq_false', List.any_eq_true]
    exact ⟨_, mem_of_aget_ne hne, by simp [show aget Tile.reset s.tiles u = s.tile u from rfl, h]⟩
  exact ⟨hbad, by simp [State.tileReached, State.bridged, State.pathOk, hmesh, hbad]⟩

/-- ROUTER_FAIL marks the router failed, whatever else it does (R15, R204). -/
theorem execRouterFail_failed (s : State) {u : Nat} (hu : isTile u = true) (h : (s.tile u).routerFailed = false) :
    ∃ t, exec (.routerFail u) s = .next t ∧ (t.tile u).routerFailed = true := by
  refine ⟨_, show execRouterFail u s = .next _ by rw [execRouterFail, if_pos (by simp [hu, h])], ?_⟩
  dsimp only
  rw [State.tileDue_sameRouters, SameRouters.of_tiles (State.reroute_tiles _ _)]
  have hfail : ((s.mapTile u fun x => { x with routerFailed := true }).tile u).routerFailed = true := by
    rw [State.tile_mapTile, if_pos rfl]
  have hgal : SameRouters (s.mapTile u fun x => { x with routerFailed := true })
      ((s.mapTile u fun x => { x with routerFailed := true }).event .gal 0 0 (rc u)) := SameRouters.of_tiles (State.event_tiles _ _ _ _ _ _ _)
  split
  · rw [SameRouters.of_tiles (State.event_tiles _ _ _ _ _ _ _), hgal, hfail]
  · rw [hgal, hfail]

/-! ### The statement -/

/-- Settles O21: the sensor, the slack monitor, the clock and the router of a tile, each by the lemma on its command. -/
theorem tileMonitors : Obligations.TileMonitors := by
  intro s u hu
  refine ⟨fun temp => execThermalConversion_reading s hu temp, fun slack hs hoff ha => execCycleStretch_measures s hu hs hoff ha,
    fun freq volt hreach hidle hf hceil hv hv' hgov => execIslandClockChange_idle s hreach hidle hf hceil hv hv' hgov,
    fun freq volt hg hf => execIslandClockChange_held s volt hg hf, fun hr => ?_⟩
  obtain ⟨t, ht, hfail⟩ := execRouterFail_failed s hu hr
  exact ⟨t, ht, State.cutOff_of_routerFailed hfail⟩

end Sys2Proof.Machine

/-! PROOFS. The clocks that the Climate governor sets (R36, R370, R371, R501): what a clock step keeps, how far the room for steps
goes, and which tiles take one. -/

namespace Sys2Proof.Machine

open Sys2Proof

/-! ### Changes that wait -/

/-- The clock once a waiting change has taken effect. -/
def Deferred.clockOver : Nat × Nat → Deferred → Nat × Nat
  | _, .clock f v => (f, v)
  | c, _ => c

/-- The pace once a waiting change has taken effect. -/
def Deferred.paceOver : Nat → Deferred → Nat
  | _, .pace v => v
  | p, _ => p

theorem State.clockNext_eq (s : State) (u : Nat) :
    s.clockNext u = (s.tile u).deferred.foldl Deferred.clockOver (s.f (tr u rTILE_CLOCK) 0 7, s.f (tr u rTILE_CLOCK) 8 7) := by
  unfold State.clockNext
  congr 1
  funext c d
  cases d <;> rfl

theorem State.paceNext_eq (s : State) (u : Nat) : s.paceNext u = (s.tile u).deferred.foldl Deferred.paceOver (s.paceOf u) := by
  unfold State.paceNext
  congr 1
  funext p d
  cases d <;> rfl

/-- Changes that wait either hold no clock, or the clock they lead to does not depend on the present one. -/
theorem foldl_clockOver_cases (ds : List Deferred) :
    (∀ c, ds.foldl Deferred.clockOver c = c) ∨ ∃ e, ∀ c, ds.foldl Deferred.clockOver c = e := by
  induction ds with
  | nil => exact .inl fun _ => rfl
  | cons d ds ih =>
    rcases ih with ih | ⟨e, ih⟩
    · cases d
      case clock f v => exact .inr ⟨(f, v), fun _ => ih _⟩
      all_goals exact .inl ih
    · exact .inr ⟨e, fun _ => ih _⟩

/-! ### What a clock step keeps -/

/-- From `s` to `t` the governor changed no more than the clocks of the tiles `us` and how far it holds them down; the supply that
a tile is set to, and so the cost of its steps, stays. -/
structure Clocked (us : List Nat) (s t : State) : Prop where
  only : ∃ r ts c l, t = { s with regs := r, tiles := ts, light := { s.light with capped := c, lowered := l } }
  regs : RegsBut (us.map fun u => tr u rTILE_CLOCK) s t
  pace : ∀ v, t.paceNext v = s.paceNext v
  supply : ∀ v, (t.clockNext v).2 = (s.clockNext v).2
  clock : ∀ v, v ∉ us → t.clockNext v = s.clockNext v
  capped : ∀ v, v ∉ us → aget 0 t.light.capped v = aget 0 s.light.capped v
  lowered : ∀ v, v ∉ us → aget 0 t.light.lowered v = aget 0 s.light.lowered v

theorem Clocked.refl (us : List Nat) (s : State) : Clocked us s s :=
  ⟨⟨s.regs, s.tiles, s.light.capped, s.light.lowered, rfl⟩, RegsBut.refl _ s, fun _ => rfl, fun _ => rfl, fun _ _ => rfl, fun _ _ => rfl,
    fun _ _ => rfl⟩

theorem Clocked.trans {us : List Nat} {s t x : State} (h : Clocked us s t) (k : Clocked us t x) : Clocked us s x := by
  obtain ⟨_, _, _, _, ht⟩ := h.only
  obtain ⟨r, ts, c, l, hx⟩ := k.only
  exact ⟨⟨r, ts, c, l, by rw [hx, ht]⟩, h.regs.trans k.regs, fun v => (k.pace v).trans (h.pace v), fun v => (k.supply v).trans (h.supply v),
    fun v hv => (k.clock v hv).trans (h.clock v hv), fun v hv => (k.capped v hv).trans (h.capped v hv),
    fun v hv => (k.lowered v hv).trans (h.lowered v hv)⟩

theorem Clocked.mono {us vs : List Nat} {s t : State} (hs : ∀ u ∈ us, u ∈ vs) (h : Clocked us s t) : Clocked vs s t :=
  ⟨h.only, h.regs.mono fun a ha => by
      obtain ⟨u, hu, rfl⟩ := List.mem_map.1 ha
      exact List.mem_map_of_mem (hs u hu),
    h.pace, h.supply, fun v hv => h.clock v (hv ∘ hs v), fun v hv => h.capped v (hv ∘ hs v), fun v hv => h.lowered v (hv ∘ hs v)⟩

/-- A register of a tile at another offset than its clock's. -/
theorem tr_not_clock {us : List Nat} {u o : Nat} (ho : o < 0x1000) (h : o ≠ rTILE_CLOCK) : tr u o ∉ us.map fun u => tr u rTILE_CLOCK := by
  intro hm
  obtain ⟨v, -, hv⟩ := List.mem_map.1 hm
  exact tr_ne_tr (by decide) ho h.symm hv

/-- A register below the tiles' windows. -/
theorem low_not_clock {us : List Nat} {a : Nat} (h : a < 0x1000000) : a ∉ us.map fun u => tr u rTILE_CLOCK := by
  intro hm
  obtain ⟨v, -, hv⟩ := List.mem_map.1 hm
  exact ne_tr h hv.symm

section
variable {us : List Nat} {s t : State} (h : Clocked us s t)
include h

theorem Clocked.cost (v : Nat) : t.clockCost v = s.clockCost v := by unfold State.clockCost; rw [h.supply]

theorem Clocked.ts (v : Nat) : t.ts v = s.ts v := h.regs.f (tr_not_clock (by decide) (by decide)) 0 3

theorem Clocked.boundaryWaits (v : Nat) : t.boundaryWaits v = s.boundaryWaits v := by unfold State.boundaryWaits; rw [h.ts]

theorem Clocked.tooHot (v : Nat) : t.tooHot v = s.tooHot v := by
  unfold State.tooHot
  rw [h.regs.f (low_not_clock (by decide)), h.regs.f (tr_not_clock (by decide) (by decide))]

theorem Clocked.locked : t.locked = s.locked := by unfold State.locked; rw [h.regs.f (low_not_clock (by decide))]

theorem Clocked.halted : t.halted .pwr = s.halted .pwr := by unfold State.halted; rw [h.regs.f (low_not_clock (by decide))]

theorem Clocked.overridden : t.overridden = s.overridden := by
  unfold State.overridden
  rw [h.regs.f (low_not_clock (by decide)), h.regs.f (low_not_clock (by decide))]

theorem Clocked.slew : t.slew = s.slew := by unfold State.slew; rw [h.regs.f (low_not_clock (by decide))]

theorem Clocked.paceOf (v : Nat) : t.paceOf v = s.paceOf v := by
  obtain ⟨_, _, _, _, ht⟩ := h.only
  rw [ht]; rfl

end

/-! ### One clock step -/

/-- A tile set to another FREQ at its present supply, with what the governor then notes. -/
def State.stepClock (s : State) (l : LightState) (u freq : Nat) : State :=
  ({ s with light := l } : State).tileChange u (.clock freq (s.clockNext u).2)

theorem State.stepClock_light (s : State) (l : LightState) (u freq : Nat) : (s.stepClock l u freq).light = l := by
  unfold State.stepClock
  rw [State.tileChange_clock]
  split <;> rfl

theorem State.clockNext_setClock_ne (s : State) (u freq volt : Nat) {v : Nat} (hv : v ≠ u) :
    (s.setClock u freq volt).clockNext v = s.clockNext v := by
  have hregs := s.setClock_regsBut u freq volt
  have hne : tr v rTILE_CLOCK ∉ [tr u rTILE_CLOCK] := by
    simp only [tr, winBase, List.mem_singleton]; omega
  rw [State.clockNext_eq, State.clockNext_eq, hregs.f hne, hregs.f hne]
  rfl

/-- A clock set at once keeps the supply: a waiting clock stands over it, and else the supply set is the one that stood. -/
theorem State.clockNext_setClock_supply (s : State) (u freq : Nat) : ((s.setClock u freq (s.clockNext u).2).clockNext u).2 = (s.clockNext u).2 := by
  rw [State.clockNext_eq (s.setClock u freq _), State.f_setClock_freq, State.f_setClock_volt, State.clockNext_eq s]
  show ((s.tile u).deferred.foldl Deferred.clockOver _).2 = _
  rcases foldl_clockOver_cases (s.tile u).deferred with hid | ⟨e, he⟩
  · rw [hid, hid]
    exact Nat.mod_eq_of_lt (fld_lt _ _ 7)
  · rw [he, he]

theorem State.setClock_clocked (s : State) (u freq : Nat) : Clocked [u] s (s.setClock u freq (s.clockNext u).2) := by
  refine ⟨⟨_, s.tiles, s.light.capped, s.light.lowered, rfl⟩, s.setClock_regsBut u freq _, fun _ => rfl, fun v => ?_,
    fun v hv => s.clockNext_setClock_ne u freq _ (by simpa using hv), fun _ _ => rfl, fun _ _ => rfl⟩
  by_cases hv : v = u
  · subst hv
    exact s.clockNext_setClock_supply v freq
  · rw [s.clockNext_setClock_ne u freq _ hv]

/-- A clock that waits for the step boundary. -/
def State.deferClock (s : State) (u freq volt : Nat) : State := s.mapTile u fun x => { x with deferred := x.deferred ++ [.clock freq volt] }

/-- The changes that wait, with one clock more for the tile itself. -/
theorem State.deferred_deferClock (s : State) (u freq volt v : Nat) :
    ((s.deferClock u freq volt).tile v).deferred = if v = u then (s.tile v).deferred ++ [.clock freq volt] else (s.tile v).deferred := by
  unfold State.deferClock
  rw [State.tile_mapTile]
  split
  · next hv => rw [hv]
  · rfl

theorem State.clockNext_deferClock (s : State) (u freq volt v : Nat) :
    (s.deferClock u freq volt).clockNext v = if v = u then (freq, volt) else s.clockNext v := by
  rw [State.clockNext_eq (s.deferClock u freq volt), State.deferred_deferClock]
  split
  · rw [List.foldl_append]; rfl
  · exact (s.clockNext_eq v).symm

theorem State.paceNext_deferClock (s : State) (u freq volt v : Nat) : (s.deferClock u freq volt).paceNext v = s.paceNext v := by
  rw [State.paceNext_eq (s.deferClock u freq volt), State.deferred_deferClock]
  split
  · rw [List.foldl_append]; exact (s.paceNext_eq v).symm
  · exact (s.paceNext_eq v).symm

theorem State.deferClock_clocked (s : State) (u freq : Nat) : Clocked [u] s (s.deferClock u freq (s.clockNext u).2) := by
  refine ⟨⟨s.regs, _, s.light.capped, s.light.lowered, rfl⟩, fun _ _ => rfl, s.paceNext_deferClock u freq _, fun v => ?_, fun v hv => ?_,
    fun _ _ => rfl, fun _ _ => rfl⟩
  · rw [State.clockNext_deferClock]
    split
    · next hv => rw [hv]
    · rfl
  · rw [State.clockNext_deferClock, if_neg (by simpa using hv)]

/-- A clock step of a tile: its clock register or one more change that waits, and the note of the governor. -/
theorem State.stepClock_clocked (s : State) {l : LightState} (u freq : Nat) (hl : l = { s.light with capped := l.capped, lowered := l.lowered })
    (hc : ∀ v, v ≠ u → aget 0 l.capped v = aget 0 s.light.capped v) (hd : ∀ v, v ≠ u → aget 0 l.lowered v = aget 0 s.light.lowered v) :
    Clocked [u] s (s.stepClock l u freq) := by
  have hpaceOf : ∀ v, ({ s with light := l } : State).paceOf v = s.paceOf v := fun v => by unfold State.paceOf; rw [hl]
  have hpace : ∀ v, ({ s with light := l } : State).paceNext v = s.paceNext v := fun v => by
    rw [State.paceNext_eq, State.paceNext_eq, hpaceOf]; rfl
  have hnote : Clocked [u] s { s with light := l } :=
    ⟨⟨s.regs, s.tiles, l.capped, l.lowered, by rw [← hl]⟩, fun _ _ => rfl, hpace, fun _ => rfl, fun _ _ => rfl,
      fun v hv => hc v (by simpa using hv), fun v hv => hd v (by simpa using hv)⟩
  refine hnote.trans ?_
  unfold State.stepClock
  rw [State.tileChange_clock]
  split
  · exact State.setClock_clocked { s with light := l } u freq
  · exact State.deferClock_clocked { s with light := l } u freq

theorem State.capTile_clocked (s : State) (u : Nat) : Clocked [u] s (s.capTile u) :=
  s.stepClock_clocked u _ rfl (fun _ hv => aget_aput_ne 0 _ _ hv) fun _ _ => rfl

theorem State.uncapTile_clocked (s : State) (u : Nat) : Clocked [u] s (s.uncapTile u) :=
  s.stepClock_clocked u _ rfl (fun _ hv => aget_aput_ne 0 _ _ hv) fun _ _ => rfl

theorem State.capTile_light (s : State) (u : Nat) :
    (s.capTile u).light = { s.light with capped := aput 0 s.light.capped u (aget 0 s.light.capped u + 1) } := s.stepClock_light _ _ _

theorem State.uncapTile_light (s : State) (u : Nat) :
    (s.uncapTile u).light = { s.light with capped := aput 0 s.light.capped u (aget 0 s.light.capped u - 1) } := s.stepClock_light _ _ _

/-! ### Steps as far as the room goes -/

section
variable {may : State → Nat → Bool} {act : State → Nat → State}

/-- What every step keeps, the steps together keep. -/
theorem State.inRoom_keeps {P : State → Prop} (ts : List Nat) (h : ∀ x, ∀ t ∈ ts, P x → P (act x t)) (r : Nat) {x : State} (hx : P x) :
    P (State.inRoom may act ts (r, x)).2 := by
  induction ts generalizing r x with
  | nil => exact hx
  | cons t ts ih =>
    have hts := fun y u hu => h y u (List.mem_cons_of_mem t hu)
    unfold State.inRoom at ih ⊢
    rw [List.foldl_cons]
    dsimp only
    split
    · exact ih hts _ (h x t (List.mem_cons_self ..) hx)
    · exact ih hts _ hx

theorem State.inRoom_clocked (hact : ∀ x t, Clocked [t] x (act x t)) (ts : List Nat) (r : Nat) (s : State) :
    Clocked ts s (State.inRoom may act ts (r, s)).2 :=
  State.inRoom_keeps ts (fun x t ht hx => hx.trans ((hact x t).mono (by simpa using ht))) r (Clocked.refl ts s)

/-- Where the room holds a step of each tile, each tile whose step is due takes it: its step stays due while others take theirs, and
once done it stays done. -/
theorem State.inRoom_reaches {due done : State → Prop} {u : Nat} (hact : ∀ x t, Clocked [t] x (act x t)) (hmay : ∀ x, due x → may x u = true)
    (hdue : ∀ x t, t ≠ u → due x → due (act x t)) (hdo : ∀ x, due x → done (act x u)) (hdone : ∀ x t, done x → done (act x t))
    {ts : List Nat} (hu : u ∈ ts) {r : Nat} {x : State} (hroom : (ts.map x.clockCost).sum ≤ r) (hx : due x) :
    done (State.inRoom may act ts (r, x)).2 := by
  induction ts generalizing r x with
  | nil => cases hu
  | cons t ts ih =>
    rw [List.map_cons, List.sum_cons] at hroom
    have hcost : (act x t).clockCost = x.clockCost := funext (hact x t).cost
    by_cases ht : t = u
    · subst ht
      have hstep : (may x t && decide (x.clockCost t ≤ r)) = true := by
        simp only [hmay x hx, Bool.true_and, decide_eq_true_eq]; omega
      have hkeep := State.inRoom_keeps (may := may) ts (fun y v _ => hdone y v) (r - x.clockCost t) (hdo x hx)
      unfold State.inRoom at hkeep ⊢
      rw [List.foldl_cons]
      dsimp only
      rwa [if_pos hstep]
    · have hu' := (List.mem_cons.1 hu).resolve_left fun e => ht e.symm
      have hgo := ih hu' (r := r - x.clockCost t) (x := act x t) (by rw [hcost]; omega) (hdue x t ht hx)
      have hstay := ih hu' (r := r) (x := x) (by omega) hx
      unfold State.inRoom at hgo hstay ⊢
      rw [List.foldl_cons]
      dsimp only
      split
      · exact hgo
      · exact hstay

theorem sum_filter_cons (p : Nat → Bool) (c : Nat → Nat) (a : Nat) (L : List Nat) :
    (((a :: L).filter p).map c).sum = (if p a then c a else 0) + ((L.filter p).map c).sum := by
  rw [List.filter_cons]
  split <;> simp

/-- Two choices from a list that agree but at one key: their costs differ by no more than that key's. -/
theorem sum_filter_le_add {L : List Nat} (hL : L.Nodup) {p q : Nat → Bool} {t : Nat} (c : Nat → Nat) (h : ∀ u, u ≠ t → p u = q u) :
    ((L.filter p).map c).sum ≤ c t + ((L.filter q).map c).sum := by
  induction L with
  | nil => simp
  | cons a L ih =>
    obtain ⟨ha, hL⟩ := List.nodup_cons.1 hL
    rw [sum_filter_cons, sum_filter_cons]
    by_cases hat : a = t
    · subst hat
      have hrest : L.filter p = L.filter q := List.filter_congr fun u hu => h u fun e => ha (e ▸ hu)
      rw [hrest]
      split <;> split <;> omega
    · rw [h a hat]
      have := ih hL
      omega

/-- The steps of the tiles that took one fit the room. -/
theorem State.inRoom_cost {n : State → Nat → Nat} (hact : ∀ x t, Clocked [t] x (act x t)) (hn : ∀ x t u, u ≠ t → n (act x t) u = n x u)
    {L : List Nat} (hL : L.Nodup) (ts : List Nat) (r : Nat) (x : State) :
    ((L.filter fun u => n (State.inRoom may act ts (r, x)).2 u != n x u).map x.clockCost).sum ≤ r := by
  induction ts generalizing r x with
  | nil => simp [State.inRoom]
  | cons t ts ih =>
    have hcost : (act x t).clockCost = x.clockCost := funext (hact x t).cost
    have hgo := ih (r - x.clockCost t) (act x t)
    have hstay := ih r x
    unfold State.inRoom at hgo hstay ⊢
    rw [List.foldl_cons]
    dsimp only
    split
    case isFalse => exact hstay
    case isTrue hstep =>
      obtain ⟨-, hle⟩ := Bool.and_eq_true_iff.1 hstep
      rw [decide_eq_true_eq] at hle
      rw [hcost] at hgo
      refine Nat.le_trans (sum_filter_le_add hL (t := t) x.clockCost fun u hu => ?_) (Nat.le_trans (Nat.add_le_add_left hgo _) (by omega))
      rw [hn x t u hu]

end

/-! ### The clocks follow the budget -/

/-- Above the budget the clocks go down, unless the mean falls by the slew limit already. -/
theorem State.followBudget_over {old power rest : Nat} (r : Nat) {s : State} (hover : s.budget rest < power)
    (hslew : s.overridden = true ∨ old < power + s.slew) : ∃ ts, ts.Perm s.governedTiles
      ∧ State.followBudget old power rest (r, s) = State.inRoom (fun u t => decide (0 < (u.clockNext t).1)) State.capTile ts (r, s) := by
  unfold State.followBudget
  dsimp only
  rw [if_pos hover, List.partition_eq_filter_filter]
  dsimp only
  rw [if_pos (by simpa using hslew)]
  exact ⟨_, List.filter_append_perm _ _, rfl⟩

/-- While the mean falls by the slew limit, the clocks do not fall with it. -/
theorem State.followBudget_waits {old power rest : Nat} (r : Nat) {s : State} (hover : s.budget rest < power) (ho : s.overridden = false)
    (hslew : power + s.slew ≤ old) : State.followBudget old power rest (r, s) = (r, s) := by
  unfold State.followBudget
  dsimp only
  rw [if_pos hover, List.partition_eq_filter_filter]
  dsimp only
  rw [if_neg (by simp [ho, hslew])]

/-- Above the budget steps go down, below it they go up, each in turn on the governed tiles; or none is taken. -/
theorem State.followBudget_cases (old power rest r : Nat) (s : State) :
    State.followBudget old power rest (r, s) = (r, s)
      ∨ (∃ ts, ts.Perm s.governedTiles
          ∧ State.followBudget old power rest (r, s) = State.inRoom (fun u t => decide (0 < (u.clockNext t).1)) State.capTile ts (r, s))
      ∨ State.followBudget old power rest (r, s) = State.inRoom State.mayUncap State.uncapTile s.governedTiles (r, s) := by
  by_cases hover : s.budget rest < power
  · by_cases hslew : s.overridden = true ∨ old < power + s.slew
    · exact .inr (.inl (State.followBudget_over r hover hslew))
    · obtain ⟨ho, hslew⟩ := not_or.1 hslew
      exact .inl (State.followBudget_waits r hover (by simpa using ho) (by omega))
  · unfold State.followBudget
    dsimp only
    rw [if_neg hover]
    split
    · exact .inr (.inr rfl)
    · exact .inl rfl

theorem State.followBudget_clocked (old power rest r : Nat) (s : State) : Clocked s.governedTiles s (State.followBudget old power rest (r, s)).2 := by
  rcases State.followBudget_cases old power rest r s with h | ⟨ts, hp, h⟩ | h
  · rw [h]; exact Clocked.refl _ s
  · rw [h]; exact (State.inRoom_clocked State.capTile_clocked ts r s).mono fun u hu => hp.mem_iff.1 hu
  · rw [h]; exact State.inRoom_clocked State.uncapTile_clocked _ r s

/-- The cap does not change how far a tile is lowered for its temperature. -/
theorem State.followBudget_lowered (old power rest r : Nat) (s : State) :
    (State.followBudget old power rest (r, s)).2.light.lowered = s.light.lowered := by
  have hcap : ∀ x t, (State.capTile x t).light.lowered = x.light.lowered := fun x t => by rw [State.capTile_light]
  have huncap : ∀ x t, (State.uncapTile x t).light.lowered = x.light.lowered := fun x t => by rw [State.uncapTile_light]
  rcases State.followBudget_cases old power rest r s with h | ⟨ts, -, h⟩ | h
  · rw [h]
  · rw [h]; exact State.inRoom_keeps (P := fun x => x.light.lowered = s.light.lowered) _ (fun x t _ hx => (hcap x t).trans hx) r rfl
  · rw [h]; exact State.inRoom_keeps (P := fun x => x.light.lowered = s.light.lowered) _ (fun x t _ hx => (huncap x t).trans hx) r rfl

/-- Above the budget, where the room holds a step of each tile, every clock that can falls a step (R36, R501). -/
theorem State.followBudget_lowers {old power rest r : Nat} {s : State} (hover : s.budget rest < power)
    (hslew : s.overridden = true ∨ old < power + s.slew) (hroom : (s.governedTiles.map s.clockCost).sum ≤ r) {u : Nat}
    (hu : u ∈ s.governedTiles)
    (hclock : 0 < (s.clockNext u).1) : aget 0 s.light.capped u + 1 ≤ aget 0 (State.followBudget old power rest (r, s)).2.light.capped u := by
  obtain ⟨ts, hp, h⟩ := State.followBudget_over r hover hslew
  rw [h]
  refine State.inRoom_reaches (due := fun x => 0 < (x.clockNext u).1 ∧ aget 0 s.light.capped u = aget 0 x.light.capped u) (u := u)
    (done := fun x => aget 0 s.light.capped u + 1 ≤ aget 0 x.light.capped u) State.capTile_clocked (fun x hx => decide_eq_true hx.1)
    (fun x t ht hx => ?_) (fun x hx => ?_) (fun x t hx => ?_) (hp.mem_iff.2 hu) (by rwa [(hp.map _).sum_eq]) ⟨hclock, rfl⟩
  · have hk := x.capTile_clocked t
    rw [hk.clock u (by simpa using Ne.symm ht), hk.capped u (by simpa using Ne.symm ht)]
    exact hx
  · rw [State.capTile_light, aget_aput_same, hx.2]
  · rw [State.capTile_light, aget_aput]
    split
    · next he => subst he; omega
    · exact hx

theorem allTiles_nodup : allTiles.Nodup := List.nodup_range.filter _

/-- The steps taken for the budget fit the room. -/
theorem State.followBudget_cost (old power rest r : Nat) (s : State) :
    ((allTiles.filter fun u => aget 0 (State.followBudget old power rest (r, s)).2.light.capped u != aget 0 s.light.capped u).map s.clockCost).sum
      ≤ r := by
  have hcap : ∀ x t u, u ≠ t → aget 0 (State.capTile x t).light.capped u = aget 0 x.light.capped u :=
    fun x t u hu => (x.capTile_clocked t).capped u (by simpa using hu)
  have huncap : ∀ x t u, u ≠ t → aget 0 (State.uncapTile x t).light.capped u = aget 0 x.light.capped u :=
    fun x t u hu => (x.uncapTile_clocked t).capped u (by simpa using hu)
  rcases State.followBudget_cases old power rest r s with h | ⟨ts, -, h⟩ | h
  · rw [h]; simp
  · rw [h]; exact State.inRoom_cost (n := fun x u => aget 0 x.light.capped u) State.capTile_clocked hcap allTiles_nodup ts r s
  · rw [h]; exact State.inRoom_cost (n := fun x u => aget 0 x.light.capped u) State.uncapTile_clocked huncap allTiles_nodup _ r s

/-! ### The clocks follow the temperature -/

/-- A step for the temperature of a tile: nothing, one FREQ step down above the limit, or one up below it (R371). -/
theorem State.tempTile_cases (s : State) (rises : Bool) (u : Nat) :
    (s.tempTile rises u = none ∧ (s.tooHot u = true → (s.clockNext u).1 = 0))
      ∨ (s.tooHot u = true ∧ 0 < (s.clockNext u).1 ∧ s.tempTile rises u
          = some (s.stepClock { s.light with lowered := aput 0 s.light.lowered u (aget 0 s.light.lowered u + 1) } u ((s.clockNext u).1 - 1)))
      ∨ (s.tooHot u = false ∧ s.tempTile rises u
          = some (s.stepClock { s.light with lowered := aput 0 s.light.lowered u (aget 0 s.light.lowered u - 1) } u ((s.clockNext u).1 + 1))) := by
  unfold State.tempTile
  dsimp only
  split
  case isTrue hot =>
    split
    · next hc => exact .inr (.inl ⟨hot, hc, rfl⟩)
    · next hc => exact .inl ⟨rfl, fun _ => by omega⟩
  case isFalse hot =>
    rw [Bool.not_eq_true] at hot
    split
    · exact .inr (.inr ⟨hot, rfl⟩)
    · exact .inl ⟨rfl, fun h => by rw [hot] at h; cases h⟩

/-- The tile's step for its temperature, if it takes one. -/
def State.tempStep (s : State) (rises : Bool) (u : Nat) : State := (s.tempTile rises u).getD s

theorem State.tempStep_clocked (rises : Bool) (s : State) (u : Nat) : Clocked [u] s (s.tempStep rises u) := by
  unfold State.tempStep
  rcases s.tempTile_cases rises u with ⟨h, -⟩ | ⟨-, -, h⟩ | ⟨-, h⟩ <;> rw [h]
  · exact Clocked.refl _ s
  · exact s.stepClock_clocked u _ rfl (fun _ _ => rfl) fun _ hv => aget_aput_ne 0 _ _ hv
  · exact s.stepClock_clocked u _ rfl (fun _ _ => rfl) fun _ hv => aget_aput_ne 0 _ _ hv

/-- A tile above the limit that can fall is held down one step more. -/
theorem State.tempStep_hot {s : State} {u : Nat} (rises : Bool) (hot : s.tooHot u = true) (hc : 0 < (s.clockNext u).1) :
    (s.tempTile rises u).isSome = true ∧ aget 0 (s.tempStep rises u).light.lowered u = aget 0 s.light.lowered u + 1 := by
  unfold State.tempStep
  rcases s.tempTile_cases rises u with ⟨-, h⟩ | ⟨-, -, h⟩ | ⟨h, -⟩
  · exact absurd (h hot) (by omega)
  · rw [h]; exact ⟨rfl, by simp [State.stepClock_light]⟩
  · rw [h] at hot; cases hot

/-- A tile above the limit is never raised for its temperature, and a tile that is not above it never lowered. -/
theorem State.tempStep_lowered (s : State) (rises : Bool) (t u : Nat) :
    (s.tooHot u = true → aget 0 s.light.lowered u ≤ aget 0 (s.tempStep rises t).light.lowered u)
      ∧ (s.tooHot u = false → aget 0 (s.tempStep rises t).light.lowered u ≤ aget 0 s.light.lowered u) := by
  by_cases hu : u = t
  · subst hu
    unfold State.tempStep
    rcases s.tempTile_cases rises u with ⟨h, -⟩ | ⟨hot, -, h⟩ | ⟨hot, h⟩ <;> rw [h]
    · exact ⟨fun _ => Nat.le_refl _, fun _ => Nat.le_refl _⟩
    · rw [hot]; simp [State.stepClock_light]
    · rw [hot]; simp [State.stepClock_light]
  · rw [(s.tempStep_clocked rises t).lowered u (by simpa using hu)]
    exact ⟨fun _ => Nat.le_refl _, fun _ => Nat.le_refl _⟩

/-- Every tile's step for its temperature, those above the limit first, as far as the slew limit goes in 100 µs (R370, R371). -/
def State.tempSteps (s : State) (rises : Bool) : State :=
  (State.inRoom (fun u t => (u.tempTile rises t).isSome) (fun u t => u.tempStep rises t)
    (s.governedTiles.filter s.tooHot ++ s.governedTiles.filter fun u => !s.tooHot u) (s.slewRoom 10, s)).2

theorem State.mem_hot_cool (s : State) (u : Nat) :
    u ∈ (s.governedTiles.filter s.tooHot ++ s.governedTiles.filter fun u => !s.tooHot u) ↔ u ∈ s.governedTiles :=
  (List.filter_append_perm s.tooHot s.governedTiles).mem_iff

theorem State.tempSteps_clocked (s : State) (rises : Bool) : Clocked s.governedTiles s (s.tempSteps rises) :=
  (State.inRoom_clocked (fun x t => x.tempStep_clocked rises t) _ _ s).mono fun u hu => (s.mem_hot_cool u).1 hu

/-- Where the room holds a step of each tile, every clock above the limit that can falls a step. -/
theorem State.tempSteps_lowers {s : State} (rises : Bool) (hroom : (s.governedTiles.map s.clockCost).sum ≤ s.slewRoom 10) {u : Nat}
    (hu : u ∈ s.governedTiles) (hot : s.tooHot u = true) (hc : 0 < (s.clockNext u).1) :
    aget 0 s.light.lowered u + 1 ≤ aget 0 (s.tempSteps rises).light.lowered u := by
  have hsum := ((List.filter_append_perm s.tooHot s.governedTiles).map s.clockCost).sum_eq
  refine (State.inRoom_reaches (act := fun u t => u.tempStep rises t) (u := u)
    (due := fun x => x.tooHot u = true ∧ 0 < (x.clockNext u).1 ∧ aget 0 s.light.lowered u = aget 0 x.light.lowered u)
    (done := fun x => x.tooHot u = true ∧ aget 0 s.light.lowered u + 1 ≤ aget 0 x.light.lowered u) (fun x t => x.tempStep_clocked rises t)
    (fun x hx => (State.tempStep_hot rises hx.1 hx.2.1).1) (fun x t ht hx => ?_) (fun x hx => ?_) (fun x t hx => ?_)
    ((s.mem_hot_cool u).2 hu) (hsum.trans_le hroom) ⟨hot, hc, rfl⟩).2
  · have hk := x.tempStep_clocked rises t
    rw [hk.tooHot, hk.clock u (by simpa using Ne.symm ht), hk.lowered u (by simpa using Ne.symm ht)]
    exact hx
  · obtain ⟨hxhot, hxc, hxn⟩ := hx
    exact ⟨((x.tempStep_clocked rises u).tooHot u).trans hxhot, by rw [(State.tempStep_hot rises hxhot hxc).2, hxn]⟩
  · exact ⟨((x.tempStep_clocked rises t).tooHot u).trans hx.1, Nat.le_trans hx.2 ((x.tempStep_lowered rises t u).1 hx.1)⟩

theorem State.tempSteps_raises {s : State} (rises : Bool) {u : Nat} (hot : s.tooHot u = false) :
    aget 0 (s.tempSteps rises).light.lowered u ≤ aget 0 s.light.lowered u :=
  (State.inRoom_keeps (P := fun x => x.tooHot u = false ∧ aget 0 x.light.lowered u ≤ aget 0 s.light.lowered u) _
    (fun x t _ hx => ⟨((x.tempStep_clocked rises t).tooHot u).trans hx.1, Nat.le_trans ((x.tempStep_lowered rises t u).2 hx.1) hx.2⟩) _
    ⟨hot, Nat.le_refl _⟩).2

/-- TEMP_LIMITED, and its event as it begins to hold (R371). -/
def State.noteTempLimited (s : State) (was : Nat) : State :=
  let x := s.setf (pw rPWR_GOV_STAT) 9 1 (b2n (s.light.lowered != []))
  if was = 0 && b2n (s.light.lowered != []) == 1 then x.event .pwr 0 4 else x

theorem State.noteTempLimited_light (s : State) (was : Nat) : (s.noteTempLimited was).light = s.light := by
  unfold State.noteTempLimited
  dsimp only
  split
  · exact (State.event_recorded _ _ _ _ _ _ _).light
  · rfl

theorem State.f_noteTempLimited (s : State) (was : Nat) : (s.noteTempLimited was).f (pw rPWR_GOV_STAT) 9 1 = b2n (s.light.lowered != []) := by
  have hset := s.f_setf_same (pw rPWR_GOV_STAT) (lo := 9) (w := 1) (b2n (s.light.lowered != [])) (by decide)
  rw [Nat.mod_eq_of_lt (by unfold b2n; split <;> decide)] at hset
  unfold State.noteTempLimited
  dsimp only
  split
  · exact ((State.event_frame _ rfl _ _ _ _).f (by decide) 9 1).trans hset
  · exact hset

/-- Whether the mean rose by the slew limit, so that no clock rises for its temperature (R370). -/
def State.riseHeld (s : State) : Bool :=
  !s.overridden && decide (s.light.means.getLastD (s.light.means.headD 0) + s.slew ≤ s.light.means.headD 0)

theorem execGovernorTempStep_eq (s : State) :
    exec .governorTempStep s = .next ((s.tempSteps s.riseHeld).noteTempLimited (s.f (pw rPWR_GOV_STAT) 9 1)) := by
  show execGovernorTempStep s = _
  unfold execGovernorTempStep
  dsimp only
  rw [List.partition_eq_filter_filter]
  rfl

/-- GOVERNOR_TEMP_STEP (R371): the clocks of the tiles above the limit fall a step as far as the room goes, no other clock falls, and
TEMP_LIMITED tells whether a tile is held down. -/
theorem execGovernorTempStep_lowers (s : State) : ∃ t, exec .governorTempStep s = .next t
    ∧ ((s.governedTiles.map s.clockCost).sum ≤ s.slewRoom 10 → ∀ u ∈ s.governedTiles, s.tooHot u = true → 0 < (s.clockNext u).1 →
        aget 0 s.light.lowered u + 1 ≤ aget 0 t.light.lowered u)
    ∧ (∀ u ∈ s.governedTiles, s.tooHot u = false → aget 0 t.light.lowered u ≤ aget 0 s.light.lowered u)
    ∧ (∀ u, u ∉ s.governedTiles → aget 0 t.light.lowered u = aget 0 s.light.lowered u)
    ∧ t.f (pw rPWR_GOV_STAT) 9 1 = b2n (t.light.lowered != []) := by
  refine ⟨_, execGovernorTempStep_eq s, ?_⟩
  rw [State.noteTempLimited_light, State.f_noteTempLimited]
  exact ⟨fun hroom u hu hot hc => State.tempSteps_lowers _ hroom hu hot hc, fun u _ hot => State.tempSteps_raises _ hot,
    (s.tempSteps_clocked _).lowered, rfl⟩

end Sys2Proof.Machine

/-! PROOFS. The paces that the Climate governor sets (R29, R370, R372, R428, R438): the pace of each tile, and when it takes effect. -/

namespace Sys2Proof.Machine

open Sys2Proof

/-! ### The pace a sample gives each tile -/

/-- What holds of every entry of a key holds of the value the list gives it. -/
theorem lookup?_getD {l : List (Nat × Nat)} {k d : Nat} {P : Nat → Prop} (hk : ∃ e ∈ l, e.1 = k) (h : ∀ e ∈ l, e.1 = k → P e.2) :
    P ((lookup? l k).getD d) := by
  obtain ⟨e, he, hek⟩ := hk
  have hs : (l.find? fun e => e.1 == k).isSome := by simp only [List.find?_isSome, beq_iff_eq]; exact ⟨e, he, hek⟩
  obtain ⟨x, hx⟩ := Option.isSome_iff_exists.1 hs
  have hxk : x.1 = k := by simpa using List.find?_some hx
  have hval : (lookup? l k).getD d = x.2 := by unfold lookup?; rw [hx]; rfl
  rw [hval]
  exact h x (List.mem_of_find?_eq_some hx) hxk

/-- R370: one sixteenth at most from the present pace, and not upwards while the mean rises faster than the slew limit. -/
theorem State.tilePace_near (s : State) (old power want room u : Nat) :
    s.paceNext u ≤ (s.tilePace old power want room u).2 + 1 ∧ (s.tilePace old power want room u).2 ≤ s.paceNext u + 1
      ∧ (old + s.slew < power → (s.tilePace old power want room u).2 ≤ s.paceNext u) := by
  unfold State.tilePace
  dsimp only
  generalize hw : (if old + s.slew < power then min want (s.paceNext u - 1) else if old + s.slew ≤ power then min want (s.paceNext u) else want) = w
  have hle : old + s.slew < power → w ≤ s.paceNext u - 1 := fun h => by rw [← hw, if_pos h]; exact Nat.min_le_right _ _
  split
  · exact ⟨by omega, by omega, fun _ => Nat.le_refl _⟩
  · split
    · exact ⟨by omega, by omega, fun _ => by omega⟩
    · split
      · exact ⟨by omega, by omega, fun h => by have := hle h; omega⟩
      · exact ⟨by omega, by omega, fun _ => Nat.le_refl _⟩

/-- The paces of tiles in turn, the last first, as far as the room goes. -/
def State.pacesOver (s : State) (old power : Nat) (want : List (Nat × Nat)) (us : List Nat) (y : Nat × List (Nat × Nat)) :
    Nat × List (Nat × Nat) :=
  us.foldl (fun (y : Nat × List (Nat × Nat)) t =>
    let p := s.tilePace old power ((lookup? want t).getD 16) y.1 t
    (p.1, (t, p.2) :: y.2)) y

/-- Every pace listed is a tile's by the room that was left to it, and every tile is listed. -/
theorem State.pacesOver_spec (s : State) (old power : Nat) (want : List (Nat × Nat)) (us : List Nat) (y : Nat × List (Nat × Nat)) :
    (∀ e ∈ (s.pacesOver old power want us y).2, e ∈ y.2 ∨ ∃ w room, e.2 = (s.tilePace old power w room e.1).2)
      ∧ (∀ u, u ∈ us ∨ (∃ e ∈ y.2, e.1 = u) → ∃ e ∈ (s.pacesOver old power want us y).2, e.1 = u) := by
  induction us generalizing y with
  | nil => exact ⟨fun _ he => .inl he, fun u hu => hu.resolve_left List.not_mem_nil⟩
  | cons t us ih =>
    obtain ⟨hval, hkey⟩ := ih ((s.tilePace old power ((lookup? want t).getD 16) y.1 t).1,
      (t, (s.tilePace old power ((lookup? want t).getD 16) y.1 t).2) :: y.2)
    refine ⟨fun e he => ?_, fun u hu => hkey u ?_⟩
    · rcases hval e he with h | h
      · rcases List.mem_cons.1 h with rfl | h
        · exact .inr ⟨_, _, rfl⟩
        · exact .inl h
      · exact .inr h
    · rcases hu with hu | ⟨e, he, hu⟩
      · rcases List.mem_cons.1 hu with rfl | hu
        · exact .inr ⟨_, List.mem_cons_self .., rfl⟩
        · exact .inl hu
      · exact .inr ⟨e, List.mem_cons_of_mem _ he, hu⟩

/-- The paces of a sample: 1/16 in Lockdown or a halted PWR, 16/16 under OVERRIDE, else near the present ones. -/
theorem State.paces_spec (s : State) (old power : Nat) (want : List (Nat × Nat)) (room : Nat) {u : Nat} (hu : u ∈ allTiles) :
    let v := (lookup? (State.paces old power want (room, s)) u).getD 16
    (s.locked = true ∨ s.halted .pwr = true → v = 1)
      ∧ (s.locked = false → s.halted .pwr = false → s.overridden = true → v = 16)
      ∧ (s.locked = false → s.halted .pwr = false → s.overridden = false →
          s.paceNext u ≤ v + 1 ∧ v ≤ s.paceNext u + 1 ∧ (old + s.slew < power → v ≤ s.paceNext u)) := by
  intro v
  refine ⟨fun h => ?_, fun hl hh ho => ?_, fun hl hh ho => ?_⟩
  · have hp : State.paces old power want (room, s) = allTiles.map fun t => (t, 1) := by
      unfold State.paces; dsimp only; rw [if_pos (by simpa using h)]
    show (lookup? _ u).getD 16 = 1
    rw [hp]
    refine lookup?_getD (P := fun x => x = 1) ⟨(u, 1), List.mem_map_of_mem hu, rfl⟩ fun e he _ => ?_
    obtain ⟨_, _, rfl⟩ := List.mem_map.1 he
    rfl
  · have hp : State.paces old power want (room, s) = [] := by
      unfold State.paces; dsimp only; rw [if_neg (by simp [hl, hh]), if_pos ho]
    show (lookup? _ u).getD 16 = 16
    rw [hp]
    rfl
  · have hp : State.paces old power want (room, s) = (s.pacesOver old power want allTiles (room, [])).2 := by
      unfold State.paces; dsimp only; rw [if_neg (by simp [hl, hh]), if_neg (by simp [ho])]; rfl
    obtain ⟨hval, hkey⟩ := s.pacesOver_spec old power want allTiles (room, [])
    show s.paceNext u ≤ (lookup? _ u).getD 16 + 1 ∧ (lookup? _ u).getD 16 ≤ _ ∧ (_ → (lookup? _ u).getD 16 ≤ _)
    rw [hp]
    refine lookup?_getD (P := fun x => s.paceNext u ≤ x + 1 ∧ x ≤ s.paceNext u + 1 ∧ (old + s.slew < power → x ≤ s.paceNext u))
      (hkey u (.inl hu)) fun e he heu => ?_
    obtain ⟨w, r, h⟩ := (hval e he).resolve_left List.not_mem_nil
    rw [h, heu]
    exact s.tilePace_near old power w r u

/-! ### When a pace takes effect -/

/-- What a step establishes for its own key, and every step keeps, holds after steps over a list with that key. -/
theorem foldl_reaches {α : Type} {g : α → Nat → α} {I Q : α → Prop} {u : Nat} (hI : ∀ y t, I y → I (g y t)) (hest : ∀ y, I y → Q (g y u))
    (hkeep : ∀ y t, t ≠ u → I y → Q y → Q (g y t)) {us : List Nat} (hu : u ∈ us) {y : α} (hy : I y) : Q (us.foldl g y) := by
  have hstay : ∀ (us : List Nat) (y : α), I y → Q y → Q (us.foldl g y) := fun us => by
    induction us with
    | nil => exact fun _ _ hq => hq
    | cons t us ih =>
      intro y hy hq
      refine ih _ (hI y t hy) ?_
      by_cases ht : t = u
      · rw [ht]; exact hest y hy
      · exact hkeep y t ht hy hq
  induction us generalizing y with
  | nil => cases hu
  | cons t us ih =>
    rcases List.mem_cons.1 hu with rfl | hu
    · exact hstay us _ (hI y u hy) (hest y hy)
    · exact ih hu (hI y t hy)

/-- A table listed by rising keys, without the entries that read as the default. -/
theorem aget_map_filter (g : Nat → Nat) (d u : Nat) {L : List Nat} (hL : L.Pairwise (· < ·)) :
    aget d ((L.map fun t => (t, g t)).filter fun e => e.2 != d) u = if u ∈ L then g u else d := by
  induction L with
  | nil => rfl
  | cons a L ih =>
    obtain ⟨ha, hL⟩ := List.pairwise_cons.1 hL
    have hnot : u ≤ a → u ∉ L := fun hua hu => absurd (ha u hu) (by omega)
    rw [List.map_cons, List.filter_cons]
    split
    · rw [aget]
      split
      · next hau => rw [ih hL, if_congr (List.mem_cons.trans (or_iff_right (by omega))) rfl rfl]
      · next hau =>
        split
        · next he => rw [he, if_pos (List.mem_cons_self ..)]
        · next he =>
          rw [if_neg (fun h => (List.mem_cons.1 h).elim (fun e => he e.symm) (hnot (by omega)))]
    · next hga =>
      rw [ih hL]
      by_cases he : u = a
      · subst he
        rw [if_neg (hnot (Nat.le_refl u)), if_pos (List.mem_cons_self ..)]
        exact (by simpa using hga : g u = d).symm
      · rw [if_congr (List.mem_cons.trans (or_iff_right he)) rfl rfl]

theorem allTiles_sorted : allTiles.Pairwise (· < ·) := List.pairwise_lt_range.filter _

theorem mem_allTiles {u : Nat} : u ∈ allTiles ↔ isTile u = true := by
  unfold allTiles
  rw [List.mem_filter, List.mem_range]
  exact and_iff_right_of_imp fun h => by simp only [isTile, Bool.and_eq_true, decide_eq_true_eq] at h; exact h.1

/-- A change of pace that waits for the step boundary, in place of one that still waits (R29). -/
def State.deferPace (f : Nat → Nat) (s : State) (u : Nat) : State :=
  s.mapTile u fun x => { x with
    deferred := (x.deferred.filter fun d => match d with | .pace _ => false | _ => true) ++ (if s.paceOf u = f u then [] else [.pace (f u)]) }

/-- The paces in effect once those that need no boundary are set. -/
def State.pacesNow (s : State) (f : Nat → Nat) : Assoc Nat :=
  (allTiles.map fun t => (t, if s.boundaryWaits t then s.paceOf t else f t)).filter fun e => e.2 != 16

theorem State.setPaces_eq (s : State) (f : Nat → Nat) : s.setPaces f
    = (s.poweredTiles.filter s.boundaryWaits).foldl (State.deferPace f) { s with light := { s.light with pace := s.pacesNow f } } := rfl

/-- Setting paces changes tiles and the table of paces alone. -/
theorem State.setPaces_only (s : State) (f : Nat → Nat) :
    ∃ ts : Assoc Tile, s.setPaces f = { s with tiles := ts, light := { s.light with pace := s.pacesNow f } } := by
  rw [State.setPaces_eq]
  generalize s.pacesNow f = p
  refine List.foldlRecOn (motive := fun t : State => ∃ ts : Assoc Tile, t = { s with tiles := ts, light := { s.light with pace := p } }) _ _
    ⟨s.tiles, rfl⟩ ?_
  rintro _ ⟨ts, rfl⟩ u _
  exact ⟨_, rfl⟩

theorem State.setPaces_light (s : State) (f : Nat → Nat) : (s.setPaces f).light = { s.light with pace := s.pacesNow f } := by
  obtain ⟨ts, h⟩ := s.setPaces_only f
  rw [h]

theorem State.setPaces_lowered (s : State) (f : Nat → Nat) : (s.setPaces f).light.lowered = s.light.lowered := by
  rw [State.setPaces_light]

theorem State.setPaces_capped (s : State) (f : Nat → Nat) : (s.setPaces f).light.capped = s.light.capped := by
  rw [State.setPaces_light]

theorem State.setPaces_means (s : State) (f : Nat → Nat) : (s.setPaces f).light.means = s.light.means := by
  rw [State.setPaces_light]

theorem State.rd_setPaces (s : State) (f : Nat → Nat) (a : Nat) : (s.setPaces f).rd a = s.rd a := by
  obtain ⟨ts, h⟩ := s.setPaces_only f
  unfold State.rd
  rw [h]

theorem State.paceOf_setPaces (s : State) (f : Nat → Nat) {u : Nat} (hu : u ∈ allTiles) :
    (s.setPaces f).paceOf u = if s.boundaryWaits u then s.paceOf u else f u := by
  unfold State.paceOf
  rw [State.setPaces_light]
  unfold State.pacesNow State.paceOf
  rw [aget_map_filter _ _ _ allTiles_sorted, if_pos hu]

/-- A tile whose pace differs from the one set has it as its last change that waits. -/
theorem State.deferred_setPaces (s : State) (f : Nat → Nat) {u : Nat} (hp : u ∈ s.poweredTiles) (hw : s.boundaryWaits u = true)
    (hne : (s.setPaces f).paceOf u ≠ f u) : ((s.setPaces f).tile u).deferred.getLast? = some (.pace (f u)) := by
  unfold State.paceOf at hne
  rw [State.setPaces_light] at hne
  rw [State.setPaces_eq]
  generalize s.pacesNow f = p at hne ⊢
  refine foldl_reaches (g := State.deferPace f) (I := fun y : State => y.paceOf u ≠ f u)
    (Q := fun y : State => (y.tile u).deferred.getLast? = some (.pace (f u)))
    (fun y t hy => hy) (fun y hy => ?_) (fun y t ht _ hq => ?_) (List.mem_filter.2 ⟨hp, hw⟩) ?_
  · unfold State.deferPace
    rw [State.tile_mapTile, if_pos rfl, if_neg hy, List.getLast?_append]
    rfl
  · unfold State.deferPace
    rw [State.tile_mapTile, if_neg (Ne.symm ht)]
    exact hq
  · exact hne

/-! ### Tiles with power -/

/-- The address of a tile's TILE_STATE names the tile. -/
theorem stateTile_tr {u : Nat} (hu : isTile u = true) : stateTile (tr u rTILE_STATE) = some u := by
  obtain ⟨j, hj⟩ := blkOf_ir (b := .tile) (i := u) (o := rTILE_STATE) hu (by decide)
  have hju := winBase_add_of_blkOf hj
  have hju : j = u := by simp only [ir, winBase] at hju; omega
  subst hju
  unfold stateTile
  rw [show blkOf (tr j rTILE_STATE) = _ from hj]
  rfl

/-- TILE_STATE is at OFF after reset (R96). -/
theorem ts_resetVal {u : Nat} (hu : isTile u = true) : fld (resetVal (tr u rTILE_STATE)).toNat 0 3 = tsOFF := by
  obtain ⟨j, hj⟩ := blkOf_ir (b := .tile) (i := u) (o := rTILE_STATE) hu (by decide)
  obtain ⟨r, k, hrow, hpol, hreset⟩ : ∃ r k, findRow (rowsOf .tile) rTILE_STATE = some (r, k) ∧ r.off ≠ rINC_POLICY
      ∧ fld (fieldsReset r.fields % 2 ^ 32) 0 3 = tsOFF := by
    refine ⟨_, _, rfl, ?_, ?_⟩ <;> decide
  have hreg : regRow (tr u rTILE_STATE) = some (.tile, j, r, k) := by
    unfold regRow
    rw [show blkOf (tr u rTILE_STATE) = _ from hj]
    dsimp only
    rw [hrow]
  unfold resetVal
  rw [hreg]
  dsimp only
  rw [if_neg hpol, if_neg (by simp)]
  exact hreset

/-- A tile in a state other than OFF has power. -/
theorem State.mem_poweredTiles {s : State} {u : Nat} (hu : isTile u = true) (h : s.ts u ≠ tsOFF) : u ∈ s.poweredTiles := by
  have hlisted : tr u rTILE_STATE ∈ s.regs.map (·.1) := by
    by_contra hn
    refine h ?_
    unfold State.ts State.f State.rn
    rw [State.rd_unlisted hn, ts_resetVal hu]
  obtain ⟨e, he, hea⟩ := List.mem_map.1 hlisted
  exact List.mem_filterMap.2 ⟨e, he, by rw [hea, stateTile_tr hu]⟩

/-- A window of a tile is one of a tile that there is. -/
theorem isTile_of_blkOf {a u o : Nat} (h : blkOf a = some (.tile, u, o)) : isTile u = true := by
  unfold blkOf at h
  dsimp only at h
  split at h
  case h_11 => split_ifs at h <;> simp_all
  all_goals cases h

/-- Only tiles have power. -/
theorem State.isTile_of_powered {s : State} {u : Nat} (h : u ∈ s.poweredTiles) : isTile u = true := by
  obtain ⟨e, -, he⟩ := List.mem_filterMap.1 h
  unfold stateTile at he
  split at he
  · next t o hb =>
    split at he
    · obtain rfl := Option.some.inj he
      exact isTile_of_blkOf hb
    · cases he
  · cases he

/-- A tile whose changes wait for its boundary is not OFF. -/
theorem State.ts_of_boundaryWaits {s : State} {u : Nat} (h : s.boundaryWaits u = true) : s.ts u ≠ tsOFF := by
  intro e
  rw [State.boundaryWaits, e] at h
  cases h

end Sys2Proof.Machine

/-! PROOFS. What GOVERNOR_SAMPLE, SLACK_SAMPLE and a condition summary leave (R370, R375 to R377, R383, R501), and that no event
halts a block or lets it run again (R428). -/

namespace Sys2Proof.Machine

open Sys2Proof

/-! ### Events leave HALTED -/

/-- The same blocks are halted. -/
def SameHalted (s t : State) : Prop := ∀ b i, t.halted b i = s.halted b i

theorem SameHalted.refl (s : State) : SameHalted s s := fun _ _ => rfl

theorem SameHalted.trans {s t u : State} (h : SameHalted s t) (k : SameHalted t u) : SameHalted s u := fun b i => (k b i).trans (h b i)

/-- What does not touch the register file. -/
theorem SameHalted.same {s t : State} (h : t.regs = s.regs) : SameHalted s t := fun b i => by
  unfold State.halted State.f State.rn State.rd; rw [h]

theorem SameHalted.ite {s t u : State} {p : Prop} [Decidable p] (h : SameHalted s t) (k : SameHalted s u) : SameHalted s (if p then t else u) := by
  split
  · exact h
  · exact k

theorem SameHalted.foldl {α : Type} (g : State → α → State) (hg : ∀ t x, SameHalted t (g t x)) (xs : List α) (s : State) :
    SameHalted s (xs.foldl g s) := by
  induction xs generalizing s with
  | nil => exact SameHalted.refl s
  | cons x xs ih => exact (hg s x).trans (ih _)

theorem winBase_mod (b : Blk) (i : Nat) : winBase b i % 0x1000 = 0 := by
  cases b <;> simp only [winBase] <;> omega

/-- No register at another offset is an INC_STAT. -/
theorem SameHalted.wn (s : State) {a : Nat} (v : Nat) (h : a % 0x1000 ≠ rINC_STAT) : SameHalted s (s.wn a v) := fun b i => by
  have hne : ir b i rINC_STAT ≠ a := fun e => h (by
    have := winBase_mod b i
    rw [← e]
    simp only [ir, rINC_STAT]
    omega)
  unfold State.halted State.f
  rw [State.rn_wn_ne _ _ hne]

/-- An incident register of a block at another offset than INC_STAT. -/
theorem ir_mod (b : Blk) (i : Nat) {o : Nat} (ho : o < 0x1000) : ir b i o % 0x1000 = o := by
  have := winBase_mod b i
  simp only [ir]
  omega

/-- RAISED of a source lies apart from HALTED. -/
theorem SameHalted.raised (s : State) (b : Blk) (i : Nat) {k : Nat} (hk : k < 24) : SameHalted s (s.setf (ir b i rINC_STAT) k 1 1) := fun c j => by
  unfold State.halted
  by_cases h : ir c j rINC_STAT = ir b i rINC_STAT
  · rw [h, State.f_setf_apart _ _ _ (by omega) (.inr (by omega))]
  · rw [State.f_setf_ne _ _ _ _ _ _ h]

theorem State.logPut_sameHalted (s : State) (l : Nat) (r : List Byte) : SameHalted s (s.logPut l r) := by
  have hprod : lg rHST_LOG_PROD l % 0x1000 ≠ rINC_STAT := by simp only [lg, winBase, rHST_LOG_PROD, rINC_STAT]; omega
  exact (SameHalted.same (s := s) (t := s.hostWrite _ r) rfl).trans ((SameHalted.wn _ _ hprod).trans (SameHalted.same rfl))

theorem State.logMarker_sameHalted (s : State) (l : Nat) : SameHalted s (s.logMarker l) :=
  SameHalted.trans (SameHalted.same rfl) (State.logPut_sameHalted _ _ _)

theorem State.logDropOnly_sameHalted (s : State) (l : Nat) (r : List Byte) : SameHalted s (s.logDropOnly l r) := by
  have hdrop : lg rHST_LOG_DROP_COUNT l % 0x1000 ≠ rINC_STAT := by simp only [lg, winBase, rHST_LOG_DROP_COUNT, rINC_STAT]; omega
  exact SameHalted.trans (SameHalted.same rfl) (SameHalted.wn _ _ hdrop)

theorem State.logDeliver_sameHalted (s : State) (l : Nat) (r : List Byte) : SameHalted s (s.logDeliver l r).1 := by
  unfold State.logDeliver
  dsimp only
  split
  · split
    · exact State.logPut_sameHalted _ _ _
    · split
      · exact (State.logMarker_sameHalted _ _).trans (State.logPut_sameHalted _ _ _)
      · exact State.logDropOnly_sameHalted _ _ _
  · split
    · exact SameHalted.same rfl
    · exact State.logDropOnly_sameHalted _ _ _

theorem State.logRoute_sameHalted (s : State) (l : Nat) (r : List Byte) : SameHalted s (s.logRoute l r).1 := by
  unfold State.logRoute
  split
  · exact State.logDeliver_sameHalted _ _ _
  · split
    · exact State.logDeliver_sameHalted _ _ _
    · exact SameHalted.wn _ _ (by decide)

theorem State.keepHistory_sameHalted (s : State) (r : List Byte) : SameHalted s (s.keepHistory r) := by
  unfold State.keepHistory
  dsimp only
  split <;> exact SameHalted.same rfl

theorem State.raise_sameHalted (s : State) (b : Blk) (i : Nat) {k : Nat} (hk : k < 24) (inj : Bool) (d : Nat) :
    SameHalted s (s.raise b i k inj d).2 := by
  have hother : ∀ (t : State) {o : Nat} (v : Nat), o < 0x1000 → o ≠ rINC_STAT → SameHalted t (t.wn (ir b i o) v) := fun t o v ho hne =>
    SameHalted.wn t v (by rw [ir_mod b i ho]; exact hne)
  unfold State.raise State.incRecord
  refine SameHalted.trans (t := _) ?_ (SameHalted.same rfl)
  refine SameHalted.trans (t := _) ?_ (SameHalted.ite (hother _ _ (by decide) (by decide)) (SameHalted.refl _))
  refine SameHalted.trans (t := _) ?_ (SameHalted.ite (SameHalted.same rfl) (SameHalted.refl _))
  refine SameHalted.trans (t := _) ?_ (SameHalted.ite (hother _ _ (by decide) (by decide)) (hother _ _ (by decide) (by decide)))
  exact (SameHalted.raised s b i hk).trans (SameHalted.same rfl)

theorem State.coincide_sameHalted (s : State) (b : Blk) (i k : Nat) (inj : Bool) (d : Nat) : SameHalted s (s.coincide b i k inj d).2 := by
  unfold State.coincide
  by_cases hi : inj = true
  · rw [if_pos hi]; exact SameHalted.refl s
  · rw [if_neg hi]
    exact SameHalted.ite (SameHalted.trans (SameHalted.same rfl) (SameHalted.wn _ _ (by rw [ir_mod b i (by decide)]; decide))) (SameHalted.same rfl)

theorem State.eventCore_sameHalted (s : State) (b : Blk) (i k : Nat) (inj note : Bool) (d : Nat) : SameHalted s (s.eventCore b i k inj note d).2 := by
  unfold State.eventCore
  by_cases hs : hasSource b k = true
  · rw [if_pos hs]
    have hk := hasSource_lt hs
    have hcnt : (ir b i rINC_COUNT + 4 * k) % 0x1000 ≠ rINC_STAT := by
      have := winBase_mod b i
      simp only [ir, rINC_COUNT, rINC_STAT]
      omega
    have h0 := s.coincide_sameHalted b i k inj d
    generalize s.coincide b i k inj d = x at h0
    obtain ⟨forced, t⟩ := x
    refine h0.trans ?_
    clear h0
    show SameHalted t _
    dsimp -zeta only
    extract_lets cnt pol now key op w i1 u u2 u3 u4
    have h1 : SameHalted t u := SameHalted.ite (SameHalted.same rfl) (SameHalted.refl t)
    have h2 : SameHalted t u2 := h1.trans (SameHalted.wn _ _ hcnt)
    have h3 : SameHalted t u3 := h2.trans (SameHalted.wn _ _ hcnt)
    have h4 : SameHalted t u4 := h2.trans (SameHalted.wn _ _ hcnt)
    split
    · split
      · exact h3.trans (SameHalted.same rfl)
      · exact h3
    · split
      · exact h4
      · exact h4.trans (State.raise_sameHalted _ _ _ hk _ _)
  · rw [if_neg hs]
    exact SameHalted.refl s

theorem State.logSend_sameHalted (s : State) (l : Nat) (r : List Byte) : SameHalted s (s.logSend l r) := by
  unfold State.logSend
  have h1 := s.logRoute_sameHalted l r
  generalize s.logRoute l r = x at h1
  obtain ⟨t, dropped⟩ := x
  refine SameHalted.ite ?_ h1
  have h2 := h1.trans (t.eventCore_sameHalted .hst 0 1 false true (if t.logEnabled l then l else 0))
  generalize t.eventCore .hst 0 1 false true (if t.logEnabled l then l else 0) = y at h2
  exact h2.trans (SameHalted.foldl _ (fun t x => (t.keepHistory_sameHalted x).trans (State.logRoute_sameHalted _ _ _)) _ _)

theorem State.postTo_sameHalted (s : State) (l : Nat) (r : List Byte) : SameHalted s (s.postTo l r) :=
  SameHalted.ite (SameHalted.refl s) ((s.keepHistory_sameHalted r).trans (State.logSend_sameHalted _ _ _))

/-- An event neither halts a block nor lets it run again. -/
theorem State.event_sameHalted (s : State) (b : Blk) (i k d : Nat) (inj note : Bool) : SameHalted s (s.event b i k d inj note) :=
  (s.eventCore_sameHalted b i k inj note d).trans (SameHalted.foldl _ (fun t _ => State.postTo_sameHalted t _ _) _ _)

theorem State.setLevel_sameHalted (s : State) (b : Blk) (i k : Nat) (on : Bool) (d : Nat) : SameHalted s (s.setLevel b i k on d) := by
  unfold State.setLevel
  dsimp only
  exact SameHalted.ite (SameHalted.refl s) (SameHalted.ite ((SameHalted.same rfl).trans (State.event_sameHalted _ _ _ _ _ _ _)) (SameHalted.same rfl))

/-! ### The report of a sample -/

/-- The means kept and the power of the interval so far. -/
def State.noteMeans (s : State) (power : Nat) : State :=
  { s with light := { s.light with means := (power :: s.light.means).take 100,
                                    cond := { s.light.cond with powSum := s.light.cond.powSum + power, powCount := s.light.cond.powCount + 1 } } }

/-- PWR_GOV_STAT of a sample. -/
def State.noteGovStat (s : State) (power : Nat) : State :=
  ((s.setf (pw rPWR_GOV_STAT) 16 16 power).setf (pw rPWR_GOV_STAT) 8 1 (b2n s.slewLimited)).setf (pw rPWR_GOV_STAT) 10 1 (b2n s.overridden)

/-- PWR_GOV_LIMIT_COUNT of a sample. -/
def State.countLimited (s : State) : State :=
  if s.slewLimited || s.f (pw rPWR_GOV_STAT) 9 1 == 1 || s.light.capped != [] then s.bump (pw rPWR_GOV_LIMIT_COUNT) else s

/-- The level of OVER_CAP (R501). -/
def State.overCap (s : State) (input : Nat) : State :=
  s.setLevel .pwr 0 2 ((s.poweredTiles.all fun t => s.paceOf t == 1 && s.f (tr t rTILE_CLOCK) 0 7 == 0)
    && decide (s.f (pw rPWR_CAP) 0 11 < input))

/-- The input, the means and PWR_GOV_STAT of a sample. -/
def State.sampleStat (s : State) (power input : Nat) : State := ((s.setf (pw rPWR_INPUT) 16 16 input).noteMeans power).noteGovStat power

/-- The state that a sample leaves once its clocks and paces are set. -/
def State.report (s : State) (power input : Nat) : State := (s.sampleStat power input).countLimited.overCap input

/-- The state whose clocks and paces a sample has set; in A1 and below neither changes (R511). -/
def State.govern (s : State) (power rest : Nat) (pace : List (Nat × Nat)) : State :=
  let x := State.followBudget (s.light.means.getLastD power) power rest (s.slewRoom 1, s)
  if s.asleep then s else x.2.setPaces fun t => (lookup? (State.paces (s.light.means.getLastD power) power pace x) t).getD 16

theorem execGovernorSample_eq (s : State) {power input rest : Nat} {pace : List (Nat × Nat)} (hpace : ∀ e ∈ pace, 1 ≤ e.2 ∧ e.2 ≤ 16)
    (hp : power < 65536) (hi : input < 65536) (hr : rest < 65536) :
    exec (.governorSample (power, rest) input pace) s = .next ((s.govern power rest pace).report power input) := by
  show execGovernorSample (power, rest) input pace s = _
  have hall : pace.all (fun e => decide (1 ≤ e.2) && decide (e.2 ≤ 16)) = true := by simpa using hpace
  unfold execGovernorSample
  dsimp only
  rw [if_neg (by simp only [hall]; simp; omega)]
  rfl

/-! ### SLEW_LIMITED -/

/-- What SLEW_LIMITED depends on. -/
theorem State.slewLimited_congr {s t : State} (hl : t.locked = s.locked) (hh : t.halted .pwr = s.halted .pwr) (ho : t.overridden = s.overridden)
    (ht : t.tiles = s.tiles) (hp : t.light.pace = s.light.pace) : t.slewLimited = s.slewLimited := by
  have hpace : t.paceNext = s.paceNext := funext fun u => by unfold State.paceNext State.tile State.paceOf; rw [ht, hp]
  unfold State.slewLimited
  rw [hl, hh, ho, hpace]

/-- The registers a sample writes are none of those that SLEW_LIMITED reads. -/
theorem State.slewLimited_of_sample {s t : State} (h : RegsBut [pw rPWR_GOV_STAT, pw rPWR_INPUT, pw rPWR_GOV_LIMIT_COUNT] s t)
    (ht : t.tiles = s.tiles) (hp : t.light.pace = s.light.pace) : t.slewLimited = s.slewLimited := by
  refine State.slewLimited_congr ?_ ?_ ?_ ht hp
  · unfold State.locked; rw [h.f (by decide)]
  · unfold State.halted; rw [h.f (by decide)]
  · unfold State.overridden; rw [h.f (by decide), h.f (by decide)]

/-! ### What the report writes -/

theorem State.noteGovStat_regsBut (s : State) (power : Nat) : RegsBut [pw rPWR_GOV_STAT] s (s.noteGovStat power) :=
  (RegsBut.setf s _ _ _ _).trans ((RegsBut.setf _ _ _ _ _).trans (RegsBut.setf _ _ _ _ _))

theorem State.f_noteGovStat_power (s : State) {power : Nat} (h : power < 65536) : (s.noteGovStat power).f (pw rPWR_GOV_STAT) 16 16 = power := by
  unfold State.noteGovStat
  rw [State.f_setf_apart _ _ _ (by decide) (.inr (by decide)), State.f_setf_apart _ _ _ (by decide) (.inr (by decide)),
    State.f_setf_same _ _ _ (by decide), Nat.mod_eq_of_lt (b := 2 ^ 16) h]

theorem State.f_noteGovStat_slew (s : State) (power : Nat) : (s.noteGovStat power).f (pw rPWR_GOV_STAT) 8 1 = b2n s.slewLimited := by
  unfold State.noteGovStat
  rw [State.f_setf_apart _ _ _ (by decide) (.inl (by decide)), State.f_setf_same _ _ _ (by decide)]
  exact Nat.mod_eq_of_lt (by unfold b2n; split <;> decide)

theorem State.f_noteGovStat_temp (s : State) (power : Nat) : (s.noteGovStat power).f (pw rPWR_GOV_STAT) 9 1 = s.f (pw rPWR_GOV_STAT) 9 1 := by
  unfold State.noteGovStat
  rw [State.f_setf_apart _ _ _ (by decide) (.inl (by decide)), State.f_setf_apart _ _ _ (by decide) (.inr (by decide)),
    State.f_setf_apart _ _ _ (by decide) (.inl (by decide))]

theorem State.countLimited_regsBut (s : State) : RegsBut [pw rPWR_GOV_LIMIT_COUNT] s s.countLimited := by
  unfold State.countLimited
  split
  · exact RegsBut.bump s _
  · exact RegsBut.refl _ s

theorem State.countLimited_tiles (s : State) : s.countLimited.tiles = s.tiles := by
  unfold State.countLimited
  split <;> rfl

theorem State.countLimited_light (s : State) : s.countLimited.light = s.light := by
  unfold State.countLimited
  split <;> rfl

theorem State.rn_countLimited (s : State) : s.countLimited.rn (pw rPWR_GOV_LIMIT_COUNT)
    = if s.slewLimited = true ∨ s.f (pw rPWR_GOV_STAT) 9 1 = 1 ∨ s.light.capped ≠ [] then min 0xFFFFFFFF (s.rn (pw rPWR_GOV_LIMIT_COUNT) + 1)
      else s.rn (pw rPWR_GOV_LIMIT_COUNT) := by
  have hc : (s.slewLimited || s.f (pw rPWR_GOV_STAT) 9 1 == 1 || s.light.capped != []) = true
      ↔ (s.slewLimited = true ∨ s.f (pw rPWR_GOV_STAT) 9 1 = 1 ∨ s.light.capped ≠ []) := by
    simp only [Bool.or_eq_true, beq_iff_eq, bne_iff_ne, or_assoc]
  unfold State.countLimited
  rw [← if_congr hc rfl rfl]
  split
  · exact State.rn_bump s _
  · rfl

theorem State.overCap_recorded (s : State) (input : Nat) : Recorded s (s.overCap input) := State.setLevel_recorded _ _ _ _ _ _

theorem State.overCap_frame (s : State) (input : Nat) : RecordFrame s (s.overCap input) := State.setLevel_frame _ rfl _ _ _

/-- OVER_CAP leaves SLEW_LIMITED. -/
theorem State.slewLimited_overCap (s : State) (input : Nat) : (s.overCap input).slewLimited = s.slewLimited := by
  have hf := s.overCap_frame input
  refine State.slewLimited_congr ?_ (State.setLevel_sameHalted _ _ _ _ _ _ _ _) ?_ (s.overCap_recorded input).tiles
    (congrArg LightState.pace (s.overCap_recorded input).light)
  · unfold State.locked; rw [hf.f (by decide)]
  · unfold State.overridden; rw [hf.f (by decide), hf.f (by decide)]

theorem State.sampleStat_regsBut (s : State) (power input : Nat) :
    RegsBut [pw rPWR_GOV_STAT, pw rPWR_INPUT, pw rPWR_GOV_LIMIT_COUNT] s (s.sampleStat power input) := by
  have hin : RegsBut [pw rPWR_GOV_STAT, pw rPWR_INPUT, pw rPWR_GOV_LIMIT_COUNT] s ((s.setf (pw rPWR_INPUT) 16 16 input).noteMeans power) :=
    (RegsBut.setf s _ _ _ _).mono (by simp)
  exact hin.trans ((State.noteGovStat_regsBut _ _).mono (by simp))

theorem State.slewLimited_sampleStat (s : State) (power input : Nat) : (s.sampleStat power input).slewLimited = s.slewLimited :=
  State.slewLimited_of_sample (s.sampleStat_regsBut power input) rfl rfl

/-- The report of a sample leaves tiles and paces, and of the light it writes the means and the figures of the interval alone. -/
theorem State.report_only (s : State) (power input : Nat) : (s.report power input).tiles = s.tiles
    ∧ ∃ c, (s.report power input).light = { s.light with means := (power :: s.light.means).take 100, cond := c } := by
  have hrec := (s.sampleStat power input).countLimited.overCap_recorded input
  exact ⟨hrec.tiles.trans (State.countLimited_tiles _), _, hrec.light.trans (State.countLimited_light _)⟩

theorem State.report_frame (s : State) (power input : Nat) :
    RegsButRecords [pw rPWR_GOV_STAT, pw rPWR_INPUT, pw rPWR_GOV_LIMIT_COUNT] s (s.report power input) :=
  ((s.sampleStat_regsBut power input).trans ((State.countLimited_regsBut _).mono (by simp))).records.trans
    ((State.overCap_frame _ input).mono (by simp))

theorem State.slewLimited_report (s : State) (power input : Nat) : (s.report power input).slewLimited = s.slewLimited := by
  refine (State.slewLimited_overCap _ input).trans (State.slewLimited_of_sample ?_ ?_ ?_)
  · exact (s.sampleStat_regsBut power input).trans ((State.countLimited_regsBut _).mono (by simp))
  · exact State.countLimited_tiles _
  · rw [State.countLimited_light]; rfl

/-- The power, SLEW_LIMITED and the input that a sample shows (R370, R501). -/
theorem State.report_stat (s : State) {power input : Nat} (hp : power < 65536) (hi : input < 65536) :
    (s.report power input).f (pw rPWR_GOV_STAT) 16 16 = power
      ∧ (s.report power input).f (pw rPWR_GOV_STAT) 8 1 = b2n (s.report power input).slewLimited
      ∧ (s.report power input).f (pw rPWR_INPUT) 16 16 = input := by
  have hcap := State.overCap_frame (s.sampleStat power input).countLimited input
  have hcount := State.countLimited_regsBut (s.sampleStat power input)
  have hstat : ∀ lo w, (s.report power input).f (pw rPWR_GOV_STAT) lo w = (s.sampleStat power input).f (pw rPWR_GOV_STAT) lo w :=
    fun lo w => (hcap.f (by decide) lo w).trans (hcount.f (by decide) lo w)
  refine ⟨(hstat 16 16).trans (State.f_noteGovStat_power _ hp), ?_, ?_⟩
  · rw [hstat, State.slewLimited_report]
    exact (State.f_noteGovStat_slew _ power).trans (congrArg b2n
      (State.slewLimited_of_sample (t := (s.setf (pw rPWR_INPUT) 16 16 input).noteMeans power) ((RegsBut.setf s _ _ _ _).mono (by simp)) rfl rfl))
  · have hin := (hcap.f (a := pw rPWR_INPUT) (by decide) 16 16).trans (hcount.f (by decide) 16 16)
    refine hin.trans (((State.noteGovStat_regsBut _ power).f (by decide) 16 16).trans ?_)
    exact (State.f_setf_same s (pw rPWR_INPUT) (lo := 16) (w := 16) input (by decide)).trans (Nat.mod_eq_of_lt (b := 2 ^ 16) hi)

/-- A sample that limits the Gallery is counted (R370). -/
theorem State.report_count (s : State) (power input : Nat) : (s.report power input).rn (pw rPWR_GOV_LIMIT_COUNT)
    = if (s.report power input).slewLimited = true ∨ s.f (pw rPWR_GOV_STAT) 9 1 = 1 ∨ s.light.capped ≠ []
      then min 0xFFFFFFFF (s.rn (pw rPWR_GOV_LIMIT_COUNT) + 1) else s.rn (pw rPWR_GOV_LIMIT_COUNT) := by
  have hin : RegsBut [pw rPWR_INPUT] s ((s.setf (pw rPWR_INPUT) 16 16 input).noteMeans power) := RegsBut.setf s _ _ _ _
  have htemp : (s.sampleStat power input).f (pw rPWR_GOV_STAT) 9 1 = s.f (pw rPWR_GOV_STAT) 9 1 :=
    (State.f_noteGovStat_temp _ power).trans (hin.f (by decide) 9 1)
  have hn : (s.sampleStat power input).rn (pw rPWR_GOV_LIMIT_COUNT) = s.rn (pw rPWR_GOV_LIMIT_COUNT) :=
    ((State.noteGovStat_regsBut _ power).rn (by decide)).trans (hin.rn (by decide))
  have hcount := (s.sampleStat power input).rn_countLimited
  rw [State.slewLimited_sampleStat, htemp, hn] at hcount
  rw [State.slewLimited_report]
  exact ((State.overCap_frame _ input).rn (by decide)).trans hcount

end Sys2Proof.Machine

/-! PROOFS. The Climate governor's sample, the slack samples and the condition summaries, and the statement about them (R36, R370 to
R372, R375 to R377, R383, R428, R438, R501). -/

namespace Sys2Proof.Machine

open Sys2Proof

/-! ### Clocks and paces of a sample -/

/-- The room left and the state in which the clocks follow the budget. -/
def State.afterBudget (s : State) (power rest : Nat) : Nat × State :=
  State.followBudget (s.light.means.getLastD power) power rest (s.slewRoom 1, s)

/-- The pace that a sample gives a tile. -/
def State.samplePace (s : State) (power rest : Nat) (pace : List (Nat × Nat)) (u : Nat) : Nat :=
  (lookup? (State.paces (s.light.means.getLastD power) power pace (s.afterBudget power rest)) u).getD 16

theorem State.afterBudget_clocked (s : State) (power rest : Nat) : Clocked s.governedTiles s (s.afterBudget power rest).2 :=
  State.followBudget_clocked _ _ _ _ _

theorem State.afterBudget_lowered (s : State) (power rest : Nat) : (s.afterBudget power rest).2.light.lowered = s.light.lowered := by
  unfold State.afterBudget
  exact State.followBudget_lowered _ _ _ _ _

theorem State.govern_asleep {s : State} (h : s.asleep = true) (power rest : Nat) (pace : List (Nat × Nat)) : s.govern power rest pace = s := by
  unfold State.govern
  dsimp only
  rw [if_pos h]

theorem State.govern_awake {s : State} (h : s.asleep = false) (power rest : Nat) (pace : List (Nat × Nat)) :
    s.govern power rest pace = (s.afterBudget power rest).2.setPaces (s.samplePace power rest pace) := by
  unfold State.govern
  dsimp only
  rw [if_neg (by simp [h])]
  rfl

/-- R370, R372, R428, R438: the pace that a sample gives, by the module's state as it was. -/
theorem State.samplePace_spec (s : State) (power rest : Nat) (pace : List (Nat × Nat)) {u : Nat} (hu : u ∈ allTiles) :
    let v := s.samplePace power rest pace u
    (s.locked = true ∨ s.halted .pwr = true → v = 1)
      ∧ (s.locked = false → s.halted .pwr = false → s.overridden = true → v = 16)
      ∧ (s.locked = false → s.halted .pwr = false → s.overridden = false →
          s.paceNext u ≤ v + 1 ∧ v ≤ s.paceNext u + 1 ∧ (s.light.means.getLastD power + s.slew < power → v ≤ s.paceNext u)) := by
  have hc := s.afterBudget_clocked power rest
  have h := State.paces_spec (s.afterBudget power rest).2 (s.light.means.getLastD power) power pace (s.afterBudget power rest).1 hu
  rw [hc.locked, hc.halted, hc.overridden, hc.pace, hc.slew] at h
  exact h

/-- What a sample's clocks and paces leave: how far tiles are lowered for their temperature, the means, and every register but the
clocks of the governed tiles. -/
theorem State.govern_frame (s : State) (power rest : Nat) (pace : List (Nat × Nat)) :
    (s.govern power rest pace).light.lowered = s.light.lowered ∧ (s.govern power rest pace).light.means = s.light.means
      ∧ RegsBut (s.governedTiles.map fun u => tr u rTILE_CLOCK) s (s.govern power rest pace) := by
  cases hsleep : s.asleep
  case true => rw [State.govern_asleep hsleep]; exact ⟨rfl, rfl, RegsBut.refl _ s⟩
  case false =>
    have hc := s.afterBudget_clocked power rest
    obtain ⟨_, _, _, _, honly⟩ := hc.only
    have hmeans : (s.afterBudget power rest).2.light.means = s.light.means := by rw [honly]
    rw [State.govern_awake hsleep, State.setPaces_lowered, State.setPaces_means, hmeans]
    exact ⟨s.afterBudget_lowered power rest, rfl, fun a ha => (State.rd_setPaces _ _ a).trans (hc.regs a ha)⟩

theorem State.govern_capped {s : State} (h : s.asleep = false) (power rest : Nat) (pace : List (Nat × Nat)) :
    (s.govern power rest pace).light.capped = (s.afterBudget power rest).2.light.capped := by
  rw [State.govern_awake h, State.setPaces_capped]

/-- The pace in effect: the one the sample gives where no boundary is waited for, else the one that was (R29). -/
theorem State.paceOf_govern {s : State} (h : s.asleep = false) (power rest : Nat) (pace : List (Nat × Nat)) {u : Nat} (hu : u ∈ allTiles) :
    (s.govern power rest pace).paceOf u = if s.boundaryWaits u then s.paceOf u else s.samplePace power rest pace u := by
  have hc := s.afterBudget_clocked power rest
  rw [State.govern_awake h, State.paceOf_setPaces _ _ hu, hc.boundaryWaits, hc.paceOf]

/-- A tile whose changes wait either has the pace of the sample already, or it is its last change that waits (R29). -/
theorem State.pending_govern {s : State} (h : s.asleep = false) (power rest : Nat) (pace : List (Nat × Nat)) {u : Nat} (hu : u ∈ s.poweredTiles)
    (hw : s.boundaryWaits u = true) : (s.govern power rest pace).paceOf u = s.samplePace power rest pace u
      ∨ ((s.govern power rest pace).tile u).deferred.getLast? = some (.pace (s.samplePace power rest pace u)) := by
  have hc := s.afterBudget_clocked power rest
  have hw' : (s.afterBudget power rest).2.boundaryWaits u = true := (hc.boundaryWaits u).trans hw
  have hu' := State.mem_poweredTiles (State.isTile_of_powered hu) (State.ts_of_boundaryWaits hw')
  rw [State.govern_awake h]
  exact or_iff_not_imp_left.2 (State.deferred_setPaces _ _ hu' hw')

theorem State.report_pace (s : State) (power input u : Nat) : (s.report power input).paceOf u = s.paceOf u := by
  obtain ⟨-, c, hl⟩ := s.report_only power input
  unfold State.paceOf
  rw [hl]

theorem State.report_tile (s : State) (power input u : Nat) : (s.report power input).tile u = s.tile u := by
  unfold State.tile
  rw [(s.report_only power input).1]

/-! ### Slack samples -/

/-- One tile's slack joins the figures of the interval (R377). -/
def State.noteSlack (s : State) (u : Nat) : State :=
  let v := s.f (tr u rTILE_CPM) 0 8
  let c := s.light.cond
  let c := if v < c.slackMin then { c with slackMin := v, slackTile := rc u } else c
  let c := if v < 16 && !c.slackLow.contains u then { c with slackLow := c.slackLow ++ [u] } else c
  { s with light := { s.light with cond := c } }

theorem State.noteSlack_cond (s : State) (u : Nat) : (s.noteSlack u).light.cond.slackMin = min s.light.cond.slackMin (s.f (tr u rTILE_CPM) 0 8)
    ∧ (s.noteSlack u).light.cond.slackLow
      = if s.f (tr u rTILE_CPM) 0 8 < 16 ∧ u ∉ s.light.cond.slackLow then s.light.cond.slackLow ++ [u] else s.light.cond.slackLow := by
  unfold State.noteSlack
  dsimp only
  by_cases hlow : s.f (tr u rTILE_CPM) 0 8 < 16 ∧ u ∉ s.light.cond.slackLow
  · by_cases hmin : s.f (tr u rTILE_CPM) 0 8 < s.light.cond.slackMin
    · simp [hmin, hlow, Nat.min_eq_right (Nat.le_of_lt hmin)]
    · simp [hmin, hlow, Nat.min_eq_left (Nat.le_of_not_lt hmin)]
  · by_cases hmin : s.f (tr u rTILE_CPM) 0 8 < s.light.cond.slackMin
    · simp [hmin, hlow, Nat.min_eq_right (Nat.le_of_lt hmin)]
    · simp [hmin, hlow, Nat.min_eq_left (Nat.le_of_not_lt hmin)]

/-- Nothing but the condition figures differs. -/
def OnlyCond (s t : State) : Prop := t = { s with light := { s.light with cond := t.light.cond } }

theorem OnlyCond.noteSlack {s t : State} (h : OnlyCond s t) (u : Nat) : OnlyCond s (t.noteSlack u) := by
  unfold OnlyCond at h
  rw [h]
  rfl

theorem OnlyCond.f {s t : State} (h : OnlyCond s t) (a lo w : Nat) : t.f a lo w = s.f a lo w := by
  unfold OnlyCond at h
  rw [h]
  rfl

/-- SLACK_SAMPLE keeps the lowest slack and the tiles below 16/256, and changes nothing else (R377). -/
theorem execSlackSample_keeps (s : State) : ∃ t, exec .slackSample s = .next t ∧ OnlyCond s t
    ∧ ∀ u ∈ s.governedTiles, t.light.cond.slackMin ≤ s.f (tr u rTILE_CPM) 0 8
      ∧ (s.f (tr u rTILE_CPM) 0 8 < 16 → u ∈ t.light.cond.slackLow) := by
  refine ⟨s.governedTiles.foldl State.noteSlack s, rfl, ?_, fun u hu => ?_⟩
  · exact List.foldlRecOn (motive := OnlyCond s) _ _ rfl fun t ht u _ => ht.noteSlack u
  · refine foldl_reaches (g := State.noteSlack) (I := OnlyCond s) (Q := fun t => t.light.cond.slackMin ≤ s.f (tr u rTILE_CPM) 0 8
      ∧ (s.f (tr u rTILE_CPM) 0 8 < 16 → u ∈ t.light.cond.slackLow)) (fun t v ht => ht.noteSlack v) (fun t ht => ?_) (fun t v _ _ hq => ?_) hu rfl
    · obtain ⟨hmin, hlow⟩ := t.noteSlack_cond u
      rw [hmin, hlow, ht.f]
      refine ⟨Nat.min_le_right _ _, fun h16 => ?_⟩
      split
      · exact List.mem_append_right _ (List.mem_singleton_self u)
      · next hn => exact not_not.1 fun hm => hn ⟨h16, hm⟩
    · obtain ⟨hmin, hlow⟩ := t.noteSlack_cond v
      rw [hmin, hlow]
      refine ⟨Nat.le_trans (Nat.min_le_left _ _) hq.1, fun h16 => ?_⟩
      split
      · exact List.mem_append_left _ (hq.2 h16)
      · exact hq.2 h16

/-! ### Condition summaries -/

theorem leBytes_length (n v : Nat) : (leBytes n v).length = n := by
  induction n generalizing v with
  | zero => rfl
  | succ n ih => simp [leBytes, ih]

/-- A run of writes leaves the keys below it. -/
theorem aget_aputs_below {α : Type} [DecidableEq α] (d : α) (m : Assoc α) {k x : Nat} (vs : List α) (h : x < k) :
    aget d (aputs d m k vs) x = aget d m x := by
  induction vs generalizing m k with
  | nil => rfl
  | cons v vs ih => rw [aputs, ih _ (by omega), aget_aput_ne _ _ _ (by omega)]

/-- A run of writes reads back from its start. -/
theorem agets_aputs_append {α : Type} [DecidableEq α] (d : α) (m : Assoc α) (k : Nat) (xs ys : List α) :
    agets d (aputs d m k (xs ++ ys)) k xs.length = xs := by
  induction xs generalizing m k with
  | nil => rfl
  | cons x xs ih =>
    rw [List.length_cons, agets, List.cons_append, aputs, aget_aputs_below _ _ _ (by omega), aget_aput_same, ih]

theorem agets_aputs_of_prefix {α : Type} [DecidableEq α] (d : α) (m : Assoc α) (k : Nat) {xs zs : List α} {n : Nat} (h : xs <+: zs)
    (hn : xs.length = n) : agets d (aputs d m k zs) k n = xs := by
  obtain ⟨ys, rfl⟩ := h
  rw [← hn, agets_aputs_append]

/-- SEQ of the next condition record (R375). -/
def State.condNext (s : State) : Nat := (s.rn (rgsr rRGS_COND_SEQ) + 1) % 2 ^ 32

theorem State.rn_condRecord (s : State) (ty : Nat) (body : List Byte) : (s.condRecord ty body).rn (rgsr rRGS_COND_SEQ) = s.condNext :=
  (State.rn_wn_same s (rgsr rRGS_COND_SEQ) s.condNext).trans (Nat.mod_mod _ _)

theorem State.condRecord_regsBut (s : State) (ty : Nat) (body : List Byte) : RegsBut [rgsr rRGS_COND_SEQ] s (s.condRecord ty body) :=
  RegsBut.wn s _ _

/-- The head of a condition record: TYPE, VERSION 1, LENGTH 128 and SEQ (R376). -/
def condHead (ty n : Nat) : List Byte := leBytes 1 ty ++ leBytes 1 1 ++ leBytes 2 128 ++ leBytes 4 n

/-- The bytes of a condition record before its CRC (R376). -/
def State.condBytes (s : State) (ty : Nat) (body : List Byte) : List Byte :=
  condHead ty s.condNext ++ leBytes 2 s.arch.powerOn ++ leBytes 6 0 ++ leBytes 8 s.timer ++ padTo 100 body

theorem State.condRecord_bytes (s : State) (ty : Nat) (body : List Byte) : (s.condRecord ty body).arch.bytes
    = aputs 0xFF s.arch.bytes (2 * 2 ^ 27 + s.condNext % 131072 * 128)
        (s.condBytes ty body ++ leBytes 4 (crc32c ((s.condBytes ty body).map (·.toNat)))) := by
  unfold State.condRecord State.condBytes condHead State.condNext rgsr
  dsimp only

theorem State.condHead_prefix (s : State) (ty : Nat) (body : List Byte) : condHead ty s.condNext <+: s.condBytes ty body :=
  (((List.prefix_append _ _).trans (List.prefix_append _ _)).trans (List.prefix_append _ _)).trans (List.prefix_append _ _)

/-- A condition record stands at its place in the Archive flash from its head on (R375). -/
theorem State.condRecord_head (s : State) (ty : Nat) (body : List Byte) :
    agets 0xFF (s.condRecord ty body).arch.bytes (2 * 2 ^ 27 + s.condNext % 131072 * 128) 8 = condHead ty s.condNext := by
  rw [State.condRecord_bytes]
  exact agets_aputs_of_prefix _ _ _ ((s.condHead_prefix ty body).trans (List.prefix_append _ _)) (by simp [condHead, leBytes_length])

/-- With RGS_COND_REPLAN_EN clear, no tile is re-planned (R379). -/
theorem State.replanTile_off {s : State} (h : s.rn (rgsr rRGS_COND_REPLAN_EN) % 16 = 0) (u : Nat) : s.replanTile u = s := by
  have h0 : bit (s.rn (rgsr rRGS_COND_REPLAN_EN)) 0 = false := by simp only [bit, fld, beq_eq_false_iff_ne]; omega
  have h1 : bit (s.rn (rgsr rRGS_COND_REPLAN_EN)) 1 = false := by simp only [bit, fld, beq_eq_false_iff_ne]; omega
  unfold State.replanTile
  dsimp only
  rw [h0, h1]
  simp

/-- Nor a laser. -/
theorem State.replanLaser_off {s : State} (h : s.rn (rgsr rRGS_COND_REPLAN_EN) % 16 = 0) (k : Nat) : s.replanLaser k = s := by
  have h2 : bit (s.rn (rgsr rRGS_COND_REPLAN_EN)) 2 = false := by simp only [bit, fld, beq_eq_false_iff_ne]; omega
  unfold State.replanLaser
  dsimp only
  rw [h2]
  simp

/-- Nor a Wing. -/
theorem State.replanWing_off {s : State} (h : s.rn (rgsr rRGS_COND_REPLAN_EN) % 16 = 0) (dmax : List Nat) (w : Nat) : s.replanWing dmax w = s := by
  have h3 : bit (s.rn (rgsr rRGS_COND_REPLAN_EN)) 3 = false := by simp only [bit, fld, beq_eq_false_iff_ne]; omega
  unfold State.replanWing
  dsimp only
  rw [h3]
  simp

/-- With RGS_COND_REPLAN_EN clear, a summary is its record and a new interval (R377, R379). -/
theorem State.summary_eq {s : State} (h : s.rn (rgsr rRGS_COND_REPLAN_EN) % 16 = 0) (dmax dmean weak : List Nat) :
    ∃ c : CondState, c.slackLow = [] ∧ c.slackMin = 255 ∧ c.stretch = [] ∧ s.summary dmax dmean weak
      = { s.condRecord 1 (s.summaryBody dmax dmean) with light := { (s.condRecord 1 (s.summaryBody dmax dmean)).light with cond := c } } := by
  have hen : (s.condRecord 1 (s.summaryBody dmax dmean)).rn (rgsr rRGS_COND_REPLAN_EN) % 16 = 0 := by
    rw [(s.condRecord_regsBut _ _).rn (by decide)]; exact h
  unfold State.summary
  dsimp only
  rw [List.foldl_fixed' (State.replanTile_off hen), List.foldl_fixed' (State.replanLaser_off hen),
    List.foldl_fixed' fun w => State.replanWing_off hen dmax w]
  exact ⟨_, rfl, rfl, rfl, rfl⟩

/-- COND_SUMMARY and WRITE_NOW: the next condition record, and a new interval (R375 to R377, R383). -/
theorem summary_records {s : State} (h : s.rn (rgsr rRGS_COND_REPLAN_EN) % 16 = 0) (dmax dmean weak : List Nat) :
    let t := s.summary dmax dmean weak
    t.rn (rgsr rRGS_COND_SEQ) = s.condNext ∧ t.light.cond.slackLow = [] ∧ t.light.cond.slackMin = 255 ∧ t.light.cond.stretch = []
      ∧ agets 0xFF t.arch.bytes (2 * 2 ^ 27 + s.condNext % 131072 * 128) 8
        = condHead 1 s.condNext
      ∧ RegsBut [rgsr rRGS_COND_SEQ] s t := by
  obtain ⟨c, hlow, hmin, hstretch, he⟩ := State.summary_eq h dmax dmean weak
  dsimp only
  rw [he]
  exact ⟨s.rn_condRecord 1 (s.summaryBody dmax dmean), hlow, hmin, hstretch, s.condRecord_head 1 (s.summaryBody dmax dmean),
    s.condRecord_regsBut 1 (s.summaryBody dmax dmean)⟩

/-! ### The statement -/

/-- GOVERNOR_SAMPLE: the paces of the tiles, each in effect at its boundary, and how far the cap holds clocks down. -/
theorem State.govern_awake_spec {s : State} (hsleep : s.asleep = false) (power rest input : Nat) (pace : List (Nat × Nat)) :
    let old := s.light.means.getLastD power
    let v := s.samplePace power rest pace
    let t := (s.govern power rest pace).report power input
    (∀ u ∈ allTiles, s.boundaryWaits u = false → t.paceOf u = v u)
      ∧ (∀ u ∈ s.poweredTiles, s.boundaryWaits u = true → t.paceOf u = s.paceOf u
          ∧ (t.paceOf u = v u ∨ (t.tile u).deferred.getLast? = some (.pace (v u))))
      ∧ (s.budget rest < power → s.overridden = true ∨ old < power + s.slew → (s.governedTiles.map s.clockCost).foldl (· + ·) 0 ≤ s.slewRoom 1 →
          ∀ u ∈ s.governedTiles, 0 < (s.clockNext u).1 → aget 0 s.light.capped u + 1 ≤ aget 0 t.light.capped u)
      ∧ (s.budget rest < power → s.overridden = false → power + s.slew ≤ old → t.light.capped = s.light.capped)
      ∧ ((allTiles.filter fun u => aget 0 t.light.capped u != aget 0 s.light.capped u).map s.clockCost).foldl (· + ·) 0 ≤ s.slewRoom 1 := by
  obtain ⟨-, c, hlight⟩ := (s.govern power rest pace).report_only power input
  have hcapped : ((s.govern power rest pace).report power input).light.capped = (s.afterBudget power rest).2.light.capped := by
    rw [hlight]; exact State.govern_capped hsleep power rest pace
  dsimp only
  rw [hcapped, ← List.sum_eq_foldl_nat, ← List.sum_eq_foldl_nat]
  refine ⟨fun u hu hw => ?_, fun u hu hw => ?_, fun hover hslew hroom u hu hclock => State.followBudget_lowers hover hslew hroom hu hclock,
    fun hover ho hslew => ?_, State.followBudget_cost _ _ _ _ _⟩
  · rw [State.report_pace, State.paceOf_govern hsleep power rest pace hu, hw]
    rfl
  · rw [State.report_pace, State.report_tile]
    refine ⟨?_, State.pending_govern hsleep power rest pace hu hw⟩
    rw [State.paceOf_govern hsleep power rest pace (mem_allTiles.2 (State.isTile_of_powered hu)), hw]
    rfl
  · exact congrArg (fun x : Nat × State => x.2.light.capped) (State.followBudget_waits (s.slewRoom 1) hover ho hslew)

/-- What a sample shows, and what it leaves besides clocks and paces. -/
theorem State.govern_report (s : State) {power input : Nat} (hp : power < 65536) (hi : input < 65536) (rest : Nat) (pace : List (Nat × Nat)) :
    let t := (s.govern power rest pace).report power input
    t.light.means = (power :: s.light.means).take 100 ∧ t.light.lowered = s.light.lowered
      ∧ t.f (pw rPWR_GOV_STAT) 16 16 = power ∧ t.f (pw rPWR_GOV_STAT) 8 1 = b2n t.slewLimited ∧ t.f (pw rPWR_INPUT) 16 16 = input
      ∧ t.rn (pw rPWR_GOV_LIMIT_COUNT) = (if t.slewLimited = true ∨ s.f (pw rPWR_GOV_STAT) 9 1 = 1 ∨ t.light.capped ≠ []
          then min 0xFFFFFFFF (s.rn (pw rPWR_GOV_LIMIT_COUNT) + 1) else s.rn (pw rPWR_GOV_LIMIT_COUNT))
      ∧ RegsButRecords ([pw rPWR_GOV_STAT, pw rPWR_INPUT, pw rPWR_GOV_LIMIT_COUNT] ++ s.poweredTiles.map fun u => tr u rTILE_CLOCK) s t := by
  obtain ⟨hlowered, hmeans, hregs⟩ := s.govern_frame power rest pace
  obtain ⟨-, c, hlight⟩ := (s.govern power rest pace).report_only power input
  obtain ⟨hpower, hslew, hinput⟩ := (s.govern power rest pace).report_stat hp hi
  have hcount := (s.govern power rest pace).report_count power input
  have hcapped : ((s.govern power rest pace).report power input).light.capped = (s.govern power rest pace).light.capped := by rw [hlight]
  rw [hregs.f (low_not_clock (by decide)), hregs.rn (low_not_clock (by decide)), ← hcapped] at hcount
  refine ⟨by rw [hlight, hmeans], by rw [hlight, hlowered], hpower, hslew, hinput, hcount, ?_⟩
  have hclocks : RegsButRecords ([pw rPWR_GOV_STAT, pw rPWR_INPUT, pw rPWR_GOV_LIMIT_COUNT] ++ s.poweredTiles.map fun u => tr u rTILE_CLOCK) s
      (s.govern power rest pace) := hregs.records.mono fun a ha => by
    obtain ⟨u, hu, rfl⟩ := List.mem_map.1 ha
    exact List.mem_append_right _ (List.mem_map_of_mem (List.mem_of_mem_filter hu))
  exact hclocks.trans ((State.report_frame _ _ _).mono fun a ha => List.mem_append_left _ ha)

/-- Settles O47: the governor's sample and temperature step, the slack samples and the condition summaries, each by its own lemma. -/
theorem climateAndCondition : Obligations.ClimateAndCondition := by
  intro s
  refine ⟨fun power input rest pace hpace hp hi hr => ?_, ?_, execSlackSample_keeps s, fun dmax dmean weak c side hc hen => ?_⟩
  · refine ⟨_, execGovernorSample_eq s hpace hp hi hr, fun hsleep => ?_, fun hsleep => ⟨fun u hu => ?_, ?_⟩, s.govern_report hp hi rest pace⟩
    · obtain ⟨-, c, hlight⟩ := (s.govern power rest pace).report_only power input
      rw [hlight, State.govern_asleep hsleep]
      exact ⟨rfl, rfl⟩
    · obtain ⟨hone, hfull, hnear⟩ := s.samplePace_spec power rest pace hu
      exact ⟨hone, hfull, fun hl hh ho _ => hnear hl hh ho⟩
    · exact State.govern_awake_spec hsleep power rest input pace
  · obtain ⟨t, ht, hlowers, hraises, hothers, hstat⟩ := execGovernorTempStep_lowers s
    exact ⟨t, ht, fun hroom => hlowers (by rw [List.sum_eq_foldl_nat]; exact hroom), hraises, hothers, hstat⟩
  · refine ⟨s.summary dmax dmean weak, ?_, summary_records hen dmax dmean weak⟩
    rcases hc with rfl | rfl <;> rfl

end Sys2Proof.Machine

/-! PROOFS. What stands while a hang applies (R195, R210): the Plan registers, and what the Curator holds of the generation in force and
of the one to come. -/

namespace Sys2Proof.Machine

open Sys2Proof

/-! ### The relation -/

/-- An address that is none of the Plan block's own registers: outside its window, or from its incident registers on. -/
abbrev OffPlan (a : Nat) : Prop := a < 0x30000 ∨ 0x30800 ≤ a

/-- What the Curator holds that the end of a hang answers by: the plan in force, the entropies, and whether a record was lost. -/
def State.hangPart (s : State) : Option Plan × Nat × Nat × Bool := (s.cur.now, s.cur.entropy, s.cur.nextEntropy, s.cur.lostHang)

/-- From `s` to `t` no register of the Plan block changes, nor what the end of a hang answers by, nor whether a write has found no
COW page. -/
structure PlanKept (s t : State) : Prop where
  rd : ∀ a, ¬ OffPlan a → t.rd a = s.rd a
  part : t.hangPart = s.hangPart
  blocked : t.pair.blocked = s.pair.blocked

theorem PlanKept.refl {s : State} : PlanKept s s := ⟨fun _ _ => rfl, rfl, rfl⟩

theorem PlanKept.trans {s t u : State} (h : PlanKept s t) (k : PlanKept t u) : PlanKept s u :=
  ⟨fun a ha => (k.rd a ha).trans (h.rd a ha), k.part.trans h.part, k.blocked.trans h.blocked⟩

/-- An update of anything else. -/
theorem PlanKept.same {s t u : State} (h : PlanKept s t)
    (hu : (u.regs, u.hangPart, u.pair.blocked) = (t.regs, t.hangPart, t.pair.blocked)) : PlanKept s u := by
  simp only [Prod.mk.injEq] at hu
  obtain ⟨hr, hp, hb⟩ := hu
  exact ⟨fun a ha => by rw [← h.rd a ha, State.rd, State.rd, hr], hp.trans h.part, hb.trans h.blocked⟩

theorem PlanKept.ite {s t u : State} {p : Prop} [Decidable p] (h : PlanKept s t) (k : PlanKept s u) : PlanKept s (if p then t else u) := by
  split
  · exact h
  · exact k

theorem PlanKept.foldl {α : Type} {g : State → α → State} {s t : State} (h : PlanKept s t) (hg : ∀ u x, PlanKept u (g u x)) (xs : List α) :
    PlanKept s (xs.foldl g t) := by
  induction xs generalizing t with
  | nil => exact h
  | cons x xs ih => exact ih (h.trans (hg t x))

theorem PlanKept.rn {s t : State} (h : PlanKept s t) {a : Nat} (ha : ¬ OffPlan a) : t.rn a = s.rn a := congrArg BitVec.toNat (h.rd a ha)

theorem PlanKept.f {s t : State} (h : PlanKept s t) {a : Nat} (ha : ¬ OffPlan a) (lo w : Nat) : t.f a lo w = s.f a lo w :=
  congrArg (fld · lo w) (h.rn ha)

theorem PlanKept.hangState {s t : State} (h : PlanKept s t) : t.hangState = s.hangState := h.f (by decide) 0 3

/-! ### Registers elsewhere -/

theorem offPlan_tr (t o : Nat) : OffPlan (tr t o) := .inr (by simp only [tr, winBase]; omega)
theorem offPlan_tk (t k : Nat) : OffPlan (tk t k) := .inr (by simp only [tk, tr, winBase]; omega)
theorem offPlan_wg (w o : Nat) : OffPlan (wg w o) := .inr (by simp only [wg, winBase]; omega)
/-- A register of an array that begins past the Plan block's. -/
theorem offPlan_add {a : Nat} (h : 0x30800 ≤ a) (o : Nat) : OffPlan (a + o) := .inr (Nat.le_add_right_of_le h)

theorem offPlan_mreg (v : Bool) (rv rs : Nat) : OffPlan (mreg v rv rs) := by
  cases v
  · exact offPlan_add (by decide) rs
  · exact offPlan_add (by decide) rv

/-- The incident registers of any block. -/
theorem offPlan_ir (b : Blk) (i o : Nat) (lo : 0x800 ≤ o) (hi : o < 0x1000) : OffPlan (ir b i o) := by
  unfold OffPlan
  cases b <;> simp only [ir, winBase] <;> omega

/-- The Plan block's own registers belong to no record. -/
theorem recordReg_plan {a : Nat} (h : ¬ OffPlan a) : recordReg a = false := by
  unfold OffPlan at h
  obtain ⟨o, rfl⟩ : ∃ o, a = 0x10000 * 3 + o := Nat.exists_eq_add_of_le (by omega)
  have hb := blkOf_window (n := 3) (o := o) (by omega) (by decide)
  rw [show blkOf (0x10000 * 3) = some (.pln, 0, 0) from by decide] at hb
  have hlow : ¬ 0x10000 * 3 + o < 0x10000 := by omega
  have hinc : ¬ 0x800 ≤ o := by omega
  simp [recordReg, hb, hlow, isIncReg, hinc]

section
variable {s t : State} (h : PlanKept s t)
include h

theorem PlanKept.wr {a : Nat} (ha : OffPlan a) (v : Word) : PlanKept s (t.wr a v) :=
  ⟨fun b hb => by rw [← h.rd b hb, State.rd_wr_ne t v fun e => hb (by rw [e]; exact ha)], h.part, h.blocked⟩

theorem PlanKept.wn {a : Nat} (ha : OffPlan a) (v : Nat) : PlanKept s (t.wn a v) := h.wr ha _
theorem PlanKept.setf {a : Nat} (ha : OffPlan a) (lo w v : Nat) : PlanKept s (t.setf a lo w v) := h.wn ha _
theorem PlanKept.bump {a : Nat} (ha : OffPlan a) : PlanKept s (t.bump a) := h.wn ha _
theorem PlanKept.wr64 {lo hi : Nat} (hl : OffPlan lo) (hh : OffPlan hi) (v : Nat) : PlanKept s (t.wr64 lo hi v) := (h.wn hl _).wn hh _

theorem PlanKept.setTile (u : Nat) (x : Tile) : PlanKept s (t.setTile u x) := h.same rfl
theorem PlanKept.mapTile (u : Nat) (g : Tile → Tile) : PlanKept s (t.mapTile u g) := h.same rfl
theorem PlanKept.setTs (u v : Nat) : PlanKept s (t.setTs u v) := h.setf (offPlan_tr _ _) _ _ _

theorem PlanKept.withVault (m : Mem) : PlanKept s { t with vault := m } := h.same rfl

theorem PlanKept.setMem (v : Bool) (m : Mem) : PlanKept s (t.setMem v m) := by
  cases v
  · exact h.same rfl
  · exact h.same rfl

/-! ### Events and records -/

theorem PlanKept.recorded {u : State} (hr : Recorded t u) (hf : ∀ a, ¬ OffPlan a → u.rd a = t.rd a) : PlanKept s u := by
  refine h.trans ⟨hf, ?_, by rw [hr.pair]⟩
  rw [State.hangPart, hr.cur]
  rfl

theorem PlanKept.framed {u : State} (hr : Recorded t u) (hf : RecordFrame t u) : PlanKept s u :=
  h.recorded hr fun a ha => hf a List.not_mem_nil (recordReg_plan ha)

theorem PlanKept.postTo {l : Nat} (hl : l < 4) (r : List Byte) : PlanKept s (t.postTo l r) :=
  h.framed (State.postTo_recorded _ _ _) (State.postTo_frame _ hl _)

theorem PlanKept.post (ty : Nat) (b : Blk) (i : Nat) (body : List Byte) : PlanKept s (t.post ty b i body) :=
  h.framed (State.post_recorded _ _ _ _ _) (State.post_frame _ _ _ _ _)

theorem PlanKept.postEvent (b : Blk) (code x y : Nat) : PlanKept s (t.postEvent b code x y) := h.post _ _ _ _

theorem PlanKept.condEvent (a b c d e : Nat) : PlanKept s (t.condEvent a b c d e) :=
  h.recorded (State.condEvent_recorded _ _ _ _ _ _) fun a ha =>
    t.condRecord_regsBut _ _ a fun hm => ha (by rw [List.mem_singleton.1 hm]; decide)

end

/-- A raise and a coincidence write incident registers alone, whatever block they name. -/
theorem State.raise_planKept (s : State) (b : Blk) (i k : Nat) (inj : Bool) (d : Nat) : PlanKept s (s.raise b i k inj d).2 := by
  unfold State.raise
  extract_lets pol sev act u waits key was i0 u1 first u2 i2 u3 u4
  have h1 : PlanKept s u1 := (PlanKept.refl.setf (offPlan_ir b i rINC_STAT (by decide) (by decide)) _ _ _).same rfl
  have hfirst : OffPlan (ir b i rINC_FIRST) := offPlan_ir b i rINC_FIRST (by decide) (by decide)
  have h2 : PlanKept s u2 := PlanKept.ite (h1.wn hfirst _) (h1.setf hfirst _ _ _)
  have h3 : PlanKept s u3 := PlanKept.ite (h2.same rfl) h2
  have h4 : PlanKept s u4 := PlanKept.ite (h3.setf (offPlan_ir b i rINC_ACTION (by decide) (by decide)) _ _ _) h3
  exact h4.same rfl

theorem State.coincide_planKept (s : State) (b : Blk) (i k : Nat) (inj : Bool) (d : Nat) : PlanKept s (s.coincide b i k inj d).2 := by
  unfold State.coincide
  by_cases hi : inj = true
  · rw [if_pos hi]
    exact PlanKept.refl
  · rw [if_neg hi]
    exact PlanKept.ite
      (PlanKept.setf (PlanKept.refl.same (by rfl)) (offPlan_ir b i rINC_FIRST (by decide) (by decide)) _ _ _)
      (PlanKept.refl.same rfl)

theorem State.eventCore_planKept (s : State) (b : Blk) (i k : Nat) (inj note : Bool) (d : Nat) :
    PlanKept s (s.eventCore b i k inj note d).2 := by
  unfold State.eventCore
  by_cases hs : hasSource b k = true
  · rw [if_pos hs]
    have hk := hasSource_lt hs
    have hc : OffPlan (ir b i rINC_COUNT + 4 * k) := by
      rw [show ir b i rINC_COUNT + 4 * k = ir b i (rINC_COUNT + 4 * k) from Nat.add_assoc ..]
      exact offPlan_ir b i _ (by simp only [rINC_COUNT]; omega) (by simp only [rINC_COUNT]; omega)
    have h0 := State.coincide_planKept s b i k inj d
    generalize s.coincide b i k inj d = x at h0
    obtain ⟨forced, t⟩ := x
    refine h0.trans ?_
    clear h0
    show PlanKept t _
    dsimp -zeta only
    extract_lets cnt pol now key op w i1 u u2 u3 u4
    have h1 : PlanKept t u := PlanKept.ite (PlanKept.refl.same rfl) PlanKept.refl
    have h2 : PlanKept t u2 := h1.setf hc _ _ _
    have h3 : PlanKept t u3 := h2.setf hc _ _ _
    have h4 : PlanKept t u4 := h2.setf hc _ _ _
    split
    · split
      · exact h3.same rfl
      · exact h3
    · split
      · exact h4
      · exact h4.trans (State.raise_planKept _ _ _ _ _ _)
  · rw [if_neg hs]
    exact PlanKept.refl

/-- An event of any source of any block. -/
theorem PlanKept.event {s t : State} (h : PlanKept s t) (b : Blk) (i k d : Nat) (inj note : Bool) : PlanKept s (t.event b i k d inj note) :=
  (h.trans (t.eventCore_planKept b i k inj note d)).foldl (fun _ _ => PlanKept.refl.postTo (State.routeOf_lt _ _) _) _

end Sys2Proof.Machine

/-! PROOFS. What the memories and the moves of a hang leave of the Plan block (R206, R221 to R242, R412). -/

namespace Sys2Proof.Machine

open Sys2Proof

/-! ### The memories -/

section
variable {s t : State} (h : PlanKept s t)
include h

theorem PlanKept.lastErr (v : Bool) (a k r : Nat) : PlanKept s (t.lastErr v a k r) :=
  ((h.wn (offPlan_mreg _ _ _) _).wn (offPlan_mreg _ _ _) _).wn (offPlan_mreg _ _ _) _

theorem PlanKept.memError (v : Bool) (a k r : Nat) : PlanKept s (t.memError v a k r) := by
  unfold State.memError
  extract_lets u
  have hu : PlanKept s u := PlanKept.ite (h.bump (offPlan_mreg _ _ _)) (PlanKept.ite (h.bump (offPlan_mreg _ _ _)) h)
  exact (hu.lastErr _ _ _ _).event _ _ _ _ _ _

theorem PlanKept.unhold (v : Bool) (p : Nat) : PlanKept s (t.unhold v p) := h.setMem _ _

/-- A Store page retired (R231). -/
theorem PlanKept.storeRetire (p : Nat) : PlanKept s (t.storeRetire p) := by
  unfold State.storeRetire
  extract_lets a free spare m l m2 m3 n u
  have hu : PlanKept s u := ((h.same (by rfl)).setf (by decide) _ _ _).bump (by decide)
  exact PlanKept.ite h (PlanKept.ite ((h.same (by rfl)).event _ _ _ _ _ _) (hu.condEvent _ _ _ _ _))

/-- A page falls due (R229): the Curator notes at most that it is late (R242). -/
theorem PlanKept.pageDue (v : Bool) (p : Nat) : PlanKept s (t.pageDue v p) := by
  unfold State.pageDue
  cases v
  · exact h.storeRetire p
  · rw [if_pos rfl]
    exact PlanKept.ite h (PlanKept.ite (h.same rfl) (h.same rfl))

theorem PlanKept.failDie (d : Nat) : PlanKept s (t.failDie d) := by
  unfold State.failDie
  generalize diePages d = ps
  extract_lets m u u1
  have hu : PlanKept s u := h.same rfl
  have hu1 : PlanKept s u1 := (hu.setf (offPlan_add (by decide) _) _ _ _).event _ _ _ _ _ _
  exact PlanKept.ite h (hu1.foldl (fun _ _ => PlanKept.refl.pageDue _ _) _)

theorem PlanKept.noteUncorr (v : Bool) (p : Nat) : PlanKept s (t.noteUncorr v p) :=
  PlanKept.ite h (PlanKept.ite ((h.same (by rfl)).failDie _) (h.same rfl))

theorem PlanKept.countPage (v : Bool) (p : Nat) : PlanKept s (t.countPage v p) :=
  PlanKept.ite ((h.setMem _ _).pageDue _ _) (h.setMem _ _)

theorem PlanKept.trackWord (v c : Bool) (w mask : Nat) : PlanKept s (t.trackWord v c w mask) := by
  unfold State.trackWord
  extract_lets m k es keep
  split
  · exact h.setMem _ _
  · exact PlanKept.ite ((h.setMem _ _).countPage _ _) (h.setMem _ _)

theorem PlanKept.queueKeep (v : Bool) (p : Nat) (er : List Nat) : PlanKept s (t.queueKeep v p er) := PlanKept.ite (h.same rfl) h

theorem PlanKept.decodeWord (v b : Bool) (p l r j : Nat) : PlanKept s (t.decodeWord v b p l r j).2 := by
  unfold State.decodeWord
  extract_lets m er u
  have hu : PlanKept s u := h.queueKeep _ _ _
  split
  · exact ((hu.memError _ _ _ _).pageDue _ _).noteUncorr _ _
  · extract_lets es unseen u1
    have hu1 : PlanKept s u1 := PlanKept.ite hu (hu.setMem _ _)
    exact hu1.foldl (fun _ _ => ((PlanKept.refl.bump (offPlan_mreg _ _ _)).lastErr _ _ _ _).event _ _ _ _ _ _) _

/-- A page decoded (R221 to R229). -/
theorem PlanKept.decodePage (v : Bool) (p r : Nat) (b c : Bool) : PlanKept s (t.decodePage v p r b c) := by
  unfold State.decodePage
  extract_lets m l
  refine PlanKept.ite h ?_
  split
  next ws u hread =>
    have hu : PlanKept s u := by
      rw [show u = _ from (congrArg Prod.snd hread).symm]
      exact List.foldlRecOn (motive := fun acc : List (Nat × Nat) × State => PlanKept s acc.2) _ _ h
        fun _ k _ _ => k.decodeWord _ _ _ _ _ _
    refine hu.foldl (fun x e => PlanKept.trackWord ?_ _ _ _ _) _
    have hcorr : PlanKept x ((x.bump (mreg v rVLT_CORR_COUNT rSTO_CORR_COUNT)).event (mblk v) 0 0 (l * 4096 + e.1 % 4096)) :=
      (PlanKept.refl.bump (offPlan_mreg _ _ _)).event _ _ _ _ _ _
    exact PlanKept.ite (hcorr.event _ _ _ _ _ _) hcorr

theorem PlanKept.finishDecode (v : Bool) (p : Nat) (c : Bool) : PlanKept s (t.finishDecode v p c) := by
  unfold State.finishDecode
  split
  · exact h
  · exact (h.decodePage _ _ _ _ _).unhold _ _

theorem PlanKept.deadPage (v : Bool) (p r : Nat) : PlanKept s (t.deadPage v p r) :=
  (h.foldl (fun _ _ => PlanKept.refl.memError _ _ _ _) _).pageDue _ _

/-- A copy's read of a page (R226, R230, R241, R412). -/
theorem PlanKept.copyPage (v dec : Bool) (p r : Nat) : PlanKept s (t.copyPage v dec p r).2 := by
  unfold State.copyPage
  extract_lets l u q data u2
  have hu : PlanKept s u := h.finishDecode _ _ _
  show PlanKept s u2
  refine PlanKept.ite (hu.memError _ _ _ _) (PlanKept.ite (hu.deadPage _ _ _) ?_)
  split
  · exact PlanKept.ite (hu.decodePage _ _ _ _ _) hu
  · exact hu.foldl (fun _ _ => PlanKept.refl.memError _ _ _ _) _

theorem PlanKept.wakeChan (a : Nat) : PlanKept s (t.wakeChan a) := by
  unfold State.wakeChan
  split
  · have hparts : PlanKept s (t.wakeParts (chanOf (t.segMode a) a)) := h.same rfl
    exact PlanKept.ite (hparts.setf (offPlan_add (by decide) _) _ _ _) h
  · exact h

theorem PlanKept.wakeSpan (v : Bool) (a n : Nat) : PlanKept s (t.wakeSpan v a n) :=
  PlanKept.ite h (h.foldl (fun _ _ => PlanKept.refl.wakeChan _) _)

theorem PlanKept.placeVault (p : Nat) (data : List (Byte × Bool)) : PlanKept s (t.placeVault p data) := (h.finishDecode _ _ _).same rfl

theorem PlanKept.movedPage (lost : Bool) (a : Nat) : PlanKept s (t.movedPage lost a).2 := by
  unfold State.movedPage
  split
  · exact h.same rfl
  · exact h.copyPage _ _ _ _

/-- The Store replaced, and the freeze of the pairing block with it. -/
theorem PlanKept.storeFreeze (m : Mem) (z : Option Freeze) : PlanKept s { t with store := m, pair := { t.pair with freeze := z } } := h.same rfl

/-- A frozen page copied before its first write (R412): either no COW page is found for it, or the Plan block is kept. -/
theorem PlanKept.cowFirst_or (v : Bool) (p w : Nat) :
    t.cowFirst v p w = { t with pair := { t.pair with blocked := true } } ∨ PlanKept s (t.cowFirst v p w) := by
  unfold State.cowFirst
  split
  · exact .inr h
  · split
    · exact .inr h
    · split
      · exact .inl rfl
      · refine .inr ?_
        have hcopy : PlanKept s (t.copyPage v false (pageOf ((t.mem v).phys (p * 4096))) w).2 := h.copyPage _ _ _ _
        generalize t.copyPage v false (pageOf ((t.mem v).phys (p * 4096))) w = x at hcopy
        obtain ⟨data, u⟩ := x
        dsimp -zeta only
        extract_lets u1 ph
        have hu1 : PlanKept s u1 := (PlanKept.finishDecode hcopy _ _ _).wakeSpan _ _ _
        exact hu1.storeFreeze _ _

end

/-- A run of steps that ends with no write held up kept the Plan block, where each step that does not hold one up does. -/
theorem PlanKept.foldl_unblocked {α : Type} {g : State → α → State} (hg : ∀ u x, (g u x).pair.blocked = false → PlanKept u (g u x))
    (xs : List α) {t : State} (hb : (xs.foldl g t).pair.blocked = false) : PlanKept t (xs.foldl g t) := by
  induction xs generalizing t with
  | nil => exact PlanKept.refl
  | cons x xs ih =>
    have hrest : PlanKept (g t x) (xs.foldl g (g t x)) := ih hb
    exact (hg t x (hrest.blocked.symm.trans hb)).trans hrest

/-- The moves of a hang that find a COW page for each frozen page they write (R206, R412). -/
theorem State.moveContents_planKept {s : State} {p : Plan} {pl : Placement} (hb : (s.moveContents p pl).pair.blocked = false) :
    PlanKept s (s.moveContents p pl) := by
  unfold State.moveContents at hb ⊢
  split at hb
  · dsimp only at hb ⊢
    refine PlanKept.trans ?_ (PlanKept.foldl_unblocked (fun u w hw => ?_) _ hb)
    · exact List.foldlRecOn (motive := fun acc : List (Nat × List (Byte × Bool)) × State => PlanKept s acc.2) _ _ PlanKept.refl
        fun _ k _ _ => k.movedPage _ _
    · have hplace : PlanKept (u.cowFirst true (pageOf w.1) rdCurator) ((u.cowFirst true (pageOf w.1) rdCurator).placeVault
          (pageOf ((u.cowFirst true (pageOf w.1) rdCurator).vault.phys w.1)) w.2) := PlanKept.refl.placeVault _ _
      have hcow : (u.cowFirst true (pageOf w.1) rdCurator).pair.blocked = false := hplace.blocked.symm.trans hw
      rcases PlanKept.refl.cowFirst_or true (pageOf w.1) rdCurator with hc | hc
      · rw [hc] at hcow
        cases hcow
      · exact hc.trans hplace
  · exact PlanKept.refl

end Sys2Proof.Machine

/-! PROOFS. What tiles that stop, start, trap or fall due leave of the Plan block while a hang applies (R95, R99 to R107, R204 to R207,
R225, R226, R230). -/

namespace Sys2Proof.Machine

open Sys2Proof

/-! ### Tiles: resets, traps, and what falls due -/

section
variable {s t : State} (h : PlanKept s t)
include h

/-- A reset of a class over a range past the Plan block's registers (R10). -/
theorem PlanKept.clearRange (ev : Cls) {lo : Nat} (hlo : 0x30800 ≤ lo) (hi : Nat) : PlanKept s (t.clearRange ev lo hi) := by
  refine h.foldl (fun u e => ?_) _
  split
  · next hin => exact PlanKept.refl.wr (.inr (Nat.le_trans hlo hin.1)) _
  · exact PlanKept.refl

theorem PlanKept.clearTile (ev : Cls) (u : Nat) : PlanKept s (t.clearRange ev (tr u 0) (tr u 0x1000)) :=
  h.clearRange _ (by simp only [tr, winBase]; omega) _

theorem PlanKept.recount (u : Nat) (after : List (Nat × Nat)) : PlanKept s (t.recount u after) :=
  h.foldl (fun _ _ => PlanKept.refl.wn (offPlan_tr _ _) _) _

theorem PlanKept.ungovern (u : Nat) : PlanKept s (t.ungovern u) := h.same rfl

theorem PlanKept.margins (u : Nat) : PlanKept s (t.margins u) := (h.setf (offPlan_tr _ _) _ _ _).setf (offPlan_tr _ _) _ _ _

/-- A change at a tile's step boundary writes the tile's registers alone (R29, R107). -/
theorem PlanKept.tileApply (u : Nat) (d : Deferred) : PlanKept s (t.tileApply u d) := by
  cases d with
  | write off v m side =>
    unfold State.tileApply
    dsimp only
    split
    · exact h
    · exact h.wn (offPlan_tr _ _) _
  | statClear m => exact h.wn (offPlan_tr _ _) _
  | perfClear after =>
    exact ((h.foldl (fun _ _ => PlanKept.refl.wn (offPlan_tr _ _) _) _).setf (offPlan_tr _ _) _ _ _).recount _ _
  | clock fq v => exact (h.setf (offPlan_tr _ _) _ _ _).setf (offPlan_tr _ _) _ _ _
  | pace v => exact h.same rfl
  | stop => exact h
  | reset k => exact h

theorem PlanKept.tileApplyStopped (u : Nat) (d : Deferred) : PlanKept s (t.tileApplyStopped u d) :=
  PlanKept.ite (h.bump (offPlan_tr _ _)) (h.tileApply _ _)

/-- Crates part-way in are dropped or left by free choice (R109). -/
theorem PlanKept.dropArriving (u : Nat) : PlanKept s (t.dropArriving u) := by
  unfold State.dropArriving
  dsimp only
  split
  · exact h
  · refine PlanKept.same (t := (List.foldl _ ([], t) _).2) ?_ rfl
    refine List.foldlRecOn (motive := fun acc : List Crate × State => PlanKept s acc.2) _ _ h fun acc k e _ => ?_
    split
    · exact k.same rfl
    · exact k

theorem PlanKept.tileReset (u : Nat) : PlanKept s (t.tileReset u) := by
  unfold State.tileReset
  extract_lets u0 x waiting after tile u1 u2
  have h0 : PlanKept s u0 := h.dropArriving u
  have h1 : PlanKept s u1 := h0.setTile _ _
  have h2 : PlanKept s u2 := ((h1.clearTile _ _).ungovern _).margins _
  exact (h2.recount _ _).foldl (fun _ _ => PlanKept.refl.tileApplyStopped _ _) _

theorem PlanKept.applyStopped (u : Nat) : PlanKept s (t.applyStopped u) := by
  have hmap := h.mapTile u fun x => { x with deferred := [] }
  exact PlanKept.ite (h.tileReset _) (PlanKept.ite (hmap.foldl (fun _ _ => PlanKept.refl.tileApplyStopped _ _) _)
    (hmap.foldl (fun _ _ => PlanKept.refl.tileApply _ _) _))

theorem PlanKept.enterIdle (u : Nat) : PlanKept s (t.enterIdle u) := ((h.mapTile _ _).setTs _ _).applyStopped _

theorem PlanKept.giveBack (u : Nat) : PlanKept s (t.giveBack u) :=
  PlanKept.ite h ((h.setf (offPlan_tr _ _) _ _ _).ungovern _)

/-- A tile that the new generation does not use enters OFF (R95). -/
theorem PlanKept.stopTile (u : Nat) : PlanKept s (t.stopTile u) := by
  unfold State.stopTile
  extract_lets u1 u2 u3 u4
  have h1 : PlanKept s u1 := PlanKept.ite h (h.mapTile _ _)
  have h4 : PlanKept s u4 := ((((h1.clearTile _ _).mapTile _ _).setTs _ _).applyStopped _).giveBack _
  exact h4.withVault _

theorem PlanKept.retireTile (old : Option Placement) (pl : Placement) (u : Nat) : PlanKept s (t.retireTile old pl u) := by
  unfold State.retireTile
  extract_lets x dest u1 c u2 n
  have h1 : PlanKept s u1 := h.mapTile _ _
  have h2 : PlanKept s u2 := h1.same rfl
  exact ((h2.setf (offPlan_tr _ _) _ _ _).postEvent _ _ _ _).condEvent _ _ _ _ _

theorem PlanKept.writeTrapRecord (u : Nat) (p : PendTrap) (also : Nat) : PlanKept s (t.writeTrapRecord u p also) :=
  ((((((h.wn (offPlan_tr _ _) _).wn (offPlan_tr _ _) _).wr64 (offPlan_tr _ _) (offPlan_tr _ _) _).wn (offPlan_tr _ _) _).wr64
    (offPlan_tr _ _) (offPlan_tr _ _) _).wn (offPlan_tr _ _) _).wn (offPlan_tr _ _) _

end

/-! ### Past step 2 of a hang -/

/-- The Plan block is kept where a hang is past its step 1: what falls due then is left to the hang after (R205). -/
def HangSpared (s t : State) : Prop := 2 ≤ s.hangState → PlanKept s t

theorem PlanKept.spared {s t : State} (h : PlanKept s t) : HangSpared s t := fun _ => h

theorem HangSpared.refl {s : State} : HangSpared s s := PlanKept.refl.spared

theorem HangSpared.trans {s t u : State} (h : HangSpared s t) (k : HangSpared t u) : HangSpared s u :=
  fun hs => (h hs).trans (k (by rw [(h hs).hangState]; exact hs))

theorem HangSpared.kept {s t u : State} (h : HangSpared s t) (k : PlanKept t u) : HangSpared s u := h.trans k.spared

theorem HangSpared.ite {s t u : State} {p : Prop} [Decidable p] (h : HangSpared s t) (k : HangSpared s u) :
    HangSpared s (if p then t else u) := by
  split
  · exact h
  · exact k

theorem HangSpared.foldl {α : Type} {g : State → α → State} {s t : State} (h : HangSpared s t) (hg : ∀ u x, HangSpared u (g u x))
    (xs : List α) : HangSpared s (xs.foldl g t) := by
  induction xs generalizing t with
  | nil => exact h
  | cons x xs ih => exact ih (h.trans (hg t x))

/-- A tile that falls due then waits in the Curator's list (R205). -/
theorem State.fallDue_spared (s : State) (u : Nat) : HangSpared s (s.fallDue u) := fun hs => by
  unfold State.fallDue
  rw [if_pos (show 2 ≤ s.f (winBase .pln 0 + rPLN_HANG_STAT) 0 3 from hs)]
  exact PlanKept.refl.same rfl

section
variable {s t : State} (h : HangSpared s t)
include h

theorem HangSpared.wornSince (old : State) : HangSpared s (t.wornSince old) := h.foldl State.fallDue_spared _

theorem HangSpared.tileDue (u : Nat) : HangSpared s (t.tileDue u) := by
  have hmap : HangSpared s (t.mapTile u fun x => { x with due := true }) := h.kept (PlanKept.refl.mapTile _ _)
  exact HangSpared.ite h (HangSpared.ite hmap (hmap.trans (State.fallDue_spared _ _)))

theorem HangSpared.tileFault (u : Nat) : HangSpared s (t.tileFault u) := by
  unfold State.tileFault
  extract_lets w ts u1
  have h1 : HangSpared s u1 := h.kept (PlanKept.refl.mapTile _ _)
  exact HangSpared.ite (h1.tileDue _) h1

theorem HangSpared.enterTrap (u : Nat) : HangSpared s (t.enterTrap u) := by
  unfold State.enterTrap
  extract_lets ps
  split
  · exact h
  · next p _ =>
    extract_lets u1 u2 u3 u4 u5
    have h3 : PlanKept t u3 := PlanKept.post (((PlanKept.refl.writeTrapRecord _ _ _).mapTile _ _).setTs _ _) _ _ _ _
    have h4 : HangSpared s u4 := h.kept (h3.foldl (fun _ _ => PlanKept.refl.event _ _ _ _ _ _) _)
    have h5 : HangSpared s u5 := HangSpared.ite (h4.tileFault _) h4
    exact h5.kept (PlanKept.refl.applyStopped _)

theorem HangSpared.trapNow (u : Nat) : HangSpared s (t.trapNow u) :=
  HangSpared.ite (h.enterTrap _) (h.kept (PlanKept.refl.mapTile _ _))

theorem HangSpared.addCause (u : Nat) (p : PendTrap) : HangSpared s (t.addCause u p) := by
  unfold State.addCause
  extract_lets a u1 u2
  have h1 : HangSpared s u1 := h.kept (PlanKept.refl.wn (offPlan_tr _ _) _)
  have h2 : HangSpared s u2 := h.kept (PlanKept.refl.mapTile _ _)
  refine HangSpared.ite (h1.kept (PlanKept.refl.event _ _ _ _ _ _)) ?_
  split
  · exact HangSpared.trapNow (h2.kept (PlanKept.refl.setTs _ _)) _
  · exact h2.trapNow _
  · exact h2

theorem HangSpared.ticketLoss (u lost : Nat) (w : Option Word64) : HangSpared s (t.ticketLoss u lost w) := by
  unfold State.ticketLoss
  extract_lets lo hi u1
  have h1 : HangSpared s u1 := HangSpared.ite (h.kept (PlanKept.refl.wr64 (offPlan_tr _ _) (offPlan_tr _ _) _)) h
  refine HangSpared.ite (h1.addCause _ _) (HangSpared.ite (h.kept (PlanKept.refl.mapTile _ _)) ?_)
  split
  · exact h.addCause _ _
  · exact HangSpared.addCause (h.kept (PlanKept.refl.same (by rfl))) _ _

theorem HangSpared.ticketAdd (u k n : Nat) (w : Option Word64) : HangSpared s (t.ticketAdd u k n w) := by
  have hset : ∀ v, HangSpared s (t.setf (tk u k) 0 16 v) := fun v => h.kept (PlanKept.refl.setf (offPlan_tk _ _) _ _ _)
  exact HangSpared.ite ((hset _).ticketLoss _ _ _) (hset _)

end

/-! ### The tiles of the new generation -/

theorem PlanKept.swapAbove {s t : State} (h : PlanKept s t) (b : Blk) (i o : Nat) : PlanKept s (t.swapAbove b i o) := by
  have hlmp : OffPlan (winBase .lmp i + rLMP_SWAP_THRESH) := .inr (by simp only [winBase]; omega)
  exact PlanKept.ite (PlanKept.ite (h.setf hlmp _ _ _) h) h

/-- A write of the fields of a register that is none of the Plan block's (R7, R107). -/
theorem HangSpared.regStore {s t : State} (h : HangSpared s t) {a : Nat} (ha : OffPlan a) (w m : Nat) (side : Side) :
    HangSpared s (t.regStore a w m side) := by
  have hwn : ∀ v, HangSpared s (t.wn a v) := fun v => h.kept (PlanKept.refl.wn ha v)
  unfold State.regStore
  split
  · exact h
  · next b i r k _ =>
    have hcol : OffPlan (winBase .col i + rCOL_CFG_REJECT_COUNT) := .inr (by simp only [winBase]; omega)
    refine HangSpared.ite ?_ (HangSpared.ite (h.kept (PlanKept.refl.bump (offPlan_wg _ _)))
      (HangSpared.ite (h.kept (PlanKept.refl.bump hcol)) (HangSpared.ite ((hwn _).wornSince _)
        ((hwn _).kept (PlanKept.refl.swapAbove _ _ _)))))
    exact HangSpared.ite ((hwn _).kept (PlanKept.refl.event _ _ _ _ _ _)) (hwn _)

section
variable {s t : State} (h : HangSpared s t)
include h

theorem HangSpared.setGenRegs (u : Nat) (p : Plan) (r : ExhRec) : HangSpared s (t.setGenRegs u p r) := by
  unfold State.setGenRegs
  extract_lets u0 put u1 u2 u3 u4 seed
  have hput : ∀ {x : State} (b off v : Nat), HangSpared s x → HangSpared s (put x b off v) := fun b off v hx =>
    HangSpared.ite (hx.regStore (offPlan_tr _ _) _ _ _) hx
  have h0 : HangSpared s u0 := h.kept (PlanKept.refl.clearTile _ _)
  have h4 : HangSpared s u4 := hput _ _ _ (hput _ _ _ (hput _ _ _ (hput _ _ _ h0)))
  exact h4.kept (PlanKept.refl.wr64 (offPlan_tr _ _) (offPlan_tr _ _) _)

theorem HangSpared.startTile (p : Plan) (pl : Placement) (r : ExhRec) (u : Nat) : HangSpared s (t.startTile p pl r u) := by
  unfold State.startTile
  extract_lets kept half u0 u1 u2 u3 u4 u5
  have h0 : HangSpared s u0 := h.setGenRegs _ _ _
  have h4 : PlanKept u0 u4 := (((PlanKept.refl.wn (offPlan_tr _ _) _).wn (offPlan_tr _ _) _).wn (offPlan_tr _ _) _).mapTile _ _
  have h5 : HangSpared s u5 := h0.kept (h4.foldl (fun _ _ => PlanKept.refl.setf (offPlan_tk _ _) _ _ _) _)
  exact HangSpared.ite (h5.kept (PlanKept.refl.enterIdle _)) (h5.kept (PlanKept.refl.setTs _ _))

/-- Every tile takes its part in the new generation, and due tiles are retired (R205 to R207). -/
theorem HangSpared.applyTiles (before : Option Placement) (p : Plan) (pl : Placement) : HangSpared s (t.applyTiles before p pl) := by
  unfold State.applyTiles
  extract_lets own idle marked due u1 u2 u3 u4 c u5
  have h1 : HangSpared s u1 := h.kept (PlanKept.refl.foldl (fun _ _ => PlanKept.refl.stopTile _) _)
  have h2 : HangSpared s u2 := h1.foldl (fun u e => by
    split
    · exact HangSpared.refl.startTile _ _ _ _
    · exact HangSpared.refl) _
  have h3 : HangSpared s u3 := h2.kept (PlanKept.refl.foldl (fun _ _ => PlanKept.refl.retireTile _ _ _) _)
  have h4 : HangSpared s u4 := h3.kept (PlanKept.refl.foldl (fun _ _ => PlanKept.refl.setf (offPlan_tr _ _) _ _ _) _)
  have h5 : PlanKept u4 u5 := PlanKept.refl.same rfl
  exact h4.kept (h5.setf (by decide) _ _ _)

/-- A Vault page retired (R230), where the tile falls due at most for later. -/
theorem HangSpared.retireVaultPage (p : Plan) (pl : Placement) (ph : Nat) : HangSpared s (t.retireVaultPage p pl ph) := by
  unfold State.retireVaultPage
  extract_lets m u base used free old l n
  clear_value free
  cases free with
  | nil => exact h.tileDue _
  | cons q _ =>
    have hcopy : PlanKept t (t.copyPage true true ph rdCurator).2 := PlanKept.refl.copyPage _ _ _ _
    generalize t.copyPage true true ph rdCurator = x at hcopy
    obtain ⟨data, u0⟩ := x
    dsimp -zeta only
    extract_lets u1 m1 m2 u2
    have h1 : PlanKept t u1 := PlanKept.placeVault hcopy _ _
    have h2 : PlanKept t u2 := (h1.same (by rfl)).bump (by decide)
    exact HangSpared.wornSince (h.kept (h2.condEvent _ _ _ _ _)) _

end

theorem PlanKept.repairKeep {s t : State} (h : PlanKept s t) : PlanKept s t.repairKeep := by
  unfold State.repairKeep
  extract_lets now u
  have hu : PlanKept s u := h.foldl (fun x ph => ((PlanKept.refl.copyPage _ _ _ _).placeVault _ _).bump (by decide)) _
  exact hu.withVault _

theorem PlanKept.setKeep {s t : State} (h : PlanKept s t) (pl : Placement) : PlanKept s (t.setKeep pl) := by
  refine h.foldl (fun u k => ?_) _
  dsimp only
  split
  · exact (PlanKept.refl.wn (offPlan_add (by decide) _) _).wn (offPlan_add (by decide) _) _
  · exact (PlanKept.refl.wn (offPlan_add (by decide) _) _).wn (offPlan_add (by decide) _) _

end Sys2Proof.Machine

/-! PROOFS. What the tables of a new generation, the pairing block, messages and waves leave of the Plan block (R182, R310 to R317, R385,
R395, R411). -/

namespace Sys2Proof.Machine

open Sys2Proof

/-! ### The tables of the new generation -/

theorem offPlan_policy (w : PolicyRec) : OffPlan w.addr := by
  refine .inr ?_
  unfold PolicyRec.addr
  split <;> simp only [winBase] <;> omega

section
variable {s t : State} (h : PlanKept s t)
include h

theorem PlanKept.restore (old : State) {as : List Nat} (ha : ∀ a ∈ as, OffPlan a) : PlanKept s (old.restore t as) := by
  unfold State.restore
  induction as generalizing t with
  | nil => exact h
  | cons a as ih =>
    obtain ⟨ha, has⟩ := List.forall_mem_cons.1 ha
    exact ih (h.wr ha _) has

theorem PlanKept.policyOne (w : PolicyRec) : PlanKept s (t.policyOne w) := by
  unfold State.policyOne
  split
  · exact h
  · exact (h.wn (offPlan_policy w) _).swapAbove _ _ _

/-- The Wing policy of a plan names registers of Wings, Lamps and Collators (R182). -/
theorem PlanKept.applyPolicy (ps : List PolicyRec) : PlanKept s (t.applyPolicy ps) := by
  unfold State.applyPolicy
  extract_lets u1 u2
  have h1 : PlanKept s u1 := h.foldl (fun _ w => PlanKept.refl.policyOne w) _
  have h2 : PlanKept s u2 := h1.foldl (fun u w => PlanKept.ite PlanKept.refl
    ((PlanKept.refl.restore t fun a ha => by
      obtain ⟨c, -, rfl⟩ := List.mem_map.1 ha
      exact offPlan_wg _ _).bump (offPlan_wg _ _))) _
  refine h2.foldl (fun u w => PlanKept.ite PlanKept.refl ((PlanKept.refl.restore t fun a ha => ?_).bump ?_)) _
  · obtain ⟨p, -, rfl⟩ := List.mem_map.1 ha
    exact offPlan_policy p
  · exact .inr (by simp only [winBase]; omega)

theorem PlanKept.peersLost (met : List Nat) : PlanKept s (t.peersLost met) :=
  h.foldl (fun _ _ => PlanKept.refl.event _ _ _ _ _ _) _

theorem PlanKept.keepRoutes : PlanKept s t.keepRoutes := by
  unfold State.keepRoutes
  split
  · exact h
  · exact h.same rfl

theorem PlanKept.extendMeas (ix gen : Nat) (d : List Byte) : PlanKept s (t.extendMeas ix gen d) := h.same rfl

/-! ### The pairing block (R385, R395, R411) -/

theorem PlanKept.newRoles (r : Roles) : PlanKept s (t.newRoles r) := by
  unfold State.newRoles
  extract_lets u1 pair u2
  have h1 : PlanKept s u1 := PlanKept.ite h (h.setf (by decide) _ _ _)
  have h2 : PlanKept s u2 := (h1.same (by rfl)).setf (by decide) _ _ _
  exact PlanKept.ite h1 (PlanKept.ite (h2.setf (by decide) _ _ _) h2)

theorem PlanKept.takeRoles (r : Roles) : PlanKept s (t.takeRoles r) := (h.wn (by decide) _).setf (by decide) _ _ _

theorem PlanKept.setRebuildTicket (ts : List Nat) (v : Nat) : PlanKept s (t.setRebuildTicket ts v) := by
  unfold State.setRebuildTicket
  split
  · exact h
  · exact h.foldl (fun _ _ => PlanKept.refl.setf (offPlan_tk _ _) _ _ _) _

theorem PlanKept.beginFreeze (sh : Nat) (rebuild : Bool) (ts : List Nat) : PlanKept s (t.beginFreeze sh rebuild ts) := h.same rfl

theorem PlanKept.setRebuilds (rs : List Rebuild) : PlanKept s { t with pair := { t.pair with rebuilds := rs } } := h.same rfl

theorem PlanKept.expectSnapshot : PlanKept s t.expectSnapshot := by
  have hpair : PlanKept s { t with pair := { t.pair with snapshotLeft := (t.mirrored.map fun x => (t.cat x).length).foldl (· + ·) 0 } } := h.same rfl
  exact hpair.setf (by decide) _ _ _

theorem PlanKept.startRebuilds : PlanKept s t.startRebuilds := by
  unfold State.startRebuilds
  refine PlanKept.setf (h.foldl (fun u r => ?_) _) (by decide) _ _ _
  refine PlanKept.ite PlanKept.refl ?_
  dsimp only
  refine PlanKept.ite (PlanKept.ite PlanKept.refl ?_) (PlanKept.ite PlanKept.refl ?_)
  · exact (PlanKept.refl.beginFreeze _ _ _).setRebuilds _
  · exact (PlanKept.refl.setRebuilds _).setRebuildTicket _ _

theorem PlanKept.pairAtHang : PlanKept s t.pairAtHang := by
  unfold State.pairAtHang
  extract_lets st u1 ledger u2 a f u3
  have h1 : PlanKept s u1 := by
    simp only [u1]
    split
    · exact (h.wn (by decide) _).setf (by decide) _ _ _
    · exact (h.newRoles _).takeRoles _
  have h2 : PlanKept s u2 := (h1.setRebuildTicket _ _).setRebuildTicket _ _
  refine PlanKept.startRebuilds (PlanKept.ite ?_ h2)
  split
  · exact h2
  · next r _ =>
    have h3 : PlanKept s ((u2.beginFreeze r.shard false
        (r.ledger 0 0xFF ++ (if u2.f (pr rPAIR_STAT) 3 1 = 1 then r.ledger 1 0xFF else []))).setf a 0 5 3).expectSnapshot :=
      ((h2.beginFreeze _ _ _).setf (by decide) _ _ _).expectSnapshot
    exact PlanKept.postEvent (h3.same (by rfl)) _ _ _ _

/-! ### Messages -/

theorem PlanKept.setWave (g : Nat) (w : WaveState) : PlanKept s (t.setWave g w) := h.same rfl

theorem PlanKept.sendWave (dest : Nat) (pin : Option Nat) (data : List Byte) : PlanKept s (t.sendWave dest pin data) := by
  unfold State.sendWave
  split
  · exact h
  · cases pin
    · exact h.same rfl
    · exact h.same rfl

theorem PlanKept.sendOffice (dest ty n : Nat) (body : List Byte) : PlanKept s (t.sendOffice dest ty n body) := by
  unfold State.sendOffice
  split
  · exact h
  · exact h.same rfl

theorem PlanKept.answerQuery (k sender gen x : Nat) : PlanKept s (t.answerQuery k sender gen x) := by
  unfold State.answerQuery
  extract_lets tile u
  have hu : PlanKept s u := h.sendOffice _ _ _ _
  clear_value u
  exact PlanKept.ite (hu.same rfl) hu

/-- Held queries are answered by Office messages (R193). -/
theorem PlanKept.serveHeld (k : Nat) : PlanKept s (t.serveHeld k) := by
  unfold State.serveHeld
  extract_lets g now
  exact PlanKept.foldl (h.same (by rfl)) (fun _ _ => PlanKept.refl.answerQuery _ _ _ _) _

/-! ### The plan ring -/

theorem PlanKept.ringIdle : PlanKept s (t.ringIdle planRing) := PlanKept.ite (h.setf (by decide) _ _ _) h

theorem PlanKept.postCompletion (e : Entry) : PlanKept s (t.postCompletion e) := by
  unfold State.postCompletion State.postRing
  exact PlanKept.postTo (h.same (by rfl)) (fld_lt _ _ 2) _

theorem PlanKept.flushDone (n : Nat) : PlanKept s (t.flushDone planRing n) := by
  induction n generalizing t with
  | zero => exact h.ringIdle
  | succ n ih =>
    unfold State.flushDone
    split
    · next e _ _ =>
      have hpost : PlanKept s ({ t with host := { t.host with entries := t.host.entries.erase e } }.postCompletion e) :=
        PlanKept.postCompletion (h.same (by rfl)) _
      exact PlanKept.ite (ih hpost) h.ringIdle
    · exact h.ringIdle

theorem PlanKept.finishPlan (op result detail : Nat) : PlanKept s (t.finishPlan op result detail) := by
  unfold State.finishPlan
  split
  · exact PlanKept.flushDone (h.same (by rfl)) _
  · exact h

end

/-! ### Waves (R310 to R317) -/

section
variable {s t : State} (h : PlanKept s t)
include h

theorem PlanKept.enterPhase (g : Nat) (r : GroupRec) (phase : Nat) : PlanKept s (t.enterPhase g r phase) := by
  unfold State.enterPhase
  extract_lets w v d u
  have hu : PlanKept s u := h.setWave _ _
  exact PlanKept.ite (hu.foldl (fun _ _ => PlanKept.refl.sendWave _ _ _) _) (hu.foldl (fun _ _ => PlanKept.refl.sendWave _ _ _) _)

theorem PlanKept.answerAsked (g : Nat) (r : GroupRec) (phase : Nat) : PlanKept s (t.answerAsked g r phase) :=
  (h.setWave _ _).foldl (fun _ _ => PlanKept.refl.sendWave _ _ _) _

theorem PlanKept.beginWave (g : Nat) (r : GroupRec) : PlanKept s (t.beginWave g r) := by
  unfold State.beginWave
  extract_lets w u0 v u
  have hu : PlanKept s u := h.setWave _ _
  exact hu.enterPhase _ _ _

theorem PlanKept.markerDone (v : WaveVal) : PlanKept s (t.markerDone v) := by
  have hstat : ∀ {u : State} (x : Nat), PlanKept s u → PlanKept s (u.setf (winBase .pair 0 + rPAIR_STOCKTAKE_STAT) 0 3 x) :=
    fun x hu => hu.setf (by decide) _ _ _
  unfold State.markerDone
  extract_lets a f u
  have hu : PlanKept s u := (h.wn (by decide) _).wn (by decide) _
  exact PlanKept.ite h (PlanKept.ite ((hstat 0 h).postEvent _ _ _ _)
    (PlanKept.ite ((hstat 0 hu).event _ _ _ _ _ _) (hstat 2 hu)))

theorem PlanKept.scratchWrite (u o : Nat) (bs : List (Byte × Bool)) : PlanKept s (t.scratchWrite u o bs) := by
  unfold State.scratchWrite
  extract_lets n words whole poisoned u1
  refine PlanKept.ite h (PlanKept.mapTile (h.foldl (fun x w => ?_) _) _ _)
  extract_lets y e was x1
  have h1 : PlanKept x x1 := PlanKept.refl.setTile _ _
  exact PlanKept.ite ((h1.bump (offPlan_tr _ _)).event _ _ _ _ _ _) h1

theorem PlanKept.writeScratch (u o : Nat) (bs : List (Byte × Bool)) (w : Nat) : PlanKept s (t.writeRun u .scratch o bs w) :=
  (h.mapTile _ _).scratchWrite _ _ _

theorem PlanKept.feedQueued (g : Nat) (r : GroupRec) (n : Nat) : PlanKept s (t.feedQueued g r n) := by
  induction n generalizing t with
  | zero => exact h
  | succ n ih =>
    unfold State.feedQueued
    extract_lets w
    split
    · exact PlanKept.ite (h.beginWave _ _) h
    · refine PlanKept.ite h ?_
      exact PlanKept.ite ((h.setWave _ _).beginWave _ _) (ih (h.setWave _ _))

end

section
variable {s t : State} (h : HangSpared s t)
include h

/-- The result of a wave lands in scratch and counts on tickets, whose overflow may trap a tile (R88, R314). -/
theorem HangSpared.landResult (tiles : List (Nat × Nat)) (off : Nat) (bs : List Byte) : HangSpared s (t.landResult tiles off bs) :=
  HangSpared.foldl (h.kept (PlanKept.refl.foldl (fun _ _ => PlanKept.refl.writeScratch _ _ _ _) _))
    (fun _ _ => HangSpared.refl.ticketAdd _ _ _ _) _

theorem HangSpared.waveResult (r : GroupRec) (w : WaveState) (v : WaveVal) : HangSpared s (t.waveResult r w v) :=
  HangSpared.ite (h.kept (PlanKept.refl.same (by rfl))) (HangSpared.ite (h.kept (PlanKept.refl.wn (by decide) _))
    (HangSpared.ite (h.kept (PlanKept.refl.markerDone _)) (HangSpared.ite (h.kept (PlanKept.refl.same (by rfl))) (h.landResult _ _ _))))

theorem HangSpared.endWave (g : Nat) (r : GroupRec) : HangSpared s (t.endWave g r) :=
  HangSpared.waveResult (h.kept (PlanKept.refl.setWave _ _)) _ _ _

theorem HangSpared.progress (g : Nat) (r : GroupRec) (n : Nat) : HangSpared s (t.progress g r n) := by
  induction n generalizing t with
  | zero => exact h
  | succ n ih =>
    have hend : ∀ {u : State} (k : Nat), HangSpared s u → HangSpared s (((u.endWave g r).feedQueued g r k).progress g r n) :=
      fun k hu => ih ((hu.endWave g r).kept (PlanKept.refl.feedQueued _ _ _))
    unfold State.progress
    extract_lets w0 u1 w1 u2 w2 v miss ask d
    have h1 : HangSpared s u1 := HangSpared.ite (h.kept (PlanKept.refl.answerAsked _ _ _)) h
    have h2 : HangSpared s u2 := h1.kept (PlanKept.refl.answerAsked _ _ _)
    refine HangSpared.ite h (HangSpared.ite (hend _ h) (HangSpared.ite h1 (HangSpared.ite ?_ (HangSpared.ite ?_ (hend _ h2)))))
    · exact h2.kept ((PlanKept.refl.setWave _ _).foldl (fun _ _ => PlanKept.refl.sendWave _ _ _) _)
    · exact ih (h2.kept (PlanKept.refl.enterPhase _ _ _))

theorem HangSpared.restartWave (w : WaveState) (kind g : Nat) (r : Option GroupRec) : HangSpared s (t.restartWave w kind g r) := by
  unfold State.restartWave
  split
  · exact HangSpared.ite (HangSpared.progress (h.kept ((PlanKept.refl.setWave _ _).beginWave _ _)) _ _ _) h
  · exact h

/-- The wave groups over a hang (R315, R325). -/
theorem HangSpared.renumberWaves (old : Option Plan) (new : Plan) : HangSpared s (t.renumberWaves old new) := by
  unfold State.renumberWaves
  extract_lets u1 u2 a
  have h1 : HangSpared s u1 := by
    refine h.foldl (fun u g => ?_) _
    extract_lets before w u0
    have h0 : HangSpared u u0 := HangSpared.ite (PlanKept.refl.setWave _ _).spared (PlanKept.refl.setWave _ _).spared
    clear_value u0 before
    cases before with
    | none => exact h0
    | some b => exact HangSpared.ite (h0.restartWave _ _ _ _) h0
  have h2 : HangSpared s u2 := HangSpared.ite h1 (h1.kept (PlanKept.refl.setf (by decide) _ _ _))
  exact HangSpared.ite (h2.kept (PlanKept.refl.setf (by decide) _ _ _)) h2

theorem HangSpared.takeWaveGo (m : WaveMsg) (w : WaveState) (r : GroupRec) : HangSpared s (State.takeWave.go t m w r) := by
  unfold State.takeWave.go
  extract_lets u1 u2
  have h1 : HangSpared s u1 := h.kept (PlanKept.refl.setWave _ _)
  have h2 : HangSpared s u2 := HangSpared.ite (h1.kept (PlanKept.refl.beginWave _ _)) h1
  exact HangSpared.ite h (h2.progress _ _ _)

theorem HangSpared.takeWave (m : WaveMsg) : HangSpared s (t.takeWave m) := by
  unfold State.takeWave
  split
  · exact h
  · extract_lets w
    split
    · exact HangSpared.ite (HangSpared.ite (h.kept (PlanKept.refl.sendWave _ _ _)) h) (h.takeWaveGo _ _ _)
    · exact h.takeWaveGo _ _ _

/-- Messages held for the generation just applied are taken (R315). -/
theorem HangSpared.releaseWaves : HangSpared s t.releaseWaves :=
  HangSpared.foldl (h.kept (PlanKept.refl.same (by rfl))) (fun _ _ => HangSpared.refl.takeWave _) _

end

end Sys2Proof.Machine

/-! PROOFS. HANG_APPLY puts a generation in force (R55, R195, R210). -/

namespace Sys2Proof.Machine

open Sys2Proof

/-! ### The parts of HANG_APPLY (R195 steps 5 and 6) -/

/-- Contents, tables, pages, tiles and roles of the new generation. -/
def State.newGeneration (s : State) (p : Plan) (pl : Placement) : State :=
  let t := ((s.moveContents p pl).applyTables s.hangSlot p pl).peersLost s.peersMet
  let t := (t.vault.due.filter fun x => !t.cur.latePages.contains x).foldl (State.retireVaultPage p pl) t
  (t.repairKeep.applyTiles s.cur.place p pl).pairAtHang

/-- Slots that were ACTIVE go back to LOADED. -/
def State.retireSlots (s : State) (js : List Nat) : State :=
  js.foldl (fun (u : State) j => if u.slotState j = 6 then u.setSlotState j 3 else u) s

/-- The slot being hung becomes the ACTIVE one. -/
def State.makeActive (s : State) (k : Nat) : State := (s.retireSlots (List.range 4)).setSlotState k 6

/-- The counts of a hang, and what the Curator shows of the tables. -/
def State.countHang (s : State) : State :=
  let s := s.wn (winBase .pln 0 + rPLN_LAST_APPLY_COUNT) (min 0xFFFFFFFF (s.timer - s.cur.hangReady))
  let s := s.wn (winBase .pln 0 + rPLN_LAST_HANG_COUNT) (min 0xFFFFFFFF (s.timer - s.cur.hangStart))
  let s := s.bump (winBase .pln 0 + rPLN_HANG_COUNT)
  (s.setf (winBase .cur 0 + rCUR_CAT_STAT) 1 1 1).setf (winBase .cur 0 + rCUR_PLACE_DATA) 14 1 1

/-- The whole of it. -/
def State.applyHang (s : State) (p : Plan) (pl : Placement) : State :=
  let k := s.hangSlot
  let t := (((s.newGeneration p pl).makeActive k).countHang).releaseWaves
  ((t.postEvent .pln 1 k p.gen).finishHang (some p.gen)).serveHeld k

theorem execHangApply_eq {s : State} {p : Plan} {pl : Placement} (h4 : s.hangState = 4) (hd : s.drained = true)
    (hh : s.hanging = some (p, pl)) : exec .hangApply s = .next (s.orBlocked (s.applyHang p pl)) := by
  show execHangApply s = _
  rw [execHangApply, if_neg (by simp [h4, hd]), hh]
  rfl

/-! ### The generation in force -/

/-- In `t` the plan `p` is in force with entropy `e` and no record lost, PLN_HANG_COUNT is `n`, the hang is in state `x`, and no write has
been held up. -/
structure InForce (p : Plan) (e n x : Nat) (t : State) : Prop where
  part : t.hangPart = (some p, e, e, false)
  gen : t.planGen = p.gen % 2 ^ 64
  count : t.rn (winBase .pln 0 + rPLN_HANG_COUNT) = n
  state : t.hangState = x
  blocked : t.pair.blocked = false

/-- Slot `k` is ACTIVE, and no other is. -/
def OnlyActive (k : Nat) (t : State) : Prop := t.slotState k = 6 ∧ ∀ j, j < 4 → j ≠ k → t.slotState j ≠ 6

theorem State.planGen_congr {s t : State} (hlo : t.rn (winBase .pln 0 + rPLN_GEN_LO) = s.rn (winBase .pln 0 + rPLN_GEN_LO))
    (hhi : t.rn (winBase .pln 0 + rPLN_GEN_HI) = s.rn (winBase .pln 0 + rPLN_GEN_HI)) : t.planGen = s.planGen := by
  unfold State.planGen State.rd64
  rw [hlo, hhi]

theorem PlanKept.planGen {s t : State} (h : PlanKept s t) : t.planGen = s.planGen :=
  State.planGen_congr (h.rn (by decide)) (h.rn (by decide))

theorem PlanKept.slotState {s t : State} (h : PlanKept s t) {j : Nat} (hj : j < 4) : t.slotState j = s.slotState j :=
  h.f (by simp only [OffPlan, winBase, rPLN_SLOT_STAT]; omega) 0 3

theorem InForce.kept {p : Plan} {e n x : Nat} {t u : State} (h : InForce p e n x t) (k : PlanKept t u) : InForce p e n x u :=
  ⟨k.part.trans h.part, k.planGen.trans h.gen, (k.rn (by decide)).trans h.count, k.hangState.trans h.state, k.blocked.trans h.blocked⟩

theorem InForce.spared {p : Plan} {e n : Nat} {t u : State} (h : InForce p e n 4 t) (k : HangSpared t u) : InForce p e n 4 u :=
  h.kept (k (by rw [h.state]; decide))

theorem OnlyActive.kept {k : Nat} (hk : k < 4) {t u : State} (h : OnlyActive k t) (hu : PlanKept t u) : OnlyActive k u :=
  ⟨(hu.slotState hk).trans h.1, fun j hj hne => by rw [hu.slotState hj]; exact h.2 j hj hne⟩

/-- PLN_GEN holds a generation cut to its 64 bits. -/
theorem State.planGen_wr64 (s : State) (v : Nat) :
    (s.wr64 (winBase .pln 0 + rPLN_GEN_LO) (winBase .pln 0 + rPLN_GEN_HI) v).planGen = v % 2 ^ 64 := by
  unfold State.planGen State.rd64 State.wr64
  rw [State.rn_wn_same, State.rn_wn_ne _ _ (by decide), State.rn_wn_same]
  omega

/-- The tables put the plan in force under the entropy drawn for its hang. -/
theorem State.applyTables_inForce {s : State} (h4 : s.hangState = 4) (hl : s.cur.lostHang = false) (hb : s.pair.blocked = false) (k : Nat)
    (p : Plan) (pl : Placement) :
    InForce p s.cur.nextEntropy (s.rn (winBase .pln 0 + rPLN_HANG_COUNT)) 4 (s.applyTables k p pl) := by
  unfold State.applyTables
  extract_lets old u1 c fab u2 u3 u4 u5 hash
  have h1 : PlanKept s u1 := PlanKept.refl.keepRoutes
  have hpart : u2.hangPart = (some p, s.cur.nextEntropy, s.cur.nextEntropy, false) := by
    have := h1.part
    simp only [State.hangPart, Prod.mk.injEq] at this ⊢
    obtain ⟨-, -, hnext, hlost⟩ := this
    exact ⟨rfl, hnext, hnext, hlost.trans hl⟩
  have h3 : PlanKept u2 u3 := (PlanKept.refl.setf (by decide) _ _ _).setKeep _
  have hregs : ∀ a, ¬ OffPlan a → a ≠ winBase .pln 0 + rPLN_GEN_LO → a ≠ winBase .pln 0 + rPLN_GEN_HI →
      (u3.wr64 (winBase .pln 0 + rPLN_GEN_LO) (winBase .pln 0 + rPLN_GEN_HI) p.gen).rn a = s.rn a := fun a ha hlo hhi => by
    rw [State.wr64, State.rn_wn_ne _ _ hhi, State.rn_wn_ne _ _ hlo]
    exact (h3.rn ha).trans (h1.rn ha)
  have hgen : InForce p s.cur.nextEntropy (s.rn (winBase .pln 0 + rPLN_HANG_COUNT)) 4
      (u3.wr64 (winBase .pln 0 + rPLN_GEN_LO) (winBase .pln 0 + rPLN_GEN_HI) p.gen) :=
    ⟨h3.part.trans hpart, State.planGen_wr64 _ _, hregs _ (by decide) (by decide) (by decide),
      (congrArg (fld · 0 3) (hregs hangReg (by decide) (by decide) (by decide))).trans h4, (h3.blocked.trans h1.blocked).trans hb⟩
  have h5 : InForce p s.cur.nextEntropy (s.rn (winBase .pln 0 + rPLN_HANG_COUNT)) 4 u5 :=
    (hgen.kept (PlanKept.refl.applyPolicy _)).spared (HangSpared.refl.renumberWaves _ _)
  exact h5.kept (PlanKept.refl.extendMeas _ _ _)

/-- So it stays through the pages, the tiles and the roles. -/
theorem State.newGeneration_inForce {s : State} {p : Plan} {pl : Placement} (h4 : s.hangState = 4) (hl : s.cur.lostHang = false)
    (hb : (s.moveContents p pl).pair.blocked = false) :
    InForce p s.cur.nextEntropy (s.rn (winBase .pln 0 + rPLN_HANG_COUNT)) 4 (s.newGeneration p pl) := by
  unfold State.newGeneration
  have hmove := State.moveContents_planKept hb
  have hpart := hmove.part
  simp only [State.hangPart, Prod.mk.injEq] at hpart
  obtain ⟨-, -, hnext, hlost⟩ := hpart
  have htables := State.applyTables_inForce (hmove.hangState.trans h4) (hlost.trans hl) hb s.hangSlot p pl
  rw [hnext, hmove.rn (by decide)] at htables
  extract_lets u1 u2
  have h1 : InForce p s.cur.nextEntropy (s.rn (winBase .pln 0 + rPLN_HANG_COUNT)) 4 u1 := htables.kept (PlanKept.refl.peersLost _)
  have h2 : HangSpared u1 u2 := HangSpared.refl.foldl (fun _ _ => HangSpared.refl.retireVaultPage _ _ _) _
  exact h1.spared (((h2.kept PlanKept.refl.repairKeep).applyTiles _ _ _).kept PlanKept.refl.pairAtHang)

/-! ### The slots -/

theorem State.hangSlot_lt (s : State) : s.hangSlot < 4 := fld_lt _ _ 2

/-- STATE of a slot after STATE of a slot is set. -/
theorem State.slotState_setSlotState (s : State) (j i v : Nat) :
    (s.setSlotState j v).slotState i = if i = j then v % 2 ^ 3 else s.slotState i := by
  unfold State.setSlotState State.slotState
  split
  · next hij =>
    subst hij
    exact State.f_setf_same _ _ _ (by decide)
  · next hij => exact State.f_setf_ne _ _ _ _ _ _ (by omega)

/-- A register written below those of the slots. -/
theorem State.slotState_wn (s : State) {a : Nat} (v : Nat) (ha : a < winBase .pln 0 + rPLN_SLOT_STAT) (j : Nat) :
    (s.wn a v).slotState j = s.slotState j :=
  congrArg (fld · 0 3) (State.rn_wn_ne _ _ (by omega))

/-- No slot among those retired is ACTIVE, nor one that was not. -/
theorem State.slotState_retireSlots {i : Nat} {js : List Nat} {s : State} (h : i ∈ js ∨ s.slotState i ≠ 6) :
    (s.retireSlots js).slotState i ≠ 6 := by
  induction js generalizing s with
  | nil => exact h.resolve_left List.not_mem_nil
  | cons j js ih =>
    refine ih (s := if s.slotState j = 6 then s.setSlotState j 3 else s) ?_
    by_cases hi : i ∈ js
    · exact .inl hi
    · right
      by_cases hij : i = j
      · subst hij
        split
        · rw [State.slotState_setSlotState, if_pos rfl]
          decide
        · assumption
      · have hne : s.slotState i ≠ 6 := h.resolve_left fun hm => (List.mem_cons.1 hm).elim hij hi
        split
        · rwa [State.slotState_setSlotState, if_neg hij]
        · exact hne

theorem State.makeActive_onlyActive (s : State) (k : Nat) : OnlyActive k (s.makeActive k) := by
  unfold State.makeActive
  refine ⟨(State.slotState_setSlotState _ _ _ _).trans (if_pos rfl), fun j hj hne => ?_⟩
  rw [State.slotState_setSlotState, if_neg hne]
  exact State.slotState_retireSlots (.inl (List.mem_range.2 hj))

/-- A register written that shows none of what is in force. -/
theorem InForce.wn {p : Plan} {e n x : Nat} {t : State} (h : InForce p e n x t) {a : Nat}
    (ha : a ∉ [winBase .pln 0 + rPLN_GEN_LO, winBase .pln 0 + rPLN_GEN_HI, winBase .pln 0 + rPLN_HANG_COUNT, hangReg]) (v : Nat) :
    InForce p e n x (t.wn a v) := by
  have hrn : ∀ b, b ∈ [winBase .pln 0 + rPLN_GEN_LO, winBase .pln 0 + rPLN_GEN_HI, winBase .pln 0 + rPLN_HANG_COUNT, hangReg] →
      (t.wn a v).rn b = t.rn b := fun b hb => State.rn_wn_ne _ _ fun hba => ha (hba ▸ hb)
  exact ⟨h.part, (State.planGen_congr (hrn _ (by simp)) (hrn _ (by simp))).trans h.gen, (hrn _ (by simp)).trans h.count,
    (congrArg (fld · 0 3) (hrn hangReg (by simp))).trans h.state, h.blocked⟩

theorem InForce.setSlotState {p : Plan} {e n x : Nat} {t : State} (h : InForce p e n x t) (j v : Nat) :
    InForce p e n x (t.setSlotState j v) := by
  refine h.wn ?_ _
  simp only [hangReg, winBase, rPLN_SLOT_STAT, rPLN_GEN_LO, rPLN_GEN_HI, rPLN_HANG_COUNT, rPLN_HANG_STAT,
    List.mem_cons, List.not_mem_nil, or_false]
  omega

theorem InForce.makeActive {p : Plan} {e n x : Nat} {t : State} (h : InForce p e n x t) (k : Nat) : InForce p e n x (t.makeActive k) := by
  refine InForce.setSlotState (List.foldlRecOn (motive := InForce p e n x) _ _ h fun u hu j _ => ?_) k 6
  split
  · exact hu.setSlotState j 3
  · exact hu

/-! ### The counts and the end -/

theorem State.countHang_onlyActive {s : State} {k : Nat} (hk : k < 4) (h : OnlyActive k s) : OnlyActive k s.countHang := by
  unfold State.countHang
  extract_lets u1 u2 u3
  have h3 : ∀ j, u3.slotState j = s.slotState j := fun j =>
    ((State.slotState_wn _ _ (by decide) j).trans (State.slotState_wn _ _ (by decide) j)).trans (State.slotState_wn _ _ (by decide) j)
  have hu : OnlyActive k u3 := ⟨(h3 k).trans h.1, fun j hj hne => by rw [h3]; exact h.2 j hj hne⟩
  exact hu.kept hk ((PlanKept.refl.setf (by decide) _ _ _).setf (by decide) _ _ _)

theorem InForce.countHang {p : Plan} {e n x : Nat} {t : State} (h : InForce p e n x t) : InForce p e (min 0xFFFFFFFF (n + 1)) x t.countHang := by
  unfold State.countHang
  extract_lets u1 u2 u3
  have h2 : InForce p e n x u2 := (h.wn (by decide) _).wn (by decide) _
  have hrn : ∀ a, a ≠ winBase .pln 0 + rPLN_HANG_COUNT → u3.rn a = u2.rn a := fun a ha => State.rn_bump_ne _ ha
  have h3 : InForce p e (min 0xFFFFFFFF (n + 1)) x u3 :=
    ⟨h2.part, (State.planGen_congr (hrn _ (by decide)) (hrn _ (by decide))).trans h2.gen, by rw [← h2.count]; exact State.rn_bump _ _,
      (congrArg (fld · 0 3) (hrn hangReg (by decide))).trans h2.state, h2.blocked⟩
  exact h3.kept ((PlanKept.refl.setf (by decide) _ _ _).setf (by decide) _ _ _)

/-- PLN_HANG_STAT cleared, and the mark of a lost record with it. -/
def State.hangIdle (s : State) : State := { s.wn hangReg 0 with cur := { s.cur with lostHang := false } }

theorem InForce.hangIdle {p : Plan} {e n x : Nat} {t : State} (h : InForce p e n x t) : InForce p e n 0 t.hangIdle := by
  have hrn : ∀ a, a ≠ hangReg → t.hangIdle.rn a = t.rn a := fun a ha => State.rn_wn_ne t 0 ha
  have hpart := h.part
  simp only [State.hangPart, Prod.mk.injEq] at hpart
  obtain ⟨hnow, hentropy, hnext, -⟩ := hpart
  refine ⟨?_, (State.planGen_congr (hrn _ (by decide)) (hrn _ (by decide))).trans h.gen, (hrn _ (by decide)).trans h.count, ?_, h.blocked⟩
  · show (t.cur.now, t.cur.entropy, t.cur.nextEntropy, false) = _
    rw [hnow, hentropy, hnext]
  · exact congrArg (fld · 0 3) (State.rn_wn_same t hangReg 0)

/-- A hang none of whose records was lost completes with its generation. -/
theorem State.finishHang_kept {s : State} (hl : s.cur.lostHang = false) (g : Nat) : PlanKept s.hangIdle (s.finishHang (some g)) := by
  have hfinish : s.finishHang (some g) = s.hangIdle.finishPlan 0x22 0 (g % 2 ^ 48) := by
    unfold State.finishHang
    simp only [hl]
    rfl
  rw [hfinish]
  exact PlanKept.refl.finishPlan _ _ _

theorem State.hangIdle_onlyActive {s : State} {k : Nat} (h : OnlyActive k s) : OnlyActive k s.hangIdle := by
  have hslot : ∀ j, s.hangIdle.slotState j = s.slotState j := State.slotState_wn s 0 (by decide)
  exact ⟨(hslot k).trans h.1, fun j hj hne => by rw [hslot]; exact h.2 j hj hne⟩

/-! ### The statement -/

/-- HANG_APPLY leaves the plan in force under the entropy drawn for its hang, the hang over and counted, and its slot alone ACTIVE. -/
theorem State.applyHang_inForce {s : State} {p : Plan} {pl : Placement} (h4 : s.hangState = 4) (hl : s.cur.lostHang = false)
    (hb : (s.moveContents p pl).pair.blocked = false) :
    InForce p s.cur.nextEntropy (min 0xFFFFFFFF (s.rn (winBase .pln 0 + rPLN_HANG_COUNT) + 1)) 0 (s.applyHang p pl)
      ∧ OnlyActive s.hangSlot (s.applyHang p pl) := by
  unfold State.applyHang
  extract_lets k t
  have hk : k < 4 := s.hangSlot_lt
  have hcount := ((State.newGeneration_inForce h4 hl hb).makeActive k).countHang
  have hactive := State.countHang_onlyActive hk ((s.newGeneration p pl).makeActive_onlyActive k)
  have hwaves : PlanKept _ t := HangSpared.refl.releaseWaves (by rw [hcount.state]; decide)
  have hpost := hwaves.postEvent .pln 1 k p.gen
  have hforce := hcount.kept hpost
  have hend : PlanKept (t.postEvent .pln 1 k p.gen).hangIdle (((t.postEvent .pln 1 k p.gen).finishHang (some p.gen)).serveHeld k) :=
    (State.finishHang_kept (congrArg (fun z => z.2.2.2) hforce.part) p.gen).serveHeld k
  exact ⟨hforce.hangIdle.kept hend, (State.hangIdle_onlyActive (hactive.kept hk hpost)).kept hk hend⟩

/-- Settles O26: HANG_APPLY is run in its parts, each of which leaves the Plan block's registers to those that set them. -/
theorem hangApplies : Obligations.HangApplies := by
  intro s p pl h4 hd hh hl hb
  obtain ⟨hforce, hactive⟩ := State.applyHang_inForce h4 hl hb
  have hrun : exec .hangApply s = .next (s.applyHang p pl) := by
    rw [execHangApply_eq h4 hd hh, State.orBlocked, if_neg (by rw [hforce.blocked]; decide)]
  have hpart := hforce.part
  simp only [State.hangPart, Prod.mk.injEq] at hpart
  obtain ⟨hnow, hentropy, -, -⟩ := hpart
  exact ⟨_, hrun, hactive.1, hactive.2, hnow, hforce.gen, hentropy, hforce.state, hforce.count⟩

end Sys2Proof.Machine

/-! PROOFS. A step of a tile that issues (R97, R99, R111 to R130): the frame of one tile, the position that a step leaves, and what
`issue` gives a tile that nothing holds. -/

namespace Sys2Proof.Machine

open Sys2Proof

/-! ### Frames of one tile -/

theorem tr_inj {u o p : Nat} : tr u o = tr u p ↔ o = p := by simp only [tr]; omega

/-- A ticket counter is a register of the tile's window. -/
theorem tk_eq_tr (u k : Nat) : tk u k = tr u (rTILE_TICKET + 4 * (k % 64)) := by simp only [tk, tr]; omega

section
variable {as : List Nat} {s t x : State} {u : Nat}

theorem RegsBut.same (h : RegsBut as s t) (e : x.regs = t.regs) : RegsBut as s x :=
  fun a ha => by rw [← h a ha, State.rd, State.rd, e]

theorem RegsBut.wnIn (h : RegsBut as s t) {a : Nat} (ha : a ∈ as) (v : Nat) : RegsBut as s (t.wn a v) :=
  h.trans ((RegsBut.wn t a v).mono (by simpa using ha))

theorem RegsBut.setfIn (h : RegsBut as s t) {a : Nat} (ha : a ∈ as) (lo w v : Nat) : RegsBut as s (t.setf a lo w v) := h.wnIn ha _

/-- A performance counter is counted or held, and no other register written (R105). -/
theorem RegsBut.perfIn (h : RegsBut as s t) {o : Nat} (ha : tr u o ∈ as) (n : Nat) : RegsBut as s (t.perf u o n) := by
  unfold State.perf
  split
  · exact h
  · exact h.wnIn ha _

theorem State.perf_onlyRegs (s : State) (u o n : Nat) : OnlyRegs s (s.perf u o n) := by
  unfold State.perf
  split
  · exact OnlyRegs.refl s
  · exact OnlyRegs.wn s _ _

/-- A performance counter wraps, and FREEZE holds it (R105, R110). -/
theorem State.rn_perf (s : State) (u o n : Nat) : (s.perf u o n).rn (tr u o) =
    if s.f (tr u rTILE_PERF_CTRL) 1 1 = 1 then s.rn (tr u o) else (s.rn (tr u o) + n) % 2 ^ 32 := by
  unfold State.perf
  split
  · rfl
  · exact State.rn_wn_same _ _ _

theorem OnlyRegs.tile (h : OnlyRegs s t) (v : Nat) : t.tile v = s.tile v := by unfold State.tile; rw [h]

theorem OnlyTile.refl (u : Nat) (s : State) : OnlyTile u s s := ⟨rfl, fun _ _ => rfl⟩

theorem OnlyTile.trans (h : OnlyTile u s t) (k : OnlyTile u t x) : OnlyTile u s x :=
  ⟨OnlyRegsTiles.trans h.1 k.1, fun v hv => (k.2 v hv).trans (h.2 v hv)⟩

theorem OnlyTile.regs (h : OnlyTile u s t) (k : OnlyRegs t x) : OnlyTile u s x := h.trans ⟨k.tiles, fun v _ => k.tile v⟩

theorem State.tile_setTile (s : State) (u v : Nat) (x : Tile) : (s.setTile u x).tile v = if v = u then x else s.tile v :=
  aget_aput _ _ _ _ _

theorem OnlyTile.setTile (h : OnlyTile u s t) (x : Tile) : OnlyTile u s (t.setTile u x) :=
  h.trans ⟨rfl, fun v hv => by rw [State.tile_setTile, if_neg hv]⟩

theorem OnlyTile.mapTile (h : OnlyTile u s t) (g : Tile → Tile) : OnlyTile u s (t.mapTile u g) := h.setTile _

end

/-! ### The position after a step (R117, R119, R129) -/

/-- The tile at the step after position `p`, by the loop rules. -/
def State.went (s : State) (u p : Nat) : State :=
  (s.mapTile u fun x => { x with loops := (loopNext (s.tile u).loops p).1 }).setPos u (loopNext (s.tile u).loops p).2

section
variable {s x : State} {u p : Nat}

theorem GoesOn.of_tile (h : GoesOn s u p) (e : x.tile u = s.tile u) : GoesOn x u p := by unfold GoesOn; rwa [e]

theorem State.advance_of_goesOn (h : GoesOn s u p) : s.advance u p = some (s.went u p) := by
  unfold GoesOn at h
  unfold State.advance State.went
  generalize loopNext (s.tile u).loops p = y at h
  simp only [if_neg (Nat.not_lt.mpr h)]

theorem State.goNext_of_goesOn (h : GoesOn s u p) (w : Word64) (g : State → State) :
    s.goNext u p w g = .go ((g (s.went u p)).stepDone u) := by
  unfold State.goNext
  rw [State.advance_of_goesOn h]

/-- A position of the half is kept whole in EXEC_POS. -/
theorem State.pos_setPos (s : State) (u : Nat) {i : Nat} (h : i ≤ 4095) : (s.setPos u i).pos u = i := by
  unfold State.pos State.setPos
  rw [State.f_setf_same _ _ _ (by decide)]
  omega

theorem State.pos_went (h : GoesOn s u p) : (s.went u p).pos u = (loopNext (s.tile u).loops p).2 := State.pos_setPos _ u h

theorem State.tile_went (s : State) (u p : Nat) : (s.went u p).tile u = { s.tile u with loops := (loopNext (s.tile u).loops p).1 } := by
  rw [State.went, State.setPos, State.tile_setf, State.tile_mapTile, if_pos rfl]

theorem State.went_onlyTile (s : State) (u p : Nat) : OnlyTile u s (s.went u p) :=
  ((OnlyTile.refl u s).mapTile _).regs (OnlyRegs.setf _ _ _ _ _)

theorem State.went_regsBut (s : State) (u p : Nat) : RegsBut [tr u rTILE_EXEC_POS] s (s.went u p) :=
  ((RegsBut.refl _ s).same rfl).setfIn (by simp) _ _ _

end

/-! ### Issue -/

theorem Tile.no_deferred {x : Tile} (h : x.deferred = []) : { x with deferred := [] } = x := by
  cases x
  cases h
  rfl

section
variable {s : State} {u cls op : Nat} {w : Word64} {body : State → Word64 → Nat → Issue}

/-- A boundary at which nothing waits writes the tile back as it was. -/
theorem State.boundary_of_no_deferred (h : (s.tile u).deferred = []) : s.boundary u = s.setTile u (s.tile u) := by
  unfold State.boundary State.mapTile
  simp [h, Tile.no_deferred h]

theorem Ready.correctFetch (h : Ready s u w cls op) : s.correctFetch u = s := by
  obtain ⟨-, -, -, -, -, herr, -, -⟩ := h
  exact if_neg (by rw [herr]; decide)

/-- A ready tile issues its step where checking it finds no cause: the step acts on the tile as it stands, and one more execution
of it is noted (R54, R111). -/
theorem State.issue_go (h : Ready s u w cls op) {r : State → State}
    (hb : ∀ x, x.regs = s.regs → x.tile u = s.tile u → body x w (s.pos u) = .go (r x)) :
    s.issue u cls op body = (r (s.setTile u (s.tile u))).mapTile u fun x => x.countExec (s.pos u) := by
  have hc := h.correctFetch
  obtain ⟨hcan, hhold, hdef, hpend, hfetch, -, hcls, hop⟩ := h
  have hhere : body s w (s.pos u) = .go (r s) := hb s rfl rfl
  have hback : body (s.setTile u (s.tile u)) w (s.pos u) = .go (r (s.setTile u (s.tile u))) :=
    hb _ rfl (by rw [State.tile_setTile, if_pos rfl])
  unfold State.issue
  simp [hcan, hhold, hdef, hc, hfetch, hcls, hop, hhere, hpend, State.boundary_of_no_deferred hdef, hback, Issue.causes]

/-- A ready tile takes the trap of the causes that checking its step finds, before anything of the step happens (R99). -/
theorem State.issue_trap (h : Ready s u w cls op) {ps : List PendTrap} (hb : body s w (s.pos u) = .trap ps) (hps : ps ≠ []) :
    s.issue u cls op body = (s.mapTile u fun x => { x with pendTraps := x.pendTraps ++ ps }).trapNow u := by
  have hc := h.correctFetch
  obtain ⟨hcan, hhold, hdef, hpend, hfetch, -, hcls, hop⟩ := h
  unfold State.issue
  simp [hcan, hhold, hdef, hc, hfetch, hcls, hop, hb, hps, Issue.causes]

end

/-! ### Steps that complete at once -/

theorem State.stepDone_regsBut (s : State) (u : Nat) : RegsBut [tr u rTILE_STEP_COUNT] s (s.stepDone u) :=
  (RegsBut.refl _ s).perfIn (by simp) 1

/-- A step that completes is counted, where nothing before it changed the counter or FREEZE. -/
theorem counted_stepDone {s x : State} {u : Nat} {as : List Nat} (h : RegsBut as s x) (hc : tr u rTILE_STEP_COUNT ∉ as)
    (hf : tr u rTILE_PERF_CTRL ∉ as) : Counted s (x.stepDone u) u := by
  unfold Counted State.stepDone
  rw [State.rn_perf, h.f hf, h.rn hc]

/-- The step at the tile's position, issued by command `i`, goes on and does `g`, once checked. -/
def GoesOnBy (i : Instr) (cls op : Nat) (s : State) (u : Nat) (w : Word64) (g : State → State) : Prop :=
  ∃ body, exec i s = .next (s.issue u cls op body) ∧ ∀ x, x.regs = s.regs → x.tile u = s.tile u →
    body x w (s.pos u) = .go ((g (x.went u (s.pos u))).stepDone u)

section
variable {i : Instr} {cls op : Nat} {s : State} {u : Nat} {w : Word64} {g : State → State}

/-- A step that goes on and writes registers of a list without EXEC_POS: the tile stands at the next step, and the registers are
those that the step leaves, counted. -/
theorem GoesOnBy.goes (hi : GoesOnBy i cls op s u w g) (h : Ready s u w cls op) (hgo : GoesOn s u (s.pos u)) {as : List Nat}
    (hg : ∀ y, OnlyRegs y (g y) ∧ RegsBut as y (g y)) (hpos : tr u rTILE_EXEC_POS ∉ as) :
    ∃ t, exec i s = .next t ∧ Went s t u (s.pos u) id ∧ OnlyTile u s t
      ∧ ∃ y, RegsBut [tr u rTILE_EXEC_POS] s y ∧ t.regs = ((g y).stepDone u).regs := by
  obtain ⟨body, hexec, hb⟩ := hi
  rw [State.issue_go h hb] at hexec
  refine ⟨_, hexec, ?_⟩
  generalize hx : s.setTile u (s.tile u) = x
  have hxs : OnlyTile u s x := hx ▸ (OnlyTile.refl u s).setTile _
  have hxr : ∀ as, RegsBut as s x := fun as => hx ▸ (RegsBut.refl as s).same rfl
  have hxt : x.tile u = s.tile u := by rw [← hx, State.tile_setTile, if_pos rfl]
  obtain ⟨honly, hregs⟩ := hg (x.went u (s.pos u))
  have hcount : OnlyRegs (g (x.went u (s.pos u))) ((g (x.went u (s.pos u))).stepDone u) := State.perf_onlyRegs _ _ _ _
  refine ⟨⟨?_, ?_⟩, (((hxs.trans (State.went_onlyTile _ _ _)).regs honly).regs hcount).mapTile _, x.went u (s.pos u),
    (hxr _).trans (State.went_regsBut _ _ _), rfl⟩
  · have hp : tr u rTILE_EXEC_POS ∉ tr u rTILE_STEP_COUNT :: as :=
      List.not_mem_cons_of_ne_of_not_mem (tr_ne_tr (by decide) (by decide) (by decide)) hpos
    have hr : RegsBut (tr u rTILE_STEP_COUNT :: as) (x.went u (s.pos u)) ((g (x.went u (s.pos u))).stepDone u) :=
      (hregs.mono fun a ha => List.mem_cons_of_mem _ ha).trans ((State.stepDone_regsBut _ u).mono (by simp))
    calc (((g (x.went u (s.pos u))).stepDone u).mapTile u fun y => y.countExec (s.pos u)).pos u
        = (x.went u (s.pos u)).pos u := congrArg (· / 8) (hr.f hp 0 15)
      _ = _ := by rw [State.pos_went (hgo.of_tile hxt), hxt]
  · rw [State.tile_mapTile, if_pos rfl, hcount.tile, honly.tile, State.tile_went, hxt]
    rfl

/-- A step that goes on, writes one register of the tile and completes: what it writes stands. -/
theorem GoesOnBy.writes {o : Nat} (hi : GoesOnBy i cls op s u w g) (h : Ready s u w cls op) (hgo : GoesOn s u (s.pos u))
    (hg : ∀ y, OnlyRegs y (g y) ∧ RegsBut [tr u o] y (g y)) (ho : o ≠ rTILE_EXEC_POS ∧ o ≠ rTILE_STEP_COUNT ∧ o ≠ rTILE_PERF_CTRL) :
    ∃ t, exec i s = .next t ∧ DoneStep s t u (s.pos u) [tr u o] id
      ∧ ∃ y : State, y.rn (tr u o) = s.rn (tr u o) ∧ t.rn (tr u o) = (g y).rn (tr u o) := by
  obtain ⟨hpos, hcount, hctrl⟩ := ho
  obtain ⟨t, hexec, hwent, honly, y, hy, ht⟩ := hi.goes h hgo hg (by simpa [tr_inj] using hpos.symm)
  have hz : RegsBut [tr u rTILE_EXEC_POS, tr u o] s (g y) := (hy.mono (by simp)).trans ((hg y).2.mono (by simp))
  have hdone := (g y).stepDone_regsBut u
  have hd : RegsBut [tr u rTILE_STEP_COUNT] (g y) t := hdone.same ht
  refine ⟨t, hexec, ⟨hwent, ?_, honly, (hz.mono (by simp +contextual)).trans (hd.mono (by simp))⟩, y,
    hy.rn (by simpa [tr_inj] using hpos), hd.rn (by simpa [tr_inj] using hcount)⟩
  have hc : Counted s ((g y).stepDone u) u := counted_stepDone hz
    (by simpa [tr_inj] using ⟨fun e => absurd e (by decide), hcount.symm⟩)
    (by simpa [tr_inj] using ⟨fun e => absurd e (by decide), hctrl.symm⟩)
  unfold Counted at hc ⊢
  rwa [State.rn, State.rd, ht]

end

end Sys2Proof.Machine

/-! PROOFS. END, and a tile that enters IDLE (R97, R117, R121, R167): O8. -/

namespace Sys2Proof.Machine

open Sys2Proof

/-! ### A tile that enters IDLE (R97) -/

section
variable {s : State} {u : Nat}

/-- Where nothing waits, entering a state writes the tile back as it was. -/
theorem State.applyStopped_of_no_deferred (h : (s.tile u).deferred = []) : s.applyStopped u = s.setTile u (s.tile u) := by
  unfold State.applyStopped State.mapTile
  simp [h, Tile.no_deferred h]

theorem State.ts_setTs (s : State) (u : Nat) {v : Nat} (h : v < 8) : (s.setTs u v).ts u = v :=
  (State.f_setf_same _ _ _ (by decide)).trans (Nat.mod_eq_of_lt h)

/-- A tile at which no change waits enters IDLE, abandoning what it held. -/
theorem State.enterIdle_spec (h : (s.tile u).deferred = []) : (s.enterIdle u).ts u = tsIDLE ∧ OnlyTile u s (s.enterIdle u)
    ∧ RegsBut [tr u rTILE_STATE] s (s.enterIdle u) ∧ (s.enterIdle u).tile u = { s.tile u with holding := .none } := by
  have htile : ((s.mapTile u fun x => { x with holding := .none }).setTs u tsIDLE).tile u = { s.tile u with holding := .none } := by
    rw [State.setTs, State.tile_setf, State.tile_mapTile, if_pos rfl]
  unfold State.enterIdle
  dsimp only
  rw [State.applyStopped_of_no_deferred (by rw [htile]; exact h), htile]
  refine ⟨State.ts_setTs _ _ (by decide), ?_, ?_, (State.tile_setTile _ _ _ _).trans (if_pos rfl)⟩
  · exact (((OnlyTile.refl u s).mapTile _).regs (OnlyRegs.setf _ _ _ _ _)).setTile _
  · exact (((RegsBut.refl _ s).same rfl).setfIn (by simp) _ _ _).same rfl

end

/-! ### END -/

theorem State.canIssue_of_ts_ne {s : State} {u : Nat} (h : s.ts u ≠ tsRUN) : s.canIssue u = false := by
  unfold State.canIssue
  simp [h]

theorem exec_endStep {s : State} {u : Nat} {w : Word64} (h : Ready s u w 0 1) (hc : Clean w 0) :
    exec (.endStep u) s = .next ((((s.setTile u (s.tile u)).endTile u .ended).stepDone u).mapTile u fun x => x.countExec (s.pos u)) :=
  congrArg Host.Outcome.next (State.issue_go h (r := fun x => (x.endTile u .ended).stepDone u) fun _ _ _ => if_pos hc)

/-- Settles O8: the tile enters IDLE, or with a unit busy holds issue as ended. -/
theorem endStopsTheTile : Obligations.EndStopsTheTile := by
  intro s u w h hc
  refine ⟨_, exec_endStep h hc, ?_⟩
  obtain ⟨-, -, hdef, -⟩ := h
  generalize hx : s.setTile u (s.tile u) = x
  have hxs : OnlyTile u s x := hx ▸ (OnlyTile.refl u s).setTile _
  have hxr : ∀ as, RegsBut as s x := fun as => hx ▸ (RegsBut.refl as s).same rfl
  have hxt : x.tile u = s.tile u := by rw [← hx, State.tile_setTile, if_pos rfl]
  have hdone : ∀ y : State, OnlyRegs y (y.stepDone u) := fun y => State.perf_onlyRegs _ _ _ _
  by_cases hi : (s.tile u).idle = true
  · have hend : x.endTile u .ended = x.enterIdle u := if_pos (by rw [hxt]; exact hi)
    rw [hend]
    obtain ⟨hts, honly, hregs, -⟩ := State.enterIdle_spec (s := x) (u := u) (by rw [hxt]; exact hdef)
    have hy : RegsBut [tr u rTILE_STATE] s (x.enterIdle u) := (hxr _).trans hregs
    have hcount := (x.enterIdle u).stepDone_regsBut u
    have hz : RegsBut [tr u rTILE_STATE, tr u rTILE_STEP_COUNT] s ((x.enterIdle u).stepDone u) :=
      (hy.mono (by simp)).trans (hcount.mono (by simp))
    have htz : ((x.enterIdle u).stepDone u).ts u = tsIDLE :=
      (hcount.f (by simp [tr_inj, rTILE_STATE, rTILE_STEP_COUNT]) 0 3).trans hts
    refine ⟨?_, ?_, ((hxs.trans honly).regs (hdone _)).mapTile _, fun _ => ⟨htz, ?_, hz.same rfl⟩, fun hb => absurd hi (by simp [hb])⟩
    · exact counted_stepDone hy (by simp [tr_inj, rTILE_STATE, rTILE_STEP_COUNT]) (by simp [tr_inj, rTILE_STATE, rTILE_PERF_CTRL])
    · exact congrArg (· / 8) (hz.f (by simp [tr_inj, rTILE_EXEC_POS, rTILE_STATE, rTILE_STEP_COUNT]) 0 15)
    · exact State.canIssue_of_ts_ne (show (State.mapTile _ u _).ts u ≠ tsRUN from fun e => absurd (htz.symm.trans e) (by decide))
  · have hend : x.endTile u .ended = x.mapTile u fun y => { y with holding := .ended } := if_neg (by rw [hxt]; exact hi)
    rw [hend]
    generalize hy : (x.mapTile u fun y => { y with holding := .ended }) = y
    have hyr : ∀ as, RegsBut as s y := fun as => hy ▸ (hxr as).same rfl
    have hyt : y.tile u = { s.tile u with holding := .ended } := by rw [← hy, State.tile_mapTile, if_pos rfl, hxt]
    have hcount := y.stepDone_regsBut u
    have hz : RegsBut [tr u rTILE_STEP_COUNT] s (y.stepDone u) := (hyr _).trans hcount
    have htile : ((y.stepDone u).mapTile u fun x => x.countExec (s.pos u)).tile u
        = ({ s.tile u with holding := .ended }).countExec (s.pos u) := by
      rw [State.tile_mapTile, if_pos rfl, (hdone y).tile, hyt]
    refine ⟨counted_stepDone (hyr []) List.not_mem_nil List.not_mem_nil, ?_, ?_, fun hb => absurd hb hi, fun _ => ⟨htile, ?_, hz.same rfl⟩⟩
    · exact congrArg (· / 8) (hz.f (by simp [tr_inj, rTILE_EXEC_POS, rTILE_STEP_COUNT]) 0 15)
    · exact (OnlyTile.regs (hy ▸ hxs.mapTile _) (hdone y)).mapTile _
    · have hheld : ((((y.stepDone u).mapTile u fun x => x.countExec (s.pos u)).tile u).holding != .ended) = false := by rw [htile]; rfl
      exact fun hm => Bool.false_ne_true (hheld.symm.trans (Bool.and_eq_true_iff.1 (List.mem_filter.1 hm).2).2)

end Sys2Proof.Machine

/-! PROOFS. WAIT and ADD, the ticket steps (R86, R88, R134 to R136): O9. -/

namespace Sys2Proof.Machine

open Sys2Proof

theorem State.f_of_regs {s x : State} (h : x.regs = s.regs) (a lo w : Nat) : x.f a lo w = s.f a lo w := by
  simp only [State.f, State.rn, State.rd, h]

theorem Clean.resOk {w : Word64} {m k : Nat} (h : Clean w m) (e : opMask + m = k) : resOk w.toNat k = true := e ▸ h

/-- The registers that a step's issue reads again are none of a ticket counter. -/
theorem tk_ne_tr {u k o : Nat} (h : o < rTILE_TICKET ∨ rTILE_TICKET + 0x100 ≤ o) : tr u o ≠ tk u k := by
  simp only [tk, tr, rTILE_TICKET] at *
  omega

/-! ### WAIT and ADD -/

/-- How many tickets a WAIT asks for. -/
def State.waitAmount (s : State) (u n : Nat) : Nat := if bit n 47 then ((s.tile u).sreg (fld n 40 4)).toNat else fld n 0 16

/-- A WAIT without a cause: its reserved bits and the operand that it does not use are 0, and it asks for 65,535 at most. -/
def WaitLegal (s : State) (u : Nat) (w : Word64) : Prop :=
  Clean w (mk 47 7 + mk 40 4 + mk 0 16) ∧ (bit w.toNat 47 = true → fld w.toNat 0 16 = 0) ∧ (bit w.toNat 47 = false → fld w.toNat 40 4 = 0)
    ∧ s.waitAmount u w.toNat ≤ 65535

/-- What a legal WAIT does once checked: it takes its amount and goes on, or it holds issue. -/
theorem execWait_body {s : State} {u : Nat} {w : Word64} (hl : WaitLegal s u w) (hgo : GoesOn s u (s.pos u)) :
    ∃ body, exec (.wait u) s = .next (s.issue u 1 0 body) ∧ ∀ x, x.regs = s.regs → x.tile u = s.tile u → body x w (s.pos u) =
      if s.waitAmount u w.toNat ≤ s.f (tk u (fld w.toNat 48 6)) 0 16 then
        .go (((x.went u (s.pos u)).setf (tk u (fld w.toNat 48 6)) 0 16 (s.f (tk u (fld w.toNat 48 6)) 0 16 - s.waitAmount u w.toNat)).stepDone u)
      else .go ((x.mapTile u fun y => { y with holding := .wait (fld w.toNat 48 6) (s.waitAmount u w.toNat) }).showWait u) := by
  refine ⟨_, rfl, fun x hr ht => ?_⟩
  obtain ⟨hc, himm, hreg, hmax⟩ := hl
  dsimp only
  rw [State.advance_of_goesOn (hgo.of_tile ht), ht, State.f_of_regs hr, hc.resOk (k := opMask + mk 47 7 + mk 40 4 + mk 0 16) rfl]
  unfold State.waitAmount at hmax ⊢
  cases hb : bit w.toNat 47
  · simp [hreg hb, legalOr]
  · rw [hb, if_pos rfl] at hmax
    simp [himm hb, legalOr, Nat.not_lt.mpr hmax]

/-- A step that writes one ticket counter and completes. -/
theorem GoesOnBy.writesTicket {i : Instr} {s : State} {u cls op k v : Nat} {w : Word64}
    (hi : GoesOnBy i cls op s u w fun y => y.setf (tk u k) 0 16 v) (h : Ready s u w cls op) (hgo : GoesOn s u (s.pos u)) (hv : v < 2 ^ 16) :
    ∃ t, exec i s = .next t ∧ DoneStep s t u (s.pos u) [tk u k] id ∧ t.f (tk u k) 0 16 = v := by
  rw [tk_eq_tr] at hi ⊢
  obtain ⟨t, hexec, hdone, y, -, ht⟩ := hi.writes h hgo (fun y => ⟨OnlyRegs.setf y _ _ _ _, RegsBut.setf y _ _ _ _⟩)
    (by simp only [rTILE_TICKET, rTILE_EXEC_POS, rTILE_STEP_COUNT, rTILE_PERF_CTRL]; omega)
  refine ⟨t, hexec, hdone, ?_⟩
  rw [State.f, ht]
  exact (State.f_setf_same _ _ _ (by decide)).trans (Nat.mod_eq_of_lt hv)

section
variable {s : State} {u : Nat} {w : Word64}

/-- A WAIT that finds its amount takes it (R86, R134). -/
theorem execWait_takes (h : Ready s u w 1 0) (hl : WaitLegal s u w) (hgo : GoesOn s u (s.pos u))
    (hle : s.waitAmount u w.toNat ≤ s.f (tk u (fld w.toNat 48 6)) 0 16) :
    ∃ t, exec (.wait u) s = .next t ∧ DoneStep s t u (s.pos u) [tk u (fld w.toNat 48 6)] id
      ∧ t.f (tk u (fld w.toNat 48 6)) 0 16 = s.f (tk u (fld w.toNat 48 6)) 0 16 - s.waitAmount u w.toNat :=
  have ⟨body, hexec, hb⟩ := execWait_body hl hgo
  GoesOnBy.writesTicket ⟨body, hexec, fun x hr ht => (hb x hr ht).trans (if_pos hle)⟩ h hgo
    (Nat.lt_of_le_of_lt (Nat.sub_le _ _) (fld_lt _ _ _))

/-- Where every unit is idle, a tile in RUN that waits shows WAIT (R135). -/
theorem State.showWait_spec {k m : Nat} (hh : (s.tile u).holding = .wait k m) (hts : s.ts u = tsRUN) :
    (s.showWait u).ts u = (if (s.tile u).idle then tsWAIT else tsRUN) ∧ OnlyRegs s (s.showWait u)
      ∧ RegsBut [tr u rTILE_STATE] s (s.showWait u) := by
  unfold State.showWait
  simp only [hh, hts, decide_true, Bool.and_true]
  split
  · exact ⟨State.ts_setTs _ _ (by decide), OnlyRegs.setf _ _ _ _ _, RegsBut.setf _ _ _ _ _⟩
  · exact ⟨hts, OnlyRegs.refl s, RegsBut.refl _ s⟩

theorem State.ts_of_canIssue (h : s.canIssue u = true) : s.ts u = tsRUN := by
  unfold State.canIssue at h
  simp only [Bool.and_eq_true, beq_iff_eq] at h
  exact h.1.1.1.2

/-- A WAIT that does not find its amount holds issue at its own step (R98, R135). -/
theorem execWait_holds (h : Ready s u w 1 0) (hl : WaitLegal s u w) (hgo : GoesOn s u (s.pos u))
    (hlt : s.f (tk u (fld w.toNat 48 6)) 0 16 < s.waitAmount u w.toNat) :
    ∃ t, exec (.wait u) s = .next t
      ∧ t.tile u = ({ s.tile u with holding := .wait (fld w.toNat 48 6) (s.waitAmount u w.toNat) }).countExec (s.pos u)
      ∧ t.ts u = (if (s.tile u).idle then tsWAIT else tsRUN) ∧ OnlyTile u s t ∧ RegsBut [tr u rTILE_STATE] s t := by
  obtain ⟨_, hexec, hb⟩ := execWait_body hl hgo
  rw [State.issue_go h fun x hr ht => (hb x hr ht).trans (if_neg (Nat.not_le.mpr hlt))] at hexec
  refine ⟨_, hexec, ?_⟩
  generalize hy : ((s.setTile u (s.tile u)).mapTile u fun y => { y with holding := .wait (fld w.toNat 48 6) (s.waitAmount u w.toNat) }) = y
  have hyt : y.tile u = { s.tile u with holding := .wait (fld w.toNat 48 6) (s.waitAmount u w.toNat) } := by
    rw [← hy, State.tile_mapTile, if_pos rfl, State.tile_setTile, if_pos rfl]
  have hyo : OnlyTile u s y := hy ▸ ((OnlyTile.refl u s).setTile _).mapTile _
  have hyr : ∀ as, RegsBut as s y := fun as => hy ▸ (RegsBut.refl as s).same rfl
  obtain ⟨hcan, -⟩ := h
  obtain ⟨hts, honly, hregs⟩ := State.showWait_spec (s := y) (u := u) (by rw [hyt])
    (((hyr []).f List.not_mem_nil 0 3).trans (State.ts_of_canIssue hcan))
  refine ⟨?_, hts.trans (by rw [hyt]; rfl), (hyo.regs honly).mapTile _, ((hyr _).trans hregs).same rfl⟩
  rw [State.tile_mapTile, if_pos rfl, honly.tile, hyt]

/-- An amount that fits is added to a ticket counter (R86, R136). -/
theorem State.ticketAdd_fits {k n : Nat} (h : s.f (tk u k) 0 16 + n ≤ 65535) (w : Option Word64) :
    s.ticketAdd u k n w = s.setf (tk u k) 0 16 (s.f (tk u k) 0 16 + n) := if_neg (Nat.not_lt.mpr h)

theorem execAdd_adds (h : Ready s u w 1 1) (hc : Clean w (mk 48 6 + mk 0 16)) (hgo : GoesOn s u (s.pos u))
    (hle : s.f (tk u (fld w.toNat 48 6)) 0 16 + fld w.toNat 0 16 ≤ 65535) :
    ∃ t, exec (.add u) s = .next t ∧ DoneStep s t u (s.pos u) [tk u (fld w.toNat 48 6)] id
      ∧ t.f (tk u (fld w.toNat 48 6)) 0 16 = s.f (tk u (fld w.toNat 48 6)) 0 16 + fld w.toNat 0 16 := by
  refine GoesOnBy.writesTicket ⟨_, rfl, fun x hr ht => ?_⟩ h hgo (by omega)
  have hx : (x.went u (s.pos u)).f (tk u (fld w.toNat 48 6)) 0 16 = s.f (tk u (fld w.toNat 48 6)) 0 16 :=
    ((State.went_regsBut x u (s.pos u)).f (by simpa using (tk_ne_tr (.inl (by decide))).symm) _ _).trans (State.f_of_regs hr _ _ _)
  dsimp only
  rw [hc.resOk (k := opMask + mk 48 6 + mk 0 16) rfl, State.goNext_of_goesOn (hgo.of_tile ht), State.ticketAdd_fits (by rw [hx]; exact hle), hx]
  rfl

/-- A completion before which no clear waits is the completion alone. -/
theorem State.completing_of_no_clear (h : (s.tile u).deferred.any (·.isClear) = false) (g : State → State) (sure : Bool) :
    s.completing u g sure = g s := if_pos (by rw [h]; rfl)

/-- A wait whose amount has come takes it, and the tile runs on past it (R86, R97). -/
theorem execWaitSatisfied_takes {j m : Nat} (hh : (s.tile u).holding = .wait j m) (hts : s.ts u = tsRUN ∨ s.ts u = tsWAIT)
    (hle : m ≤ s.f (tk u j) 0 16) (hold : (s.tile u).holdIssue = false) (hhalt : s.haltHolds u = false) (hstop : s.stopped = false)
    (hgo : GoesOn s u (s.pos u)) (hdef : (s.tile u).deferred = []) :
    ∃ t, exec (.waitSatisfied u) s = .next t ∧ t.ts u = tsRUN ∧ t.f (tk u j) 0 16 = s.f (tk u j) 0 16 - m
      ∧ (t.tile u).holding = .none ∧ t.pos u = (loopNext (s.tile u).loops (s.pos u)).2 ∧ Counted s t u ∧ OnlyTile u s t
      ∧ RegsBut [tk u j, tr u rTILE_STATE, tr u rTILE_EXEC_POS, tr u rTILE_STEP_COUNT] s t := by
  refine ⟨_, rfl, ?_⟩
  have hguard : ((s.ts u = tsWAIT || s.ts u = tsRUN) && decide (m ≤ s.f (tk u j) 0 16) && !(s.tile u).holdIssue && !s.haltHolds u
      && !s.stopped) = true := by
    simp [hle, hold, hhalt, hstop, hts.symm]
  simp only [hh, hguard, if_true]
  generalize hx : ((s.setf (tk u j) 0 16 (s.f (tk u j) 0 16 - m)).mapTile u fun x => { x with holding := .none }) = x
  have hxt : x.tile u = { s.tile u with holding := .none } := by rw [← hx, State.tile_mapTile, if_pos rfl, State.tile_setf]
  have hxo : OnlyTile u s x := hx ▸ ((OnlyTile.refl u s).regs (OnlyRegs.setf _ _ _ _ _)).mapTile _
  have hxr : RegsBut [tk u j] s x := hx ▸ (RegsBut.setf _ _ _ _ _).same rfl
  have hxp : x.pos u = s.pos u := congrArg (· / 8) (hxr.f (by simpa using tk_ne_tr (.inl (by decide))) 0 15)
  have hzt : (x.setTs u tsRUN).tile u = { s.tile u with holding := .none } := hxt
  have hzgo : GoesOn (x.setTs u tsRUN) u (s.pos u) := by unfold GoesOn; rwa [hzt]
  have hzr : RegsBut [tk u j, tr u rTILE_STATE, tr u rTILE_EXEC_POS] s (x.setTs u tsRUN) :=
    (hxr.mono (by simp)).setfIn (by simp) _ _ _
  rw [hxp, State.advance_of_goesOn hzgo]
  generalize hy : (x.setTs u tsRUN).went u (s.pos u) = y
  have hyt : y.tile u = { s.tile u with holding := .none, loops := (loopNext (s.tile u).loops (s.pos u)).1 } := by
    rw [← hy, State.tile_went, hzt]
  have hyw : RegsBut [tr u rTILE_EXEC_POS] (x.setTs u tsRUN) y := hy ▸ State.went_regsBut _ _ _
  have hyo : OnlyTile u s y := hy ▸ (hxo.regs (OnlyRegs.setf _ _ _ _ _)).trans (State.went_onlyTile _ _ _)
  have hyr : RegsBut [tk u j, tr u rTILE_STATE, tr u rTILE_EXEC_POS] s y := hzr.trans (hyw.mono (by simp))
  have hydef : (y.tile u).deferred = [] := by rw [hyt]; exact hdef
  have hdone : OnlyRegs y (y.stepDone u) := State.perf_onlyRegs _ _ _ _
  have hcount := y.stepDone_regsBut u
  simp only [State.completing_of_no_clear (s := y) (u := u) (by rw [hydef]; rfl)]
  rw [State.boundary_of_no_deferred (by rw [hdone.tile]; exact hydef)]
  refine ⟨?_, ?_, ?_, ?_, ?_, ?_, ?_⟩
  · calc (y.stepDone u).ts u = y.ts u := hcount.f (by simp [tr_inj, rTILE_STATE, rTILE_STEP_COUNT]) 0 3
      _ = (x.setTs u tsRUN).ts u := hyw.f (by simp [tr_inj, rTILE_STATE, rTILE_EXEC_POS]) 0 3
      _ = tsRUN := State.ts_setTs _ _ (by decide)
  · calc (y.stepDone u).f (tk u j) 0 16 = y.f (tk u j) 0 16 := hcount.f (by simpa using (tk_ne_tr (.inr (by decide))).symm) 0 16
      _ = (x.setTs u tsRUN).f (tk u j) 0 16 := hyw.f (by simpa using (tk_ne_tr (.inl (by decide))).symm) 0 16
      _ = x.f (tk u j) 0 16 := (RegsBut.setf x (tr u rTILE_STATE) 0 3 tsRUN).f (by simpa using (tk_ne_tr (.inl (by decide))).symm) 0 16
      _ = s.f (tk u j) 0 16 - m := by
        rw [← hx, State.f_mapTile, State.f_setf_same _ _ _ (by decide)]
        exact Nat.mod_eq_of_lt (Nat.lt_of_le_of_lt (Nat.sub_le _ _) (fld_lt _ _ _))
  · rw [State.tile_setTile, if_pos rfl, hdone.tile, hyt]
  · calc (y.stepDone u).pos u = y.pos u := congrArg (· / 8) (hcount.f (by simp [tr_inj, rTILE_EXEC_POS, rTILE_STEP_COUNT]) 0 15)
      _ = (loopNext (s.tile u).loops (s.pos u)).2 := by rw [← hy, State.pos_went hzgo, hzt]
  · exact counted_stepDone hyr
      (List.not_mem_cons_of_ne_of_not_mem (tk_ne_tr (.inr (by decide))) (by simp [tr_inj, rTILE_STATE, rTILE_EXEC_POS, rTILE_STEP_COUNT]))
      (List.not_mem_cons_of_ne_of_not_mem (tk_ne_tr (.inr (by decide))) (by simp [tr_inj, rTILE_STATE, rTILE_EXEC_POS, rTILE_PERF_CTRL]))
  · exact (hyo.regs hdone).setTile _
  · exact ((hyr.mono (by simp +contextual)).trans (hcount.mono (by simp))).same rfl

end

/-- Settles O9: a WAIT with and without its amount, a wait satisfied, and ADD. -/
theorem ticketSteps : Obligations.TicketSteps := fun _ _ _ =>
  ⟨execWait_takes, execWait_holds,
    fun _ _ hh _ hts hle hold hhalt hstop hgo hdef => execWaitSatisfied_takes hh hts hle hold hhalt hstop hgo hdef, execAdd_adds⟩

end Sys2Proof.Machine

/-! PROOFS. The configuration steps (R110, R165, R166), and the clears that they share with the host's (R63, R107): O10. -/

namespace Sys2Proof.Machine

open Sys2Proof

/-! ### Fields set under a condition -/

section
variable (y : State) (a : Nat) {lo w : Nat} (c : Bool) (v : Nat)

/-- The register after a field is set, or not. -/
def State.setfIf (lo w : Nat) : State := if c then y.setf a lo w v else y

theorem State.setfIf_onlyRegs (lo w : Nat) : OnlyRegs y (y.setfIf a c v lo w) := by
  cases c
  · exact OnlyRegs.refl y
  · exact OnlyRegs.setf _ _ _ _ _

theorem State.setfIf_regsBut (lo w : Nat) : RegsBut [a] y (y.setfIf a c v lo w) := by
  cases c
  · exact RegsBut.refl _ y
  · exact RegsBut.setf _ _ _ _ _

theorem State.f_setfIf_same (h : lo + w ≤ 32) : (y.setfIf a c v lo w).f a lo w = if c then v % 2 ^ w else y.f a lo w := by
  cases c
  · rfl
  · exact State.f_setf_same _ _ _ h

theorem State.f_setfIf_apart {x k : Nat} (h : lo + w ≤ 32) (hd : x + k ≤ lo ∨ lo + w ≤ x) : (y.setfIf a c v lo w).f a x k = y.f a x k := by
  cases c
  · rfl
  · exact State.f_setf_apart _ _ _ h hd

end

theorem fld_mod (n lo w : Nat) : fld n lo w % 2 ^ w = fld n lo w := Nat.mod_mod _ _

/-! ### Clears of the flags -/

theorem bit_eq_testBit (n i : Nat) : bit n i = n.testBit i := by
  rw [Nat.testBit_eq_decide_div_mod_eq]
  rfl

theorem testBit_fld_low (n k i : Nat) : (fld n 0 k).testBit i = (decide (i < k) && n.testBit i) := by
  simp [fld, Nat.testBit_mod_two_pow]

/-- A clear of TILE_ARITH_STAT takes the flags of its mask, which has 8 bits, and leaves the rest (R63, R65). -/
theorem State.bit_statClear (y : State) (u m : Nat) {i : Nat} (hi : i < 32) :
    bit ((y.tileApply u (.statClear (fld m 0 8))).rn (tr u rTILE_ARITH_STAT)) i
      = (bit (y.rn (tr u rTILE_ARITH_STAT)) i && !(decide (i < 8) && bit m i)) := by
  have hones : (0xFFFFFFFF : Nat) = 2 ^ 32 - 1 := rfl
  unfold State.tileApply
  rw [State.rn_wn_same, hones, bit_eq_testBit, bit_eq_testBit, bit_eq_testBit, Nat.testBit_mod_two_pow, Nat.testBit_and, Nat.testBit_xor,
    testBit_fld_low, Nat.testBit_two_pow_sub_one, decide_eq_true hi, Bool.true_and, Bool.true_xor]

/-! ### Clears of the performance counters (R110) -/

/-- The performance counters, which CLEAR of TILE_PERF_CTRL sets to 0. -/
def perfRegs (u : Nat) : List Nat := (List.range 11).map fun i => tr u (rTILE_CYCLE_COUNT_LO + 4 * i)

theorem perfOffs_eq : perfOffs = (List.range 11).map fun i => rTILE_CYCLE_COUNT_LO + 4 * i := by decide

theorem State.foldl_zero (u : Nat) (os : List Nat) (y : State) :
    OnlyRegs y (os.foldl (fun st o => st.wn (tr u o) 0) y) ∧ RegsBut (os.map (tr u)) y (os.foldl (fun st o => st.wn (tr u o) 0) y)
      ∧ ∀ o ∈ os, (os.foldl (fun st o => st.wn (tr u o) 0) y).rn (tr u o) = 0 := by
  induction os generalizing y with
  | nil => exact ⟨OnlyRegs.refl y, RegsBut.refl _ y, fun o ho => nomatch ho⟩
  | cons o os ih =>
    obtain ⟨honly, hregs, hzero⟩ := ih (y.wn (tr u o) 0)
    refine ⟨(OnlyRegs.wn y _ _).trans honly, ((RegsBut.wn y _ _).mono (by simp)).trans (hregs.mono (by simp +contextual)), fun p hp => ?_⟩
    by_cases hin : p ∈ os
    · exact hzero p hin
    · have hpo : p = o := (List.mem_cons.1 hp).resolve_right hin
      rw [List.foldl_cons, hregs.rn (by simpa [tr_inj] using hin), hpo, State.rn_wn_same, Nat.zero_mod]

/-- A clear of the counters that nothing was counted after. -/
theorem State.perfClear_spec (y : State) (u : Nat) : OnlyRegs y (y.tileApply u (.perfClear []))
    ∧ RegsBut (tr u rTILE_CPM :: perfRegs u) y (y.tileApply u (.perfClear []))
    ∧ (∀ i, i < 11 → (y.tileApply u (.perfClear [])).rn (tr u (rTILE_CYCLE_COUNT_LO + 4 * i)) = 0)
    ∧ (y.tileApply u (.perfClear [])).f (tr u rTILE_CPM) 8 8 = 0xFF
    ∧ (y.tileApply u (.perfClear [])).f (tr u rTILE_CPM) 0 8 = y.f (tr u rTILE_CPM) 0 8 := by
  obtain ⟨honly, hregs, hzero⟩ := State.foldl_zero u perfOffs y
  have hlist : perfOffs.map (tr u) = perfRegs u := by rw [perfOffs_eq, List.map_map]; rfl
  rw [hlist] at hregs
  have hcpm : tr u rTILE_CPM ∉ perfRegs u := by
    simp only [perfRegs, List.mem_map, List.mem_range, tr_inj, rTILE_CPM, rTILE_CYCLE_COUNT_LO]
    omega
  refine ⟨honly.trans (OnlyRegs.setf _ _ _ _ _), (hregs.mono (by simp +contextual)).setfIn (by simp) _ _ _, fun i hi => ?_,
    State.f_setf_same _ _ _ (by decide), ?_⟩
  · have hne : tr u (rTILE_CYCLE_COUNT_LO + 4 * i) ≠ tr u rTILE_CPM := by
      simp only [ne_eq, tr_inj, rTILE_CPM, rTILE_CYCLE_COUNT_LO]
      omega
    exact (State.rn_wn_ne _ _ hne).trans (hzero _ (by rw [perfOffs_eq]; exact List.mem_map_of_mem (List.mem_range.2 hi)))
  · exact (State.f_setf_apart _ _ _ (by decide) (.inl (by decide))).trans (hregs.f hcpm 0 8)

/-! ### The steps -/

section
variable {s : State} {u : Nat} {w : Word64}

/-- ARITH's fields of TILE_ARITH_CTRL, those whose SET bit is 1. -/
def State.setArith (y : State) (u n : Nat) : State :=
  ((y.setfIf (tr u rTILE_ARITH_CTRL) (bit n 55) (fld n 0 2) 0 2).setfIf (tr u rTILE_ARITH_CTRL) (bit n 54) (fld n 2 1) 2 1).setfIf
    (tr u rTILE_ARITH_CTRL) (bit n 53) (fld n 3 1) 3 1

theorem State.setArith_frame (y : State) (u n : Nat) : OnlyRegs y (y.setArith u n) ∧ RegsBut [tr u rTILE_ARITH_CTRL] y (y.setArith u n) :=
  ⟨((y.setfIf_onlyRegs _ _ _ _ _).trans (State.setfIf_onlyRegs _ _ _ _ _ _)).trans (State.setfIf_onlyRegs _ _ _ _ _ _),
    ((y.setfIf_regsBut _ _ _ _ _).trans (State.setfIf_regsBut _ _ _ _ _ _)).trans (State.setfIf_regsBut _ _ _ _ _ _)⟩

/-- Each field that ARITH sets, and the rest of the register. -/
theorem State.f_setArith (y : State) (u n : Nat) :
    (y.setArith u n).f (tr u rTILE_ARITH_CTRL) 0 2 = (if bit n 55 then fld n 0 2 else y.f (tr u rTILE_ARITH_CTRL) 0 2)
    ∧ (y.setArith u n).f (tr u rTILE_ARITH_CTRL) 2 1 = (if bit n 54 then fld n 2 1 else y.f (tr u rTILE_ARITH_CTRL) 2 1)
    ∧ (y.setArith u n).f (tr u rTILE_ARITH_CTRL) 3 1 = (if bit n 53 then fld n 3 1 else y.f (tr u rTILE_ARITH_CTRL) 3 1)
    ∧ (y.setArith u n).f (tr u rTILE_ARITH_CTRL) 4 28 = y.f (tr u rTILE_ARITH_CTRL) 4 28 := by
  unfold State.setArith
  refine ⟨?_, ?_, ?_, ?_⟩
  · rw [State.f_setfIf_apart, State.f_setfIf_apart, State.f_setfIf_same, fld_mod] <;> decide
  · rw [State.f_setfIf_apart, State.f_setfIf_same, State.f_setfIf_apart, fld_mod] <;> decide
  · rw [State.f_setfIf_same, State.f_setfIf_apart, State.f_setfIf_apart, fld_mod] <;> decide
  · rw [State.f_setfIf_apart, State.f_setfIf_apart, State.f_setfIf_apart] <;> decide

theorem execArith_sets (h : Ready s u w 6 0) (hgo : GoesOn s u (s.pos u)) (hc : Clean w (mk 53 3 + mk 0 4))
    (hmode : ¬ (bit w.toNat 55 = true ∧ fld w.toNat 0 2 = 3)) :
    ∃ t, exec (.arith u) s = .next t ∧ DoneStep s t u (s.pos u) [tr u rTILE_ARITH_CTRL] id
      ∧ t.f (tr u rTILE_ARITH_CTRL) 0 2 = (if bit w.toNat 55 then fld w.toNat 0 2 else s.f (tr u rTILE_ARITH_CTRL) 0 2)
      ∧ t.f (tr u rTILE_ARITH_CTRL) 2 1 = (if bit w.toNat 54 then fld w.toNat 2 1 else s.f (tr u rTILE_ARITH_CTRL) 2 1)
      ∧ t.f (tr u rTILE_ARITH_CTRL) 3 1 = (if bit w.toNat 53 then fld w.toNat 3 1 else s.f (tr u rTILE_ARITH_CTRL) 3 1)
      ∧ t.f (tr u rTILE_ARITH_CTRL) 4 28 = s.f (tr u rTILE_ARITH_CTRL) 4 28 := by
  have hlegal : (!(bit w.toNat 55 && fld w.toNat 0 2 == 3)) = true := by simpa [imp_iff_not_or] using hmode
  have hi : GoesOnBy (.arith u) 6 0 s u w fun y => y.setArith u w.toNat := ⟨_, rfl, fun x _ hxt => by
    dsimp only
    rw [hc.resOk (k := opMask + mk 53 3 + mk 0 4) rfl, hlegal, State.goNext_of_goesOn (hgo.of_tile hxt)]
    rfl⟩
  obtain ⟨t, hexec, hdone, y, hy, ht⟩ := hi.writes h hgo (fun y => y.setArith_frame u w.toNat) (by decide)
  have hfields := y.f_setArith u w.toNat
  simp only [State.f, hy, ← ht] at hfields
  exact ⟨t, hexec, hdone, hfields⟩

theorem execStatClear_clears (h : Ready s u w 6 1) (hgo : GoesOn s u (s.pos u)) (hc : Clean w (mk 0 8)) :
    ∃ t, exec (.statClear u) s = .next t ∧ DoneStep s t u (s.pos u) [tr u rTILE_ARITH_STAT] id
      ∧ ∀ i, i < 8 → bit (t.rn (tr u rTILE_ARITH_STAT)) i = (bit (s.rn (tr u rTILE_ARITH_STAT)) i && !bit w.toNat i) := by
  have hi : GoesOnBy (.statClear u) 6 1 s u w fun y => y.tileApply u (.statClear (fld w.toNat 0 8)) := ⟨_, rfl, fun x _ hxt => by
    dsimp only
    rw [hc.resOk rfl, State.goNext_of_goesOn (hgo.of_tile hxt)]
    rfl⟩
  obtain ⟨t, hexec, hdone, y, hy, ht⟩ := hi.writes h hgo (fun y => ⟨OnlyRegs.wn y _ _, RegsBut.wn y _ _⟩) (by decide)
  refine ⟨t, hexec, hdone, fun i hi => ?_⟩
  rw [ht, State.bit_statClear y u w.toNat (by omega), hy, decide_eq_true hi, Bool.true_and]

/-- A step that sets the lowest field of one register of the tile to a field of its own. -/
theorem GoesOnBy.setsField {i : Instr} {cls op o k : Nat}
    (hi : GoesOnBy i cls op s u w fun y => y.setf (tr u o) 0 k (fld w.toNat 0 k)) (h : Ready s u w cls op) (hgo : GoesOn s u (s.pos u))
    (ho : o ≠ rTILE_EXEC_POS ∧ o ≠ rTILE_STEP_COUNT ∧ o ≠ rTILE_PERF_CTRL) (hk : k ≤ 32) :
    ∃ t, exec i s = .next t ∧ DoneStep s t u (s.pos u) [tr u o] id ∧ t.f (tr u o) 0 k = fld w.toNat 0 k := by
  obtain ⟨t, hexec, hdone, y, -, ht⟩ := hi.writes h hgo (fun y => ⟨OnlyRegs.setf y _ _ _ _, RegsBut.setf y _ _ _ _⟩) ho
  refine ⟨t, hexec, hdone, ?_⟩
  rw [State.f, ht]
  exact (State.f_setf_same _ _ _ (by omega)).trans (fld_mod _ _ _)

theorem execTrapEnable_sets (h : Ready s u w 6 2) (hgo : GoesOn s u (s.pos u)) (hc : Clean w (mk 0 8)) :
    ∃ t, exec (.trapEnable u) s = .next t ∧ DoneStep s t u (s.pos u) [tr u rTILE_ARITH_TRAP_EN] id
      ∧ t.f (tr u rTILE_ARITH_TRAP_EN) 0 8 = fld w.toNat 0 8 :=
  GoesOnBy.setsField ⟨_, rfl, fun x _ hxt => by
    dsimp only
    rw [hc.resOk rfl, State.goNext_of_goesOn (hgo.of_tile hxt)]
    rfl⟩ h hgo (by decide) (by decide)

theorem execCrateTime_sets (h : Ready s u w 6 4) (hgo : GoesOn s u (s.pos u)) (hc : Clean w (mk 0 16)) :
    ∃ t, exec (.crateTime u) s = .next t ∧ DoneStep s t u (s.pos u) [tr u rTILE_CRATE_TIME] id
      ∧ t.f (tr u rTILE_CRATE_TIME) 0 16 = fld w.toNat 0 16 :=
  GoesOnBy.setsField ⟨_, rfl, fun x _ hxt => by
    dsimp only
    rw [hc.resOk rfl, State.goNext_of_goesOn (hgo.of_tile hxt)]
    rfl⟩ h hgo (by decide) (by decide)

/-! ### PERF -/

/-- PERF's clear of the counters, if it has one, and then its FREEZE, if it sets it. -/
def State.setPerf (y : State) (u n : Nat) : State :=
  (if bit n 0 then y.tileApply u (.perfClear []) else y).setfIf (tr u rTILE_PERF_CTRL) (bit n 55) (fld n 1 1) 1 1

theorem perfCtrl_not_mem (u : Nat) : tr u rTILE_PERF_CTRL ∉ tr u rTILE_CPM :: perfRegs u := by
  simp only [perfRegs, List.mem_cons, List.mem_map, List.mem_range, tr_inj, rTILE_CPM, rTILE_CYCLE_COUNT_LO, rTILE_PERF_CTRL]
  omega

/-- The counters, MIN_SLACK and FREEZE after PERF. -/
theorem State.setPerf_spec (y : State) (u n : Nat) : OnlyRegs y (y.setPerf u n)
    ∧ RegsBut (tr u rTILE_PERF_CTRL :: tr u rTILE_CPM :: perfRegs u) y (y.setPerf u n)
    ∧ (bit n 55 = true → (y.setPerf u n).f (tr u rTILE_PERF_CTRL) 1 1 = fld n 1 1)
    ∧ (bit n 55 = false → (y.setPerf u n).rd (tr u rTILE_PERF_CTRL) = y.rd (tr u rTILE_PERF_CTRL))
    ∧ (bit n 0 = true → (∀ i, i < 11 → (y.setPerf u n).rn (tr u (rTILE_CYCLE_COUNT_LO + 4 * i)) = 0)
        ∧ (y.setPerf u n).f (tr u rTILE_CPM) 8 8 = 0xFF)
    ∧ (bit n 0 = false → RegsBut [tr u rTILE_PERF_CTRL] y (y.setPerf u n)) := by
  obtain ⟨honly, hregs, hzero, hslack, -⟩ := y.perfClear_spec u
  unfold State.setPerf
  generalize hz : (if bit n 0 then y.tileApply u (.perfClear []) else y) = z
  have hset := z.setfIf_regsBut (tr u rTILE_PERF_CTRL) (bit n 55) (fld n 1 1) 1 1
  have hzonly : OnlyRegs y z := by
    rw [← hz]
    split
    · exact honly
    · exact OnlyRegs.refl y
  have hzregs : RegsBut (tr u rTILE_CPM :: perfRegs u) y z := by
    rw [← hz]
    split
    · exact hregs
    · exact RegsBut.refl _ y
  refine ⟨hzonly.trans (z.setfIf_onlyRegs _ _ _ _ _), (hzregs.mono (by simp +contextual)).trans (hset.mono (by simp)), fun hb => ?_,
    fun hb => ?_, fun hb => ⟨fun i hi => ?_, ?_⟩, fun hb => ?_⟩
  · rw [State.f_setfIf_same _ _ _ _ (by decide), if_pos hb, fld_mod]
  · rw [hb]
    exact hzregs _ (perfCtrl_not_mem u)
  · have hne : tr u (rTILE_CYCLE_COUNT_LO + 4 * i) ∉ [tr u rTILE_PERF_CTRL] := by
      simp only [List.mem_singleton, tr_inj, rTILE_CYCLE_COUNT_LO, rTILE_PERF_CTRL]
      omega
    rw [hset.rn hne, ← hz, if_pos hb, hzero i hi]
  · rw [hset.f (by simp [tr_inj, rTILE_CPM, rTILE_PERF_CTRL]), ← hz, if_pos hb, hslack]
  · rw [if_neg (by simp [hb])] at hz
    exact hz ▸ hset

/-- PERF clears the counters, sets FREEZE, goes on, and is counted after its clear (R110, R165). -/
theorem execPerf_sets (h : Ready s u w 6 3) (hgo : GoesOn s u (s.pos u)) (hc : Clean w (mk 55 1 + mk 0 2)) :
    ∃ t, exec (.perf u) s = .next t ∧ Went s t u (s.pos u) id ∧ OnlyTile u s t
      ∧ (bit w.toNat 55 = true → t.f (tr u rTILE_PERF_CTRL) 1 1 = fld w.toNat 1 1)
      ∧ (bit w.toNat 55 = false → t.rd (tr u rTILE_PERF_CTRL) = s.rd (tr u rTILE_PERF_CTRL))
      ∧ (bit w.toNat 0 = true → t.rn (tr u rTILE_RUN_COUNT) = 0 ∧ t.f (tr u rTILE_CPM) 8 8 = 0xFF
          ∧ t.rn (tr u rTILE_STEP_COUNT) = if t.f (tr u rTILE_PERF_CTRL) 1 1 = 1 then 0 else 1)
      ∧ (bit w.toNat 0 = false → RegsBut [tr u rTILE_EXEC_POS, tr u rTILE_STEP_COUNT, tr u rTILE_PERF_CTRL] s t)
      ∧ RegsBut (tr u rTILE_EXEC_POS :: tr u rTILE_PERF_CTRL :: tr u rTILE_CPM :: perfRegs u) s t := by
  have hi : GoesOnBy (.perf u) 6 3 s u w fun y => y.setPerf u w.toNat := ⟨_, rfl, fun x _ hxt => by
    dsimp only
    rw [hc.resOk (k := opMask + mk 55 1 + mk 0 2) rfl, State.goNext_of_goesOn (hgo.of_tile hxt)]
    rfl⟩
  have hspec := fun y : State => y.setPerf_spec u w.toNat
  have hpos : tr u rTILE_EXEC_POS ∉ tr u rTILE_PERF_CTRL :: tr u rTILE_CPM :: perfRegs u := by
    simp only [perfRegs, List.mem_cons, List.mem_map, List.mem_range, tr_inj, rTILE_CPM, rTILE_CYCLE_COUNT_LO, rTILE_PERF_CTRL, rTILE_EXEC_POS]
    omega
  obtain ⟨t, hexec, hwent, htile, y, hy, ht⟩ := hi.goes h hgo (fun y => ⟨(hspec y).1, (hspec y).2.1⟩) hpos
  obtain ⟨-, hregs, hset, hkept, hclear, hnone⟩ := hspec y
  have hd : RegsBut [tr u rTILE_STEP_COUNT] (y.setPerf u w.toNat) t := (State.stepDone_regsBut _ u).same ht
  have hctrl : tr u rTILE_PERF_CTRL ∉ [tr u rTILE_STEP_COUNT] := by simp [tr_inj, rTILE_PERF_CTRL, rTILE_STEP_COUNT]
  have hstep : tr u rTILE_STEP_COUNT ∈ perfRegs u := List.mem_map.2 ⟨8, by simp, rfl⟩
  refine ⟨t, hexec, hwent, htile, fun hb => ?_, fun hb => ?_, fun hb => ⟨?_, ?_, ?_⟩, fun hb => ?_, ?_⟩
  · rw [hd.f hctrl, hset hb]
  · rw [hd _ hctrl, hkept hb, hy _ (by simp [tr_inj, rTILE_PERF_CTRL, rTILE_EXEC_POS])]
  · rw [hd.rn (by simp [tr_inj, rTILE_RUN_COUNT, rTILE_STEP_COUNT])]
    exact (hclear hb).1 2 (by decide)
  · rw [hd.f (by simp [tr_inj, rTILE_CPM, rTILE_STEP_COUNT]), (hclear hb).2]
  · have hzero : (y.setPerf u w.toNat).rn (tr u rTILE_STEP_COUNT) = 0 := (hclear hb).1 8 (by decide)
    rw [hd.f hctrl, State.rn, State.rd, ht]
    exact (State.rn_perf _ _ _ _).trans (by rw [hzero]; rfl)
  · exact ((hy.mono (by simp)).trans ((hnone hb).mono (by simp))).trans (hd.mono (by simp))
  · exact ((hy.mono (by simp)).trans (hregs.mono fun a ha => List.mem_cons_of_mem _ ha)).trans
      (hd.mono fun a ha => by rw [List.mem_singleton.1 ha]; simp [hstep])

end

/-- Settles O10: each configuration step by what it writes. -/
theorem configurationSteps : Obligations.ConfigurationSteps := fun _ _ _ hgo =>
  ⟨fun h hc hm => execArith_sets h hgo hc hm, fun h hc => execStatClear_clears h hgo hc, fun h hc => execTrapEnable_sets h hgo hc,
    fun h hc => execPerf_sets h hgo hc, fun h hc => execCrateTime_sets h hgo hc⟩

end Sys2Proof.Machine

/-! PROOFS. What leaves the tiles alone (R419 to R424, R433, R467): events and records of any block change no tile, nothing on the
corridors, nothing of the pairing block, and none of a tile's registers but its incident registers. -/

namespace Sys2Proof.Machine

open Sys2Proof

/-! ### The relation -/

/-- A register of a tile's window below the incident registers. -/
def TileReg (a : Nat) : Prop := 0x1000000 ≤ a ∧ a % 0x1000 < 0x800

theorem tileReg_tr (u : Nat) {o : Nat} (h : o < 0x800) : TileReg (tr u o) := by
  constructor <;> simp only [tr, winBase] <;> omega

theorem tileReg_tk (u k : Nat) : TileReg (tk u k) := by
  rw [tk_eq_tr]
  exact tileReg_tr u (by simp only [rTILE_TICKET]; omega)

/-- No record is written at one. -/
theorem TileReg.not_record {a : Nat} (h : TileReg a) : recordReg a = false := by
  obtain ⟨hlo, hoff⟩ := h
  have hhst : ¬ a < 0x10000 := by omega
  unfold recordReg
  rw [decide_eq_false hhst, Bool.false_or]
  split
  next b i o hb =>
    have ha := winBase_add_of_blkOf hb
    have hbase := winBase_mod b i
    unfold isIncReg
    by_contra hinc
    simp only [Bool.not_eq_false, Bool.and_eq_true, decide_eq_true_eq] at hinc
    omega
  next => rfl

/-- From `s` to `t` no tile changes, nothing of the crates or the pairing block, and no register of a tile but its incident registers. -/
structure TilesKept (s t : State) : Prop where
  rd : ∀ a, TileReg a → t.rd a = s.rd a
  tiles : t.tiles = s.tiles
  fab : t.fab = s.fab
  pair : t.pair = s.pair

theorem TilesKept.refl {s : State} : TilesKept s s := ⟨fun _ _ => rfl, rfl, rfl, rfl⟩

theorem TilesKept.trans {s t x : State} (h : TilesKept s t) (k : TilesKept t x) : TilesKept s x :=
  ⟨fun a ha => (k.rd a ha).trans (h.rd a ha), k.tiles.trans h.tiles, k.fab.trans h.fab, k.pair.trans h.pair⟩

/-- An update of anything else. -/
theorem TilesKept.same {s t x : State} (h : TilesKept s t) (e : (x.regs, x.tiles, x.fab, x.pair) = (t.regs, t.tiles, t.fab, t.pair)) :
    TilesKept s x := by
  simp only [Prod.mk.injEq] at e
  obtain ⟨hr, ht, hf, hp⟩ := e
  exact h.trans ⟨fun a _ => by rw [State.rd, State.rd, hr], ht, hf, hp⟩

theorem TilesKept.ite {s t x : State} {p : Prop} [Decidable p] (h : TilesKept s t) (k : TilesKept s x) : TilesKept s (if p then t else x) := by
  split
  · exact h
  · exact k

theorem TilesKept.foldl {α : Type} {g : State → α → State} {s t : State} (h : TilesKept s t) (hg : ∀ x e, TilesKept x (g x e)) (es : List α) :
    TilesKept s (es.foldl g t) := by
  induction es generalizing t with
  | nil => exact h
  | cons e es ih => exact ih (h.trans (hg t e))

section
variable {s t : State} (h : TilesKept s t)
include h

theorem TilesKept.tile (v : Nat) : t.tile v = s.tile v := by unfold State.tile; rw [h.tiles]
theorem TilesKept.rn {a : Nat} (ha : TileReg a) : t.rn a = s.rn a := congrArg BitVec.toNat (h.rd a ha)
theorem TilesKept.f {a : Nat} (ha : TileReg a) (lo w : Nat) : t.f a lo w = s.f a lo w := congrArg (fld · lo w) (h.rn ha)
theorem TilesKept.ts (v : Nat) : t.ts v = s.ts v := h.f (tileReg_tr v (by decide)) 0 3

/-- A register of another block. -/
theorem TilesKept.wn {a : Nat} (ha : ¬ TileReg a) (v : Nat) : TilesKept s (t.wn a v) :=
  h.trans ⟨fun _ hb => State.rd_wr_ne t _ fun e => ha (e ▸ hb), rfl, rfl, rfl⟩

theorem TilesKept.setf {a : Nat} (ha : ¬ TileReg a) (lo w v : Nat) : TilesKept s (t.setf a lo w v) := h.wn ha _
theorem TilesKept.bump {a : Nat} (ha : ¬ TileReg a) : TilesKept s (t.bump a) := h.wn ha _

/-! ### Records and events -/

theorem TilesKept.recorded {x : State} (hr : Recorded t x) (hf : ∀ a, TileReg a → x.rd a = t.rd a) : TilesKept s x :=
  h.trans ⟨hf, hr.tiles, hr.fab, hr.pair⟩

theorem TilesKept.postTo {l : Nat} (hl : l < 4) (r : List Byte) : TilesKept s (t.postTo l r) :=
  h.recorded (State.postTo_recorded _ _ _) fun a ha => State.postTo_frame t hl r a List.not_mem_nil ha.not_record

theorem TilesKept.post (ty : Nat) (b : Blk) (i : Nat) (body : List Byte) : TilesKept s (t.post ty b i body) :=
  h.recorded (State.post_recorded _ _ _ _ _) fun a ha => State.post_frame t ty b i body a List.not_mem_nil ha.not_record

end

theorem not_tileReg_ir (b : Blk) (i : Nat) {o : Nat} (lo : 0x800 ≤ o) (hi : o < 0x1000) : ¬ TileReg (ir b i o) := fun h => by
  have hoff := h.2
  rw [ir_mod b i hi] at hoff
  omega

theorem State.raise_tilesKept (s : State) (b : Blk) (i k : Nat) (inj : Bool) (d : Nat) : TilesKept s (s.raise b i k inj d).2 := by
  unfold State.raise
  extract_lets pol sev act u waits key was i0 u1 first u2 i2 u3 u4
  have hreg : ∀ o, 0x800 ≤ o → o < 0x1000 → ¬ TileReg (ir b i o) := fun o => not_tileReg_ir b i
  have h1 : TilesKept s u1 := (TilesKept.refl.setf (hreg rINC_STAT (by decide) (by decide)) _ _ _).same rfl
  have h2 : TilesKept s u2 :=
    TilesKept.ite (h1.wn (hreg rINC_FIRST (by decide) (by decide)) _) (h1.setf (hreg rINC_FIRST (by decide) (by decide)) _ _ _)
  have h3 : TilesKept s u3 := TilesKept.ite (h2.same rfl) h2
  have h4 : TilesKept s u4 := TilesKept.ite (h3.setf (hreg rINC_ACTION (by decide) (by decide)) _ _ _) h3
  exact h4.same rfl

theorem State.coincide_tilesKept (s : State) (b : Blk) (i k : Nat) (inj : Bool) (d : Nat) : TilesKept s (s.coincide b i k inj d).2 := by
  unfold State.coincide
  cases inj
  · exact TilesKept.ite (TilesKept.setf (TilesKept.refl.same (by rfl)) (not_tileReg_ir b i (o := rINC_FIRST) (by decide) (by decide)) _ _ _)
      (TilesKept.refl.same rfl)
  · exact TilesKept.refl

theorem State.eventCore_tilesKept (s : State) (b : Blk) (i k : Nat) (inj note : Bool) (d : Nat) :
    TilesKept s (s.eventCore b i k inj note d).2 := by
  unfold State.eventCore
  split
  next hs =>
    have hc : ¬ TileReg (ir b i rINC_COUNT + 4 * k) := by
      have hk := hasSource_lt hs
      rw [show ir b i rINC_COUNT + 4 * k = ir b i (rINC_COUNT + 4 * k) from Nat.add_assoc ..]
      exact not_tileReg_ir b i (by simp only [rINC_COUNT]; omega) (by simp only [rINC_COUNT]; omega)
    have h0 := State.coincide_tilesKept s b i k inj d
    generalize s.coincide b i k inj d = x at h0
    obtain ⟨forced, t⟩ := x
    dsimp -zeta only
    extract_lets cnt pol now key op w i1 u u2 u3 u4
    have h1 : TilesKept s u := TilesKept.ite (h0.same rfl) h0
    have h2 : TilesKept s u2 := h1.setf hc _ _ _
    split
    · split
      · exact (h2.setf hc _ _ _).same rfl
      · exact h2.setf hc _ _ _
    · split
      · exact h2.setf hc _ _ _
      · exact (h2.setf hc _ _ _).trans (State.raise_tilesKept _ _ _ _ _ _)
  next => exact TilesKept.refl

/-- An event of any source of any block. -/
theorem TilesKept.event {s t : State} (h : TilesKept s t) (b : Blk) (i k d : Nat) (inj note : Bool) : TilesKept s (t.event b i k d inj note) :=
  (h.trans (t.eventCore_tilesKept b i k inj note d)).foldl (fun _ _ => TilesKept.refl.postTo (State.routeOf_lt _ _) _) _

end Sys2Proof.Machine

/-! PROOFS. Traps, and the changes that wait for a state (R29, R99 to R104, R107, R109). -/

namespace Sys2Proof.Machine

open Sys2Proof

/-! ### Changes that take effect -/

theorem OnlyRegs.sameTiles {s t : State} (h : OnlyRegs s t) : t.tiles = s.tiles := by rw [h]

theorem State.recount_onlyRegs (s : State) (u : Nat) (after : List (Nat × Nat)) : OnlyRegs s (s.recount u after) := by
  unfold State.recount
  induction after generalizing s with
  | nil => exact OnlyRegs.refl s
  | cons k after ih => exact (OnlyRegs.wn s _ _).trans (ih _)

/-- A change that takes effect changes no tile: the registers, or the pace that the governor keeps. -/
theorem State.tileApply_tiles (s : State) (u : Nat) (d : Deferred) : (s.tileApply u d).tiles = s.tiles := by
  cases d with
  | write off v m side =>
    simp only [State.tileApply]
    split <;> rfl
  | perfClear after =>
    have hzero := (State.foldl_zero u perfOffs s).1
    have h := (hzero.trans (OnlyRegs.setf _ (tr u rTILE_CPM) 8 8 0xFF)).trans (State.recount_onlyRegs _ u after)
    exact h.sameTiles
  | statClear m => rfl
  | clock f v => rfl
  | pace v => rfl
  | stop => rfl
  | reset k => rfl

theorem State.tileApplyStopped_tiles (s : State) (u : Nat) (d : Deferred) : (s.tileApplyStopped u d).tiles = s.tiles := by
  unfold State.tileApplyStopped
  split
  · rfl
  · exact State.tileApply_tiles s u d

theorem State.foldl_tiles {α : Type} {g : State → α → State} (hg : ∀ s x, (g s x).tiles = s.tiles) (xs : List α) (s : State) :
    (xs.foldl g s).tiles = s.tiles := by
  induction xs generalizing s with
  | nil => rfl
  | cons x xs ih => exact (ih _).trans (hg s x)

/-! ### The tile after a reset (R109) -/

/-- A tile after a tile reset: its cycles, faults and the state of its router stand. -/
def Tile.restarted (x : Tile) : Tile :=
  { Tile.reset with
    cycles := x.cycles, routerFailed := x.routerFailed, isolated := x.isolated, due := x.due, trapTimes := x.trapTimes,
    holdIssue := x.holdIssue }

/-- One crate as a tile reset meets it: kept, or, where it is one that arrives at the tile, gone by a free draw. -/
def State.meetCrate (s : State) (u : Nat) (acc : List Crate × State) (e : Crate × Nat) : List Crate × State :=
  if e.1.destTile == u && (e.1.torn || s.isNext e.2 e.1) then
    let (k, x) := acc.2.draw 2
    (if k = 0 then acc.1 ++ [e.1] else acc.1, x)
  else (acc.1 ++ [e.1], acc.2)

theorem State.meetCrate_spec (s t : State) (u : Nat) (cs : List Crate) (e : Crate × Nat) : ∃ (n : Nat) (ds : List Crate),
    s.meetCrate u (cs, t) e = (cs ++ ds, { t with free := n }) ∧ (ds = [e.1] ∨ ds = [] ∧ e.1.destTile = u) := by
  unfold State.meetCrate
  by_cases he : (e.1.destTile == u && (e.1.torn || s.isNext e.2 e.1)) = true
  · have hu : e.1.destTile = u := beq_iff_eq.1 (Bool.and_eq_true_iff.1 he).1
    rw [if_pos he]
    by_cases hk : (t.draw 2).1 = 0
    · exact ⟨t.free + 1, [e.1], Prod.ext (if_pos hk) rfl, .inl rfl⟩
    · exact ⟨t.free + 1, [], Prod.ext ((if_neg hk).trans (List.append_nil cs).symm) rfl, .inr ⟨rfl, hu⟩⟩
  · exact ⟨t.free, [e.1], if_neg he, .inl rfl⟩

theorem State.foldl_meetCrate (s : State) (u : Nat) (es : List (Crate × Nat)) (cs : List Crate) (t : State) :
    ∃ (n : Nat) (ds : List Crate), es.foldl (s.meetCrate u) (cs, t) = (cs ++ ds, { t with free := n }) ∧ ds.Sublist (es.map (·.1))
      ∧ ds.filter (fun c => c.destTile != u) = (es.map (·.1)).filter fun c => c.destTile != u := by
  induction es generalizing cs t with
  | nil => exact ⟨t.free, [], by simp, List.Sublist.refl _, rfl⟩
  | cons e es ih =>
    obtain ⟨n, ds, hstep, hds⟩ := s.meetCrate_spec t u cs e
    obtain ⟨m, rest, hrest, hsub, hfil⟩ := ih (cs ++ ds) { t with free := n }
    refine ⟨m, ds ++ rest, ?_, ?_, ?_⟩
    · rw [List.foldl_cons, hstep, hrest, List.append_assoc]
    · rcases hds with rfl | ⟨rfl, -⟩
      · exact hsub.cons_cons _
      · exact hsub.cons _
    · rcases hds with rfl | ⟨rfl, hu⟩
      · rw [List.singleton_append, List.map_cons, List.filter_cons, List.filter_cons, hfil]
      · rw [List.nil_append, List.map_cons, List.filter_cons_of_neg (by simp [hu]), hfil]

/-- What a tile reset takes from the corridors: some of the crates to the tile, by free draws (R109). -/
theorem State.dropArriving_spec (s : State) (u : Nat) : ∃ (n : Nat) (cs : List Crate),
    s.dropArriving u = { s with free := n, fab := { s.fab with corridor := cs } } ∧ cs.Sublist s.fab.corridor
      ∧ cs.filter (fun c => c.destTile != u) = s.fab.corridor.filter fun c => c.destTile != u := by
  by_cases hnone : (!(s.fab.corridor.zipIdx.any fun e => e.1.destTile == u)) = true
  · exact ⟨s.free, s.fab.corridor, if_pos hnone, List.Sublist.refl _, rfl⟩
  · obtain ⟨n, cs, he, hsub, hfil⟩ := s.foldl_meetCrate u s.fab.corridor.zipIdx [] s
    have hmap : s.fab.corridor.zipIdx.map (·.1) = s.fab.corridor := by simp
    rw [hmap] at hsub hfil
    refine ⟨n, cs, (if_neg hnone).trans ?_, hsub, hfil⟩
    show (let r := s.fab.corridor.zipIdx.foldl (s.meetCrate u) ([], s); { r.2 with fab := { r.2.fab with corridor := r.1 } }) = _
    rw [he]
    rfl

theorem State.tile_dropArriving (s : State) (u v : Nat) : (s.dropArriving u).tile v = s.tile v := by
  obtain ⟨n, cs, he, -⟩ := s.dropArriving_spec u
  rw [he]
  rfl

/-- A tile reset restarts its tile, whatever waited, and no other. -/
theorem State.tile_tileReset (s : State) (u v : Nat) : (s.tileReset u).tile v = if v = u then (s.tile u).restarted else s.tile v := by
  unfold State.tileReset
  dsimp only
  rw [State.tile, State.foldl_tiles fun st d => State.tileApplyStopped_tiles st u d]
  rw [← State.tile, (State.recount_onlyRegs _ u _).tile]
  show State.tile (State.clearRange _ _ _ _) v = _
  rw [(OnlyRegs.clearRange _ _ _ _).tile, State.tile_setTile, State.tile_dropArriving, State.tile_dropArriving]
  rfl

/-- The changes that waited leave the tile holding nothing, where it held nothing. -/
theorem State.applyStopped_holds_nothing {s : State} {u : Nat} (hh : (s.tile u).holding = .none) (hp : (s.tile u).pendTraps = []) :
    ((s.applyStopped u).tile u).holding = .none ∧ ((s.applyStopped u).tile u).pendTraps = [] := by
  unfold State.applyStopped
  dsimp only
  split
  · rw [State.tile_tileReset, if_pos rfl]
    exact ⟨rfl, rfl⟩
  · have hx : ((s.mapTile u fun x => { x with deferred := [] }).tile u).holding = .none
        ∧ ((s.mapTile u fun x => { x with deferred := [] }).tile u).pendTraps = [] := by
      rw [State.tile_mapTile, if_pos rfl]
      exact ⟨hh, hp⟩
    split
    · rwa [State.tile, State.foldl_tiles fun st d => State.tileApplyStopped_tiles st u d]
    · rwa [State.tile, State.foldl_tiles fun st d => State.tileApply_tiles st u d]

end Sys2Proof.Machine

/-! PROOFS. A trap that is taken, and the timeouts of a tile (R83, R85, R98 to R104, R126): O18, O22. -/

namespace Sys2Proof.Machine

open Sys2Proof

/-! ### The record -/

/-- The tile in TRAP with its record of the cause `p` (R99, R102). -/
def State.trapped (s : State) (u : Nat) (p : PendTrap) : State :=
  ((s.writeTrapRecord u p (alsoBits [p] p.cause)).mapTile u fun x => { x with holding := .none, pendTraps := [] }).setTs u tsTRAP

section
variable {s : State} {u : Nat} {p : PendTrap}

/-- The registers of a trap's record. -/
def trapRegs (u : Nat) : List Nat :=
  [tr u rTILE_TRAP_CAUSE, tr u rTILE_TRAP_POS, tr u rTILE_TRAP_STEP_LO, tr u rTILE_TRAP_STEP_HI, tr u rTILE_TRAP_INFO,
    tr u rTILE_TRAP_DATA_LO, tr u rTILE_TRAP_DATA_HI, tr u rTILE_TRAP_GEN, tr u rTILE_TRAP_CYCLE]

theorem State.trapped_regsBut (s : State) (u : Nat) (p : PendTrap) : RegsBut (tr u rTILE_STATE :: trapRegs u) s (s.trapped u p) := by
  have hrec : RegsBut (trapRegs u) s (s.writeTrapRecord u p (alsoBits [p] p.cause)) :=
    (((((((((RegsBut.refl _ s).wnIn (by simp [trapRegs]) _).wnIn (by simp [trapRegs]) _).wnIn (by simp [trapRegs]) _).wnIn
      (by simp [trapRegs]) _).wnIn (by simp [trapRegs]) _).wnIn (by simp [trapRegs]) _).wnIn (by simp [trapRegs]) _).wnIn
      (by simp [trapRegs]) _).wnIn (by simp [trapRegs]) _
  exact ((hrec.mono (by simp +contextual)).same rfl).setfIn (by simp) _ _ _

theorem State.tile_trapped (s : State) (u : Nat) (p : PendTrap) : (s.trapped u p).tile u = { s.tile u with holding := .none, pendTraps := [] } := by
  unfold State.trapped
  rw [State.setTs, State.tile_setf, State.tile_mapTile, if_pos rfl]
  rfl

theorem State.ts_trapped (s : State) (u : Nat) (p : PendTrap) : (s.trapped u p).ts u = tsTRAP := State.ts_setTs _ _ (by decide)

theorem State.rd_writeTrapRecord (s : State) (u : Nat) (p : PendTrap) (also : Nat) :
    (s.writeTrapRecord u p also).rd (tr u rTILE_TRAP_CAUSE) = BitVec.ofNat 32 (p.cause + also * 2 ^ 16)
    ∧ (s.writeTrapRecord u p also).rd (tr u rTILE_TRAP_POS) = s.rd (tr u rTILE_EXEC_POS)
    ∧ (s.writeTrapRecord u p also).rd (tr u rTILE_TRAP_STEP_LO) = BitVec.ofNat 32 p.word.toNat
    ∧ (s.writeTrapRecord u p also).rd (tr u rTILE_TRAP_STEP_HI) = BitVec.ofNat 32 (p.word.toNat / 2 ^ 32)
    ∧ (s.writeTrapRecord u p also).rd (tr u rTILE_TRAP_GEN) = s.rd (tr u rTILE_GEN) := by
  simp [State.writeTrapRecord, State.wr64, State.wn, State.rn, State.rd_wr, tr_inj, rTILE_TRAP_CAUSE, rTILE_TRAP_POS, rTILE_TRAP_STEP_LO,
    rTILE_TRAP_STEP_HI, rTILE_TRAP_INFO, rTILE_TRAP_DATA_LO, rTILE_TRAP_DATA_HI, rTILE_TRAP_GEN, rTILE_TRAP_CYCLE, rTILE_EXEC_POS, rTILE_GEN]

/-- CAUSE, the step's position and word, and the generation in the record. -/
theorem State.trapped_record (s : State) (u : Nat) (p : PendTrap) :
    (s.trapped u p).f (tr u rTILE_TRAP_CAUSE) 0 4 = p.cause % 16
    ∧ (s.trapped u p).rd (tr u rTILE_TRAP_POS) = s.rd (tr u rTILE_EXEC_POS)
    ∧ (s.trapped u p).rd64 (tr u rTILE_TRAP_STEP_LO) (tr u rTILE_TRAP_STEP_HI) = p.word.toNat
    ∧ (s.trapped u p).rd (tr u rTILE_TRAP_GEN) = s.rd (tr u rTILE_GEN) := by
  have hstate : ∀ o, o ≠ rTILE_STATE → (s.trapped u p).rd (tr u o) = (s.writeTrapRecord u p (alsoBits [p] p.cause)).rd (tr u o) :=
    fun o ho => State.rd_wr_ne _ _ (by simpa [tr_inj] using ho)
  obtain ⟨hcause, hpos, hlo, hhi, hgen⟩ := s.rd_writeTrapRecord u p (alsoBits [p] p.cause)
  rw [State.rd64, State.f, State.rn, State.rn, State.rn, hstate _ (by decide), hstate _ (by decide), hstate _ (by decide), hstate _ (by decide),
    hstate _ (by decide), hcause, hpos, hlo, hhi, hgen]
  have hw := p.word.isLt
  refine ⟨?_, rfl, ?_, rfl⟩
  · simp only [fld, BitVec.toNat_ofNat]
    omega
  · simp only [BitVec.toNat_ofNat]
    omega

/-! ### Entering TRAP -/

/-- The TRAP record and the events of the one cause (R422, R435). -/
def State.tellTrap (s : State) (u : Nat) (p : PendTrap) : State :=
  ((s.postTrap u).bySeverity .tile u ([p].foldl (fun m q => m ||| 2 ^ q.cause) 0)).foldl
    (fun st k => st.event .tile u k 0 false (k != p.cause)) (s.postTrap u)

theorem State.tellTrap_tilesKept (s : State) (u : Nat) (p : PendTrap) : TilesKept s (s.tellTrap u p) :=
  (TilesKept.refl.post _ _ _ _).foldl (fun _ _ => TilesKept.refl.event _ _ _ _ _ _) _

/-- A trap of one cause that is no fault of the tile: its record, what is told of it, and then the changes that waited. -/
theorem State.enterTrap_one (hp : (s.tile u).pendTraps = [p]) (hc : p.cause ≠ cITIN ∧ p.cause ≠ cPOISON) :
    s.enterTrap u = ((s.trapped u p).tellTrap u p).applyStopped u := by
  unfold State.enterTrap
  rw [hp]
  show State.applyStopped (if _ then _ else _) u = _
  rw [if_neg (by simp [hc])]
  rfl

/-- Where no change waits, the trap is its record: the tile in TRAP, holding nothing, and nothing of a tile's else. -/
theorem State.enterTrap_spec (hp : (s.tile u).pendTraps = [p]) (hc : p.cause ≠ cITIN ∧ p.cause ≠ cPOISON) :
    ((s.enterTrap u).tile u).holding = .none ∧ ((s.enterTrap u).tile u).pendTraps = []
      ∧ ((s.tile u).deferred = [] → ∀ a, TileReg a → (s.enterTrap u).rd a = (s.trapped u p).rd a) := by
  have he := State.enterTrap_one hp hc
  have hy := (s.trapped u p).tellTrap_tilesKept u p
  generalize (s.trapped u p).tellTrap u p = y at he hy
  have htile : (y.tile u) = { s.tile u with holding := .none, pendTraps := [] } := (hy.tile u).trans (s.tile_trapped u p)
  obtain ⟨hh, hpend⟩ := State.applyStopped_holds_nothing (s := y) (u := u) (by rw [htile]) (by rw [htile])
  refine ⟨he ▸ hh, he ▸ hpend, fun hdef a ha => ?_⟩
  rw [he, State.applyStopped_of_no_deferred (by rw [htile]; exact hdef)]
  exact hy.rd a ha

/-- A cause that stands alone at an idle tile where no change waits is trapped at once: the tile in TRAP, its record, and EXEC_POS
and the count of steps as they were. -/
theorem State.enterTrap_record (hp : (s.tile u).pendTraps = [p]) (hc : p.cause ≠ cITIN ∧ p.cause ≠ cPOISON) (hdef : (s.tile u).deferred = []) :
    (s.enterTrap u).ts u = tsTRAP ∧ (s.enterTrap u).f (tr u rTILE_TRAP_CAUSE) 0 4 = p.cause % 16
      ∧ (s.enterTrap u).rd (tr u rTILE_TRAP_POS) = s.rd (tr u rTILE_EXEC_POS)
      ∧ (s.enterTrap u).rd64 (tr u rTILE_TRAP_STEP_LO) (tr u rTILE_TRAP_STEP_HI) = p.word.toNat
      ∧ (s.enterTrap u).rd (tr u rTILE_TRAP_GEN) = s.rd (tr u rTILE_GEN)
      ∧ ∀ o, o < 0x800 → tr u o ∉ tr u rTILE_STATE :: trapRegs u → (s.enterTrap u).rd (tr u o) = s.rd (tr u o) := by
  obtain ⟨-, -, hrd⟩ := State.enterTrap_spec hp hc
  have hreg : ∀ o, o < 0x800 → (s.enterTrap u).rd (tr u o) = (s.trapped u p).rd (tr u o) := fun o ho => hrd hdef _ (tileReg_tr u ho)
  obtain ⟨hcause, hpos, hword, hgen⟩ := s.trapped_record u p
  refine ⟨?_, ?_, ?_, ?_, ?_, fun o ho hm => (hreg o ho).trans (s.trapped_regsBut u p _ hm)⟩
  · rw [State.ts, State.f, State.rn, hreg _ (by decide)]
    exact s.ts_trapped u p
  · rw [State.f, State.rn, hreg _ (by decide)]
    exact hcause
  · exact (hreg _ (by decide)).trans hpos
  · rw [State.rd64, State.rn, State.rn, hreg _ (by decide), hreg _ (by decide)]
    exact hword
  · exact (hreg _ (by decide)).trans hgen

end

/-! ### A step with a reserved bit set (R126) -/

/-- Settles O22: the step's only cause is trapped at the boundary before it. -/
theorem illegalStepTraps : Obligations.IllegalStepTraps := by
  intro s u w h hres hidle
  have hissue : exec (.nop u) s = .next (s.issue u 0 0 fun s w p => legalOr (resOk w.toNat opMask) w (s.goNext u p w id)) := rfl
  rw [State.issue_trap h (ps := [causeOf cILLEGAL w]) (by simp [legalOr, hres]) (by simp)] at hissue
  obtain ⟨-, -, hdef, hpend, -⟩ := h
  generalize hx : (s.mapTile u fun x => { x with pendTraps := x.pendTraps ++ [causeOf cILLEGAL w] }) = x at hissue
  have hxt : x.tile u = { s.tile u with pendTraps := [causeOf cILLEGAL w] } := by rw [← hx, State.tile_mapTile, if_pos rfl, hpend]; rfl
  have hxr : ∀ a, x.rd a = s.rd a := fun a => by rw [← hx, State.rd_mapTile]
  have htrap : x.trapNow u = x.enterTrap u := if_pos (by rw [hxt]; exact hidle)
  rw [htrap] at hissue
  obtain ⟨hts, hcause, hpos, hword, hgen, hrest⟩ := State.enterTrap_record (s := x) (u := u) (p := causeOf cILLEGAL w)
    (by rw [hxt]) (show cILLEGAL ≠ cITIN ∧ cILLEGAL ≠ cPOISON by decide) (by rw [hxt]; exact hdef)
  refine ⟨_, hissue, hts, hcause, ?_, hpos.trans (hxr _), hword, hgen.trans (hxr _), ?_⟩
  · rw [State.pos, State.f, State.rn, hrest _ (by decide) (by simp [trapRegs, tr_inj, rTILE_STATE, rTILE_EXEC_POS, rTILE_TRAP_CAUSE,
      rTILE_TRAP_POS, rTILE_TRAP_STEP_LO, rTILE_TRAP_STEP_HI, rTILE_TRAP_INFO, rTILE_TRAP_DATA_LO, rTILE_TRAP_DATA_HI, rTILE_TRAP_GEN,
      rTILE_TRAP_CYCLE]), hxr]
    rfl
  · exact (hrest _ (by decide) (by simp [trapRegs, tr_inj, rTILE_STATE, rTILE_STEP_COUNT, rTILE_TRAP_CAUSE,
      rTILE_TRAP_POS, rTILE_TRAP_STEP_LO, rTILE_TRAP_STEP_HI, rTILE_TRAP_INFO, rTILE_TRAP_DATA_LO, rTILE_TRAP_DATA_HI, rTILE_TRAP_GEN,
      rTILE_TRAP_CYCLE])).trans (hxr _)

/-! ### Timeouts -/

section
variable {s : State} {u : Nat}

/-- TILE_CRATE_TIMEOUT of a wait at an idle tile: the wait is abandoned and its trap taken (R98, R102). -/
theorem execTileCrateTimeout_wait {k m : Nat} (htime : s.f (tr u rTILE_CRATE_TIME) 0 16 ≠ 0) (hts : s.ts u = tsWAIT)
    (hh : (s.tile u).holding = .wait k m) (hidle : (s.tile u).idle = true) (hpend : (s.tile u).pendTraps = []) (hsleep : s.asleep = false) :
    ∃ t, exec (.tileCrateTimeout u) s = .next t ∧ (t.tile u).holding = .none ∧ (t.tile u).pendTraps = []
      ∧ ((s.tile u).deferred = [] → t.ts u = tsTRAP ∧ t.f (tr u rTILE_TRAP_CAUSE) 0 4 = 6
          ∧ t.rd (tr u rTILE_TRAP_POS) = s.rd (tr u rTILE_EXEC_POS)) := by
  have htraps : s.traps u = true := by simp [State.traps, hts]
  generalize hp : causeOf cTIMEOUT (s.wordAt u) (2 * k) = p
  have hpc : p.cause = 6 := hp ▸ rfl
  generalize hx : (s.mapTile u fun x => { x with pendTraps := x.pendTraps ++ [p] }) = x
  have hxt : x.tile u = { s.tile u with pendTraps := [p] } := by rw [← hx, State.tile_mapTile, if_pos rfl, hpend]; rfl
  have hexec : exec (.tileCrateTimeout u) s = .next ((x.setTs u tsRUN).enterTrap u) := by
    show Host.Outcome.next (if _ then _ else _) = _
    rw [if_neg (by simp [htraps, hsleep]), hh]
    dsimp only
    rw [if_neg htime, hp, State.addCause, if_neg (by rw [hts]; decide), hx]
    dsimp only
    rw [hxt, hh]
    dsimp only
    exact congrArg Host.Outcome.next (if_pos (show ((x.setTs u tsRUN).tile u).idle = true by rw [State.setTs, State.tile_setf, hxt]; exact hidle))
  generalize hy : x.setTs u tsRUN = y at hexec
  have hyt : y.tile u = { s.tile u with pendTraps := [p] } := by rw [← hy, State.setTs, State.tile_setf, hxt]
  have hyr : RegsBut [tr u rTILE_STATE] s y := by
    rw [← hy, ← hx]
    exact ((RegsBut.refl _ s).same rfl).setfIn (by simp) _ _ _
  have hcs : p.cause ≠ cITIN ∧ p.cause ≠ cPOISON := by rw [hpc]; decide
  obtain ⟨hhold, hnone, -⟩ := State.enterTrap_spec (s := y) (u := u) (by rw [hyt]) hcs
  refine ⟨_, hexec, hhold, hnone, fun hdef => ?_⟩
  obtain ⟨htrap, hcause, hpos, -⟩ := State.enterTrap_record (s := y) (u := u) (by rw [hyt]) hcs (by rw [hyt]; exact hdef)
  exact ⟨htrap, by rw [hcause, hpc], hpos.trans (hyr _ (by simp [tr_inj, rTILE_EXEC_POS, rTILE_STATE]))⟩

/-- TILE_HANG_TIMEOUT of a tile that runs: a cause for its next boundary (R100, R102). -/
theorem execTileHangTimeout_runs (htime : s.f (tr u rTILE_HANG_TIME) 0 16 ≠ 0) (hts : s.ts u = tsRUN) (hh : (s.tile u).holding = .none)
    (harmed : s.hangArmed = true) (hsleep : s.asleep = false) :
    ∃ t, exec (.tileHangTimeout u) s = .next t ∧ OnlyTile u s t ∧ RegsBut [] s t
      ∧ t.tile u = { s.tile u with pendTraps := (s.tile u).pendTraps ++ [⟨8, s.armedGen, s.wordAt u, 0⟩] } := by
  have htraps : s.traps u = true := by simp [State.traps, hts]
  generalize hx : (s.mapTile u fun x => { x with pendTraps := x.pendTraps ++ [causeOf cHANGTIME (s.wordAt u) s.armedGen] }) = x
  have hxt : x.tile u = { s.tile u with pendTraps := (s.tile u).pendTraps ++ [causeOf cHANGTIME (s.wordAt u) s.armedGen] } := by
    rw [← hx, State.tile_mapTile, if_pos rfl]
  have hexec : exec (.tileHangTimeout u) s = .next x := by
    show Host.Outcome.next (if _ then _ else _) = _
    rw [if_neg (by simp [htime, htraps, harmed, hsleep, hh]), State.addCause, if_neg (by rw [hts]; decide), hx]
    dsimp only
    rw [hxt, hh]
  exact ⟨x, hexec, hx ▸ (OnlyTile.refl u s).mapTile _, hx ▸ fun _ _ => rfl, hxt⟩

/-- A crate discarded at a tile's ingress is counted, and leaves nothing else of the tiles (R82, R85). -/
theorem State.crateDrop_spec (s : State) (u : Nat) : (s.crateDrop u).tiles = s.tiles ∧ (s.crateDrop u).fab = s.fab ∧ (s.crateDrop u).pair = s.pair
    ∧ (s.crateDrop u).rn (tr u rTILE_CRATE_DROP_COUNT) = min 0xFFFFFFFF (s.rn (tr u rTILE_CRATE_DROP_COUNT) + 1) := by
  have h : TilesKept (s.bump (tr u rTILE_CRATE_DROP_COUNT)) (s.crateDrop u) := TilesKept.refl.event _ _ _ _ _ _
  exact ⟨h.tiles, h.fab, h.pair, (h.rn (tileReg_tr u (by decide))).trans (s.rn_bump _)⟩

/-- CRATE_INGRESS_TIMEOUT: what arrived of the crate is discarded and counted (R85). -/
theorem execCrateIngressTimeout_drops {j : Nat} {c : Crate} (hc : s.fab.corridor[j]? = some c) (hu : c.destTile = u)
    (htime : s.f (tr u rTILE_CRATE_TIME) 0 16 ≠ 0) (hmay : s.mayArrive j c = true) :
    ∃ t, exec (.crateIngressTimeout u j) s = .next t ∧ t.fab.corridor = s.fab.corridor.eraseIdx j
      ∧ t.rn (tr u rTILE_CRATE_DROP_COUNT) = min 0xFFFFFFFF (s.rn (tr u rTILE_CRATE_DROP_COUNT) + 1) := by
  have hexec : exec (.crateIngressTimeout u j) s = .next ((s.dropCorridor j).crateDrop u) := by
    show execCrateIngressTimeout u j s = _
    unfold execCrateIngressTimeout
    simp [hc, hu, htime, hmay]
  obtain ⟨-, hfab, -, hcount⟩ := (s.dropCorridor j).crateDrop_spec u
  exact ⟨_, hexec, by rw [hfab]; rfl, hcount⟩

end

/-- Settles O18: each timeout by what its command does. -/
theorem tileTimeouts : Obligations.TileTimeouts := fun _ _ _ =>
  ⟨fun _ _ => execTileCrateTimeout_wait, execTileHangTimeout_runs, fun _ _ => execCrateIngressTimeout_drops⟩

end Sys2Proof.Machine

/-! PROOFS. The commands of a tile and its clears and reads (R97, R98, R104 to R110): O19, O20. -/

namespace Sys2Proof.Machine

open Sys2Proof

/-! ### Clears of counters and flags, and the two-part read (R105, R107, R110) -/

section
variable {s : State} {u : Nat}

/-- A write of a tile's register above A1 takes effect. -/
theorem State.tileWrite_awake (hs : s.asleep = false) (off v : Nat) (side : Side) (g : State → State) : s.tileWrite u off v side g = g s :=
  if_neg (by simp [hs])

theorem execPerfClear_eq (hs : s.asleep = false) (hr : s.tileReached u = true) (side : Side) :
    exec (.perfClear u side) s = .next (s.tileChange u (.perfClear [])) :=
  congrArg Host.Outcome.next ((State.tileWrite_awake hs _ _ _ _).trans (if_pos hr))

theorem execTileArithStatClear_eq (hs : s.asleep = false) (hr : s.tileReached u = true) (mask : Nat) (side : Side) :
    exec (.tileArithStatClear u mask side) s = .next (s.tileChange u (.statClear (fld mask 0 8))) :=
  congrArg Host.Outcome.next ((State.tileWrite_awake hs _ _ _ _).trans (if_pos hr))

theorem State.tileChange_idle (h : s.ts u = tsIDLE) (d : Deferred) : s.tileChange u d = s.tileApply u d := if_pos h

theorem State.tileChange_run (h : s.ts u = tsRUN) (d : Deferred) :
    s.tileChange u d = s.mapTile u fun x => { x with deferred := x.deferred ++ [d] } := by
  unfold State.tileChange
  rw [h]
  rfl

theorem State.tile_defer (s : State) (u : Nat) (d : Deferred) :
    (s.mapTile u fun x => { x with deferred := x.deferred ++ [d] }).tile u = { s.tile u with deferred := (s.tile u).deferred ++ [d] } := by
  rw [State.tile_mapTile, if_pos rfl]

theorem execCycleCountLoRead_open (ho : s.hostOpen = true) (hr : s.tileReached u = true) :
    ∃ t, exec (.cycleCountLoRead u) s = .next t ∧ t.tile u = { s.tile u with cycHold := s.rd (tr u rTILE_CYCLE_COUNT_HI) }
      ∧ t.out = s.out ++ [.read (tr u rTILE_CYCLE_COUNT_LO) (leBytes 4 (s.rn (tr u rTILE_CYCLE_COUNT_LO))) .data] ∧ RegsBut [] s t := by
  refine ⟨_, congrArg Host.Outcome.next ((if_neg (by simp [ho])).trans (if_pos hr)), ?_, rfl, fun _ _ => rfl⟩
  show (s.mapTile u fun x => { x with cycHold := s.rd (tr u rTILE_CYCLE_COUNT_HI) }).tile u = _
  rw [State.tile_mapTile, if_pos rfl]

end

/-- Settles O20: each clear by the state its tile stands in, and the read by whether the host's window is open. -/
theorem tileClearsAndReads : Obligations.TileClearsAndReads := by
  intro s u mask side hs hr
  refine ⟨fun hidle => ?_, fun hidle => ?_, fun hrun => ?_, fun ho => execCycleCountLoRead_open ho hr, fun ho => ?_⟩
  · obtain ⟨honly, hregs, hzero, hslack, hnow⟩ := s.perfClear_spec u
    exact ⟨_, (execPerfClear_eq hs hr side).trans (congrArg Host.Outcome.next (State.tileChange_idle hidle _)), honly, hzero, hslack, hnow, hregs⟩
  · exact ⟨_, (execTileArithStatClear_eq hs hr mask side).trans (congrArg Host.Outcome.next (State.tileChange_idle hidle _)),
      OnlyRegs.wn s _ _, fun i hi => s.bit_statClear u mask hi, RegsBut.wn s _ _⟩
  · exact ⟨_, (execPerfClear_eq hs hr side).trans (congrArg Host.Outcome.next (State.tileChange_run hrun _)),
      s.tile_defer u _, (OnlyTile.refl u s).mapTile _, fun _ _ => rfl⟩
  · exact congrArg Host.Outcome.next (if_pos (by simp [ho]))

/-! ### STOP and RELEASE (R97, R98, R104) -/

section
variable {s : State} {u : Nat}

theorem execStop_eq (hs : s.asleep = false) (hr : s.tileReached u = true) (side : Side) : exec (.stop u side) s = .next
    (if s.ts u = tsWAIT then s.enterIdle u
      else if s.ts u = tsRUN then s.mapTile u fun x => { x with deferred := x.deferred ++ [.stop] } else s) :=
  congrArg Host.Outcome.next ((State.tileWrite_awake hs _ _ _ _).trans (if_neg (by simp [hr])))

theorem execReleaseTrap_eq (hs : s.asleep = false) (hr : s.tileReached u = true) (ht : s.ts u = tsTRAP) (side : Side) :
    exec (.releaseTrap u side) s = .next ((s.wn (tr u rTILE_TRAP_CAUSE) 0).enterIdle u) :=
  congrArg Host.Outcome.next ((State.tileWrite_awake hs _ _ _ _).trans (if_pos (by simp [hr, ht])))

theorem execReset_eq (hs : s.asleep = false) (hr : s.tileReached u = true) (side : Side) : exec (.reset u side) s = .next
    (if s.ts u = tsRUN then s.mapTile u fun x => { x with deferred := x.deferred ++ [.reset []] } else s.tileReset u) :=
  congrArg Host.Outcome.next ((State.tileWrite_awake hs _ _ _ _).trans (if_neg (by simp [hr])))

/-- RELEASE with nothing that waits: IDLE, and no cause. -/
theorem State.release_spec (hd : (s.tile u).deferred = []) : ((s.wn (tr u rTILE_TRAP_CAUSE) 0).enterIdle u).ts u = tsIDLE
    ∧ ((s.wn (tr u rTILE_TRAP_CAUSE) 0).enterIdle u).rn (tr u rTILE_TRAP_CAUSE) = 0
    ∧ OnlyTile u s ((s.wn (tr u rTILE_TRAP_CAUSE) 0).enterIdle u)
    ∧ RegsBut [tr u rTILE_STATE, tr u rTILE_TRAP_CAUSE] s ((s.wn (tr u rTILE_TRAP_CAUSE) 0).enterIdle u) := by
  obtain ⟨hts, honly, hregs, -⟩ := State.enterIdle_spec (s := s.wn (tr u rTILE_TRAP_CAUSE) 0) (u := u) hd
  have hcause : tr u rTILE_TRAP_CAUSE ∉ [tr u rTILE_STATE] := by simp [tr_inj, rTILE_TRAP_CAUSE, rTILE_STATE]
  exact ⟨hts, (hregs.rn hcause).trans (State.rn_wn_same _ _ _), ((OnlyTile.refl u s).regs (OnlyRegs.wn s _ _)).trans honly,
    ((RegsBut.wn s _ _).mono (by simp)).trans (hregs.mono (by simp))⟩

/-! ### RESET (R109) -/

/-- A reset of a range of registers leaves every other register. -/
theorem State.rd_clearRange_outside (s : State) (ev : Cls) {lo hi a : Nat} (h : a < lo ∨ hi ≤ a) : (s.clearRange ev lo hi).rd a = s.rd a := by
  unfold State.clearRange
  generalize s.regs = es
  induction es generalizing s with
  | nil => rfl
  | cons e es ih =>
    rw [List.foldl_cons, ih]
    split
    next hin => exact State.rd_wr_ne _ _ fun he => by omega
    next => rfl

/-- A tile reset where nothing waits. -/
theorem State.tileReset_of_no_deferred (hd : (s.tile u).deferred = []) : s.tileReset u =
    ((((s.dropArriving u).setTile u (s.tile u).restarted).clearRange .tile (tr u 0) (tr u 0x1000)).ungovern u).margins u := by
  unfold State.tileReset
  dsimp only
  rw [State.tile_dropArriving, hd]
  rfl

/-- It changes the registers of the tile's own window only. -/
theorem State.rd_tileReset_outside (hd : (s.tile u).deferred = []) {a : Nat} (h : a < tr u 0 ∨ tr u 0x1000 ≤ a) :
    (s.tileReset u).rd a = s.rd a := by
  have hclock : a ≠ tr u rTILE_CLOCK := by simp only [tr, rTILE_CLOCK] at *; omega
  obtain ⟨n, cs, hdrop, -⟩ := s.dropArriving_spec u
  rw [State.tileReset_of_no_deferred hd]
  calc _ = (((s.dropArriving u).setTile u (s.tile u).restarted).clearRange .tile (tr u 0) (tr u 0x1000)).rd a :=
        (State.rd_wr_ne _ _ hclock).trans (State.rd_wr_ne _ _ hclock)
    _ = (s.dropArriving u).rd a := State.rd_clearRange_outside _ _ h
    _ = s.rd a := by rw [hdrop]; rfl

/-- Beyond registers and tiles it takes from the corridors and forgets how the governor holds the clock. -/
theorem State.tileReset_frame (hd : (s.tile u).deferred = []) : ∃ (n : Nat) (cs : List Crate) (lw cp : Assoc Nat),
    s.tileReset u = { s with regs := (s.tileReset u).regs, tiles := (s.tileReset u).tiles, free := n, fab := { s.fab with corridor := cs },
                             light := { s.light with lowered := lw, capped := cp } }
      ∧ cs.Sublist s.fab.corridor ∧ cs.filter (fun c => c.destTile != u) = s.fab.corridor.filter fun c => c.destTile != u := by
  obtain ⟨n, cs, hdrop, hsub, hfil⟩ := s.dropArriving_spec u
  have hz := OnlyRegs.clearRange ((s.dropArriving u).setTile u (s.tile u).restarted) .tile (tr u 0) (tr u 0x1000)
  rw [State.tileReset_of_no_deferred hd]
  generalize State.clearRange _ _ _ _ = z at hz
  rw [hdrop] at hz
  have hl : z.light = s.light := by rw [hz]; rfl
  refine ⟨n, cs, aput 0 s.light.lowered u 0, aput 0 s.light.capped u 0, ?_, hsub, hfil⟩
  have ht : OnlyRegs (z.ungovern u) ((z.ungovern u).margins u) := (OnlyRegs.setf _ _ _ _ _).trans (OnlyRegs.setf _ _ _ _ _)
  generalize (z.ungovern u).margins u = t at ht
  rw [ht, State.ungovern, hl, hz]
  rfl

end

/-- Settles O19: each command by the state its tile stands in. -/
theorem tileCommands : Obligations.TileCommands := by
  intro s u side hs hr
  refine ⟨fun hrun => ?_, fun hwait hd => ?_, fun htrap hd => ?_, fun hrun => ?_, fun hrun hd => ?_⟩
  · exact ⟨_, (execStop_eq hs hr side).trans (by rw [hrun, if_neg (by decide), if_pos rfl]), (OnlyTile.refl u s).mapTile _, fun _ _ => rfl,
      s.tile_defer u _⟩
  · exact ⟨_, (execStop_eq hs hr side).trans (by rw [if_pos hwait]), State.enterIdle_spec hd⟩
  · exact ⟨_, execReleaseTrap_eq hs hr htrap side, State.release_spec hd⟩
  · exact ⟨_, (execReset_eq hs hr side).trans (by rw [if_pos hrun]), (OnlyTile.refl u s).mapTile _, fun _ _ => rfl, s.tile_defer u _⟩
  · obtain ⟨n, cs, lw, cp, heq, hsub, hfil⟩ := State.tileReset_frame hd
    have hcs : (s.tileReset u).fab.corridor = cs := by rw [heq]
    have htile : (s.tileReset u).tile u = (s.tile u).restarted := (s.tile_tileReset u u).trans (if_pos rfl)
    refine ⟨_, (execReset_eq hs hr side).trans (by rw [if_neg hrun]), ?_, ?_, ?_, ?_, ?_, hcs ▸ hsub, hcs ▸ hfil,
      fun v hv => (s.tile_tileReset u v).trans (if_neg hv), fun a ha => State.rd_tileReset_outside hd ha⟩
    · rw [htile]; rfl
    · rw [htile]; rfl
    · rw [htile]; rfl
    · rw [htile]; rfl
    · generalize s.tileReset u = t at heq
      rw [heq]

end Sys2Proof.Machine

/-! PROOFS. Crates that a tile sends over the corridors (R77 to R83, R151): O15. -/

namespace Sys2Proof.Machine

open Sys2Proof

/-! ### What the corridors read of a state -/

/-- The registers below the tiles' windows are the same. -/
def SameBlocks (s t : State) : Prop := ∀ a, a < 0x1000000 → t.rd a = s.rd a

section
variable {s t : State}

theorem RegsBut.sameBlocks {as : List Nat} (h : RegsBut as s t) (has : ∀ a ∈ as, 0x1000000 ≤ a) : SameBlocks s t :=
  fun a ha => h a fun hm => absurd (has a hm) (by omega)

theorem tr_high (u o : Nat) : 0x1000000 ≤ tr u o := by simp only [tr, winBase]; omega

section
variable (h : SameBlocks s t)
include h

theorem SameBlocks.rn {a : Nat} (ha : a < 0x1000000) : t.rn a = s.rn a := congrArg BitVec.toNat (h a ha)
theorem SameBlocks.f {a : Nat} (ha : a < 0x1000000) (lo w : Nat) : t.f a lo w = s.f a lo w := congrArg (fld · lo w) (h.rn ha)

theorem SameBlocks.myId : t.myId = s.myId := by
  unfold State.myId State.unset State.idReg
  rw [h.rn (by decide)]

theorem SameBlocks.epochNow : t.epochNow = s.epochNow := h.rn (by decide)

theorem SameBlocks.substMod (m : Nat) : t.substMod m = s.substMod m := by
  have hlow : ∀ k ∈ List.range 16, winBase .pair 0 + rPAIR_SUBST + 4 * k < 0x1000000 := fun k hk => by
    have := List.mem_range.1 hk
    simp only [winBase, rPAIR_SUBST]
    omega
  unfold State.substMod
  rw [List.find?_congr fun k hk => by rw [h.f (hlow k hk), h.f (hlow k hk)]]
  split
  next k hk => exact h.f (hlow k (List.mem_of_find?_eq_some hk)) 16 15
  next => rfl

end

theorem State.routerBad_of_tiles (h : t.tiles = s.tiles) : t.routerBad = s.routerBad := by
  funext v
  unfold State.routerBad State.tile
  rw [h]

theorem State.pathOk_of_tiles (h : t.tiles = s.tiles) (a b : Nat) : t.pathOk a b = s.pathOk a b := by
  unfold State.pathOk State.meshSound
  rw [State.routerBad_of_tiles h, h]

/-- A crate whose way is sound goes on the corridors last. -/
theorem State.toCorridor_sound {u : Nat} {c : Crate} (h : s.pathOk u c.destTile = true) : s.toCorridor u c = { s with fab := { s.fab with
    corridor := s.fab.corridor ++ [{ c with entry := u, detour := s.onDetour u c.destTile, torn := false, since := none }] } } := if_pos h

/-- A crate of another OP than COLLATE's to a tile of this module is counted and goes over the corridors. -/
theorem State.sendCrate_local {u : Nat} {c : Crate} (hop : c.op ≠ 4) (hm : s.substMod c.destModule = s.myId) :
    s.sendCrate u c = (s.perf u rTILE_CRATE_OUT_COUNT 1).toCorridor u { c with destModule := s.myId } := by
  have hsame : SameBlocks s (s.perf u rTILE_CRATE_OUT_COUNT 1) :=
    ((RegsBut.refl _ s).perfIn (List.mem_singleton_self (tr u rTILE_CRATE_OUT_COUNT)) 1).sameBlocks (by simp [tr_high])
  unfold State.sendCrate
  dsimp only
  rw [if_neg hop, hm, if_pos hsame.myId.symm]

end

/-! ### A completion before which a clear may wait (R63, R110) -/

theorem State.atBoundary_spec (s : State) (u : Nat) : ∃ (b : Bool) (n : Nat), s.atBoundary u = (b, { s with free := n }) := by
  unfold State.atBoundary
  split
  · exact ⟨_, s.free, rfl⟩
  · exact ⟨_, s.free, rfl⟩
  · exact ⟨_, s.free, rfl⟩
  · exact ⟨_, s.free + 1, rfl⟩
  · exact ⟨_, s.free + 1, rfl⟩
  · exact ⟨_, s.free, rfl⟩

/-- What the clear that waits leaves of the changes that wait. -/
theorem State.completing_clear {s : State} {u : Nat} {g : State → State} (h : (s.tile u).deferred.any (·.isClear) = true) :
    ∃ (n : Nat) (v : State), v = (g (s.wn (tr u rTILE_ARITH_STAT) 0)).wn (tr u rTILE_ARITH_STAT)
        (s.rn (tr u rTILE_ARITH_STAT) ||| (g (s.wn (tr u rTILE_ARITH_STAT) 0)).rn (tr u rTILE_ARITH_STAT))
      ∧ (s.completing u g = { v with free := n }
        ∨ ∃ k, s.completing u g = ({ v with free := n } : State).mapTile u fun x => { x with deferred := x.deferred.map k }) := by
  obtain ⟨now, n, hb⟩ := State.atBoundary_spec ((g (s.wn (tr u rTILE_ARITH_STAT) 0)).wn (tr u rTILE_ARITH_STAT)
    (s.rn (tr u rTILE_ARITH_STAT) ||| (g (s.wn (tr u rTILE_ARITH_STAT) 0)).rn (tr u rTILE_ARITH_STAT))) u
  refine ⟨n, _, rfl, ?_⟩
  unfold State.completing
  rw [if_neg (by simp [h])]
  dsimp only
  rw [if_neg Bool.false_ne_true, hb]
  cases now
  · exact .inl rfl
  · exact .inr ⟨_, rfl⟩

/-- Where a completion leaves TILE_ARITH_STAT 0 that found it 0, a waiting clear changes nothing of it but what it notes of the
counts; the flags stand. -/
theorem State.completing_frame {s : State} {u : Nat} {g : State → State} {as : List Nat} (ha : tr u rTILE_ARITH_STAT ∉ as)
    (hg : ∀ x, RegsBut [tr u rTILE_ARITH_STAT] s x → x.tiles = s.tiles → RegsBut as x (g x)) :
    ∃ x ds, RegsBut [tr u rTILE_ARITH_STAT] s x ∧ x.tiles = s.tiles ∧ x.fab = s.fab ∧ x.pair = s.pair
      ∧ RegsBut as s (s.completing u g) ∧ RegsBut [tr u rTILE_ARITH_STAT] (g x) (s.completing u g)
      ∧ (s.completing u g).fab = (g x).fab ∧ (s.completing u g).pair = (g x).pair
      ∧ (s.completing u g).tile u = { (g x).tile u with deferred := ds }
      ∧ ((s.tile u).deferred.any (·.isClear) = false → x = s ∧ s.completing u g = g s) := by
  by_cases hclear : (s.tile u).deferred.any (·.isClear) = true
  · obtain ⟨n, v, hv, ht⟩ := State.completing_clear (g := g) hclear
    have hx : RegsBut [tr u rTILE_ARITH_STAT] s (s.wn (tr u rTILE_ARITH_STAT) 0) := RegsBut.wn s _ _
    have hgx := hg _ hx rfl
    refine ⟨s.wn (tr u rTILE_ARITH_STAT) 0, ((s.completing u g).tile u).deferred, hx, rfl, rfl, rfl, ?_⟩
    generalize g (s.wn (tr u rTILE_ARITH_STAT) 0) = y at hv hgx
    have hflags : v.rd (tr u rTILE_ARITH_STAT) = s.rd (tr u rTILE_ARITH_STAT) := by
      have hzero : y.rn (tr u rTILE_ARITH_STAT) = 0 := (hgx.rn ha).trans (State.rn_wn_same _ _ _)
      rw [hv, hzero, Nat.or_zero, State.wn, State.rd_wr_same]
      exact BitVec.ofNat_toNat ..
    have hyv : RegsBut [tr u rTILE_ARITH_STAT] y v := hv ▸ RegsBut.wn y _ _
    have hsv : RegsBut as s v := fun a hm => by
      by_cases hat : a = tr u rTILE_ARITH_STAT
      · rw [hat, hflags]
      · exact (hyv a (by simpa using hat)).trans ((hgx a hm).trans (hx a (by simpa using hat)))
    have hvy : v.fab = y.fab ∧ v.pair = y.pair ∧ v.tile u = y.tile u := by rw [hv]; exact ⟨rfl, rfl, rfl⟩
    obtain ⟨hfab, hpair, htile⟩ := hvy
    rcases ht with ht | ⟨k, ht⟩ <;> rw [ht]
    · exact ⟨hsv.same rfl, hyv.same rfl, hfab, hpair, htile ▸ rfl, fun hno => absurd hclear (by simp [hno])⟩
    · refine ⟨hsv.same rfl, hyv.same rfl, hfab, hpair, ?_, fun hno => absurd hclear (by simp [hno])⟩
      rw [State.tile_mapTile, if_pos rfl, ← htile]
      rfl
  · have hno : (s.tile u).deferred.any (·.isClear) = false := by simpa using hclear
    have ht : s.completing u g = g s := State.completing_of_no_clear hno g false
    rw [ht]
    exact ⟨s, ((g s).tile u).deferred, RegsBut.refl _ s, rfl, rfl, rfl, hg s (RegsBut.refl _ s) rfl, RegsBut.refl _ _, rfl, rfl, rfl,
      fun _ => ⟨rfl, rfl⟩⟩

/-! ### SIGNAL (R151) -/

section
variable {s : State} {u : Nat} {i : Issued} {e : CorrEntry}

/-- The crate that a SIGNAL sends. -/
def State.signalCrate (s : State) (u : Nat) (i : Issued) (e : CorrEntry) : Crate :=
  { s.newCrate u e 3 2 with
    ticket := fld i.word.toNat 42 6, ticketAdd := fld i.word.toNat 16 16, destModule := s.myId, entry := u,
    detour := s.onDetour u e.tile, torn := false, since := none }

/-- What a SIGNAL's completion comes to. -/
def State.signalled (s : State) (u : Nat) (i : Issued) (e : CorrEntry) : State :=
  (({ s.perf u rTILE_CRATE_OUT_COUNT 1 with fab := { s.fab with corridor := s.fab.corridor ++ [s.signalCrate u i e] } } : State).mapTile u
    fun x => { x with crateU := none }).stepDone u

/-- A SIGNAL reads no memory. -/
theorem State.memRanges_signal (hc : fld i.word.toNat 60 4 = 3) (ho : fld i.word.toNat 56 4 = 1) : s.memRanges u i = [] := by
  unfold State.memRanges readsOf
  simp [hc, ho]

theorem State.stalls_signal (hc : fld i.word.toNat 60 4 = 3) (ho : fld i.word.toNat 56 4 = 1) (v : Bool) : s.stalls u i v = s := by
  unfold State.stalls
  rw [State.memRanges_signal hc ho]
  rfl

theorem State.storeHeld_signal (hc : fld i.word.toNat 60 4 = 3) (ho : fld i.word.toNat 56 4 = 1) : s.storeHeld u i = false := by
  unfold State.storeHeld
  rw [State.memRanges_signal hc ho]
  rfl

/-- Its crate leaves over the corridors. -/
theorem State.doSignal_eq (he : i.corridors[fld i.word.toNat 48 8]? = some e) (hm : s.substMod e.dstModule = s.myId)
    (hp : s.pathOk u e.tile = true) : s.doSignal u i = { s.perf u rTILE_CRATE_OUT_COUNT 1 with
      fab := { s.fab with corridor := s.fab.corridor ++ [s.signalCrate u i e] } } := by
  have hentry : i.entry (fld i.word.toNat 48 8) = e := by
    unfold Issued.entry
    rw [List.getD_eq_getElem?_getD, he]
    rfl
  have hperf := s.perf_onlyRegs u rTILE_CRATE_OUT_COUNT 1
  have hfab : (s.perf u rTILE_CRATE_OUT_COUNT 1).fab = s.fab := by rw [hperf]
  have hdetour : (s.perf u rTILE_CRATE_OUT_COUNT 1).onDetour u e.tile = s.onDetour u e.tile := by
    unfold State.onDetour State.meshSound
    rw [State.routerBad_of_tiles hperf.sameTiles, hperf.sameTiles]
  unfold State.doSignal
  dsimp only
  rw [hentry, State.sendCrate_local (show (3 : Nat) ≠ 4 by decide) hm, State.toCorridor_sound ((State.pathOk_of_tiles hperf.sameTiles _ _).trans hp), hfab]
  dsimp only
  unfold State.signalCrate
  rw [← hdetour]
  rfl

/-- What the crate unit's completion does. -/
def State.crateCompleted (s : State) (u : Nat) (i : Issued) : State :=
  match ((s.stalls u i true).stalls u i false).unitEffect u .crate i with
  | (s', none) => (s'.mapTile u fun x => x.setUnit .crate none).stepDone u
  | (s', some i') => s'.mapTile u fun x => x.setUnit .crate (some i')

theorem State.crateCompleted_signal (hc : fld i.word.toNat 60 4 = 3) (ho : fld i.word.toNat 56 4 = 1)
    (he : i.corridors[fld i.word.toNat 48 8]? = some e) (hm : s.substMod e.dstModule = s.myId) (hp : s.pathOk u e.tile = true) :
    s.crateCompleted u i = s.signalled u i e := by
  have heffect : s.unitEffect u .crate i = (s.doSignal u i, none) := by
    unfold State.unitEffect State.doCrate
    dsimp only
    rw [ho]
    rfl
  unfold State.crateCompleted
  rw [State.stalls_signal hc ho, State.stalls_signal hc ho, heffect, State.doSignal_eq he hm hp]
  rfl

theorem State.signalled_regsBut (s : State) (u : Nat) (i : Issued) (e : CorrEntry) :
    RegsBut [tr u rTILE_CRATE_OUT_COUNT, tr u rTILE_STEP_COUNT] s (s.signalled u i e) := by
  have hout : RegsBut [tr u rTILE_CRATE_OUT_COUNT, tr u rTILE_STEP_COUNT] s (s.perf u rTILE_CRATE_OUT_COUNT 1) :=
    (RegsBut.refl _ s).perfIn (by simp) 1
  unfold State.signalled State.stepDone
  refine RegsBut.perfIn ?_ (by simp) 1
  exact hout.same rfl

theorem State.tile_signalled (s : State) (u : Nat) (i : Issued) (e : CorrEntry) :
    (s.signalled u i e).tile u = { s.tile u with crateU := none } := by
  unfold State.signalled State.stepDone
  rw [(State.perf_onlyRegs _ _ _ _).tile, State.tile_mapTile, if_pos rfl]
  show _ = { (s.tile u) with crateU := none }
  rw [← (s.perf_onlyRegs u rTILE_CRATE_OUT_COUNT 1).tile u]
  rfl

theorem State.signalled_frame (s : State) (u : Nat) (i : Issued) (e : CorrEntry) : s.signalled u i e = { s with
    regs := (s.signalled u i e).regs, tiles := (s.signalled u i e).tiles,
    fab := { s.fab with corridor := s.fab.corridor ++ [s.signalCrate u i e] } } := by
  have hperf := s.perf_onlyRegs u rTILE_CRATE_OUT_COUNT 1
  unfold State.signalled State.stepDone
  generalize s.perf u rTILE_CRATE_OUT_COUNT 1 = x at hperf
  rw [State.perf_onlyRegs]
  rw [hperf]
  rfl

theorem State.counted_signalled (s : State) (u : Nat) (i : Issued) (e : CorrEntry) : Counted s (s.signalled u i e) u :=
  counted_stepDone (as := [tr u rTILE_CRATE_OUT_COUNT]) (RegsBut.same ((RegsBut.refl _ s).perfIn (by simp) 1) rfl)
    (by simp [tr_inj, rTILE_CRATE_OUT_COUNT, rTILE_STEP_COUNT]) (by simp [tr_inj, rTILE_CRATE_OUT_COUNT, rTILE_PERF_CTRL])

/-- A tile that holds nothing stands as it did when a unit becomes idle. -/
theorem State.afterUnit_holds_nothing (h : (s.tile u).holding = .none) : s.afterUnit u = s := by
  unfold State.afterUnit State.showWait
  rw [h]

/-- What a store that no stocktake stops comes to (R412). -/
theorem State.orBlocked_unblocked {t : State} (h : t.pair.blocked = false) : s.orBlocked t = t := if_neg (by simp [h])

theorem execUnitStepComplete_signal (hu : (s.tile u).crateU = some i) (hc : fld i.word.toNat 60 4 = 3) (ho : fld i.word.toNat 56 4 = 1)
    (hheld : s.crateHeld u i = false) : exec (.unitStepComplete u .crate) s = .next (s.orBlocked ((s.completing u fun x => x.crateCompleted u i).afterUnit u)) := by
  show execUnitStepComplete u .crate s = _
  unfold execUnitStepComplete Tile.unit
  dsimp only
  rw [hu]
  dsimp only
  rw [if_neg (by simp [hheld, State.storeHeld_signal hc ho])]
  rfl

end

/-- Settles O15: the completion finds the corridors as the state before it has them, whatever clear waits. -/
theorem signalSendsItsTicket : Obligations.SignalSendsItsTicket := by
  intro s u i e hu hc ho he hheld hblocked hm hp hhold
  have hexec := execUnitStepComplete_signal hu hc ho hheld
  generalize hg : (fun x : State => x.crateCompleted u i) = g at hexec
  have heq : ∀ x, RegsBut [tr u rTILE_ARITH_STAT] s x → x.tiles = s.tiles → g x = x.signalled u i e := fun x hx hxt => by
    have hsame : SameBlocks s x := hx.sameBlocks (by simp [tr_high])
    rw [← hg]
    exact State.crateCompleted_signal hc ho he ((hsame.substMod _).trans (hm.trans hsame.myId.symm)) ((State.pathOk_of_tiles hxt _ _).trans hp)
  obtain ⟨x, ds, hx, hxt, hxfab, hxpair, hregs, hflags, hfab, hpair, htile, hplain⟩ :=
    State.completing_frame (s := s) (u := u) (g := g) (as := [tr u rTILE_CRATE_OUT_COUNT, tr u rTILE_STEP_COUNT])
      (by simp [tr_inj, rTILE_ARITH_STAT, rTILE_CRATE_OUT_COUNT, rTILE_STEP_COUNT]) fun x hx hxt => heq x hx hxt ▸ x.signalled_regsBut u i e
  rw [heq x hx hxt] at hflags hfab hpair htile
  have hxu : x.tile u = s.tile u := by unfold State.tile; rw [hxt]
  have hframe := x.signalled_frame u i e
  have htile' : (s.completing u g).tile u = { s.tile u with crateU := none, deferred := ds } := by rw [htile, State.tile_signalled, hxu]
  have hblk : (s.completing u g).pair.blocked = false := by rw [hpair, hframe, ← hblocked, ← hxpair]
  rw [State.afterUnit_holds_nothing (by rw [htile']; exact hhold), State.orBlocked_unblocked hblk] at hexec
  have hsame : SameBlocks s x := hx.sameBlocks (by simp [tr_high])
  refine ⟨_, x.signalCrate u i e, hexec, ?_, rfl, rfl, hsame.myId, rfl, rfl, rfl, rfl, rfl, hsame.epochNow, ?_, ?_, hregs, fun hno => ?_⟩
  · rw [hfab, hframe, hxfab]
  · rw [htile']
  · have hcount := x.counted_signalled u i e
    unfold Counted at hcount ⊢
    rw [hflags.rn (by simp [tr_inj, rTILE_ARITH_STAT, rTILE_STEP_COUNT]), hcount,
      hx.rn (by simp [tr_inj, rTILE_ARITH_STAT, rTILE_STEP_COUNT]), hx.f (by simp [tr_inj, rTILE_ARITH_STAT, rTILE_PERF_CTRL])]
  · obtain ⟨rfl, ht⟩ := hplain hno
    rw [ht, heq x hx hxt]
    exact ⟨x.tile_signalled u i e, hframe⟩

end Sys2Proof.Machine

/-! PROOFS. Crates that arrive at a tile (R82 to R86): O16. -/

namespace Sys2Proof.Machine

open Sys2Proof

/-! ### Runs of bytes -/

section
variable {α : Type} [DecidableEq α] (d : α)

/-- A run of writes leaves the keys above it. -/
theorem aget_aputs_above (m : Assoc α) {k x : Nat} (vs : List α) (h : k + vs.length ≤ x) : aget d (aputs d m k vs) x = aget d m x := by
  induction vs generalizing m k with
  | nil => rfl
  | cons v vs ih =>
    rw [List.length_cons] at h
    rw [aputs, ih _ (by omega), aget_aput_ne _ _ _ (by omega)]

/-- A run of writes reads back at each of its keys. -/
theorem aget_aputs_at (m : Assoc α) (k : Nat) (vs : List α) {i : Nat} (h : i < vs.length) : aget d (aputs d m k vs) (k + i) = vs.getD i d := by
  induction vs generalizing m k i with
  | nil => exact absurd h (Nat.not_lt_zero i)
  | cons v vs ih =>
    cases i with
    | zero => rw [aputs, aget_aputs_below _ _ _ (by omega), Nat.add_zero, aget_aput_same, List.getD_cons_zero]
    | succ i => rw [aputs, show k + (i + 1) = k + 1 + i by omega, ih _ _ (Nat.lt_of_succ_lt_succ h), List.getD_cons_succ]

end

/-! ### Arrival -/

section
variable {s : State} {j op : Nat} {c : Crate}

/-- A crate that may arrive at a sound router, which the Store does not hold back, is handled by the tile. -/
theorem State.arrive_lands (hc : s.fab.corridor[j]? = some c) (hmay : s.mayArrive j c = true) (hr : s.routerBad c.destTile = false)
    (hstore : s.toStore c.destTile c = false) (hop : c.op = op) (ht : tileOp op = true) (body : State → Nat → Crate → State) :
    s.arrive j op body = s.orBlocked (body (s.dropCorridor j) c.destTile c) := by
  unfold State.arrive
  rw [hc]
  dsimp only
  rw [hop, if_neg (by simp [hmay]), if_neg (by simp [hr]), if_neg (by simp [hstore]), if_neg (by simp [ht]), if_pos rfl]

theorem State.toStore_ticket (h : c.op = 3) (u : Nat) : s.toStore u c = false := by
  unfold State.toStore
  exact if_pos h

theorem State.target_of_landing {u : Nat} {pl : Place} (h : s.landing u c = some pl) : ∃ n, s.target u c = some (pl, n) := by
  unfold State.landing at h
  split at h
  next q n hq =>
    split at h
    · exact ⟨n, by rw [hq, Option.some.inj h]⟩
    · exact absurd h (by simp)
  next => exact absurd h (by simp)

/-- A crate to scratch does not wait on the Store. -/
theorem State.toStore_scratch {u : Nat} (h : s.landing u c = some .scratch) (h2 : c.op ≠ 2) : s.toStore u c = false := by
  obtain ⟨n, hn⟩ := State.target_of_landing h
  unfold State.toStore
  dsimp only
  rw [if_neg h2, hn]
  split <;> rfl

/-- A listed tensor lies in a memory. -/
theorem resolve_tensor_ne_scratch {t exhibit n : Nat} {tensors : Assoc CatEntry} {d : Desc} (h : d.space = 2) :
    resolve t exhibit tensors d ≠ some (.scratch, n) := by
  unfold resolve
  rw [h]
  split
  next h0 => exact absurd h0 (by decide)
  next => simp
  next =>
    dsimp only
    split
    · split <;> simp
    · split
      · split <;> simp
      · simp
  next => simp

/-- A crate to scratch names no tensor. -/
theorem State.target_ne_two_of_scratch {u : Nat} (h : s.landing u c = some .scratch) : c.target ≠ 2 := by
  intro h2
  obtain ⟨n, hn⟩ := State.target_of_landing h
  unfold State.target at hn
  split at hn
  · exact absurd hn (by simp)
  · exact resolve_tensor_ne_scratch (by simp [h2, Desc.space, fld]) hn

/-- A crate to scratch brings no byte of a stocktake. -/
theorem State.noteSnapshot_scratch {t : State} (h : c.target ≠ 2) : t.noteSnapshot c = t := by
  unfold State.noteSnapshot
  split
  · rfl
  · exact if_neg fun hp => h hp.1

/-- A crate whose ticket fits is counted and its ticket added (R83, R86). -/
theorem State.crateDone_spec {y : State} {u k n : Nat} (h : y.f (tk u k) 0 16 + n ≤ 65535) : OnlyRegs y (y.crateDone u k n)
    ∧ RegsBut [tk u k, tr u rTILE_CRATE_IN_COUNT] y (y.crateDone u k n) ∧ (y.crateDone u k n).f (tk u k) 0 16 = y.f (tk u k) 0 16 + n := by
  have hperf : RegsBut [tr u rTILE_CRATE_IN_COUNT] y (y.perf u rTILE_CRATE_IN_COUNT 1) := (RegsBut.refl _ y).perfIn (by simp) 1
  have hk : (y.perf u rTILE_CRATE_IN_COUNT 1).f (tk u k) 0 16 = y.f (tk u k) 0 16 :=
    hperf.f (by simpa using (tk_ne_tr (.inr (by decide))).symm) 0 16
  unfold State.crateDone
  rw [State.ticketAdd_fits (by rw [hk]; exact h), hk]
  refine ⟨(y.perf_onlyRegs u _ 1).trans (OnlyRegs.setf _ _ _ _ _), (hperf.mono (by simp)).setfIn (by simp) _ _ _, ?_⟩
  rw [State.f_setf_same _ _ _ (by decide)]
  exact Nat.mod_eq_of_lt (by omega)

end

/-! ### Writes to scratch (R72) -/

section
variable {s t : State} {u : Nat}

/-- From `s` to `t` tiles alone change, tile `u` alone, and its scratch holds `m` without a stored error. -/
def ScratchHolds (s t : State) (u : Nat) (m : Assoc Byte) : Prop :=
  t = { s with tiles := t.tiles } ∧ (∀ v, v ≠ u → t.tile v = s.tile v) ∧ (t.tile u).scrErr = [] ∧ (t.tile u).scratch = m

theorem ScratchHolds.setTile {m : Assoc Byte} (h : ScratchHolds s t u m) {x : Tile} (hx : x.scrErr = []) :
    ScratchHolds s (t.setTile u x) u x.scratch := by
  obtain ⟨hframe, hothers, -, -⟩ := h
  refine ⟨?_, fun v hv => ?_, ?_, ?_⟩
  · generalize t.tiles = ts at hframe
    subst hframe
    rfl
  · rw [State.tile_setTile, if_neg hv]
    exact hothers v hv
  · rw [State.tile_setTile, if_pos rfl]
    exact hx
  · rw [State.tile_setTile, if_pos rfl]

/-- A word that a write covers or merges into, as it is stored again (R72). -/
def State.scratchMerge (s : State) (u o : Nat) (bs : List (Byte × Bool)) (w : Nat) : State :=
  let x := s.tile u
  let e := aget 0 x.scrErr w
  let whole := decide (o ≤ 32 * w) && decide (32 * w + 32 ≤ o + bs.length)
  let st := s.setTile u { x with
    scrErr := aput 0 x.scrErr w 0,
    scrPoison := aput false x.scrPoison w ((bs.zipIdx.any fun (b, i) => b.2 && (o + i) / 32 == w)
      || ((aget false x.scrPoison w || e == 2) && !whole)) }
  if e = 1 && !whole then st.scratchCorr u else st

theorem ScratchHolds.trans {x : State} {m m' : Assoc Byte} (h : ScratchHolds s t u m) (k : ScratchHolds t x u m') : ScratchHolds s x u m' := by
  obtain ⟨hframe, hothers, -, -⟩ := h
  obtain ⟨kframe, kothers, kerr, kscr⟩ := k
  refine ⟨?_, fun v hv => (kothers v hv).trans (hothers v hv), kerr, kscr⟩
  rw [kframe, hframe]

theorem State.scratchWrite_eq (s : State) (u o : Nat) (bs : List (Byte × Bool)) : s.scratchWrite u o bs = if bs.length = 0 then s else
    ((((List.range ((o + bs.length - 1) / 32 - o / 32 + 1)).map (· + o / 32)).foldl (fun st w => st.scratchMerge u o bs w) s).mapTile u
      fun x => { x with scratch := aputs 0 x.scratch o (bs.map (·.1)) }) := rfl

/-- Where no error is stored, storing words again corrects none. -/
theorem ScratchHolds.foldl_scratchMerge {m : Assoc Byte} (h : ScratchHolds s t u m) (o : Nat) (bs : List (Byte × Bool)) (ws : List Nat) :
    ScratchHolds s (ws.foldl (fun st w => st.scratchMerge u o bs w) t) u m := by
  induction ws generalizing t with
  | nil => exact h
  | cons w ws ih =>
    have ⟨_, _, herr, hscr⟩ := h
    refine ih ?_
    unfold State.scratchMerge
    dsimp only
    rw [herr, if_neg (by simp [aget])]
    exact hscr ▸ h.setTile rfl

/-- A write where no error is stored puts its bytes. -/
theorem State.scratchWrite_clean (h : (s.tile u).scrErr = []) (o : Nat) (bs : List (Byte × Bool)) :
    ScratchHolds s (s.scratchWrite u o bs) u (aputs 0 (s.tile u).scratch o (bs.map (·.1))) := by
  have hself : ScratchHolds s s u (s.tile u).scratch := ⟨rfl, fun _ _ => rfl, h, rfl⟩
  rw [State.scratchWrite_eq]
  split
  next h0 => rw [List.length_eq_zero_iff.1 h0]; exact hself
  next =>
    have hmerged := hself.foldl_scratchMerge o bs ((List.range ((o + bs.length - 1) / 32 - o / 32 + 1)).map (· + o / 32))
    generalize List.foldl _ s _ = y at hmerged
    have ⟨_, _, herr, hscr⟩ := hmerged
    rw [← hscr]
    exact hmerged.setTile (x := { y.tile u with scratch := aputs 0 (y.tile u).scratch o (bs.map (·.1)) }) herr

/-- A write of a crate's bytes to a tile's scratch where no error is stored. -/
theorem State.writeCrate_scratch (h : (s.tile u).scrErr = []) (c : Crate) :
    ScratchHolds s (s.writeCrate u .scratch c) u (aputs 0 (s.tile u).scratch c.offset c.data) := by
  have hraced : ∀ r, ScratchHolds s (s.noteRace u r) u (s.tile u).scratch := fun r => by
    unfold State.noteRace State.mapTile
    exact ScratchHolds.setTile ⟨rfl, fun _ _ => rfl, h, rfl⟩ h
  unfold State.writeCrate State.writeRun
  dsimp only
  have hnote := hraced ⟨Place.space .scratch, Place.at .scratch c.offset, Place.at .scratch c.offset + (c.data.map fun b => (b, c.poison)).length⟩
  have ⟨_, _, herr, hscr⟩ := hnote
  have hwrite := State.scratchWrite_clean herr c.offset (c.data.map fun b => (b, c.poison))
  rw [hscr, List.map_map] at hwrite
  have hdata : c.data.map ((fun b : Byte × Bool => b.1) ∘ fun b => (b, c.poison)) = c.data := List.map_id _
  rw [hdata] at hwrite
  exact hnote.trans hwrite

/-! ### TICKET and WRITE crates -/

variable {j : Nat} {c : Crate}

theorem execCrateTicket_lands (hc : s.fab.corridor[j]? = some c) (hmay : s.mayArrive j c = true) (hr : s.routerBad c.destTile = false)
    (hop : c.op = 3) (ht : (s.target c.destTile c).isSome = true) :
    exec (.crateTicket j) s = .next (s.orBlocked ((s.dropCorridor j).crateDone c.destTile c.ticket c.ticketAdd)) := by
  obtain ⟨p, hp⟩ := Option.isSome_iff_exists.1 ht
  have hp' : (s.dropCorridor j).target c.destTile c = some p := hp
  show Host.Outcome.next (s.arrive j 3 _) = _
  rw [State.arrive_lands hc hmay hr (State.toStore_ticket hop _) hop rfl, hp']

theorem execCrateWrite_lands (hc : s.fab.corridor[j]? = some c) (hmay : s.mayArrive j c = true) (hr : s.routerBad c.destTile = false)
    (hop : c.op = 0) (hl : s.landing c.destTile c = some .scratch) : exec (.crateWrite j) s = .next (s.orBlocked
      (((s.dropCorridor j).writeCrate c.destTile .scratch c).crateDone c.destTile c.ticket c.ticketAdd)) := by
  have hl' : (s.dropCorridor j).landing c.destTile c = some .scratch := hl
  show Host.Outcome.next (s.arrive j 0 _) = _
  rw [State.arrive_lands hc hmay hr (State.toStore_scratch hl (by rw [hop]; decide)) hop rfl, hl']
  dsimp only
  rw [State.noteSnapshot_scratch (State.target_ne_two_of_scratch hl)]

end

/-- What stands once crate `c`, at index `j` of the corridors of `s`, has arrived at its tile. -/
def Arrived (s : State) (j : Nat) (c : Crate) (t : State) : Prop :=
  t.fab = { s.fab with corridor := s.fab.corridor.eraseIdx j }
    ∧ t.f (tk c.destTile c.ticket) 0 16 = s.f (tk c.destTile c.ticket) 0 16 + c.ticketAdd
    ∧ t = { s with regs := t.regs, tiles := t.tiles, fab := t.fab } ∧ (∀ v, v ≠ c.destTile → t.tile v = s.tile v)
    ∧ RegsBut [tk c.destTile c.ticket, tr c.destTile rTILE_CRATE_IN_COUNT] s t

/-- A crate whose data have changed its own tile alone has arrived when its ticket is added. -/
theorem State.crateDone_arrived {s y : State} {j : Nat} {c : Crate} (hblocked : s.pair.blocked = false)
    (hfits : s.f (tk c.destTile c.ticket) 0 16 + c.ticketAdd ≤ 65535) (hy : y = { s.dropCorridor j with tiles := y.tiles })
    (hothers : ∀ v, v ≠ c.destTile → y.tile v = s.tile v) :
    Arrived s j c (s.orBlocked (y.crateDone c.destTile c.ticket c.ticketAdd))
      ∧ (s.orBlocked (y.crateDone c.destTile c.ticket c.ticketAdd)).tile c.destTile = y.tile c.destTile := by
  have hregs : y.regs = s.regs := by rw [hy]; rfl
  have hk : y.f (tk c.destTile c.ticket) 0 16 = s.f (tk c.destTile c.ticket) 0 16 := State.f_of_regs hregs _ _ _
  obtain ⟨honly, hbut, hadd⟩ := State.crateDone_spec (y := y) (by rw [hk]; exact hfits)
  generalize y.crateDone c.destTile c.ticket c.ticketAdd = t at honly hbut hadd
  have hfab : t.fab = { s.fab with corridor := s.fab.corridor.eraseIdx j } := by rw [honly, hy]; rfl
  have hblk : t.pair.blocked = false := by rw [honly, hy]; exact hblocked
  rw [State.orBlocked_unblocked hblk]
  refine ⟨⟨hfab, hadd.trans (by rw [hk]), ?_, fun v hv => (honly.tile v).trans (hothers v hv),
    ((RegsBut.refl _ s).same hregs).trans hbut⟩, honly.tile _⟩
  rw [honly, hy]
  rfl

/-- Settles O16: what the data leave of the state, and then the ticket. -/
theorem cratesArrive : Obligations.CratesArrive := by
  intro s j c hc hmay hr hblocked u hfits
  refine ⟨fun hop htarget => ?_, fun hop hl herr => ?_⟩
  · obtain ⟨harrived, htile⟩ := State.crateDone_arrived (y := s.dropCorridor j) hblocked hfits rfl fun _ _ => rfl
    exact ⟨_, execCrateTicket_lands hc hmay hr hop htarget, harrived, htile⟩
  · obtain ⟨hframe, hothers, -, hscr⟩ := State.writeCrate_scratch (s := s.dropCorridor j) (u := u) herr c
    obtain ⟨harrived, htile⟩ := State.crateDone_arrived hblocked hfits hframe hothers
    refine ⟨_, execCrateWrite_lands hc hmay hr hop hl, harrived, fun k hk => ?_, fun o ho => ?_⟩
    · rw [htile, hscr]
      exact aget_aputs_at 0 _ _ _ hk
    · rw [htile, hscr]
      rcases ho with ho | ho
      · exact aget_aputs_below 0 _ _ ho
      · exact aget_aputs_above 0 _ _ ho

end Sys2Proof.Machine

/-! PROOFS. What the memories leave of the tiles (R221 to R242). -/

namespace Sys2Proof.Machine

open Sys2Proof

section
variable {s t : State} (h : TilesKept s t)
include h

/-! ### Registers and memories -/

/-- A register below the tiles' windows. -/
theorem TilesKept.setfLow {a : Nat} (ha : a < 0x1000000) (lo w v : Nat) : TilesKept s (t.setf a lo w v) := h.setf (fun k => absurd k.1 (by omega)) _ _ _

theorem TilesKept.bumpMreg (v : Bool) {rv rs : Nat} (hv : rv < 0x10000) (hs : rs < 0x10000) : TilesKept s (t.bump (mreg v rv rs)) :=
  h.bump fun k => absurd k.1 (by cases v <;> simp only [mreg, winBase, Bool.false_eq_true, if_false, if_true] <;> omega)

theorem TilesKept.wnMreg (v : Bool) {rv rs : Nat} (hv : rv < 0x10000) (hs : rs < 0x10000) (n : Nat) : TilesKept s (t.wn (mreg v rv rs) n) :=
  h.wn (fun k => absurd k.1 (by cases v <;> simp only [mreg, winBase, Bool.false_eq_true, if_false, if_true] <;> omega)) n

theorem TilesKept.setMem (v : Bool) (m : Mem) : TilesKept s (t.setMem v m) := by
  cases v
  · exact h.same rfl
  · exact h.same rfl

theorem TilesKept.condEvent (a b c d e : Nat) : TilesKept s (t.condEvent a b c d e) :=
  h.recorded (State.condEvent_recorded _ _ _ _ _ _) fun x hx =>
    t.condRecord_regsBut _ _ x fun hm => absurd (List.mem_singleton.1 hm ▸ hx).1 (by decide)

/-! ### Reports of errors, and pages that fall due -/

theorem TilesKept.lastErr (v : Bool) (a k r : Nat) : TilesKept s (t.lastErr v a k r) :=
  ((h.wnMreg v (by decide) (by decide) _).wnMreg v (by decide) (by decide) _).wnMreg v (by decide) (by decide) _

theorem TilesKept.memError (v : Bool) (a k r : Nat) : TilesKept s (t.memError v a k r) := by
  unfold State.memError
  extract_lets x
  have hx : TilesKept s x := TilesKept.ite (h.bumpMreg v (by decide) (by decide)) (TilesKept.ite (h.bumpMreg v (by decide) (by decide)) h)
  exact (hx.lastErr _ _ _ _).event _ _ _ _ _ _

theorem TilesKept.storeRetire (p : Nat) : TilesKept s (t.storeRetire p) := by
  unfold State.storeRetire
  extract_lets a free spare m l m2 m3 n x
  have hx : TilesKept s x := ((h.same (by rfl)).setfLow (by decide) _ _ _).bump fun k => absurd k.1 (by decide)
  exact TilesKept.ite h (TilesKept.ite ((h.same (by rfl)).event _ _ _ _ _ _) (hx.condEvent _ _ _ _ _))

theorem TilesKept.pageDue (v : Bool) (p : Nat) : TilesKept s (t.pageDue v p) := by
  unfold State.pageDue
  split
  · exact TilesKept.ite h (TilesKept.ite (h.same rfl) (h.same rfl))
  · exact h.storeRetire p

theorem TilesKept.failDie (d : Nat) : TilesKept s (t.failDie d) := by
  unfold State.failDie
  split
  · exact h
  next hd =>
    have hlow : winBase .vlt 0 + rVLT_SPARE_ROWS + 4 * d < 0x1000000 := by
      simp only [Bool.or_eq_true, decide_eq_true_eq, not_or] at hd
      simp only [winBase, rVLT_SPARE_ROWS]
      omega
    exact (((h.same (by rfl)).setfLow hlow _ _ _).event _ _ _ _ _ _).foldl (fun _ _ => TilesKept.refl.pageDue _ _) _

theorem TilesKept.noteUncorr (v : Bool) (p : Nat) : TilesKept s (t.noteUncorr v p) :=
  TilesKept.ite h (TilesKept.ite ((h.same (by rfl)).failDie _) (h.same rfl))

/-! ### Decoding -/

theorem TilesKept.countPage (v : Bool) (p : Nat) : TilesKept s (t.countPage v p) := TilesKept.ite ((h.setMem _ _).pageDue _ _) (h.setMem _ _)

theorem TilesKept.trackWord (v counts : Bool) (w mask : Nat) : TilesKept s (t.trackWord v counts w mask) := by
  unfold State.trackWord
  dsimp only
  split
  · exact h.setMem _ _
  · exact TilesKept.ite ((h.setMem _ _).countPage _ _) (h.setMem _ _)

theorem TilesKept.queueKeep (v : Bool) (p : Nat) (er : List Nat) : TilesKept s (t.queueKeep v p er) := TilesKept.ite (h.same rfl) h

theorem TilesKept.decodeWord (v back : Bool) (p l r j : Nat) : TilesKept s (t.decodeWord v back p l r j).2 := by
  have hq := h.queueKeep v p ((t.mem v).erasures p j)
  unfold State.decodeWord
  dsimp only
  split
  · exact ((hq.memError _ _ _ _).pageDue _ _).noteUncorr _ _
  · exact (TilesKept.ite hq (hq.setMem _ _)).foldl
      (fun _ _ => ((TilesKept.refl.bumpMreg v (by decide) (by decide)).lastErr _ _ _ _).event _ _ _ _ _ _) _

theorem TilesKept.decodePage (v : Bool) (p r : Nat) (back counts : Bool) : TilesKept s (t.decodePage v p r back counts) := by
  unfold State.decodePage
  dsimp only
  split
  · exact h
  · have hdecoded := List.foldlRecOn (motive := fun acc : List (Nat × Nat) × State => TilesKept s acc.2) ((t.mem v).suspects p)
      (fun acc j => (acc.1 ++ (acc.2.decodeWord v back p ((t.mem v).served p) r j).1, (acc.2.decodeWord v back p ((t.mem v).served p) r j).2))
      (b := ([], t)) h fun _ k _ _ => k.decodeWord _ _ _ _ _ _
    refine TilesKept.foldl hdecoded (fun x e => TilesKept.trackWord ?_ _ _ _ _) _
    have hcounted := (TilesKept.refl (s := x)).bumpMreg v (rv := rVLT_CORR_COUNT) (rs := rSTO_CORR_COUNT) (by decide) (by decide)
    exact TilesKept.ite ((hcounted.event _ _ _ _ _ _).event _ _ _ _ _ _) (hcounted.event _ _ _ _ _ _)

theorem TilesKept.finishDecode (v : Bool) (p : Nat) (counts : Bool) : TilesKept s (t.finishDecode v p counts) := by
  unfold State.finishDecode
  split
  · exact h
  · exact (h.decodePage _ _ _ _ _).setMem _ _

/-! ### Writing -/

theorem TilesKept.writeInPage (hz : t.pair.freeze = none) (v : Bool) (a : Nat) (bs : List Byte) (full : Bool) (r : Nat) :
    TilesKept s (t.writeInPage v a bs full r) := by
  have hcow : t.cowFirst v (pageOf a) r = t := by
    unfold State.cowFirst
    rw [hz]
  unfold State.writeInPage
  rw [hcow]
  extract_lets c ph m x p whole ph1 needs held y m1 ph2 m2 m3 z
  have hx : TilesKept s x := h.setMem _ _
  have hwhole : TilesKept s whole := hx.finishDecode _ _ _
  have hy : TilesKept s y := TilesKept.ite (hx.finishDecode _ _ _) (TilesKept.ite (hx.decodePage _ _ _ _ _) hx)
  have hz : TilesKept s z := hy.setMem _ _
  exact TilesKept.ite h (TilesKept.ite hx (TilesKept.ite (hwhole.setMem _ _) (TilesKept.ite (hx.bumpMreg v (by decide) (by decide))
    (hz.foldl (fun _ _ => TilesKept.ite (TilesKept.refl.setMem _ _) TilesKept.refl) _))))

theorem TilesKept.poisonWordAt (v : Bool) (a : Nat) : TilesKept s (t.poisonWordAt v a) := TilesKept.ite h (h.setMem _ _)

end

end Sys2Proof.Machine

/-! PROOFS. Reads over the corridors (R82, R152): O17. -/

namespace Sys2Proof.Machine

open Sys2Proof

/-! ### What a write of data leaves of its tile -/

/-- From `s` to `t` nothing changes of the crates, the pairing block and the requests outstanding at tile `u`, and no ticket counter
of the tile rises. -/
structure DataKept (u : Nat) (s t : State) : Prop where
  reads : (t.tile u).reads = (s.tile u).reads
  fab : t.fab = s.fab
  pair : t.pair = s.pair
  tickets : ∀ k, t.f (tk u k) 0 16 ≤ s.f (tk u k) 0 16

theorem DataKept.refl {u : Nat} {s : State} : DataKept u s s := ⟨rfl, rfl, rfl, fun _ => Nat.le_refl _⟩

section
variable {u : Nat} {s t x : State}

theorem DataKept.trans (h : DataKept u s t) (k : DataKept u t x) : DataKept u s x :=
  ⟨k.reads.trans h.reads, k.fab.trans h.fab, k.pair.trans h.pair, fun j => (k.tickets j).trans (h.tickets j)⟩

theorem DataKept.foldl {α : Type} {g : State → α → State} (h : DataKept u s t) (hg : ∀ x e, DataKept u x (g x e)) (es : List α) :
    DataKept u s (es.foldl g t) := by
  induction es generalizing t with
  | nil => exact h
  | cons e es ih => exact ih (h.trans (hg t e))

theorem TilesKept.data (h : TilesKept s t) : DataKept u s t :=
  ⟨congrArg Tile.reads (h.tile u), h.fab, h.pair, fun k => Nat.le_of_eq (h.f (tileReg_tk u k) 0 16)⟩

theorem DataKept.setTile (h : DataKept u s t) {y : Tile} (hy : y.reads = (t.tile u).reads) : DataKept u s (t.setTile u y) :=
  ⟨(congrArg Tile.reads ((State.tile_setTile t u u y).trans (if_pos rfl))).trans (hy.trans h.reads), h.fab, h.pair, h.tickets⟩

/-! ### Writes to memory -/

/-- A register whose low 3 bits are cleared does not rise in its low half. -/
theorem State.f_clearLow_le (s : State) (a b : Nat) : (s.setf b 0 3 0).f a 0 16 ≤ s.f a 0 16 := by
  by_cases hab : a = b
  · subst hab
    have hsame : (s.setf a 0 3 0).rn a = setFld (s.rn a) 0 3 0 % 2 ^ 32 := State.rn_wn_same _ _ _
    rw [State.f, State.f, hsame]
    unfold fld setFld
    omega
  · exact Nat.le_of_eq (State.f_setf_ne s 0 3 0 0 16 hab)

/-- A Store channel that leaves self-refresh shows no state that could raise a counter, whatever its number. -/
theorem DataKept.wakeChan (h : DataKept u s t) (a : Nat) : DataKept u s (t.wakeChan a) := by
  unfold State.wakeChan
  dsimp only
  split
  · split
    · exact h.trans ⟨rfl, rfl, rfl, fun k => (t.wakeParts (chanOf (t.segMode a) a)).f_clearLow_le (tk u k) _⟩
    · exact h
  · exact h

theorem DataKept.wakeSpan (h : DataKept u s t) (v : Bool) (a n : Nat) : DataKept u s (t.wakeSpan v a n) := by
  unfold State.wakeSpan
  split
  · exact h
  · exact h.foldl (fun _ _ => DataKept.refl.wakeChan _) _

/-- A write to a memory whose pages no stocktake holds. -/
theorem DataKept.memWrite (h : DataKept u s t) (hz : s.pair.freeze = none) (v : Bool) (a : Nat) (bs : List Byte) (full : Bool) (r n : Nat) :
    DataKept u s (t.memWrite v a bs full r n) := by
  induction n generalizing t a bs with
  | zero => exact h
  | succ n ih =>
    unfold State.memWrite
    split
    · exact h
    · have hwoken := h.wakeSpan v a (min bs.length (4096 - a % 4096))
      exact ih (hwoken.trans (TilesKept.refl.writeInPage (by rw [hwoken.pair, hz]) _ _ _ _ _).data) _ _

/-! ### Writes to scratch -/

theorem DataKept.scratchCorr (h : DataKept u s t) : DataKept u s (t.scratchCorr u) := by
  have hbump : DataKept u t (t.bump (tr u rTILE_SCRATCH_CORR_COUNT)) := ⟨rfl, rfl, rfl, fun k =>
    Nat.le_of_eq ((RegsBut.bump t (tr u rTILE_SCRATCH_CORR_COUNT)).f (by simpa using (tk_ne_tr (.inl (by decide))).symm) 0 16)⟩
  exact (h.trans hbump).trans (TilesKept.refl.event _ _ _ _ _ _).data

theorem DataKept.scratchMerge (h : DataKept u s t) (o : Nat) (bs : List (Byte × Bool)) (w : Nat) : DataKept u s (t.scratchMerge u o bs w) := by
  unfold State.scratchMerge
  dsimp only
  split
  · refine DataKept.scratchCorr ?_
    exact h.setTile rfl
  · exact h.setTile rfl

theorem DataKept.scratchWrite (h : DataKept u s t) (o : Nat) (bs : List (Byte × Bool)) : DataKept u s (t.scratchWrite u o bs) := by
  rw [State.scratchWrite_eq]
  split
  · exact h
  · exact (h.foldl (fun _ _ => DataKept.refl.scratchMerge _ _ _) _).setTile rfl

/-- A run of data at any place. -/
theorem DataKept.writeRun (h : DataKept u s t) (hz : s.pair.freeze = none) (pl : Place) (o : Nat) (bs : List (Byte × Bool)) (r : Nat) :
    DataKept u s (t.writeRun u pl o bs r) := by
  have hraced : ∀ raced, DataKept u s (t.noteRace u raced) := fun _ => h.setTile rfl
  cases pl with
  | scratch => exact (hraced _).scratchWrite _ _
  | mem v b =>
    unfold State.writeRun
    refine ((hraced _).memWrite hz _ _ _ _ _ _).foldl (fun x w => ?_) _
    dsimp only
    split
    · exact (TilesKept.refl.poisonWordAt _ _).data
    · exact DataKept.refl

theorem State.writeResponse_dataKept {r : ReadOut} {c : Crate} (hz : s.pair.freeze = none) (h : s.writeResponse u r c = some t) :
    DataKept u s t := by
  unfold State.writeResponse at h
  dsimp only at h
  split at h
  · cases h
  · split at h
    · cases h
    · rw [← Option.some.inj h]
      exact List.foldlRecOn (motive := DataKept u s) _ _ DataKept.refl fun _ k _ _ => k.writeRun hz _ _ _ _

end

/-! ### READ_RESP -/

section
variable {s : State} {j : Nat} {c : Crate} {r : ReadOut}

/-- What a response does at the tile that sent the request it answers. -/
def State.answered (s : State) (u : Nat) (r : ReadOut) (c : Crate) : State :=
  let y := s.mapTile u fun x => { x with reads := x.reads.filter fun q => q.id != r.id }
  match y.writeResponse u r c with
  | some t => t.crateDone u r.ticket r.ticketAdd
  | none => y.crateDrop u

theorem execCrateReadResp_lands (hc : s.fab.corridor[j]? = some c) (hmay : s.mayArrive j c = true) (hr : s.routerBad c.destTile = false)
    (hstore : s.toStore c.destTile c = false) (hop : c.op = 2) (htarget : c.target ≠ 3) (hon : s.ts c.destTile ≠ tsOFF)
    (hq : (s.tile c.destTile).reads.find? (fun q => q.id == c.request % 256) = some r) :
    exec (.crateReadResp j) s = .next (s.orBlocked ((s.dropCorridor j).answered c.destTile r c)) := by
  have hq' : ((s.dropCorridor j).tile c.destTile).reads.find? (fun q => q.id == c.request % 256) = some r := hq
  have hon' : (s.dropCorridor j).ts c.destTile ≠ tsOFF := hon
  show Host.Outcome.next (s.arrive j 2 _) = _
  rw [State.arrive_lands hc hmay hr hstore hop rfl, if_neg (by simp [htarget, hon']), hq']
  rfl

/-- The request that a response answers is outstanding no more, and the crates and the pairing block stand. -/
theorem State.answered_spec (u : Nat) (hz : s.pair.freeze = none) (hfits : s.f (tk u r.ticket) 0 16 + r.ticketAdd ≤ 65535) :
    (s.answered u r c).fab = s.fab ∧ (s.answered u r c).pair = s.pair ∧ ∀ q ∈ ((s.answered u r c).tile u).reads, q.id ≠ r.id := by
  unfold State.answered
  dsimp only
  generalize hy : (s.mapTile u fun x => { x with reads := x.reads.filter fun q => q.id != r.id }) = y
  have hsame : y.fab = s.fab ∧ y.pair = s.pair ∧ y.f (tk u r.ticket) 0 16 = s.f (tk u r.ticket) 0 16 := by rw [← hy]; exact ⟨rfl, rfl, rfl⟩
  obtain ⟨hyfab, hypair, hytk⟩ := hsame
  have hyreads : ∀ q ∈ (y.tile u).reads, q.id ≠ r.id := fun q hq => by
    rw [← hy, State.tile_mapTile, if_pos rfl] at hq
    simpa using (List.mem_filter.1 hq).2
  split
  next t ht =>
    obtain ⟨hreads, hfab, hpair, htk⟩ := State.writeResponse_dataKept (by rw [hypair, hz]) ht
    have hroom : t.f (tk u r.ticket) 0 16 + r.ticketAdd ≤ 65535 := by
      have := htk r.ticket
      omega
    obtain ⟨honly, -, -⟩ := State.crateDone_spec hroom
    generalize t.crateDone u r.ticket r.ticketAdd = z at honly
    have hz : z.fab = t.fab ∧ z.pair = t.pair := by rw [honly]; exact ⟨rfl, rfl⟩
    refine ⟨hz.1.trans (hfab.trans hyfab), hz.2.trans (hpair.trans hypair), fun q hq => ?_⟩
    rw [honly.tile, hreads] at hq
    exact hyreads q hq
  next =>
    obtain ⟨htiles, hfab, hpair, -⟩ := y.crateDrop_spec u
    refine ⟨hfab.trans hyfab, hpair.trans hypair, fun q hq => hyreads q ?_⟩
    unfold State.tile at hq ⊢
    rwa [htiles] at hq

end

/-! ### READ_REQ -/

section
variable {s : State} {u : Nat}

theorem raceBytes_nil (space a k : Nat) (bs : List Byte) : raceBytes [] space a k bs = bs := by
  induction bs generalizing a k with
  | nil => rfl
  | cons b bs ih =>
    unfold raceBytes
    rw [ih, if_neg (by simp [inRaced])]

/-- No step is open that could be writing, where every unit is idle. -/
theorem State.openRanges_idle (h : (s.tile u).idle = true) (k : Unit4) : s.openRanges u k = [] := by
  simp only [Tile.idle, Bool.and_eq_true, Option.isNone_iff_eq_none] at h
  obtain ⟨⟨⟨hmove, -⟩, -⟩, hvector⟩ := h
  unfold State.openRanges
  simp [hmove, hvector]

/-- Scratch without stored errors or poison reads as it stands (R72). -/
theorem State.readAt_clean (herr : (s.tile u).scrErr = []) (hpois : (s.tile u).scrPoison = []) (o n r : Nat) :
    (s.readAt u .scratch [] o n r).1.bytes = agets 0 (s.tile u).scratch o n ∧ (s.readAt u .scratch [] o n r).1.marks.any id = false
      ∧ (s.readAt u .scratch [] o n r).2 = s.setTile u (s.tile u) := by
  unfold State.readAt State.scratchRead
  generalize s.tile u = x at herr hpois ⊢
  cases x
  subst herr hpois
  simp [aget, raceBytes_nil]

/-- A write to a table brings no entry but its own. -/
theorem any_aput {α : Type} [DecidableEq α] (d : α) (p : Nat × α → Bool) {m : Assoc α} {k : Nat} {v : α} (hv : p (k, v) = false)
    (hm : m.any p = false) : (aput d m k v).any p = false := by
  induction m with
  | nil =>
    unfold aput
    split <;> simp [hv]
  | cons e m ih =>
    obtain ⟨j, w⟩ := e
    rw [List.any_cons, Bool.or_eq_false_iff] at hm
    unfold aput
    split
    · rw [List.any_cons, hm.1, ih hm.2, Bool.or_false]
    · have hrest : (((j, w) :: m).dropWhile fun e => decide (e.1 ≤ k)).any p = false := by
        rw [List.any_eq_false]
        intro e he
        rcases List.mem_cons.1 ((List.dropWhile_sublist _).subset he) with rfl | hin
        · simp [hm.1]
        · exact List.any_eq_false.1 hm.2 e hin
      dsimp only
      split
      · exact hrest
      · rw [List.any_cons, hv, hrest, Bool.or_false]

/-- Putting a tile whose router is sound in its own place leaves every sound way sound. -/
theorem State.pathOk_setTile (hr : s.routerBad u = false) {a b : Nat} (h : s.pathOk a b = true) :
    (s.setTile u (s.tile u)).pathOk a b = true := by
  have hbad : (s.setTile u (s.tile u)).routerBad = s.routerBad := by
    funext v
    unfold State.routerBad
    rw [State.tile_setTile]
    split
    next hv => rw [hv]
    next => rfl
  unfold State.pathOk at h ⊢
  rw [hbad]
  rcases (Bool.or_eq_true _ _).mp h with hmesh | hway
  · have hsound : (s.setTile u (s.tile u)).meshSound = true := by
      unfold State.meshSound at hmesh ⊢
      rw [Bool.not_eq_true'] at hmesh ⊢
      exact any_aput _ _ hr hmesh
    rw [hsound, Bool.true_or]
  · rw [hway, Bool.or_true]

/-- A READ_REQ counted, and its bytes sent back. -/
def State.responded (y : State) (u : Nat) (c : Crate) (bytes : List Byte) : State :=
  (y.perf u rTILE_CRATE_IN_COUNT 1).sendCrate u (c.response y.myId y.epochNow bytes false)

theorem State.responded_spec {y : State} {c : Crate} {bytes : List Byte} (hu : c.destTile = u) (hm : y.substMod c.srcModule = y.myId)
    (hp : y.pathOk u c.srcTile = true) : (∃ r, (y.responded u c bytes).fab.corridor = y.fab.corridor ++ [r]
        ∧ r.op = 2 ∧ r.request = c.request ∧ r.destTile = c.srcTile ∧ r.srcTile = u ∧ r.poison = false ∧ r.data = bytes
        ∧ r.length = r.data.length)
      ∧ (y.responded u c bytes).pair = y.pair
      ∧ RegsBut [tr u rTILE_CRATE_IN_COUNT, tr u rTILE_CRATE_OUT_COUNT] y (y.responded u c bytes) := by
  have hin := y.perf_onlyRegs u rTILE_CRATE_IN_COUNT 1
  have hregs : RegsBut [tr u rTILE_CRATE_IN_COUNT, tr u rTILE_CRATE_OUT_COUNT] y (y.perf u rTILE_CRATE_IN_COUNT 1) :=
    (RegsBut.refl _ y).perfIn (by simp) 1
  have hsame : SameBlocks y (y.perf u rTILE_CRATE_IN_COUNT 1) := hregs.sameBlocks (by simp [tr_high])
  unfold State.responded
  generalize y.perf u rTILE_CRATE_IN_COUNT 1 = z at hin hregs hsame
  have hout := z.perf_onlyRegs u rTILE_CRATE_OUT_COUNT 1
  have hregs' : RegsBut [tr u rTILE_CRATE_IN_COUNT, tr u rTILE_CRATE_OUT_COUNT] y (z.perf u rTILE_CRATE_OUT_COUNT 1) :=
    hregs.perfIn (by simp) 1
  have hz : z.substMod (c.response y.myId y.epochNow bytes false).destModule = z.myId := (hsame.substMod _).trans (hm.trans hsame.myId.symm)
  rw [State.sendCrate_local (show (2 : Nat) ≠ 4 by decide) hz]
  generalize z.perf u rTILE_CRATE_OUT_COUNT 1 = x at hout hregs'
  have hx : x.pathOk u c.srcTile = true := (State.pathOk_of_tiles (hout.sameTiles.trans hin.sameTiles) _ _).trans hp
  rw [State.toCorridor_sound hx]
  have hfab : x.fab = y.fab ∧ x.pair = y.pair := by rw [hout, hin]; exact ⟨rfl, rfl⟩
  refine ⟨⟨_, congrArg (fun f : FabState => f.corridor ++ [_]) hfab.1, rfl, rfl, rfl, hu, rfl, rfl, rfl⟩, hfab.2, ?_⟩
  exact hregs'.same rfl

theorem execCrateReadReq_lands {j : Nat} {c : Crate} (hc : s.fab.corridor[j]? = some c) (hmay : s.mayArrive j c = true)
    (hr : s.routerBad c.destTile = false) (hop : c.op = 1) (hl : s.landing c.destTile c = some .scratch) (hidle : (s.tile c.destTile).idle = true)
    (herr : (s.tile c.destTile).scrErr = []) (hpois : (s.tile c.destTile).scrPoison = []) : exec (.crateReadReq j) s = .next (s.orBlocked
      (((s.dropCorridor j).setTile c.destTile (s.tile c.destTile)).responded c.destTile c
        (agets 0 (s.tile c.destTile).scratch c.offset c.length))) := by
  have hl' : (s.dropCorridor j).landing c.destTile c = some .scratch := hl
  obtain ⟨hbytes, hmarks, hstate⟩ := State.readAt_clean (s := s.dropCorridor j) (u := c.destTile) herr hpois c.offset c.length rdCrate
  show Host.Outcome.next (s.arrive j 1 _) = _
  rw [State.arrive_lands hc hmay hr (State.toStore_scratch hl (by rw [hop]; decide)) hop rfl, hl']
  dsimp only
  rw [State.openRanges_idle (s := s.dropCorridor j) hidle, hbytes, hmarks, hstate]
  rfl

end

/-- Settles O17: what the request's tile sends back, and what the response leaves. -/
theorem readsAreAnswered : Obligations.ReadsAreAnswered := by
  intro s j c hc hmay hr hblocked u
  refine ⟨fun hop hl hidle herr hpois hm hp => ?_, fun r hop htarget hon hstore hq hfits hz => ?_⟩
  · have hexec := execCrateReadReq_lands hc hmay hr hop hl hidle herr hpois
    obtain ⟨⟨r, hcorr, hrop, hreq, hdest, hsrc, hpoison, hdata, hlen⟩, hpair, hregs⟩ :=
      State.responded_spec (u := u) (y := (s.dropCorridor j).setTile u (s.tile u)) (c := c) (bytes := agets 0 (s.tile u).scratch c.offset c.length)
        rfl hm (State.pathOk_setTile (s := s.dropCorridor j) hr hp)
    rw [State.orBlocked_unblocked (by rw [hpair]; exact hblocked)] at hexec
    exact ⟨_, r, hexec, hcorr, hrop, hreq, hdest, hsrc, hpoison, hdata, hlen, hregs⟩
  · have hexec := execCrateReadResp_lands hc hmay hr hstore hop htarget hon hq
    obtain ⟨hfab, hpair, hreads⟩ := State.answered_spec (s := s.dropCorridor j) (c := c) u hz hfits
    rw [State.orBlocked_unblocked (by rw [hpair]; exact hblocked)] at hexec
    exact ⟨_, hexec, congrArg FabState.corridor hfab, hreads⟩

end Sys2Proof.Machine

/-! PROOFS. Where a step that issues leaves its tile (R54, R111 to R130), for steps that complete at once and steps placed in a unit. -/

namespace Sys2Proof.Machine

open Sys2Proof

/-! ### Bits of a step word (R126) -/

/-- A word whose bits lie in a mask has them in a wider one. -/
theorem resOk_mono {n m k : Nat} (h : resOk n m = true) (hm : m &&& k = m) : resOk n k = true := by
  unfold resOk at *
  rw [beq_iff_eq] at *
  rw [← h, Nat.and_assoc, hm]

/-- A field outside the mask of a word is 0. -/
theorem fld_eq_zero_of_resOk {n m lo w : Nat} (h : resOk n m = true) (hm : fld m lo w = 0) : fld n lo w = 0 := by
  unfold resOk at h
  rw [beq_iff_eq] at h
  have hand : fld (n &&& m) lo w = fld n lo w &&& fld m lo w := by
    simp only [fld, Nat.and_div_two_pow, Nat.and_mod_two_pow]
  rw [← h, hand, hm, Nat.and_zero]

/-- The check that an operand which a bit selects against is 0. -/
theorem unused_operand {b : Bool} {n : Nat} (h : b = true → n = 0) : (!(b && n != 0)) = true := by
  cases b
  · rfl
  · rw [h rfl]
    rfl

theorem bit_eq_false {n i : Nat} (h : fld n i 1 = 0) : bit n i = false := by unfold bit; rw [h]; rfl

/-! ### The tile that a step leaves -/

/-- The tile stands at position `P` and is `T`; besides registers of `as` and the tile, nothing differs. -/
structure Stands (as : List Nat) (u P : Nat) (T : Tile) (s t : State) : Prop where
  pos : t.pos u = P
  tile : t.tile u = T
  only : OnlyTile u s t
  regs : RegsBut as s t

section
variable {as : List Nat} {s t x : State} {u P p : Nat} {T : Tile}

theorem Stands.mapTile (h : Stands as u P T s t) (g : Tile → Tile) : Stands as u P (g T) s (t.mapTile u g) :=
  ⟨h.pos, by rw [State.tile_mapTile, if_pos rfl, h.tile], h.only.mapTile g, h.regs.same rfl⟩

/-- The tile written back as it was makes no difference. -/
theorem Stands.of_back (h : Stands as u P T (s.setTile u (s.tile u)) t) : Stands as u P T s t :=
  ⟨h.pos, h.tile, ((OnlyTile.refl u s).setTile _).trans h.only, ((RegsBut.refl as s).same rfl).trans h.regs⟩

theorem stands_mapTile (s : State) (u : Nat) (g : Tile → Tile) : Stands [] u (s.pos u) (g (s.tile u)) s (s.mapTile u g) :=
  Stands.mapTile ⟨rfl, rfl, OnlyTile.refl u s, RegsBut.refl _ s⟩ g

/-- Execution moved to a position of the half. -/
theorem Stands.setPos (h : Stands as u P T s t) (ha : tr u rTILE_EXEC_POS ∈ as) {i : Nat} (hi : i ≤ 4095) : Stands as u i T s (t.setPos u i) :=
  ⟨State.pos_setPos t u hi, h.tile, h.only.regs (OnlyRegs.setf _ _ _ _ _), h.regs.setfIn ha _ _ _⟩

theorem Stands.mono {bs : List Nat} (h : Stands as u P T s t) (hs : ∀ a ∈ as, a ∈ bs) : Stands bs u P T s t := ⟨h.pos, h.tile, h.only, h.regs.mono hs⟩

/-- The tile after the step at position `p`, by the loop rules. -/
theorem stands_went (hgo : GoesOn s u p) (ht : x.tile u = s.tile u) :
    Stands [tr u rTILE_EXEC_POS] u (loopNext (s.tile u).loops p).2 { s.tile u with loops := (loopNext (s.tile u).loops p).1 } x (x.went u p) :=
  ⟨by rw [State.pos_went (hgo.of_tile ht), ht], by rw [State.tile_went, ht], State.went_onlyTile x u p, State.went_regsBut x u p⟩

end

/-! ### Steps by what their command does -/

/-- Command `i` issues the step at the tile's position, which once checked does `r`. -/
def IssuesBy (i : Instr) (cls op : Nat) (s : State) (u : Nat) (w : Word64) (r : State → State) : Prop :=
  ∃ body, exec i s = .next (s.issue u cls op body) ∧ ∀ x, x.regs = s.regs → x.tile u = s.tile u → body x w (s.pos u) = .go (r x)

section
variable {i : Instr} {cls op : Nat} {s : State} {u P p : Nat} {w : Word64} {r : State → State} {T : Tile} {as : List Nat}

/-- A step that is issued leaves the tile as it does on the tile it finds, with one more execution noted (R54). -/
theorem IssuesBy.stands (hi : IssuesBy i cls op s u w r) (h : Ready s u w cls op)
    (hr : ∀ x, x.tile u = s.tile u → Stands as u P T x (r x)) :
    ∃ t, exec i s = .next t ∧ Stands as u P (T.countExec (s.pos u)) s t := by
  obtain ⟨body, hexec, hb⟩ := hi
  rw [State.issue_go h hb] at hexec
  exact ⟨_, hexec, (hr (s.setTile u (s.tile u)) (by rw [State.tile_setTile, if_pos rfl])).of_back.mapTile fun x => x.countExec (s.pos u)⟩

/-- The counting of a step that completes leaves the tile as it stands (R105). -/
theorem Stands.stepDone {t : State} (h : Stands [tr u rTILE_EXEC_POS] u P T s t) :
    Stands [tr u rTILE_EXEC_POS, tr u rTILE_STEP_COUNT] u P T s (t.stepDone u) := by
  have hdone := t.stepDone_regsBut u
  have honly : OnlyRegs t (t.stepDone u) := State.perf_onlyRegs _ _ _ _
  refine ⟨?_, (honly.tile u).trans h.tile, h.only.regs honly, (h.regs.mono (by simp)).trans (hdone.mono (by simp))⟩
  exact (congrArg (· / 8) (hdone.f (by simp [tr_inj, rTILE_EXEC_POS, rTILE_STEP_COUNT]) 0 15)).trans h.pos

/-- A step that completes as it issues: where it leaves the tile, and that it is counted. -/
theorem IssuesBy.completes (hi : IssuesBy i cls op s u w fun x => (r x).stepDone u) (h : Ready s u w cls op)
    (hr : ∀ x, x.tile u = s.tile u → Stands [tr u rTILE_EXEC_POS] u P T x (r x)) :
    ∃ t, exec i s = .next t ∧ Stands [tr u rTILE_EXEC_POS, tr u rTILE_STEP_COUNT] u P (T.countExec (s.pos u)) s t ∧ Counted s t u := by
  obtain ⟨body, hexec, hb⟩ := hi
  rw [State.issue_go h hb] at hexec
  have hback := (hr (s.setTile u (s.tile u)) (by rw [State.tile_setTile, if_pos rfl])).of_back
  refine ⟨_, hexec, hback.stepDone.mapTile fun x => x.countExec (s.pos u), ?_⟩
  exact counted_stepDone hback.regs (by simp [tr_inj, rTILE_EXEC_POS, rTILE_STEP_COUNT]) (by simp [tr_inj, rTILE_EXEC_POS, rTILE_PERF_CTRL])

/-- A step that goes on past position `p` and changes the tile by `g`, which comes to `T` there. -/
theorem IssuesBy.doneStep {g : Tile → Tile} (hi : IssuesBy i cls op s u w fun x => (r x).stepDone u) (h : Ready s u w cls op)
    (hr : ∀ x, x.tile u = s.tile u → Stands [tr u rTILE_EXEC_POS] u (loopNext (s.tile u).loops p).2
      (g { s.tile u with loops := (loopNext (s.tile u).loops p).1 }) x (r x)) :
    ∃ t, exec i s = .next t ∧ DoneStep s t u p [] g := by
  obtain ⟨t, hexec, ⟨hpos, htile, honly, hregs⟩, hcount⟩ := hi.completes h hr
  exact ⟨t, hexec, ⟨hpos, htile⟩, hcount, honly, hregs⟩

/-- A step that goes on past position `p` and does nothing else. -/
theorem IssuesBy.goesOn (hi : IssuesBy i cls op s u w fun x => (x.went u p).stepDone u) (h : Ready s u w cls op) (hgo : GoesOn s u p) :
    ∃ t, exec i s = .next t ∧ DoneStep s t u p [] id :=
  hi.doneStep h fun _ ht => stands_went hgo ht

end

end Sys2Proof.Machine

/-! PROOFS. The flow steps (R119, R120, R127 to R130, R133): O4, O5. -/

namespace Sys2Proof.Machine

open Sys2Proof

section
variable {s : State} {u : Nat} {w : Word64}

theorem State.hangArmed_of_regs {s x : State} (h : x.regs = s.regs) : x.hangArmed = s.hangArmed := by
  unfold State.hangArmed
  rw [State.f_of_regs h]

/-! ### NOP, HANG and FENCE -/

theorem execNop_goesOn (h : Ready s u w 0 0) (hc : Clean w 0) (hgo : GoesOn s u (s.pos u)) :
    ∃ t, exec (.nop u) s = .next t ∧ DoneStep s t u (s.pos u) [] id :=
  IssuesBy.goesOn ⟨_, rfl, fun x _ ht => by
    dsimp only
    rw [hc.resOk (k := opMask) rfl, State.goNext_of_goesOn (hgo.of_tile ht)]
    rfl⟩ h hgo

theorem execHangStep_goesOn (h : Ready s u w 0 2) (hc : Clean w 0) (hgo : GoesOn s u (s.pos u)) (harm : s.hangArmed = false) :
    ∃ t, exec (.hangStep u) s = .next t ∧ DoneStep s t u (s.pos u) [] id :=
  IssuesBy.goesOn ⟨_, rfl, fun x hr ht => by
    dsimp only
    rw [hc.resOk (k := opMask) rfl, State.hangArmed_of_regs hr, harm, State.goNext_of_goesOn (hgo.of_tile ht)]
    rfl⟩ h hgo

/-- What a legal FENCE does once checked: it completes where its units are idle, and otherwise it holds issue (R133). -/
theorem execFence_body (hc : Clean w (mk 0 4)) (hgo : GoesOn s u (s.pos u)) :
    IssuesBy (.fence u) 0 8 s u w fun x => if (s.tile u).fenced (fld w.toNat 0 4) then (x.went u (s.pos u)).stepDone u
      else (x.went u (s.pos u)).mapTile u fun y => { y with holding := .fence (fld w.toNat 0 4) } :=
  ⟨_, rfl, fun x _ ht => by
    dsimp only
    rw [hc.resOk rfl, State.advance_of_goesOn (hgo.of_tile ht), ht]
    cases (s.tile u).fenced (fld w.toNat 0 4) <;> rfl⟩

theorem execFence_goesOn (h : Ready s u w 0 8) (hc : Clean w (mk 0 4)) (hgo : GoesOn s u (s.pos u))
    (hf : (s.tile u).fenced (fld w.toNat 0 4) = true) : ∃ t, exec (.fence u) s = .next t ∧ DoneStep s t u (s.pos u) [] id := by
  have hi := execFence_body hc hgo
  simp only [hf, if_true] at hi
  exact hi.goesOn h hgo

/-! ### JUMP and BRANCH (R128, R130) -/

/-- The tile at position `P` with the loop levels `ls`. -/
theorem stands_moved {x : State} {P : Nat} (ht : x.tile u = s.tile u) (hP : P ≤ 4095) (g : Tile → Tile) :
    Stands [tr u rTILE_EXEC_POS] u P (g (s.tile u)) x ((x.mapTile u g).setPos u P) :=
  ht ▸ ((stands_mapTile x u g).mono (by simp)).setPos (by simp) hP

/-- A step that jumps to a position of the half: the levels that end before it are popped (R130). -/
theorem IssuesBy.jumps {i : Instr} {cls op P : Nat} (hi : IssuesBy i cls op s u w fun x =>
      ((x.mapTile u fun y => { y with loops := loopLeave y.loops P }).setPos u P).stepDone u)
    (h : Ready s u w cls op) (hP : P ≤ 4095) :
    ∃ t, exec i s = .next t ∧ t.pos u = P ∧ Counted s t u ∧ OnlyTile u s t
      ∧ t.tile u = ({ s.tile u with loops := (s.tile u).loops.dropWhile fun l => decide (l.start + l.body < P) }).countExec (s.pos u)
      ∧ RegsBut [tr u rTILE_EXEC_POS, tr u rTILE_STEP_COUNT] s t := by
  obtain ⟨t, hexec, ⟨hpos, htile, honly, hregs⟩, hcount⟩ := hi.completes h fun x ht => stands_moved ht hP _
  exact ⟨t, hexec, hpos, hcount, honly, htile, hregs⟩

theorem State.jumpTo_within {P : Nat} (hP : P ≤ 4095) (w : Word64) : s.jumpTo u P w =
    .go (((s.mapTile u fun y => { y with loops := loopLeave y.loops P }).setPos u P).stepDone u) := if_neg (Nat.not_lt.mpr hP)

theorem execJump_body (hc : Clean w (mk 0 12)) (hd : fld w.toNat 0 12 ≠ 0) (hP : s.pos u + fld w.toNat 0 12 ≤ 4095) :
    IssuesBy (.jump u) 0 3 s u w fun x => ((x.mapTile u fun y =>
      { y with loops := loopLeave y.loops (s.pos u + fld w.toNat 0 12) }).setPos u (s.pos u + fld w.toNat 0 12)).stepDone u :=
  ⟨_, rfl, fun x _ _ => by
    dsimp only
    rw [hc.resOk rfl, State.jumpTo_within hP, bne_iff_ne.2 hd]
    rfl⟩

/-- A legal BRANCH jumps or goes on, as its comparison holds or not (R128). -/
theorem execBranch_body (hc : Clean w (mk 45 11 + mk 0 12)) (hd : fld w.toNat 0 12 ≠ 0) (hcond : fld w.toNat 45 3 < 6) :
    ∃ body, exec (.branch u) s = .next (s.issue u 0 4 body) ∧ ∀ x, x.tile u = s.tile u → body x w (s.pos u) =
      if branchTaken (fld w.toNat 45 3) ((s.tile u).sreg (fld w.toNat 52 4)) ((s.tile u).sreg (fld w.toNat 48 4))
        then x.jumpTo u (s.pos u + fld w.toNat 0 12) w else x.goNext u (s.pos u) w id :=
  ⟨_, rfl, fun x ht => by
    dsimp only
    rw [hc.resOk (k := opMask + mk 45 11 + mk 0 12) rfl, bne_iff_ne.2 hd, decide_eq_true hcond, ht]
    rfl⟩

theorem execBranch_goesOn (h : Ready s u w 0 4) (hc : Clean w (mk 45 11 + mk 0 12)) (hgo : GoesOn s u (s.pos u)) (hd : fld w.toNat 0 12 ≠ 0)
    (hcond : fld w.toNat 45 3 < 6)
    (hnot : branchTaken (fld w.toNat 45 3) ((s.tile u).sreg (fld w.toNat 52 4)) ((s.tile u).sreg (fld w.toNat 48 4)) = false) :
    ∃ t, exec (.branch u) s = .next t ∧ DoneStep s t u (s.pos u) [] id := by
  obtain ⟨body, hexec, hb⟩ := execBranch_body (s := s) (u := u) hc hd hcond
  refine IssuesBy.goesOn ⟨body, hexec, fun x _ ht => ?_⟩ h hgo
  rw [hb x ht, hnot, State.goNext_of_goesOn (hgo.of_tile ht)]
  rfl

theorem execBranch_jumps (hc : Clean w (mk 45 11 + mk 0 12)) (hd : fld w.toNat 0 12 ≠ 0)
    (hcond : fld w.toNat 45 3 < 6) (hP : s.pos u + fld w.toNat 0 12 ≤ 4095)
    (htaken : branchTaken (fld w.toNat 45 3) ((s.tile u).sreg (fld w.toNat 52 4)) ((s.tile u).sreg (fld w.toNat 48 4)) = true) :
    IssuesBy (.branch u) 0 4 s u w fun x => ((x.mapTile u fun y =>
      { y with loops := loopLeave y.loops (s.pos u + fld w.toNat 0 12) }).setPos u (s.pos u + fld w.toNat 0 12)).stepDone u := by
  obtain ⟨body, hexec, hb⟩ := execBranch_body (s := s) (u := u) hc hd hcond
  refine ⟨body, hexec, fun x _ ht => ?_⟩
  rw [hb x ht, htaken, if_pos rfl, State.jumpTo_within hP]

/-! ### LOOP (R129, R130) -/

/-- How many times a LOOP runs its body: an immediate, or sA. -/
def State.loopCount (s : State) (u n : Nat) : Nat := if bit n 55 then ((s.tile u).sreg (fld n 48 4)).toNat else fld n 24 24

/-- A LOOP without a cause: it uses one of its two counts, there is a level for it, and its body lies within the level it stands in
and within the half. -/
structure LoopLegal (s : State) (u : Nat) (w : Word64) : Prop where
  clean : Clean w (mk 55 1 + mk 48 4 + mk 24 24 + mk 0 12)
  body : fld w.toNat 0 12 ≠ 0
  noImm : bit w.toNat 55 = true → fld w.toNat 24 24 = 0
  noReg : bit w.toNat 55 = false → fld w.toNat 48 4 = 0
  level : (s.tile u).loops.length < 4
  inside : ∀ l ∈ (s.tile u).loops.head?, s.pos u + fld w.toNat 0 12 ≤ l.start + l.body
  half : s.pos u + fld w.toNat 0 12 ≤ 4095

/-- A legal LOOP goes on past its body, or pushes a level and goes on with it. -/
theorem execLoopStep_body (hl : LoopLegal s u w) :
    ∃ body, exec (.loopStep u) s = .next (s.issue u 0 5 body) ∧ ∀ x, x.tile u = s.tile u → body x w (s.pos u) =
      if s.loopCount u w.toNat = 0 then x.goNext u (s.pos u + fld w.toNat 0 12) w id
      else .go (((x.mapTile u fun y => { y with loops := ⟨s.pos u, fld w.toNat 0 12, 0, s.loopCount u w.toNat⟩ :: y.loops }).setPos u
        (s.pos u + 1)).stepDone u) := by
  obtain ⟨hc, hbody, himm, hreg, hlevel, hinside, hhalf⟩ := hl
  refine ⟨_, rfl, fun x ht => ?_⟩
  dsimp only
  rw [ht]
  refine if_pos ?_
  simp only [Bool.and_eq_true, decide_eq_true_eq]
  refine ⟨⟨⟨⟨⟨⟨hc.resOk rfl, bne_iff_ne.2 hbody⟩, ?_⟩, ?_⟩, hlevel⟩, ?_⟩, hhalf⟩
  · exact unused_operand himm
  · exact unused_operand fun hb => hreg (by simpa using hb)
  · split
    next => rfl
    next l ls hls => exact decide_eq_true (hinside l (by rw [hls]; rfl))

/-- A LOOP of count 0 goes on past its body. -/
theorem execLoopStep_goesOn (h : Ready s u w 0 5) (hl : LoopLegal s u w) (h0 : s.loopCount u w.toNat = 0)
    (hgo : GoesOn s u (s.pos u + fld w.toNat 0 12)) :
    ∃ t, exec (.loopStep u) s = .next t ∧ DoneStep s t u (s.pos u + fld w.toNat 0 12) [] id := by
  obtain ⟨body, hexec, hb⟩ := execLoopStep_body hl
  refine IssuesBy.goesOn ⟨body, hexec, fun x _ ht => ?_⟩ h hgo
  rw [hb x ht, if_pos h0, State.goNext_of_goesOn (hgo.of_tile ht)]
  rfl

/-- Another LOOP pushes a level and goes on with its body. -/
theorem execLoopStep_pushes (h : Ready s u w 0 5) (hl : LoopLegal s u w) (h0 : s.loopCount u w.toNat ≠ 0) :
    ∃ t, exec (.loopStep u) s = .next t ∧ t.pos u = s.pos u + 1 ∧ Counted s t u ∧ OnlyTile u s t
      ∧ t.tile u = ({ s.tile u with loops := ⟨s.pos u, fld w.toNat 0 12, 0, s.loopCount u w.toNat⟩ :: (s.tile u).loops }).countExec (s.pos u)
      ∧ RegsBut [tr u rTILE_EXEC_POS, tr u rTILE_STEP_COUNT] s t := by
  obtain ⟨body, hexec, hb⟩ := execLoopStep_body hl
  have hP : s.pos u + 1 ≤ 4095 := by have := hl.body; have := hl.half; omega
  obtain ⟨t, hexec, ⟨hpos, htile, honly, hregs⟩, hcount⟩ :=
    IssuesBy.completes ⟨body, hexec, fun x _ ht => (hb x ht).trans (if_neg h0)⟩ h fun x ht => stands_moved ht hP _
  exact ⟨t, hexec, hpos, hcount, honly, htile, hregs⟩

end

/-! ### The statements -/

/-- Settles O4: each step goes on as `advance` does, a LOOP of count 0 from the end of its body. -/
theorem flowStepsGoOn : Obligations.FlowStepsGoOn := by
  intro s u w
  refine ⟨execNop_goesOn, execHangStep_goesOn, execBranch_goesOn, execFence_goesOn, ?_⟩
  intro h hc hreg hcount hbody hlevel hinside hhalf hgo
  have himm : fld w.toNat 24 24 = 0 := fld_eq_zero_of_resOk hc (by decide)
  refine execLoopStep_goesOn h ⟨resOk_mono hc (by decide), hbody, fun _ => himm, hreg, hlevel, hinside, hhalf⟩ ?_ hgo
  unfold State.loopCount
  split
  next hb => rw [hcount hb]; rfl
  next => exact himm

/-- Settles O5: a jump pops the levels that end before its target, and a LOOP pushes its own with either count. -/
theorem stepsJumpAndLoop : Obligations.StepsJumpAndLoop := by
  intro s u w
  dsimp only
  refine ⟨fun h hc hd hP => (execJump_body hc hd hP).jumps h hP,
    fun h hc hd hcond hP htaken => (execBranch_jumps hc hd hcond hP htaken).jumps h hP, ?_, ?_⟩
  · rintro h hc hbody ⟨hlevel, hinside, hhalf⟩ hcount
    have hb : bit w.toNat 55 = false := bit_eq_false (fld_eq_zero_of_resOk hc (by decide))
    have hreg : fld w.toNat 48 4 = 0 := fld_eq_zero_of_resOk hc (by decide)
    have he : s.loopCount u w.toNat = fld w.toNat 24 24 := if_neg (by simp [hb])
    have hl : LoopLegal s u w :=
      ⟨resOk_mono hc (by decide), hbody, fun e => absurd e (by simp [hb]), fun _ => hreg, hlevel, hinside, hhalf⟩
    exact he ▸ execLoopStep_pushes h hl (he ▸ hcount)
  · rintro h hc hb hbody ⟨hlevel, hinside, hhalf⟩ hcount
    have himm : fld w.toNat 24 24 = 0 := fld_eq_zero_of_resOk hc (by decide)
    have he : s.loopCount u w.toNat = ((s.tile u).sreg (fld w.toNat 48 4)).toNat := if_pos hb
    have hl : LoopLegal s u w :=
      ⟨resOk_mono hc (by decide), hbody, fun _ => himm, fun e => absurd (hb.symm.trans e) (by decide), hlevel, hinside, hhalf⟩
    exact he ▸ execLoopStep_pushes h hl (he ▸ hcount)

end Sys2Proof.Machine

/-! PROOFS. The scalar steps SALU, SREAD and DADD (R116, R131, R132, R146): O6. -/

namespace Sys2Proof.Machine

open Sys2Proof

/-! ### Scalar registers (R116) -/

/-- A write to s0 is discarded, and s0 reads 0. -/
theorem Tile.sreg_setS_same (x : Tile) (n : Nat) (v : Word) : (x.setS n v).sreg n = if n = 0 then 0 else v := by
  unfold Tile.sreg Tile.setS
  split
  · rfl
  · exact aget_aput_same _ _ _ _

theorem Tile.sreg_setS_ne (x : Tile) {n k : Nat} (v : Word) (h : k ≠ n) : (x.setS n v).sreg k = x.sreg k := by
  unfold Tile.sreg Tile.setS
  by_cases hn : n = 0
  · rw [if_pos hn]
  · rw [if_neg hn]
    exact congrArg (ite (k = 0) 0) (aget_aput_ne _ _ _ h)

/-- The step at the tile's position completes and goes on, with `v` in scalar register `rd`. -/
def WritesScalar (s t : State) (u rd : Nat) (v : Word) : Prop :=
  DoneStep s t u (s.pos u) [] (fun y => y.setS rd v)
    ∧ (t.tile u).sreg rd = (if rd = 0 then 0 else v) ∧ ∀ k, k ≠ rd → (t.tile u).sreg k = (s.tile u).sreg k

section
variable {s : State} {u : Nat} {w : Word64}

theorem IssuesBy.writesScalar {i : Instr} {cls op rd : Nat} {v : Word}
    (hi : IssuesBy i cls op s u w fun x => ((x.went u (s.pos u)).mapTile u fun y => y.setS rd v).stepDone u)
    (h : Ready s u w cls op) (hgo : GoesOn s u (s.pos u)) : ∃ t, exec i s = .next t ∧ WritesScalar s t u rd v := by
  obtain ⟨t, hexec, hdone⟩ := hi.doneStep (g := fun y => y.setS rd v) h fun x ht => (stands_went hgo ht).mapTile fun y => y.setS rd v
  refine ⟨t, hexec, hdone, ?_⟩
  obtain ⟨⟨-, htile⟩, -⟩ := hdone
  rw [htile]
  exact ⟨Tile.sreg_setS_same _ _ _, fun k hk => Tile.sreg_setS_ne _ _ hk⟩

/-! ### SALU (R131) -/

/-- SALU's second operand: an immediate, or RB. -/
def State.saluB (s : State) (u n : Nat) : Word := if bit n 39 then BitVec.ofNat 32 (fld n 0 32) else (s.tile u).sreg (fld n 44 4)

theorem execSalu_writes (h : Ready s u w 0 6) (hgo : GoesOn s u (s.pos u)) (hc : Clean w (mk 39 17 + mk 0 32)) (hf : fld w.toNat 40 4 < 12)
    (hreg : bit w.toNat 39 = true → fld w.toNat 44 4 = 0) (himm : bit w.toNat 39 = false → fld w.toNat 0 32 = 0) :
    ∃ t, exec (.salu u) s = .next t
      ∧ WritesScalar s t u (fld w.toNat 52 4) (saluFn (fld w.toNat 40 4) ((s.tile u).sreg (fld w.toNat 48 4)) (s.saluB u w.toNat)) :=
  IssuesBy.writesScalar ⟨_, rfl, fun x _ ht => by
    dsimp only
    rw [hc.resOk (k := opMask + mk 39 17 + mk 0 32) rfl, decide_eq_true hf, unused_operand hreg,
      unused_operand fun hb => himm (by simpa using hb), State.goNext_of_goesOn (hgo.of_tile ht), ht]
    rfl⟩ h hgo

/-- The functions by FUNC. -/
theorem saluFn_spec (f : Nat) (a b : Word) : (f = 0 → saluFn f a b = a + b) ∧ (f = 1 → saluFn f a b = a - b)
    ∧ (f = 2 → saluFn f a b = a &&& b) ∧ (f = 3 → saluFn f a b = a ||| b) ∧ (f = 4 → saluFn f a b = a ^^^ b)
    ∧ (f = 5 → saluFn f a b = a <<< (b.toNat % 32)) ∧ (f = 6 → saluFn f a b = a >>> (b.toNat % 32))
    ∧ (f = 7 → saluFn f a b = a.sshiftRight (b.toNat % 32)) ∧ (f = 8 → saluFn f a b = a * b)
    ∧ (f = 9 → (saluFn f a b).toNat = min a.toNat b.toNat) ∧ (f = 10 → (saluFn f a b).toNat = max a.toNat b.toNat)
    ∧ (f = 11 → saluFn f a b = b) := by
  have hmin : (saluFn 9 a b).toNat = min a.toNat b.toNat := by
    simp only [saluFn]
    split <;> omega
  have hmax : (saluFn 10 a b).toNat = max a.toNat b.toNat := by
    simp only [saluFn]
    split <;> omega
  refine ⟨?_, ?_, ?_, ?_, ?_, ?_, ?_, ?_, ?_, ?_, ?_, ?_⟩ <;> rintro rfl
  exacts [rfl, rfl, rfl, rfl, rfl, rfl, rfl, rfl, rfl, hmin, hmax, rfl]

/-! ### SREAD (R132) -/

theorem State.sreadSource_of_regs {x : State} (hr : x.regs = s.regs) (ht : x.tile u = s.tile u) (src ix : Nat) :
    x.sreadSource u src ix = s.sreadSource u src ix := by
  have hrd : ∀ a, x.rd a = s.rd a := fun a => by unfold State.rd; rw [hr]
  unfold State.sreadSource
  simp only [hrd, ht, State.f_of_regs hr]

theorem execSread_writes (h : Ready s u w 0 7) (hgo : GoesOn s u (s.pos u)) (hc : Clean w (mk 52 4 + mk 40 8 + mk 0 6)) {v : Word}
    (hv : s.sreadSource u (fld w.toNat 40 8) (fld w.toNat 0 6) = some v) :
    ∃ t, exec (.sread u) s = .next t ∧ WritesScalar s t u (fld w.toNat 52 4) v :=
  IssuesBy.writesScalar ⟨_, rfl, fun x hr ht => by
    dsimp only
    rw [State.sreadSource_of_regs hr ht, hv]
    dsimp only
    rw [hc.resOk (k := opMask + mk 52 4 + mk 40 8 + mk 0 6) rfl, State.goNext_of_goesOn (hgo.of_tile ht)]
    rfl⟩ h hgo

/-- The iterations of a loop level. -/
theorem State.sreadSource_loop {ix : Nat} {l : LoopLevel} (hl : (s.tile u).loops[ix]? = some l) :
    s.sreadSource u 1 ix = some (BitVec.ofNat 32 l.completed) := by
  unfold State.sreadSource
  simp [List.head?_drop, hl]

/-! ### DADD (R146) -/

/-- A wrapped number is the number modulo the width. -/
theorem wrapInt_spec (n : Nat) (i : Int) : wrapInt n i < 2 ^ n ∧ ((wrapInt n i : Nat) - i) % (2 ^ n : Nat) = 0 := by
  have hpos : (0 : Int) < (2 ^ n : Nat) := by exact_mod_cast Nat.two_pow_pos n
  have hnn := Int.emod_nonneg i (ne_of_gt hpos)
  have hlt := Int.emod_lt_of_pos i hpos
  have hnat : ((wrapInt n i : Nat) : Int) = i % (2 ^ n : Nat) := Int.toNat_of_nonneg hnn
  refine ⟨by rw [← hnat] at hlt; exact_mod_cast hlt, ?_⟩
  rw [hnat]
  exact Int.emod_eq_zero_of_dvd (Int.dvd_sub_self_of_emod_eq rfl)

/-- The BASE that DADD leaves where it was `base`. -/
def State.daddBase (s : State) (u n base : Nat) : Nat := wrapInt 40 ((base : Int) + ((s.tile u).sreg (fld n 48 4)).toNat + sext 32 (fld n 0 32))

/-- A descriptor of the tile with a BASE. -/
def Tile.setBase (x : Tile) (d b : Nat) : Tile := { x with d := aput Desc.zero x.d d ((x.desc d).withBase b) }

/-- The tile `y` with DADD's sum in its descriptor. -/
def State.daddTile (s : State) (u n : Nat) (y : Tile) : Tile := y.setBase (fld n 52 4) (s.daddBase u n (y.desc (fld n 52 4)).base)

theorem execDadd_adds (h : Ready s u w 2 4) (hgo : GoesOn s u (s.pos u)) (hc : Clean w (mk 48 8 + mk 0 32))
    (hhaz : (s.tile u).hazard [rDesc (fld w.toNat 52 4)] [] = false) :
    ∃ t, exec (.dadd u) s = .next t ∧ DoneStep s t u (s.pos u) []
      fun y => y.setBase (fld w.toNat 52 4) (s.daddBase u w.toNat ((s.tile u).desc (fld w.toNat 52 4)).base) := by
  have hi : IssuesBy (.dadd u) 2 4 s u w fun x => ((x.went u (s.pos u)).mapTile u (s.daddTile u w.toNat)).stepDone u :=
    ⟨_, rfl, fun x _ ht => by
      dsimp only
      rw [hc.resOk (k := opMask + mk 48 8 + mk 0 32) rfl, State.goNext_of_goesOn (hgo.of_tile ht), ht, hhaz]
      rfl⟩
  exact hi.doneStep h fun x ht => (stands_went hgo ht).mapTile (s.daddTile u w.toNat)

end

/-- Settles O6: what SALU and SREAD write by FUNC, and the BASE that DADD leaves. -/
theorem scalarSteps : Obligations.ScalarSteps := by
  intro s u w hgo
  dsimp only
  refine ⟨fun h hc hf hreg himm => ?_, fun h hc => ⟨fun hsrc => ?_, fun hsrc l hl => ?_, fun hsrc hix => ?_, fun hsrc hix => ?_, fun hsrc hix => ?_⟩,
    fun h hc hhaz => ?_⟩
  · obtain ⟨t, hexec, hwrites⟩ := execSalu_writes h hgo hc hf hreg himm
    exact ⟨t, _, hexec, hwrites, saluFn_spec _ _ _⟩
  · exact execSread_writes h hgo hc (by rw [hsrc]; rfl)
  · exact execSread_writes h hgo hc (by rw [hsrc]; exact State.sreadSource_loop hl)
  · exact execSread_writes h hgo hc (by rw [hsrc, hix]; rfl)
  · exact execSread_writes h hgo hc (by rw [hsrc, hix]; rfl)
  · exact execSread_writes h hgo hc (by rw [hsrc, hix]; rfl)
  · obtain ⟨t, hexec, hdone⟩ := execDadd_adds h hgo hc hhaz
    obtain ⟨hlt, hmod⟩ := wrapInt_spec 40 _
    exact ⟨t, s.daddBase u w.toNat _, hexec, hlt, hmod, hdone⟩

end Sys2Proof.Machine

/-! PROOFS. Steps that hold issue at the hang point or a fence (R120, R133, R135): O7. -/

namespace Sys2Proof.Machine

open Sys2Proof

section
variable {s : State} {u : Nat} {w : Word64}

/-- An armed HANG step holds issue at its own position (R120). -/
theorem execHangStep_holds (h : Ready s u w 0 2) (hc : Clean w 0) (harm : s.hangArmed = true) :
    ∃ t, exec (.hangStep u) s = .next t ∧ OnlyTile u s t ∧ RegsBut [] s t
      ∧ t.tile u = ({ s.tile u with holding := .hang }).countExec (s.pos u) := by
  have hi : IssuesBy (.hangStep u) 0 2 s u w fun x => x.mapTile u fun y => { y with holding := .hang } := ⟨_, rfl, fun x hr _ => by
    dsimp only
    rw [hc.resOk (k := opMask) rfl, State.hangArmed_of_regs hr, harm]
    rfl⟩
  obtain ⟨body, hexec, hb⟩ := hi
  rw [State.issue_go h hb] at hexec
  have hstands := ((stands_mapTile (s.setTile u (s.tile u)) u fun y => { y with holding := .hang }).of_back).mapTile fun x => x.countExec (s.pos u)
  rw [State.tile_setTile, if_pos rfl] at hstands
  exact ⟨_, hexec, hstands.only, hstands.regs, hstands.tile⟩

/-- A tile that enters HANG at a position holds nothing more. -/
theorem Stands.enterHang {P : Nat} {T : Tile} {t : State} (h : Stands [tr u rTILE_EXEC_POS] u P T s t) :
    Stands [tr u rTILE_STATE, tr u rTILE_EXEC_POS] u P { T with holding := .none } s (t.enterHang u) := by
  have hheld := h.mapTile fun x => { x with holding := .none }
  have hset := RegsBut.setf (t.mapTile u fun x => { x with holding := .none }) (tr u rTILE_STATE) 0 3 tsHANG
  refine ⟨?_, hheld.tile, hheld.only.regs (OnlyRegs.setf _ _ _ _ _), (hheld.regs.mono (by simp)).trans (hset.mono (by simp))⟩
  exact (congrArg (· / 8) (hset.f (by simp [tr_inj, rTILE_EXEC_POS, rTILE_STATE]) 0 15)).trans hheld.pos

/-- The tile past the HANG step, where there is a step past it. -/
theorem State.pastHang_stands (s : State) (u : Nat) : ∃ (y : State) (P : Nat) (T : Tile),
    (match s.advance u (s.pos u) with | some s' => s'.enterHang u | none => s.enterHang u) = y.enterHang u
      ∧ Stands [tr u rTILE_EXEC_POS] u P T s y ∧ (GoesOn s u (s.pos u) → P = (loopNext (s.tile u).loops (s.pos u)).2) := by
  by_cases hgo : GoesOn s u (s.pos u)
  · rw [State.advance_of_goesOn hgo]
    exact ⟨_, _, _, rfl, stands_went hgo rfl, fun _ => rfl⟩
  · have hnone : s.advance u (s.pos u) = none := if_pos (Nat.lt_of_not_le hgo)
    rw [hnone]
    exact ⟨s, s.pos u, s.tile u, rfl, ⟨rfl, rfl, OnlyTile.refl u s, RegsBut.refl _ s⟩, fun h => absurd h hgo⟩

/-- The hang point, with every unit idle: the tile enters HANG past the step, which is counted (R120). -/
theorem execHangPointReached_enters (hts : s.ts u = tsRUN) (hh : (s.tile u).holding = .hang) (hidle : (s.tile u).idle = true)
    (harm : s.hangArmed = true) :
    ∃ t, exec (.hangPointReached u) s = .next t ∧ t.ts u = tsHANG ∧ (t.tile u).holding = .none ∧ Counted s t u
      ∧ (GoesOn s u (s.pos u) → t.pos u = (loopNext (s.tile u).loops (s.pos u)).2)
      ∧ OnlyTile u s t ∧ RegsBut [tr u rTILE_STATE, tr u rTILE_EXEC_POS, tr u rTILE_STEP_COUNT] s t := by
  have hexec : exec (.hangPointReached u) s = .next
      ((match s.advance u (s.pos u) with | some s' => s'.enterHang u | none => s.enterHang u).stepDone u) :=
    congrArg Host.Outcome.next (if_pos (by simp [hts, hh, hidle, harm]))
  obtain ⟨y, P, T, he, hy, hP⟩ := s.pastHang_stands u
  rw [he] at hexec
  obtain ⟨hpos, htile, honly, hregs⟩ := hy.enterHang
  have hdone := (y.enterHang u).stepDone_regsBut u
  have hcount : OnlyRegs (y.enterHang u) ((y.enterHang u).stepDone u) := State.perf_onlyRegs _ _ _ _
  refine ⟨_, hexec, ?_, ?_, ?_, fun hgo => ?_, honly.regs hcount, (hregs.mono (by simp +contextual)).trans (hdone.mono (by simp))⟩
  · exact (hdone.f (by simp [tr_inj, rTILE_STATE, rTILE_STEP_COUNT]) 0 3).trans (State.ts_setTs _ _ (by decide))
  · rw [hcount.tile, htile]
  · exact counted_stepDone hregs (by simp [tr_inj, rTILE_STATE, rTILE_EXEC_POS, rTILE_STEP_COUNT])
      (by simp [tr_inj, rTILE_STATE, rTILE_EXEC_POS, rTILE_PERF_CTRL])
  · exact ((congrArg (· / 8) (hdone.f (by simp [tr_inj, rTILE_EXEC_POS, rTILE_STEP_COUNT]) 0 15)).trans hpos).trans (hP hgo)

/-- A FENCE on a busy unit goes on, and holds issue there (R133). -/
theorem execFence_holds (h : Ready s u w 0 8) (hc : Clean w (mk 0 4)) (hgo : GoesOn s u (s.pos u))
    (hf : (s.tile u).fenced (fld w.toNat 0 4) = false) :
    ∃ t, exec (.fence u) s = .next t ∧ OnlyTile u s t ∧ RegsBut [tr u rTILE_EXEC_POS] s t
      ∧ Went s t u (s.pos u) fun x => { x with holding := .fence (fld w.toNat 0 4) } := by
  have hi := execFence_body hc hgo
  simp only [hf, Bool.false_eq_true, if_false] at hi
  obtain ⟨t, hexec, hpos, htile, honly, hregs⟩ := hi.stands h fun x ht =>
    (stands_went hgo ht).mapTile fun y => { y with holding := .fence (fld w.toNat 0 4) }
  exact ⟨t, hexec, honly, hregs, hpos, htile⟩

/-- Units that a FENCE waits for become idle: it completes, whatever clear waits for that (R63, R133). -/
theorem execFenceComplete_completes {k : Nat} (hh : (s.tile u).holding = .fence k) (hts : s.ts u = tsRUN) (hf : (s.tile u).fenced k = true) :
    ∃ t, exec (.fenceComplete u) s = .next t ∧ Counted s t u ∧ RegsBut [tr u rTILE_STEP_COUNT] s t ∧ (t.tile u).holding = .none
      ∧ ((s.tile u).deferred.any (·.isClear) = false → OnlyTile u s t ∧ t.tile u = { s.tile u with holding := .none }) := by
  have hexec : exec (.fenceComplete u) s = .next
      ((s.completing u fun x => x.stepDone u).mapTile u fun x => { x with holding := .none }) := by
    show Host.Outcome.next _ = _
    rw [hh]
    exact congrArg Host.Outcome.next (if_pos (by simp [hts, hf]))
  obtain ⟨x, ds, hx, hxt, -, -, hregs, hflags, -, -, -, hplain⟩ :=
    State.completing_frame (s := s) (u := u) (g := fun x => x.stepDone u) (as := [tr u rTILE_STEP_COUNT])
      (by simp [tr_inj, rTILE_ARITH_STAT, rTILE_STEP_COUNT]) fun x _ _ => x.stepDone_regsBut u
  refine ⟨_, hexec, ?_, hregs.same rfl, by rw [State.tile_mapTile, if_pos rfl], fun hno => ?_⟩
  · have hcount : Counted s (x.stepDone u) u := counted_stepDone hx (by simp [tr_inj, rTILE_ARITH_STAT, rTILE_STEP_COUNT])
      (by simp [tr_inj, rTILE_ARITH_STAT, rTILE_PERF_CTRL])
    unfold Counted at hcount ⊢
    rw [State.rn_mapTile, hflags.rn (by simp [tr_inj, rTILE_ARITH_STAT, rTILE_STEP_COUNT]), hcount]
  · obtain ⟨-, ht⟩ := hplain hno
    have hdone : OnlyRegs s (s.stepDone u) := State.perf_onlyRegs _ _ _ _
    rw [ht]
    exact ⟨((OnlyTile.refl u s).regs hdone).mapTile _, by rw [State.tile_mapTile, if_pos rfl, hdone.tile]⟩

end

/-- Settles O7: the hang point and the fence, held and completed. -/
theorem hangAndFenceHold : Obligations.HangAndFenceHold := fun _ _ _ =>
  ⟨execHangStep_holds, execHangPointReached_enters, execFence_holds, fun _ hh hts hf => execFenceComplete_completes hh hts hf⟩

end Sys2Proof.Machine

/-! PROOFS. Steps placed in a unit (R111 to R113, R123, R142 to R162): O11, O12, O13. -/

namespace Sys2Proof.Machine

open Sys2Proof

section
variable {s x : State} {u : Nat} {w : Word64}

/-! ### What checking and capturing read of a state -/

theorem State.capture_of_regs (hr : x.regs = s.regs) (ht : x.tile u = s.tile u) (w : Word64) (p : Nat) : x.capture u w p = s.capture u w p := by
  have hrd : ∀ a, x.rd a = s.rd a := fun a => by unfold State.rd; rw [hr]
  unfold State.capture
  simp only [hrd, ht, State.f_of_regs hr]

theorem rangeCauses_of_regs (hr : x.regs = s.regs) : rangeCauses x u = rangeCauses s u := by
  funext y w inStore d aux
  unfold rangeCauses
  rw [State.f_of_regs hr]

theorem localCauses_of_regs (hr : x.regs = s.regs) : @localCauses x u = @localCauses s u := by
  funext y w n inStore
  unfold localCauses
  rw [rangeCauses_of_regs hr]

theorem elementCauses_of_regs (hr : x.regs = s.regs) : elementCauses x u = elementCauses s u := by
  funext y w n
  unfold elementCauses
  rw [rangeCauses_of_regs hr]

theorem matrixCauses_of_regs (hr : x.regs = s.regs) : matrixCauses x u = matrixCauses s u := by
  funext y w n
  unfold matrixCauses
  rw [localCauses_of_regs hr]

theorem vecDescCauses_of_regs (hr : x.regs = s.regs) : vecDescCauses x u = vecDescCauses s u := by
  funext y w b rep
  unfold vecDescCauses
  rw [localCauses_of_regs hr]

/-! ### Placing a step -/

/-- A step without a cause is placed in its unit, where that is idle and no hazard holds it. -/
theorem State.toUnit_places {k : Unit4} {p : Nat} (hr : x.regs = s.regs) (ht : x.tile u = s.tile u) (hgo : GoesOn s u p) (hfree : UnitFree s u k w) :
    x.toUnit u k w p [] = .go ((x.went u p).mapTile u fun y => y.setUnit k (some (s.capture u w p))) := by
  obtain ⟨hidle, hhaz⟩ := hfree
  have hnone : (((s.tile u).unit k).isSome || (s.tile u).hazard (readsOf (s.tile u) w.toNat) (writesOf (s.tile u) w.toNat)) = false := by
    rw [hhaz, Bool.or_false, ← Option.not_isNone, hidle]
    rfl
  unfold State.toUnit
  dsimp only
  rw [ht, hnone, State.advance_of_goesOn (hgo.of_tile ht), State.capture_of_regs hr ht]
  rfl

/-- Checking the step at the tile's position finds no cause, and gives it to unit `k`. -/
def ChecksFor (i : Instr) (cls op : Nat) (s : State) (u : Nat) (k : Unit4) (w : Word64) : Prop :=
  ∃ body, exec i s = .next (s.issue u cls op body) ∧ ∀ x, x.regs = s.regs → x.tile u = s.tile u →
    body x w (s.pos u) = x.toUnit u k w (s.pos u) []

theorem ChecksFor.placed {i : Instr} {cls op : Nat} {k : Unit4} (hi : ChecksFor i cls op s u k w) (h : Ready s u w cls op)
    (hgo : GoesOn s u (s.pos u)) (hfree : UnitFree s u k w) : ∃ t, exec i s = .next t ∧ InUnit s t u k w := by
  obtain ⟨body, hexec, hb⟩ := hi
  have hissue : IssuesBy i cls op s u w fun x => (x.went u (s.pos u)).mapTile u fun y => y.setUnit k (some (s.capture u w (s.pos u))) :=
    ⟨body, hexec, fun x hr ht => (hb x hr ht).trans (State.toUnit_places hr ht hgo hfree)⟩
  obtain ⟨t, hexec, hpos, htile, honly, hregs⟩ := hissue.stands h fun x ht =>
    (stands_went hgo ht).mapTile fun y => y.setUnit k (some (s.capture u w (s.pos u)))
  exact ⟨t, hexec, ⟨hpos, htile⟩, honly, hregs⟩

/-! ### Move steps (R143, R146) -/

theorem execCopy_checks (hc : Clean w (mk 46 10)) (ha : localCauses s u (s.tile u) w (fld w.toNat 52 4) = [])
    (hb : localCauses s u (s.tile u) w (fld w.toNat 48 4) = [])
    (he : ((s.tile u).desc (fld w.toNat 52 4)).elems = ((s.tile u).desc (fld w.toNat 48 4)).elems) :
    ChecksFor (.copy u) 2 0 s u .move w :=
  ⟨_, rfl, fun x hr ht => by
    dsimp only
    rw [hc.resOk rfl, localCauses_of_regs hr, ht, ha, hb, if_pos he]
    rfl⟩

theorem execFill_checks (hc : Clean w (mk 46 10)) (ha : localCauses s u (s.tile u) w (fld w.toNat 52 4) = []) :
    ChecksFor (.fill u) 2 1 s u .move w :=
  ⟨_, rfl, fun x hr ht => by
    dsimp only
    rw [hc.resOk rfl, localCauses_of_regs hr, ht, ha]
    rfl⟩

/-- A word of scratch that a DLOAD or DSTORE may name. -/
theorem descAddrCauses_nil {y : Tile} (ha : descAddr y w.toNat % 32 = 0) (hin : descAddr y w.toNat + 32 ≤ 0x40000) : descAddrCauses y w = [] :=
  if_pos ⟨ha, hin⟩

theorem execDload_checks (hc : Clean w (mk 48 8 + mk 0 18)) (ha : descAddrCauses (s.tile u) w = []) : ChecksFor (.dload u) 2 2 s u .move w :=
  ⟨_, rfl, fun x _ ht => by
    rw [hc.resOk (k := opMask + mk 48 8 + mk 0 18) rfl, ht, ha]
    rfl⟩

theorem execDstore_checks (hc : Clean w (mk 48 8 + mk 0 18)) (ha : descAddrCauses (s.tile u) w = []) : ChecksFor (.dstore u) 2 3 s u .move w :=
  ⟨_, rfl, fun x _ ht => by
    rw [hc.resOk (k := opMask + mk 48 8 + mk 0 18) rfl, ht, ha]
    rfl⟩

/-! ### Matrix steps (R154 to R159) -/

theorem execHold_checks (hc : Clean w (mk 52 4)) (ha : matrixCauses s u (s.tile u) w (fld w.toNat 52 4) = [])
    (hf : matrixFmt ((s.tile u).desc (fld w.toNat 52 4)).format = true)
    (h0 : ((s.tile u).desc (fld w.toNat 52 4)).n0 ≤ heldMax ((s.tile u).desc (fld w.toNat 52 4)).format)
    (h1 : ((s.tile u).desc (fld w.toNat 52 4)).n1 = 64) (h2 : ((s.tile u).desc (fld w.toNat 52 4)).n2 = 1) :
    ChecksFor (.hold u) 4 0 s u .matrix w :=
  ⟨_, rfl, fun x hr ht => by
    dsimp only
    rw [hc.resOk rfl, matrixCauses_of_regs hr, ht, ha, hf, decide_eq_true h0, h1, h2]
    rfl⟩

theorem execMma_checks (hc : Clean w (mk 42 14)) (hcomp : fld w.toNat 43 2 ≠ 3) (hflow : bit w.toNat 55 = false → fld w.toNat 45 4 = 0)
    (ha : matrixCauses s u (s.tile u) w (fld w.toNat 49 4) = [])
    (hb : bit w.toNat 55 = true → matrixCauses s u (s.tile u) w (fld w.toNat 45 4) = []) (hshape : mmaShapeOk (s.tile u) w.toNat = true)
    (hidle : ((s.tile u).unit .matrix).isNone = true) : ChecksFor (.mma u) 4 1 s u .matrix w :=
  ⟨_, rfl, fun x hr ht => by
    have hflow' : (bit w.toNat 55 || fld w.toNat 45 4 == 0) = true := by
      cases h : bit w.toNat 55
      · simp [hflow h]
      · rfl
    have hb' : (if bit w.toNat 55 then matrixCauses s u (s.tile u) w (fld w.toNat 45 4) else []) = [] := by
      split
      next h => exact hb h
      next => rfl
    have hidle' : (s.tile u).matrixU.isSome = false := by rw [← Option.not_isNone]; exact congrArg not hidle
    dsimp only
    rw [hc.resOk rfl, bne_iff_ne.2 hcomp, hflow', matrixCauses_of_regs hr, ht, ha, hb', hshape, hidle']
    rfl⟩

theorem execMatrixClear_checks (hc : Clean w (mk 52 4)) (hbanks : fld w.toNat 52 4 ≠ 0) : ChecksFor (.matrixClear u) 4 2 s u .matrix w :=
  ⟨_, rfl, fun x _ _ => by
    dsimp only
    rw [hc.resOk rfl, bne_iff_ne.2 hbanks]
    rfl⟩

/-! ### Vector steps (R160 to R164) -/

theorem exec_vecInstr {op : Nat} (hop : op < 16) (u : Nat) (s : State) : exec (vecInstr op u) s = .next (s.issueVec u op) := by
  interval_cases op <;> rfl

theorem vecInstr_checks {op : Nat} (hop : op < 16) (hw : vecWordOk w.toNat = true)
    (hd : ∀ b ∈ fld w.toNat 48 8 :: vecSrcs w.toNat, vecDescCauses s u (s.tile u) w b (fld w.toNat 13 8 + 1) = [])
    (hg : groupStoreOk (s.tile u) w.toNat (fld w.toNat 13 8 + 1) = true) : ChecksFor (vecInstr op u) 5 op s u .vector w :=
  ⟨_, exec_vecInstr hop u s, fun x hr ht => by
    have hnone : ((fld w.toNat 48 8 :: vecSrcs w.toNat).map fun b => vecDescCauses s u (s.tile u) w b (fld w.toNat 13 8 + 1)).flatten = [] := by
      rw [List.flatten_eq_nil_iff]
      exact fun l hl => by obtain ⟨b, hb, rfl⟩ := List.mem_map.1 hl; exact hd b hb
    dsimp only
    rw [hw, vecDescCauses_of_regs hr, ht, hnone, hg]
    rfl⟩

/-! ### Crate steps (R142, R147) -/

theorem execSend_checks (hc : Clean w (mk 40 16 + mk 16 16)) (ha : elementCauses s u (s.tile u) w (fld w.toNat 52 4) = [])
    (hb : remoteCauses (s.tile u) w (fld w.toNat 48 4) = [])
    (hf : ((s.tile u).desc (fld w.toNat 52 4)).format = ((s.tile u).desc (fld w.toNat 48 4)).format)
    (he : ((s.tile u).desc (fld w.toNat 52 4)).elems = ((s.tile u).desc (fld w.toNat 48 4)).elems) :
    ChecksFor (.send u) 3 0 s u .crate w :=
  ⟨_, rfl, fun x hr ht => by
    dsimp only
    rw [hc.resOk (k := opMask + mk 40 16 + mk 16 16) rfl, elementCauses_of_regs hr, ht, ha, hb, if_pos ⟨hf, he⟩]
    rfl⟩

theorem execSignal_checks (hc : Clean w (mk 42 14 + mk 16 16)) (hk : fld w.toNat 48 8 < (s.tile u).corridors.length) :
    ChecksFor (.signal u) 3 1 s u .crate w :=
  ⟨_, rfl, fun x _ ht => by
    dsimp only
    rw [hc.resOk (k := opMask + mk 42 14 + mk 16 16) rfl, ht, decide_eq_true hk]
    rfl⟩

theorem execRead_checks (hc : Clean w (mk 42 14 + mk 16 16)) (ha : elementCauses s u (s.tile u) w (fld w.toNat 52 4) = [])
    (hb : remoteCauses (s.tile u) w (fld w.toNat 48 4) = [])
    (hf : ((s.tile u).desc (fld w.toNat 52 4)).format = ((s.tile u).desc (fld w.toNat 48 4)).format)
    (he : ((s.tile u).desc (fld w.toNat 52 4)).elems = ((s.tile u).desc (fld w.toNat 48 4)).elems) :
    ChecksFor (.read u) 3 2 s u .crate w :=
  ⟨_, rfl, fun x hr ht => by
    dsimp only
    rw [hc.resOk (k := opMask + mk 42 14 + mk 16 16) rfl, elementCauses_of_regs hr, ht, ha, hb, if_pos ⟨hf, he⟩]
    rfl⟩

theorem execCollate_checks (hc : Clean w (mk 42 14 + mk 16 16 + mk 0 12)) (ha : localCauses s u (s.tile u) w (fld w.toNat 52 4) = [])
    (hb : remoteCauses (s.tile u) w (fld w.toNat 48 4) = []) : ChecksFor (.collate u) 3 3 s u .crate w :=
  ⟨_, rfl, fun x hr ht => by
    dsimp only
    rw [hc.resOk (k := opMask + mk 42 14 + mk 16 16 + mk 0 12) rfl, localCauses_of_regs hr, ht, ha, hb]
    rfl⟩

end

/-! ### The statements -/

/-- Settles O11: each check finds no cause, so the step is placed. -/
theorem moveAndMatrixStepsIssue : Obligations.MoveAndMatrixStepsIssue := by
  intro s u w hgo
  exact ⟨fun h hc ha hb he => (execCopy_checks hc ha hb he).placed h hgo,
    fun h hc ha => (execFill_checks hc ha).placed h hgo,
    fun h hc ha hin => (execDload_checks hc (descAddrCauses_nil ha hin)).placed h hgo,
    fun h hc ha hin => (execDstore_checks hc (descAddrCauses_nil ha hin)).placed h hgo,
    fun h hc ha hf h0 h1 h2 => (execHold_checks hc ha hf h0 h1 h2).placed h hgo,
    fun h hc hcomp hflow ha hb hshape hfree => (execMma_checks hc hcomp hflow ha hb hshape hfree.1).placed h hgo hfree,
    fun h hc hbanks => (execMatrixClear_checks hc hbanks).placed h hgo⟩

/-- Settles O12: the sixteen operations share one issue. -/
theorem vectorStepsIssue : Obligations.VectorStepsIssue :=
  fun _ _ _ _ hop h hgo hw hd hg hfree => (vecInstr_checks hop hw hd hg).placed h hgo hfree

/-- Settles O13: each check finds no cause, so the step is placed. -/
theorem crateStepsIssue : Obligations.CrateStepsIssue := by
  intro s u w hgo hfree
  exact ⟨fun h hc ⟨ha, hb⟩ hf he => (execSend_checks hc ha hb hf he).placed h hgo hfree,
    fun h hc hk => (execSignal_checks hc hk).placed h hgo hfree,
    fun h hc ⟨ha, hb⟩ hf he => (execRead_checks hc ha hb hf he).placed h hgo hfree,
    fun h hc ha hb => (execCollate_checks hc ha hb).placed h hgo hfree⟩

end Sys2Proof.Machine

/-! PROOFS. A vector step over v registers completes (R111, R160 to R163): O14. -/

namespace Sys2Proof.Machine

open Sys2Proof

/-! ### Fields of fields -/

theorem testBit_fld (n lo w j : Nat) : (fld n lo w).testBit j = (decide (j < w) && n.testBit (lo + j)) := by
  simp only [fld, Nat.testBit_mod_two_pow, Nat.testBit_div_two_pow, Nat.add_comm]

/-- A field of a field is a field of the word. -/
theorem fld_fld (n : Nat) {a k b c : Nat} (h : b + c ≤ k) : fld (fld n a k) b c = fld n (a + b) c := by
  apply Nat.eq_of_testBit_eq
  intro j
  rw [testBit_fld, testBit_fld, testBit_fld, Nat.add_assoc]
  by_cases hj : j < c
  · simp [hj, show b + j < k by omega]
  · simp [hj]

/-! ### The step's operands -/

/-- The step takes v registers alone, and one group of 256 values: an operation on lanes, under no trap. -/
structure OverRegisters (i : Issued) : Prop where
  cls : fld i.word.toNat 60 4 = 5
  op : fld i.word.toNat 56 4 < 15
  once : fld i.word.toNat 13 8 = 0
  dst : fld i.word.toNat 54 2 = 0
  srcA : fld i.word.toNat 46 2 = 0
  srcB : fld i.word.toNat 38 2 = 0
  srcC : fld i.word.toNat 30 2 = 0
  untrapped : i.trapEn = 0

theorem vecRes_register {b : Nat} (h : fld b 6 2 = 0) (rep : Nat) : ∀ r ∈ vecRes b rep, r < 36 := by
  intro r hr
  unfold vecRes at hr
  rw [h] at hr
  obtain ⟨k, -, rfl⟩ := List.mem_map.1 hr
  exact Nat.lt_of_lt_of_le (Nat.mod_lt _ (by decide)) (by decide)

/-- Resources that are no descriptors name none. -/
theorem expandDescs_of_lt (x : Tile) {rs : List Nat} (h : ∀ r ∈ rs, r < 36) : expandDescs x rs = rs := by
  have hnone : (rs.map fun r => if 36 ≤ r then descNames (x.desc (r - 36)) (r - 36) else []).flatten = [] := by
    rw [List.flatten_eq_nil_iff]
    intro l hl
    obtain ⟨r, hr, rfl⟩ := List.mem_map.1 hl
    exact if_neg (Nat.not_le.mpr (h r hr))
  unfold expandDescs
  rw [hnone, List.append_nil]

section
variable {s : State} {u : Nat} {i : Issued}

/-- A step over registers reads no descriptor. -/
theorem OverRegisters.reads_registers (h : OverRegisters i) (x : Tile) : ∀ r ∈ readsOf x i.word.toNat, r < 36 := by
  have hA := vecRes_register (b := fld i.word.toNat 40 8) (by rw [fld_fld _ (by decide)]; exact h.srcA) (fld i.word.toNat 13 8 + 1)
  have hB := vecRes_register (b := fld i.word.toNat 32 8) (by rw [fld_fld _ (by decide)]; exact h.srcB) (fld i.word.toNat 13 8 + 1)
  have hC := vecRes_register (b := fld i.word.toNat 24 8) (by rw [fld_fld _ (by decide)]; exact h.srcC) (fld i.word.toNat 13 8 + 1)
  unfold readsOf
  simp only [h.cls, h.dst]
  rw [expandDescs_of_lt]
  all_goals
    intro r hr
    simp only [List.mem_append] at hr
    rcases hr with ((hr | hr) | hr) | hr
    · exact hA r hr
    · split at hr
      · exact hB r hr
      · cases hr
    · split at hr
      · exact hC r hr
      · cases hr
    · cases hr

theorem OverRegisters.memRanges (h : OverRegisters i) (s : State) (u : Nat) : s.memRanges u i = [] := by
  unfold State.memRanges
  exact List.filterMap_eq_nil_iff.2 fun r hr => if_pos (h.reads_registers _ r hr)

theorem OverRegisters.stalls (h : OverRegisters i) (s : State) (u : Nat) (v : Bool) : s.stalls u i v = s := by
  unfold State.stalls
  rw [h.memRanges]
  rfl

theorem OverRegisters.storeHeld (h : OverRegisters i) (s : State) (u : Nat) : s.storeHeld u i = false := by
  unfold State.storeHeld
  rw [h.memRanges]
  rfl

/-! ### Reading and writing registers -/

/-- The 256 lanes of v register `o`. -/
def Tile.lanes (x : Tile) (o : Nat) : List Nat := (agets (0 : Word) x.v (256 * o) 256).map (·.toNat)

theorem agets_getElem? {α : Type} (d : α) (m : Assoc α) (k : Nat) {n j : Nat} (h : j < n) : (agets d m k n)[j]? = some (aget d m (k + j)) := by
  induction n generalizing k j with
  | zero => omega
  | succ n ih =>
    cases j with
    | zero => rfl
    | succ j =>
      rw [agets, List.getElem?_cons_succ, ih (k + 1) (by omega)]
      congr 2
      omega

theorem Tile.lanes_length (x : Tile) (o : Nat) : (x.lanes o).length = 256 := by
  unfold Tile.lanes
  rw [List.length_map, agets_length]

theorem Tile.lanes_getElem? (x : Tile) (o : Nat) {k : Nat} (h : k < 256) : (x.lanes o)[k]? = some (aget (0 : Word) x.v (256 * o + k)).toNat := by
  unfold Tile.lanes
  rw [List.getElem?_map, agets_getElem? _ _ _ h]
  rfl

theorem State.vecRead_register (s : State) (u : Nat) (i : Issued) {n a : Nat} (h : fld n (a + 6) 2 = 0) (fold : Bool) :
    s.vecRead u i (fld n a 8) 1 fold = (⟨(s.tile u).lanes (fld n a 5), 0, 0, none⟩, s) := by
  have hkind : fld (fld n a 8) 6 2 = 0 := (fld_fld n (by decide)).trans h
  have hv : rV (fld (fld n a 8) 0 5 + 0) = fld n a 5 := (congrArg rV (fld_fld n (by decide))).trans (Nat.mod_eq_of_lt (fld_lt n a 5))
  unfold State.vecRead
  rw [hkind]
  simp only [List.range_one, List.map_cons, List.map_nil, List.flatten_cons, List.flatten_nil, List.append_nil, hv]
  rfl

/-- One group of values is one row. -/
theorem rowsOf'_one {α : Type} {xs : List α} (h : xs.length = 256) : rowsOf' 256 xs = [xs] := by
  have hne : xs ≠ [] := fun e => by rw [e] at h; cases h
  unfold rowsOf'
  rw [h, chunksOf, if_neg (by simpa using hne), List.take_of_length_le (by omega), List.drop_eq_nil_of_le (by omega)]
  rfl

theorem State.vecWrite_register (s : State) (u : Nat) (i : Issued) (h : fld i.word.toNat 54 2 = 0) {vals : List Nat} (hl : vals.length = 256) :
    s.vecWrite u i vals = ([], 0, s.mapTile u fun x =>
      { x with v := aputs (0 : Word) x.v (256 * fld i.word.toNat 48 5) (vals.map (BitVec.ofNat 32)) }) := by
  have hdst : fld (fld i.word.toNat 48 8) 6 2 = 0 := by rw [fld_fld _ (by decide)]; exact h
  have hv : rV (fld (fld i.word.toNat 48 8) 0 5 + 0) = fld i.word.toNat 48 5 := by
    rw [fld_fld _ (by decide)]
    exact Nat.mod_eq_of_lt (fld_lt _ 48 5)
  unfold State.vecWrite
  dsimp only
  rw [hdst, rowsOf'_one hl]
  simp only [List.zipIdx_cons, List.zipIdx_nil, List.foldl_cons, List.foldl_nil, hv]

/-! ### The results -/

/-- The lanes of an operand that the operation may not have. -/
def Tile.lanesIf (x : Tile) (c : Bool) (o : Nat) : List Nat := if c then x.lanes o else []

theorem Tile.lanesIf_getD (x : Tile) (c : Bool) (o : Nat) {k : Nat} (h : k < 256) :
    (x.lanesIf c o).getD k 0 = if c then (aget (0 : Word) x.v (256 * o + k)).toNat else 0 := by
  cases c
  · rfl
  · unfold Tile.lanesIf
    rw [if_pos rfl, if_pos rfl, List.getD_eq_getElem?_getD, x.lanes_getElem? o h]
    rfl

/-- The operation's result on each lane (R162). -/
def Tile.laneResults (x : Tile) (n : Nat) : List Cv :=
  (x.lanes (fld n 40 5)).zipIdx.map fun e => vecLane (fld n 56 4) (fld n 0 2) e.1
    ((x.lanesIf (decide (2 ≤ vecSources (fld n 56 4))) (fld n 32 5)).getD e.2 0)
    ((x.lanesIf (decide (3 ≤ vecSources (fld n 56 4))) (fld n 24 5)).getD e.2 0)

theorem Tile.laneResults_length (x : Tile) (n : Nat) : (x.laneResults n).length = 256 := by
  unfold Tile.laneResults
  rw [List.length_map, List.length_zipIdx, x.lanes_length]

theorem Tile.laneResults_getElem? (x : Tile) (n : Nat) {k : Nat} (h : k < 256) : (x.laneResults n)[k]? = some
    (vecLane (fld n 56 4) (fld n 0 2) (aget (0 : Word) x.v (256 * fld n 40 5 + k)).toNat
      (if 2 ≤ vecSources (fld n 56 4) then (aget (0 : Word) x.v (256 * fld n 32 5 + k)).toNat else 0)
      (if 3 ≤ vecSources (fld n 56 4) then (aget (0 : Word) x.v (256 * fld n 24 5 + k)).toNat else 0)) := by
  unfold Tile.laneResults
  rw [List.getElem?_map, List.getElem?_zipIdx, x.lanes_getElem? _ h]
  simp only [Option.map_some, Nat.zero_add, x.lanesIf_getD _ _ h, decide_eq_true_eq]

/-- The tile with the lane results in the destination register. -/
def Tile.vecWritten (x : Tile) (n : Nat) (y : Tile) : Tile :=
  { y with v := aputs (0 : Word) y.v (256 * fld n 48 5) ((x.laneResults n).map fun c => BitVec.ofNat 32 c.code) }

/-- Another operand of the operation, where it has one. -/
theorem State.vecRead_if (s : State) (u : Nat) (i : Issued) {n a : Nat} (h : fld n (a + 6) 2 = 0) (fold : Bool) (p : Prop) [Decidable p] :
    (if p then s.vecRead u i (fld n a 8) 1 fold else (⟨[], 0, 0, none⟩, s)) = (⟨(s.tile u).lanesIf (decide p) (fld n a 5), 0, 0, none⟩, s) := by
  by_cases hp : p
  · rw [if_pos hp, s.vecRead_register u i h, Tile.lanesIf, decide_eq_true hp, if_pos rfl]
  · rw [if_neg hp, Tile.lanesIf, decide_eq_false hp, if_neg Bool.false_ne_true]

/-- An operation but REDUCE works lane by lane. -/
theorem vecResults_lanes (x : Tile) {n : Nat} (h : fld n 56 4 < 15) : vecResults (fld n 56 4) (fld n 0 2) (x.lanes (fld n 40 5))
    (x.lanesIf (decide (2 ≤ vecSources (fld n 56 4))) (fld n 32 5)) (x.lanesIf (decide (3 ≤ vecSources (fld n 56 4))) (fld n 24 5))
      = (x.laneResults n, x.laneResults n) := if_neg (Nat.ne_of_lt h)

/-- The effect of the step: its results, their flags and counts, and the cycles it took. -/
theorem OverRegisters.doVector (h : OverRegisters i) (s : State) (u : Nat) : ∃ fl sat inv k, s.doVector u i =
    ((s.mapTile u ((s.tile u).vecWritten i.word.toNat)).raiseFlags u fl sat inv).perf u rTILE_VECTOR_COUNT k := by
  have hwrite := s.vecWrite_register u { i with raced := i.raced ++ s.openRanges u .vector } h.dst
    (vals := ((s.tile u).laneResults i.word.toNat).map (·.code)) (by rw [List.length_map, Tile.laneResults_length])
  have hcause : ∀ (y : State) (fl : BitVec 8), y.arithCause u { i with raced := i.raced ++ s.openRanges u .vector } fl = y := fun y fl =>
    if_pos (by rw [h.untrapped, Nat.and_zero])
  unfold State.doVector
  dsimp only
  rw [h.once, Nat.zero_add, s.vecRead_register u _ h.srcA]
  dsimp only
  rw [s.vecRead_if u _ h.srcB]
  dsimp only
  rw [s.vecRead_if u _ h.srcC]
  dsimp only
  rw [vecResults_lanes _ h.op]
  dsimp only
  rw [hwrite, hcause, List.map_map]
  exact ⟨_, _, _, _, rfl⟩

/-! ### The completion -/

theorem State.raiseFlags_frame (s : State) (u : Nat) (fl : BitVec 8) (sat inv : Nat) : OnlyRegs s (s.raiseFlags u fl sat inv)
    ∧ RegsBut [tr u rTILE_ARITH_STAT, tr u rTILE_SAT_COUNT, tr u rTILE_INVALID_COUNT] s (s.raiseFlags u fl sat inv) :=
  ⟨rfl, (((RegsBut.refl _ s).wnIn (by simp) _).wnIn (by simp) _).wnIn (by simp) _⟩

/-- What the vector unit's completion does. -/
def State.vectorCompleted (s : State) (u : Nat) (i : Issued) : State := ((s.doVector u i).mapTile u fun x => x.setUnit .vector none).stepDone u

theorem execUnitStepComplete_vector (hu : (s.tile u).vectorU = some i) (h : OverRegisters i) (hdef : (s.tile u).deferred = []) :
    exec (.unitStepComplete u .vector) s = .next (s.orBlocked ((s.vectorCompleted u i).afterUnit u)) := by
  show execUnitStepComplete u .vector s = _
  unfold execUnitStepComplete Tile.unit
  dsimp only
  rw [hu]
  dsimp only
  rw [if_neg (by simp [h.storeHeld])]
  rw [State.completing_of_no_clear (by rw [hdef]; rfl), h.stalls, h.stalls]
  rfl

/-- A completion over registers writes the destination and frees the unit, and besides the counts and flags of its tile nothing else. -/
theorem State.vectorCompleted_spec (h : OverRegisters i) (s : State) (u : Nat) :
    (s.vectorCompleted u i).tile u = { (s.tile u).vecWritten i.word.toNat (s.tile u) with vectorU := none }
      ∧ OnlyTile u s (s.vectorCompleted u i)
      ∧ RegsBut [tr u rTILE_ARITH_STAT, tr u rTILE_SAT_COUNT, tr u rTILE_INVALID_COUNT, tr u rTILE_VECTOR_COUNT, tr u rTILE_STEP_COUNT] s
          (s.vectorCompleted u i) := by
  obtain ⟨fl, sat, inv, k, he⟩ := h.doVector s u
  unfold State.vectorCompleted
  rw [he]
  generalize hx : s.mapTile u ((s.tile u).vecWritten i.word.toNat) = x
  have hxt : x.tile u = (s.tile u).vecWritten i.word.toNat (s.tile u) := by rw [← hx, State.tile_mapTile, if_pos rfl]
  have hxo : OnlyTile u s x := hx ▸ (OnlyTile.refl u s).mapTile _
  have hxr : ∀ as, RegsBut as s x := fun as => hx ▸ (RegsBut.refl as s).same rfl
  obtain ⟨hraise, hraised⟩ := x.raiseFlags_frame u fl sat inv
  have honly : OnlyRegs x ((x.raiseFlags u fl sat inv).perf u rTILE_VECTOR_COUNT k) := hraise.trans (State.perf_onlyRegs _ _ _ _)
  have hregs : RegsBut [tr u rTILE_ARITH_STAT, tr u rTILE_SAT_COUNT, tr u rTILE_INVALID_COUNT, tr u rTILE_VECTOR_COUNT, tr u rTILE_STEP_COUNT] s
      ((x.raiseFlags u fl sat inv).perf u rTILE_VECTOR_COUNT k) :=
    ((hxr _).trans (hraised.mono (by simp +contextual))).perfIn (by simp) k
  generalize (x.raiseFlags u fl sat inv).perf u rTILE_VECTOR_COUNT k = y at honly hregs
  have hdone : OnlyRegs (y.mapTile u fun x => x.setUnit .vector none) ((y.mapTile u fun x => x.setUnit .vector none).stepDone u) :=
    State.perf_onlyRegs _ _ _ _
  refine ⟨?_, ((hxo.regs honly).mapTile _).regs hdone, ?_⟩
  · rw [hdone.tile, State.tile_mapTile, if_pos rfl, honly.tile, hxt]
    rfl
  · exact RegsBut.perfIn (t := y.mapTile u fun x => x.setUnit .vector none) (hregs.same rfl) (by simp) 1

end

/-- Settles O14: lane by lane, the destination reads its result and every other register what it held. -/
theorem vectorStepCompletes : Obligations.VectorStepCompletes := by
  intro s u i hu hblocked hpend hhold hdef
  dsimp only
  intro hcls hop honce hdst hA hB hC htrap
  have h : OverRegisters i := ⟨hcls, hop, honce, hdst, hA, hB, hC, htrap⟩
  have hexec := execUnitStepComplete_vector hu h hdef
  obtain ⟨htile, honly, hregs⟩ := s.vectorCompleted_spec h u
  have hpair : (s.vectorCompleted u i).pair = s.pair := by rw [honly.1]
  rw [State.afterUnit_holds_nothing (by rw [htile]; simpa only [Tile.vecWritten] using hhold), State.orBlocked_unblocked (by rw [hpair]; exact hblocked)] at hexec
  have hlen : ((s.tile u).laneResults i.word.toNat).length = 256 := (s.tile u).laneResults_length _
  have hv : ((s.vectorCompleted u i).tile u).v = aputs (0 : Word) (s.tile u).v (256 * fld i.word.toNat 48 5)
      (((s.tile u).laneResults i.word.toNat).map fun c => BitVec.ofNat 32 c.code) := by
    simp only [htile, Tile.vecWritten]
  refine ⟨_, hexec, by rw [htile], fun k hk => ?_, fun e he => ?_, honly, hregs⟩
  · rw [hv, aget_aputs_at _ _ _ _ (by rw [List.length_map, hlen]; exact hk), List.getD_eq_getElem?_getD, List.getElem?_map,
      (s.tile u).laneResults_getElem? _ hk]
    rfl
  · rw [hv]
    by_cases hlow : e < 256 * fld i.word.toNat 48 5
    · exact aget_aputs_below _ _ _ hlow
    · refine aget_aputs_above _ _ _ ?_
      rw [List.length_map, hlen]
      omega

end Sys2Proof.Machine

/-! PROOFS. Ticket waves of a group (R136, R310 to R317, R324): O29. -/

namespace Sys2Proof.Machine

open Sys2Proof

/-! ### Writes to one key of a table -/

section
variable {α : Type} [DecidableEq α] (d : α)

omit [DecidableEq α] in
/-- What is left of a table past key `k` begins above `k`. -/
theorem lt_of_dropWhile_le {m l : Assoc α} {k j : Nat} {w : α} (h : (m.dropWhile fun e => decide (e.1 ≤ k)) = (j, w) :: l) : k < j := by
  have hhead := List.dropWhile_get_zero_not (fun e : Nat × α => decide (e.1 ≤ k)) m (by rw [h]; exact Nat.succ_pos _)
  simp only [h, List.get_eq_getElem, List.getElem_cons_zero, decide_eq_true_eq] at hhead
  omega

/-- A write below every key of a table. -/
theorem aput_dropWhile_le (m : Assoc α) (k : Nat) (v : α) : aput d (m.dropWhile fun e => decide (e.1 ≤ k)) k v
    = if v = d then m.dropWhile (fun e => decide (e.1 ≤ k)) else (k, v) :: m.dropWhile fun e => decide (e.1 ≤ k) := by
  cases hm : m.dropWhile fun e => decide (e.1 ≤ k) with
  | nil => rfl
  | cons e l =>
    obtain ⟨j, w⟩ := e
    have hj := lt_of_dropWhile_le hm
    rw [aput, if_neg (by omega), List.dropWhile_cons_of_neg (by simpa using hj)]

/-- Of two writes to a key the last stands. -/
theorem aput_aput (m : Assoc α) (k : Nat) (v w : α) : aput d (aput d m k v) k w = aput d m k w := by
  induction m with
  | nil => by_cases hv : v = d <;> simp [aput, hv]
  | cons e m ih =>
    obtain ⟨j, x⟩ := e
    by_cases hj : j < k
    · simp only [aput, hj, if_true, ih]
    · have hw := aput_dropWhile_le d ((j, x) :: m) k w
      by_cases hv : v = d
      · simp only [aput, hj, if_false, hv, if_true, hw]
      · simp only [aput, hj, if_false, hv, Nat.lt_irrefl, Nat.le_refl, decide_true, List.dropWhile_cons_of_pos, List.dropWhile_idempotent]

end

/-! ### A wave group's state (R311 to R315) -/

section
variable {s : State} {g n : Nat} {r : GroupRec} {w : WaveState}

@[simp] theorem State.wave_setWave (s : State) (g : Nat) (w : WaveState) : (s.setWave g w).wave g = w := aget_aput_same _ _ _ _

@[simp] theorem State.setWave_setWave (s : State) (g : Nat) (v w : WaveState) : (s.setWave g v).setWave g w = s.setWave g w := by
  unfold State.setWave
  simp only [aput_aput]

/-- Records leave the wave groups as they are. -/
theorem Recorded.wave {t : State} (h : Recorded s t) (g : Nat) : t.wave g = s.wave g := by
  rw [State.wave, h.fab, State.wave]

/-- A wave that has not begun its phases goes no further. -/
theorem State.progress_forming (h : (s.wave g).phase = 0) (n : Nat) : s.progress g r n = s := by
  cases n with
  | zero => rfl
  | succ n => simp [State.progress, h]

/-- A group with tiles of its own, or of a Registrar kind, begins no wave by a message alone (R311). -/
theorem State.joins_false (h : r.localCount ≠ 0 ∨ registrarKind r.kind = true) : s.joins g r = false := by
  unfold State.joins
  rcases h with h | h <;> simp [h]

/-- With no contribution held nothing is fed to the next wave (R315). -/
theorem State.feedQueued_nil (h : (s.wave g).queued = []) (hj : s.joins g r = false) (n : Nat) : s.feedQueued g r n = s := by
  cases n with
  | zero => rfl
  | succ n => simp [State.feedQueued, h, hj]

/-- Whether a contribution completes its wave is whether it is the last of them (R311). -/
theorem WaveState.take_full (k n : Nat) (w : WaveState) (t : Option (Nat × Nat)) (c : WaveVal) :
    (w.take k n t c).2 = decide (n ≤ w.count + 1) := rfl

/-- The one contribution held, below LOCAL_COUNT, joins the wave now forming, which waits for more (R311). -/
theorem State.feedQueued_one {u k v : Nat} (hphase : (s.wave g).phase = 0) (hqueued : (s.wave g).queued = [(u, k, v)])
    (hcount : (s.wave g).count + 1 < r.localCount) (n : Nat) : s.feedQueued g r (n + 1)
      = s.setWave g ({ s.wave g with queued := [] }.take r.kind r.localCount (some (u, k)) (s.contribution r v)).1 := by
  have hfull : ¬ r.localCount ≤ (s.wave g).count + 1 := by omega
  have hjoins : ∀ x : State, x.joins g r = false := fun _ => State.joins_false (.inl (by omega))
  simp only [State.feedQueued, hqueued, hphase, WaveState.take_full, hfull, decide_false, ne_eq, not_true, if_false, Bool.false_eq_true]
  exact State.feedQueued_nil (by rw [State.wave_setWave]; rfl) (hjoins _) n

/-- A contribution below LOCAL_COUNT joins the wave now forming and nothing else happens (R311). -/
theorem State.contribute_waits {u k v : Nat} (hphase : (s.wave g).phase = 0) (hqueued : (s.wave g).queued = [])
    (hcount : (s.wave g).count + 1 < r.localCount) : s.contribute g r u k v
      = s.setWave g ({ s.wave g with queued := [] }.take r.kind r.localCount (some (u, k)) (s.contribution r v)).1 := by
  have hfeed := State.feedQueued_one (s := s.setWave g { s.wave g with queued := [(u, k, v)] }) (r := r) (g := g) (u := u) (k := k) (v := v)
    (by rw [State.wave_setWave, hphase]) (by rw [State.wave_setWave]) (by rwa [State.wave_setWave]) 1
  rw [State.wave_setWave, State.setWave_setWave] at hfeed
  unfold State.contribute
  simp only [hqueued, List.nil_append, List.length_nil]
  rw [hfeed, State.progress_forming (by rw [State.wave_setWave]; exact hphase)]
  rfl

end

/-! ### A step issued on the tile as it stands -/

section
variable {s : State} {u g : Nat} {w : Word64} {r : GroupRec}

/-- A ready tile issues its step where checking it finds no cause, whatever of the state the check reads. -/
theorem State.issue_go_here {cls op : Nat} {body : State → Word64 → Nat → Issue} {x y : State} (h : Ready s u w cls op)
    (hhere : body s w (s.pos u) = .go x) (hback : body (s.setTile u (s.tile u)) w (s.pos u) = .go y) :
    s.issue u cls op body = y.mapTile u fun x => x.countExec (s.pos u) := by
  have hc := h.correctFetch
  obtain ⟨hcan, hhold, hdef, hpend, hfetch, -, hcls, hop⟩ := h
  unfold State.issue
  simp [hcan, hhold, hdef, hc, hfetch, hcls, hop, hhere, hpend, State.boundary_of_no_deferred hdef, hback, Issue.causes]

/-- A WAVE step that is checked goes on and contributes sA with its ticket (R136, R311). -/
def State.waved (s : State) (u p g : Nat) (w : Word64) (r : GroupRec) : State :=
  (s.went u p).contribute g r u (fld w.toNat 48 6) (((s.went u p).tile u).sreg (fld w.toNat 38 4)).toNat

theorem execWaveStep_waved (h : Ready s u w 1 2) (hc : Clean w (mk 38 16)) (hgo : GoesOn s u (s.pos u)) (hg : fld w.toNat 42 6 = g)
    (hr : s.group g = some r) (hkind : r.kind < 4) : exec (.waveStep u) s
      = .next ((((s.setTile u (s.tile u)).waved u (s.pos u) g w r).stepDone u).mapTile u fun x => x.countExec (s.pos u)) := by
  have hres : resOk w.toNat (opMask + mk 38 16) = true := hc.resOk rfl
  have hreg : registrarKind r.kind = false := decide_eq_false (by omega)
  have hbody : ∀ x : State, x.tile u = s.tile u → legalOr (resOk w.toNat (opMask + mk 38 16) && !registrarKind r.kind) w
      (x.goNext u (s.pos u) w fun x => x.contribute g r u (fld w.toNat 48 6) ((x.tile u).sreg (fld w.toNat 38 4)).toNat)
        = .go ((x.waved u (s.pos u) g w r).stepDone u) := by
    intro x ht
    rw [hres, hreg, State.goNext_of_goesOn (hgo.of_tile ht)]
    rfl
  have hback : (s.setTile u (s.tile u)).group g = some r := hr
  refine congrArg Host.Outcome.next (State.issue_go_here h (x := (s.waved u (s.pos u) g w r).stepDone u) ?_ ?_)
  · simp only [hg, hr]
    exact hbody s rfl
  · simp only [hg, hback]
    exact hbody _ (by rw [State.tile_setTile, if_pos rfl])

/-- Below LOCAL_COUNT the contribution of a WAVE step is all that differs from a step that only goes on (R311). -/
theorem State.waved_waits (hphase : (s.wave g).phase = 0) (hqueued : (s.wave g).queued = [])
    (hcount : (s.wave g).count + 1 < r.localCount) (p : Nat) : ∃ W : WaveState, s.waved u p g w r = (s.setWave g W).went u p
      ∧ W.count = (s.wave g).count + 1 ∧ W.tiles = (s.wave g).tiles ++ [(u, fld w.toNat 48 6)] ∧ W.phase = 0 ∧ W.queued = [] :=
  ⟨_, State.contribute_waits (s := s.went u p) hphase hqueued hcount, rfl, rfl, hphase, rfl⟩

/-- A WAVE step below LOCAL_COUNT adds its contribution and goes on (R136, R311). -/
theorem execWaveStep_waits (h : Ready s u w 1 2) (hc : Clean w (mk 38 16)) (hgo : GoesOn s u (s.pos u)) (hg : fld w.toNat 42 6 = g)
    (hr : s.group g = some r) (hkind : r.kind < 4) (hphase : (s.wave g).phase = 0) (hqueued : (s.wave g).queued = [])
    (hcount : (s.wave g).count + 1 < r.localCount) :
    ∃ t, exec (.waveStep u) s = .next t ∧ Went s t u (s.pos u) id ∧ Counted s t u ∧ (t.wave g).count = (s.wave g).count + 1
      ∧ (t.wave g).tiles = (s.wave g).tiles ++ [(u, fld w.toNat 48 6)] ∧ (t.wave g).phase = 0 ∧ (t.wave g).queued = []
      ∧ RegsBut [tr u rTILE_EXEC_POS, tr u rTILE_STEP_COUNT] s t := by
  obtain ⟨W, hwaved, hWcount, hWtiles, hWphase, hWqueued⟩ :=
    State.waved_waits (s := s.setTile u (s.tile u)) (u := u) (w := w) hphase hqueued hcount (s.pos u)
  have hexec := execWaveStep_waved h hc hgo hg hr hkind
  rw [hwaved] at hexec
  have hwent : Stands [tr u rTILE_EXEC_POS] u _ _ (s.setWave g W) (((s.setTile u (s.tile u)).setWave g W).went u (s.pos u)) :=
    (stands_went (s := s.setWave g W) (x := (s.setWave g W).setTile u (s.tile u)) hgo (by rw [State.tile_setTile, if_pos rfl]; rfl)).of_back
  obtain ⟨hpos, htile, honly, hregs⟩ := hwent.stepDone.mapTile fun x => x.countExec (s.pos u)
  have hcounted : Counted (s.setWave g W) _ u := counted_stepDone hwent.regs
    (by simp [tr_inj, rTILE_EXEC_POS, rTILE_STEP_COUNT]) (by simp [tr_inj, rTILE_EXEC_POS, rTILE_PERF_CTRL])
  have hwave := (congrArg (fun x => x.wave g) honly.1).trans (State.wave_setWave s g W)
  refine ⟨_, hexec, ⟨hpos, htile⟩, hcounted, ?_, ?_, ?_, ?_, hregs⟩
  · exact (congrArg WaveState.count hwave).trans hWcount
  · exact (congrArg WaveState.tiles hwave).trans hWtiles
  · exact (congrArg WaveState.phase hwave).trans hWphase
  · exact (congrArg WaveState.queued hwave).trans hWqueued

end

/-! ### WAVE messages and slow waves (R315, R316, R324) -/

section
variable {s : State} {g ix : Nat} {c : Crate} {r : GroupRec}

/-- The Registrar's queue without its entry `ix`. -/
def State.regTaken (s : State) (ix : Nat) : State := { s with fab := { s.fab with regIn := s.fab.regIn.eraseIdx ix } }

/-- A message for a wave of a group with tiles of its own, still forming, joins what the group has heard (R312). -/
theorem State.takeWave_forming {m : WaveMsg} (hr : s.group m.group = some r) (hlast : (s.wave m.group).last = none)
    (hphase : (s.wave m.group).phase = 0) (hseq : seqBefore m.wave (s.wave m.group).wave = false) (hlocal : r.localCount ≠ 0) :
    s.takeWave m = s.setWave m.group { s.wave m.group with got := (s.wave m.group).got ++ [m] } := by
  have hjoins : ∀ x : State, x.joins m.group r = false := fun _ => State.joins_false (.inl hlocal)
  simp only [State.takeWave, hr, hlast, State.takeWave.go, hseq, Bool.false_eq_true, if_false, hjoins]
  exact State.progress_forming (by rw [State.wave_setWave]; exact hphase) _

/-- The module takes a WAVE message of its generation (R316). -/
theorem execWaveMessage_now (hc : s.fab.regIn[ix]? = some c) (hop : c.op = 0x11) (hkind : at_ c.data 1 1 ≠ 0xFF) (hset : s.unset = false)
    (hgen : at_ c.data 6 2 = s.rn (winBase .pln 0 + rPLN_GEN_LO) % 2 ^ 16) :
    exec (.waveMessage ix) s = .next ((s.regTaken ix).takeWave (waveMsgOf c)) := by
  refine congrArg Host.Outcome.next ?_
  have hmgen : (waveMsgOf c).gen = s.rn (winBase .pln 0 + rPLN_GEN_LO) % 2 ^ 16 := hgen
  simp [hc, hop, hkind, hset, hmgen, State.regTaken]

/-- A WAVE message of a later generation is held while there is room (R315). -/
theorem execWaveMessage_later (hc : s.fab.regIn[ix]? = some c) (hop : c.op = 0x11) (hkind : at_ c.data 1 1 ≠ 0xFF) (hset : s.unset = false)
    (hgen : at_ c.data 6 2 ≠ s.rn (winBase .pln 0 + rPLN_GEN_LO) % 2 ^ 16)
    (hlater : seqBefore (s.rn (winBase .pln 0 + rPLN_GEN_LO) % 2 ^ 16) (at_ c.data 6 2) = true) (hroom : s.fab.heldWaves.length < 64) :
    exec (.waveMessage ix) s = .next { s with fab := { s.fab with
      regIn := s.fab.regIn.eraseIdx ix, heldWaves := s.fab.heldWaves ++ [waveMsgOf c] } } := by
  refine congrArg Host.Outcome.next ?_
  have hmgen : (waveMsgOf c).gen ≠ s.rn (winBase .pln 0 + rPLN_GEN_LO) % 2 ^ 16 := hgen
  have hmlater : seqBefore (s.rn (winBase .pln 0 + rPLN_GEN_LO) % 2 ^ 16) (waveMsgOf c).gen = true := hlater
  simp only [hc, hop, hkind, hset, hmgen, hmlater, hroom, ne_eq, not_true, or_self, if_false, if_true, Bool.false_eq_true]

/-- A wave in its phases past FAB_WAVE_TIME is marked slow, and an event reports it (R324). -/
theorem execWaveSlow_reports (hphase : (s.wave g).phase ≠ 0) (hslow : (s.wave g).slow = false)
    (htime : s.f (winBase .fab 0 + rFAB_WAVE_TIME) 0 16 ≠ 0) :
    exec (.waveSlow g) s = .next ((s.setWave g { s.wave g with slow := true }).event .fab 0 4 s.myId) := by
  refine congrArg Host.Outcome.next (if_pos ?_)
  simp [hphase, hslow, htime]

end

/-! ### A census of SCOPE 0 (R310, R312, R314, R317) -/

section
variable {s : State} {g : Nat} {r : GroupRec}

/-- Within SCOPE 0 a module has no room-mates (R310, R311). -/
theorem State.mates_zero (s : State) : s.mates 0 = [] := by
  have hmembers : s.members 0 = [] := by
    unfold State.members
    cases s.cur.now with
    | none => rfl
    | some p => exact List.filter_eq_nil_iff.2 fun m _ => by by_cases hm : m = s.myId <;> simp [inScope, hm]
  rw [State.mates, hmembers]
  rfl

/-- Within SCOPE 0 the first phase sends nothing (R312). -/
theorem State.enterPhase_alone (hscope : r.scope = 0) : s.enterPhase g r 1 = s.setWave g { s.wave g with phase := 1 } := by
  have hmates : ∀ x : State, x.mates r.scope = [] := fun x => by rw [hscope, State.mates_zero]
  simp only [State.enterPhase, hmates, List.foldl_nil]
  rfl

/-- A wave of the module alone whose contribution is complete, in its first phase (R312). -/
def State.begun (s : State) (w : WaveState) : WaveState :=
  { w with value := { w.value with rooms := 2 ^ (s.myId / 16 % 32), halls := 2 ^ (s.myId / 512) }, since := s.timer, slow := false, phase := 1 }

/-- Within SCOPE 0 a wave begins with the module's own contribution and sends nothing. -/
theorem State.beginWave_alone (hscope : r.scope = 0) (hcount : (s.wave g).count ≠ 0) :
    s.beginWave g r = s.setWave g (s.begun (s.wave g)) := by
  unfold State.beginWave
  rw [State.enterPhase_alone hscope, State.setWave_setWave, State.wave_setWave, if_neg hcount]
  rfl

/-- Without messages the value of a wave is the module's own. -/
theorem State.waveValue_alone {w : WaveState} (h : w.got = []) (p : Nat) : s.waveValue r w p = w.value := by
  unfold State.waveValue
  rw [h]
  rfl

/-- What FAB_CENSUS_STAT shows of a census that has completed with lowest `a` and highest `b`. -/
def censusStat (a b : Nat) (running : Bool) : Nat := a % 256 + b % 256 * 2 ^ 8 + 2 ^ 16 + b2n running * 2 ^ 17

theorem State.waveResult_census (hkind : r.kind = 5) (w : WaveState) (v : WaveVal) : s.waveResult r w v
    = s.wn (winBase .fab 0 + rFAB_CENSUS_STAT) (censusStat v.low v.high s.censusRuns) := by
  unfold State.waveResult
  rw [if_neg (by omega), if_pos hkind]
  rfl

/-- A group after a wave of its own alone has completed: the next is forming (R315). -/
def WaveState.next (w : WaveState) : WaveState :=
  { WaveState.idle with wave := (w.wave + 1) % 2 ^ 16, queued := w.queued, last := some (w.wave, w.value) }

/-- A census without messages ends with its own value (R314, R317). -/
theorem State.endWave_census (hkind : r.kind = 5) (hgot : (s.wave g).got = []) : s.endWave g r
    = (s.setWave g (s.wave g).next).wn (winBase .fab 0 + rFAB_CENSUS_STAT)
        (censusStat (s.wave g).value.low (s.wave g).value.high (s.setWave g (s.wave g).next).censusRuns) := by
  simp only [State.endWave, State.waveValue_alone hgot, hgot, List.filter_nil]
  exact State.waveResult_census hkind _ _

/-- A census of SCOPE 0 completes as soon as its phases begin, and no other wave follows (R312). -/
theorem State.progress_census (hkind : r.kind = 5) (hscope : r.scope = 0) (hphase : (s.wave g).phase ≠ 0) (hgot : (s.wave g).got = [])
    (hqueued : (s.wave g).queued = []) (n : Nat) : s.progress g r (n + 1) = s.endWave g r := by
  have hend : (s.endWave g r).wave g = (s.wave g).next := by
    rw [State.endWave_census hkind hgot]
    exact State.wave_setWave _ _ _
  have hjoins : (s.endWave g r).joins g r = false := State.joins_false (.inr (by rw [hkind]; rfl))
  rw [State.progress, if_neg hphase, if_pos hscope, State.feedQueued_nil (by rw [hend]; exact hqueued) hjoins]
  exact State.progress_forming (by rw [hend]; rfl) n

/-- A census of SCOPE 0 whose contribution is complete ends at once with that value (R314, R317). -/
theorem State.beginWave_progress_census (hkind : r.kind = 5) (hscope : r.scope = 0) (hcount : (s.wave g).count ≠ 0)
    (hgot : (s.wave g).got = []) (hqueued : (s.wave g).queued = []) (n : Nat) : ∃ W : WaveState, W.phase = 0
      ∧ (s.beginWave g r).progress g r (n + 1) = (s.setWave g W).wn (winBase .fab 0 + rFAB_CENSUS_STAT)
        (censusStat (s.wave g).value.low (s.wave g).value.high (s.setWave g W).censusRuns) := by
  have hphase : (s.begun (s.wave g)).phase ≠ 0 := Nat.one_ne_zero
  refine ⟨(s.begun (s.wave g)).next, rfl, ?_⟩
  rw [State.beginWave_alone hscope hcount, State.progress_census hkind hscope, State.endWave_census hkind, State.wave_setWave,
    State.setWave_setWave]
  · rfl
  all_goals rw [State.wave_setWave]; assumption

/-- The Registrar's contribution to a census is its lowest and its highest value (R310). -/
theorem WaveState.take_census {w : WaveState} {v : Nat} (hcount : w.count = 0) (hv : v < 2 ^ 64) :
    (w.take 5 1 none ⟨v, v, 0, 0⟩).1.value = ⟨v, v, 0, 0⟩ := by
  simp [WaveState.take, hcount, combine, neutral]
  omega

/-- The Registrar's contribution to a census of SCOPE 0 completes it with that value as lowest and highest (R317). -/
theorem State.contributeFirmware_census {v : Nat} (hkind : r.kind = 5) (hscope : r.scope = 0) (hphase : (s.wave g).phase = 0)
    (hqueued : (s.wave g).queued = []) (hgot : (s.wave g).got = []) (hcount : (s.wave g).count = 0) (hv : v < 2 ^ 64) :
    ∃ W : WaveState, W.phase = 0 ∧ s.contributeFirmware g r v
      = (s.setWave g W).wn (winBase .fab 0 + rFAB_CENSUS_STAT) (censusStat v v (s.setWave g W).censusRuns) := by
  have htaken := WaveState.take_census (w := s.wave g) hcount hv
  have hfuel : progressFuel s g = 15 + 1 := by rw [progressFuel, hqueued]; rfl
  unfold State.contributeFirmware
  simp only [hphase, ne_eq, not_true, if_false, hfuel, hkind]
  obtain ⟨W, hW, hbegin⟩ := State.beginWave_progress_census (s := s.setWave g ((s.wave g).take 5 1 none ⟨v, v, 0, 0⟩).1) (g := g)
    hkind hscope (by rw [State.wave_setWave]; exact Nat.succ_ne_zero _) (by rw [State.wave_setWave]; exact hgot)
    (by rw [State.wave_setWave]; exact hqueued) 15
  rw [State.wave_setWave, State.setWave_setWave, htaken] at hbegin
  exact ⟨W, hW, hbegin⟩

/-- A group no wave of which is in its phases adds no census in progress (R325). -/
theorem State.censusRuns_setWave {W : WaveState} (hW : W.phase = 0) (h : s.censusRuns = false) : (s.setWave g W).censusRuns = false :=
  any_aput _ _ (by simp [hW]) h

/-- A census of SCOPE 0, from the command on (R317). -/
theorem execCensus_alone {side : Side} (hr : s.group g = some r) (hkind : r.kind = 5) (hscope : r.scope = 0) (hphase : (s.wave g).phase = 0)
    (hqueued : (s.wave g).queued = []) (hgot : (s.wave g).got = []) (hcount : (s.wave g).count = 0) :
    ∃ (x : State) (W : WaveState), x = s.setf (winBase .fab 0 + rFAB_CENSUS_STAT) 17 1 1 ∧ W.phase = 0 ∧ exec (.census g side) s
      = .next ((x.setWave g W).wn (winBase .fab 0 + rFAB_CENSUS_STAT)
          (censusStat (s.f (wg 0 rWNG_FEATURE_CFG) 0 8) (s.f (wg 0 rWNG_FEATURE_CFG) 0 8) (x.setWave g W).censusRuns)) := by
  have hv : s.f (wg 0 rWNG_FEATURE_CFG) 0 8 < 2 ^ 64 := (Nat.mod_lt _ (by decide)).trans (by decide)
  obtain ⟨W, hW, hcontr⟩ := State.contributeFirmware_census (s := s.setf (winBase .fab 0 + rFAB_CENSUS_STAT) 17 1 1)
    hkind hscope hphase hqueued hgot hcount hv
  refine ⟨_, W, rfl, hW, congrArg Host.Outcome.next ?_⟩
  simp only [hr, hkind, hphase, decide_true, Bool.and_self, if_true]
  exact hcontr

theorem censusStat_lt (a b : Nat) (running : Bool) : censusStat a b running < 2 ^ 32 := by
  have hrun : b2n running ≤ 1 := by cases running <;> decide
  unfold censusStat
  omega

/-- A census of one module shows the byte FFL as its lowest and as its highest. -/
theorem censusStat_byte {a : Nat} (ha : a < 256) (running : Bool) : censusStat a a running = a + a * 2 ^ 8 + 2 ^ 16 + b2n running * 2 ^ 17 := by
  rw [censusStat, Nat.mod_eq_of_lt ha]

theorem fld_censusStat_byte {a : Nat} (ha : a < 256) (running : Bool) : fld (censusStat a a running) 0 17 = a + a * 2 ^ 8 + 2 ^ 16 := by
  rw [censusStat_byte ha, fld, Nat.pow_zero, Nat.div_one, Nat.add_mul_mod_self_right]
  omega

/-- No group is a census's that was none's before CENSUS_STAT was written. -/
theorem State.censusRuns_setf {lo n v : Nat} (h : s.censusRuns = false) :
    (s.setf (winBase .fab 0 + rFAB_CENSUS_STAT) lo n v).censusRuns = false := by
  have hgroup : ∀ k, (s.setf (winBase .fab 0 + rFAB_CENSUS_STAT) lo n v).group k = s.group k := by
    intro k
    have hhang : ∀ lo' n', (s.setf (winBase .fab 0 + rFAB_CENSUS_STAT) lo n v).f (winBase .pln 0 + rPLN_HANG_STAT) lo' n'
        = s.f (winBase .pln 0 + rPLN_HANG_STAT) lo' n' := fun _ _ => State.f_setf_ne s _ _ _ _ _ (by decide)
    unfold State.group
    simp only [hhang]
    rfl
  unfold State.censusRuns at *
  simp only [hgroup]
  exact h

end

/-! ### Waves collect (O29) -/

/-- Settles O29: a contribution or a message that leaves the wave forming changes its group's state alone, and a census of SCOPE 0
runs through its one phase at once with the module's own value. -/
theorem wavesCollect : Obligations.WavesCollect := by
  unfold Obligations.WavesCollect
  intro s g r hr
  refine ⟨fun u w h hc hgo hg hkind hphase hqueued hcount => execWaveStep_waits h hc hgo hg hr hkind hphase hqueued hcount, ?_, ?_, ?_, ?_⟩
  · intro ix c hc hop hkind hset hg hgen hlast hphase hseq hlocal
    subst hg
    exact ⟨_, (execWaveMessage_now hc hop hkind hset hgen).trans
      (congrArg Host.Outcome.next (State.takeWave_forming hr hlast hphase hseq hlocal)),
      congrArg WaveState.got (State.wave_setWave _ _ _), rfl, RegsBut.refl _ _⟩
  · intro ix c hc hop hkind hset hgen hlater hroom
    exact ⟨_, execWaveMessage_later hc hop hkind hset hgen hlater hroom, rfl⟩
  · intro hphase hslow htime
    have hrecorded := State.event_recorded (s.setWave g { s.wave g with slow := true }) .fab 0 4 s.myId false true
    refine ⟨_, execWaveSlow_reports hphase hslow htime, ?_, ?_⟩
    · exact (hrecorded.wave g).trans (State.wave_setWave _ _ _)
    · exact ((RecordFrame.refl s).same rfl).trans (State.event_frame _ rfl _ _ _ _)
  · intro side hkind hscope hphase hqueued hgot hcount
    have hffl : s.f (wg 0 rWNG_FEATURE_CFG) 0 8 < 256 := Nat.mod_lt _ (by decide)
    obtain ⟨x, W, hx, hW, hexec⟩ := execCensus_alone (side := side) hr hkind hscope hphase hqueued hgot hcount
    refine ⟨_, hexec, ?_, ?_, ?_⟩
    · rw [State.f, State.rn_wn_same, Nat.mod_eq_of_lt (censusStat_lt _ _ _), fld_censusStat_byte hffl]
    · intro hruns
      rw [State.rn_wn_same, Nat.mod_eq_of_lt (censusStat_lt _ _ _),
        State.censusRuns_setWave hW (by rw [hx]; exact State.censusRuns_setf hruns)]
      exact censusStat_byte hffl false
    · have hset : RegsBut [winBase .fab 0 + rFAB_CENSUS_STAT] s (x.setWave g W) := by rw [hx]; exact (RegsBut.setf s _ _ _ _).same rfl
      exact hset.wnIn (List.mem_singleton.2 rfl) _

end Sys2Proof.Machine

/-! PROOFS. What events and records leave of the registers (R419 to R424, R433, R467): every register below a block's incident registers,
those of the docket and plan rings among them. -/

namespace Sys2Proof.Machine

open Sys2Proof

/-! ### The relation -/

/-- A register that no event and no record writes: below the logbook rings' place in the HST_ window and below the incident registers
in every other. -/
abbrev Steady (a : Nat) : Prop := a % 0x1000 < 0x600 ∧ a ≠ winBase .hst 0 + rHST_UNROUTED_COUNT

/-- Each of those registers reads as before. -/
def SteadyKept (s t : State) : Prop := ∀ a, Steady a → t.rd a = s.rd a

theorem SteadyKept.refl {s : State} : SteadyKept s s := fun _ _ => rfl

theorem SteadyKept.trans {s t u : State} (h : SteadyKept s t) (k : SteadyKept t u) : SteadyKept s u := fun a ha => (k a ha).trans (h a ha)

/-- What does not touch the register file. -/
theorem SteadyKept.same {s t u : State} (h : SteadyKept s t) (e : u.regs = t.regs) : SteadyKept s u := fun a ha => by
  rw [← h a ha, State.rd, State.rd, e]

theorem SteadyKept.ite {s t u : State} {p : Prop} [Decidable p] (h : SteadyKept s t) (k : SteadyKept s u) : SteadyKept s (if p then t else u) := by
  split
  · exact h
  · exact k

theorem SteadyKept.foldl {α : Type} {g : State → α → State} {s t : State} (h : SteadyKept s t) (hg : ∀ u x, SteadyKept u (g u x)) (xs : List α) :
    SteadyKept s (xs.foldl g t) := by
  induction xs generalizing t with
  | nil => exact h
  | cons x xs ih => exact ih (h.trans (hg t x))

theorem SteadyKept.wn {s t : State} (h : SteadyKept s t) {a : Nat} (ha : ¬ Steady a) (v : Nat) : SteadyKept s (t.wn a v) :=
  fun b hb => (State.rd_wr_ne t _ fun e : b = a => ha (e ▸ hb)).trans (h b hb)

theorem SteadyKept.rn {s t : State} (h : SteadyKept s t) {a : Nat} (ha : Steady a) : t.rn a = s.rn a := congrArg BitVec.toNat (h a ha)

theorem not_steady_ir (b : Blk) (i : Nat) {o : Nat} (lo : 0x800 ≤ o) (hi : o < 0x1000) : ¬ Steady (ir b i o) := fun h => by
  have hoff := h.1
  rw [ir_mod b i hi] at hoff
  omega

theorem not_steady_lg {off l : Nat} (hl : l < 4) (lo : 0x600 ≤ off) (hi : off < 0x700) : ¬ Steady (lg off l) := fun h => by
  have hoff := h.1
  simp only [lg, winBase] at hoff
  omega

/-! ### Records -/

theorem State.logPut_steady (s : State) {l : Nat} (hl : l < 4) (r : List Byte) : SteadyKept s (s.logPut l r) :=
  SteadyKept.same (t := (s.hostWrite _ r).wn (lg rHST_LOG_PROD l) _)
    (SteadyKept.wn (SteadyKept.refl.same rfl) (not_steady_lg hl (by decide) (by decide)) _) rfl

theorem State.logMarker_steady (s : State) {l : Nat} (hl : l < 4) : SteadyKept s (s.logMarker l) :=
  SteadyKept.trans (SteadyKept.refl.same rfl) (State.logPut_steady _ hl _)

theorem State.logDropOnly_steady (s : State) {l : Nat} (hl : l < 4) (r : List Byte) : SteadyKept s (s.logDropOnly l r) :=
  SteadyKept.wn (SteadyKept.refl.same rfl) (not_steady_lg hl (by decide) (by decide)) _

theorem State.logDeliver_steady (s : State) {l : Nat} (hl : l < 4) (r : List Byte) : SteadyKept s (s.logDeliver l r).1 := by
  unfold State.logDeliver
  simp only
  split
  · split
    · exact State.logPut_steady _ hl _
    · split
      · exact (State.logMarker_steady _ hl).trans (State.logPut_steady _ hl _)
      · exact State.logDropOnly_steady _ hl _
  · split
    · exact SteadyKept.refl.same rfl
    · exact State.logDropOnly_steady _ hl _

theorem State.logRoute_steady (s : State) {l : Nat} (hl : l < 4) (r : List Byte) : SteadyKept s (s.logRoute l r).1 := by
  unfold State.logRoute
  split
  · exact State.logDeliver_steady _ hl _
  · split
    · exact State.logDeliver_steady _ (by decide) _
    · exact SteadyKept.refl.wn (fun h => h.2 rfl) _

theorem State.keepHistory_steady (s : State) (r : List Byte) : SteadyKept s (s.keepHistory r) := by
  refine SteadyKept.refl.same ?_
  unfold State.keepHistory
  simp only
  split
  · rfl
  · rfl

/-! ### Events -/

theorem State.raise_steady (s : State) (b : Blk) (i k : Nat) (inj : Bool) (d : Nat) : SteadyKept s (s.raise b i k inj d).2 := by
  unfold State.raise
  extract_lets pol sev act u waits key was i0 u1 first u2 i2 u3 u4
  have hreg : ∀ o, 0x800 ≤ o → o < 0x1000 → ¬ Steady (ir b i o) := fun o => not_steady_ir b i
  have h1 : SteadyKept s u1 := (SteadyKept.refl.wn (hreg rINC_STAT (by decide) (by decide)) _).same rfl
  have h2 : SteadyKept s u2 :=
    SteadyKept.ite (h1.wn (hreg rINC_FIRST (by decide) (by decide)) _) (h1.wn (hreg rINC_FIRST (by decide) (by decide)) _)
  have h3 : SteadyKept s u3 := SteadyKept.ite (h2.same rfl) h2
  have h4 : SteadyKept s u4 := SteadyKept.ite (h3.wn (hreg rINC_ACTION (by decide) (by decide)) _) h3
  exact h4.same rfl

theorem State.coincide_steady (s : State) (b : Blk) (i k : Nat) (inj : Bool) (d : Nat) : SteadyKept s (s.coincide b i k inj d).2 := by
  unfold State.coincide
  cases inj
  · exact SteadyKept.ite (SteadyKept.wn (SteadyKept.refl.same (by rfl)) (not_steady_ir b i (o := rINC_FIRST) (by decide) (by decide)) _)
      (SteadyKept.refl.same rfl)
  · exact SteadyKept.refl

theorem State.eventCore_steady (s : State) (b : Blk) (i k : Nat) (inj note : Bool) (d : Nat) :
    SteadyKept s (s.eventCore b i k inj note d).2 := by
  unfold State.eventCore
  split
  next hs =>
    have hc : ¬ Steady (ir b i rINC_COUNT + 4 * k) := by
      have hk := hasSource_lt hs
      rw [show ir b i rINC_COUNT + 4 * k = ir b i (rINC_COUNT + 4 * k) from Nat.add_assoc ..]
      exact not_steady_ir b i (by simp only [rINC_COUNT]; omega) (by simp only [rINC_COUNT]; omega)
    have h0 := State.coincide_steady s b i k inj d
    generalize s.coincide b i k inj d = x at h0
    obtain ⟨forced, t⟩ := x
    dsimp -zeta only
    extract_lets cnt pol now key op w i1 u u2 u3 u4
    have h1 : SteadyKept s u := SteadyKept.ite (h0.same rfl) h0
    have h2 : SteadyKept s u2 := h1.wn hc _
    split
    · split
      · exact (h2.wn hc _).same rfl
      · exact h2.wn hc _
    · split
      · exact h2.wn hc _
      · exact (h2.wn hc _).trans (State.raise_steady _ _ _ _ _ _)
  next => exact SteadyKept.refl

theorem State.logSend_steady (s : State) {l : Nat} (hl : l < 4) (r : List Byte) : SteadyKept s (s.logSend l r) := by
  unfold State.logSend
  have h1 := State.logRoute_steady s hl r
  generalize s.logRoute l r = x at h1
  obtain ⟨t, dropped⟩ := x
  refine SteadyKept.ite ?_ h1
  have h2 := h1.trans (State.eventCore_steady t .hst 0 1 false true (if t.logEnabled l then l else 0))
  generalize t.eventCore .hst 0 1 false true (if t.logEnabled l then l else 0) = y at h2
  exact h2.foldl (fun t x => (State.keepHistory_steady t x).trans (State.logRoute_steady _ (State.routeOf_lt _ _) _)) _

theorem State.postTo_steady (s : State) {l : Nat} (hl : l < 4) (r : List Byte) : SteadyKept s (s.postTo l r) :=
  SteadyKept.ite SteadyKept.refl ((State.keepHistory_steady s r).trans (State.logSend_steady _ hl _))

/-- A record posted. -/
theorem State.post_steady (s : State) (ty : Nat) (b : Blk) (i : Nat) (body : List Byte) : SteadyKept s (s.post ty b i body) :=
  SteadyKept.trans (t := (s.form ty b i body).2) (SteadyKept.refl.same rfl) (State.postTo_steady _ (State.routeOf_lt _ _) _)

/-- An event of any source of any block. -/
theorem State.event_steady (s : State) (b : Blk) (i k d : Nat) (inj note : Bool) : SteadyKept s (s.event b i k d inj note) :=
  (State.eventCore_steady s b i k inj note d).foldl (fun _ _ => State.postTo_steady _ (State.routeOf_lt _ _) _) _

theorem State.postEvent_steady (s : State) (b : Blk) (code x y : Nat) : SteadyKept s (s.postEvent b code x y) := State.post_steady _ _ _ _ _

end Sys2Proof.Machine

/-! PROOFS. Plan-ring commands (R171, R457, R464): when one starts, and what consuming and completing its entry changes. -/

namespace Sys2Proof.Machine

open Sys2Proof

/-! ### A command starts -/

theorem State.awake_of_not_stopped {s : State} (h : s.stopped = false) : s.locked = false ∧ s.asleep = false := Bool.or_eq_false_iff.1 h

/-- A command that nothing holds takes its effect (R171, R428, R464, R506). -/
theorem PlanHead.starts {s : State} {op : Nat} {b : List Byte} (h : PlanHead s op b) (body : List Byte → State) : s.planStart op body = body b := by
  obtain ⟨hhead, hbusy, hentry, hgood, hpln, hcur, hstop⟩ := h
  obtain ⟨hlock, hsleep⟩ := State.awake_of_not_stopped hstop
  simp [State.planStart, hhead, hbusy, hentry, hgood, hpln, hcur, hlock, hsleep]

/-- The slot that PREPARE or HANG names is one of the four (R464). -/
theorem PlanHead.slot_lt {s : State} {op : Nat} {b : List Byte} (h : PlanHead s op b) (hop : op = 0x20 ∨ op = 0x21 ∨ op = 0x22 ∨ op = 0x24) :
    at_ b 0x20 1 < 4 := by
  obtain ⟨-, -, -, hgood, -⟩ := h
  have hslot : decide (3 < at_ b 0x20 1) = false := by
    rcases hop with rfl | rfl | rfl | rfl <;> simp_all [planBad]
  simp only [decide_eq_false_iff_not] at hslot
  omega

/-! ### The entry at HEAD -/

/-- HEAD and STAT of the plan ring. -/
def planHeadReg : Nat := rg rHST_RING_HEAD planRing
def planStatReg : Nat := rg rHST_RING_STAT planRing

theorem State.ringIdle_regsBut (s : State) : RegsBut [planStatReg] s (s.ringIdle planRing) := by
  unfold State.ringIdle
  split
  · exact RegsBut.setf _ _ _ _ _
  · exact RegsBut.refl _ _

theorem State.ringIdle_recorded (s : State) (r : Nat) : Recorded s (s.ringIdle r) :=
  Recorded.ite ((Recorded.refl s).setf _ _ _ _) (Recorded.refl s)

theorem State.consume_recorded (s : State) (r : Nat) : Recorded s (s.consume r) :=
  (((Recorded.refl s).host _).wn _ _).trans (State.ringIdle_recorded _ _)

theorem State.consume_regsBut (s : State) : RegsBut [planHeadReg, planStatReg] s (s.consume planRing) :=
  RegsBut.trans (((RegsBut.refl _ s).same (by rfl)).wnIn (by decide) _) ((State.ringIdle_regsBut _).mono (by decide))

/-- The entry is consumed: HEAD rises by one (R457). -/
theorem State.rn_head_consume (s : State) : (s.consume planRing).rn planHeadReg = (s.rn planHeadReg + 1) % 2 ^ 32 :=
  ((State.ringIdle_regsBut _).rn (by decide)).trans (State.rn_wn_same _ _ _)

/-! ### Completion records (R469) -/

/-- Everything that an event or a record may write, and STAT of the plan ring, stands aside. -/
def RingKept (s t : State) : Prop := ∀ a, Steady a → a ≠ planStatReg → t.rd a = s.rd a

theorem SteadyKept.ring {s t : State} (h : SteadyKept s t) : RingKept s t := fun a ha _ => h a ha

theorem RingKept.trans {s t u : State} (h : RingKept s t) (k : RingKept t u) : RingKept s u := fun a ha hs => (k a ha hs).trans (h a ha hs)

theorem RingKept.rn {s t : State} (h : RingKept s t) {a : Nat} (ha : Steady a) (hs : a ≠ planStatReg) : t.rn a = s.rn a :=
  congrArg BitVec.toNat (h a ha hs)

theorem RegsBut.ring {s t : State} (h : RegsBut [planStatReg] s t) : RingKept s t := fun a _ hs => h a (by simpa using hs)

/-- What completing entries of the plan ring changes: what records change, and STAT of the ring. -/
structure Completed (s t : State) : Prop where
  recorded : Recorded s t
  regs : RingKept s t

theorem Completed.trans {s t u : State} (h : Completed s t) (k : Completed t u) : Completed s u :=
  ⟨h.recorded.trans k.recorded, h.regs.trans k.regs⟩

theorem Completed.refl {s : State} : Completed s s := ⟨Recorded.refl s, fun _ _ _ => rfl⟩

theorem Completed.entries {s t : State} (h : Completed s t) (es : List Entry) : Completed s { t with host := { t.host with entries := es } } :=
  ⟨h.recorded.host _, h.regs.trans (SteadyKept.refl.same rfl).ring⟩

theorem State.ringIdle_completed (s : State) : Completed s (s.ringIdle planRing) := ⟨State.ringIdle_recorded _ _, (State.ringIdle_regsBut s).ring⟩

theorem State.postCompletion_completed (s : State) (e : Entry) : Completed s (s.postCompletion e) := by
  unfold State.postCompletion State.postRing
  exact ⟨Recorded.trans ((Recorded.refl s).host _) (State.postTo_recorded _ _ _),
    (SteadyKept.trans (SteadyKept.refl.same (by rfl)) (State.postTo_steady _ (fld_lt _ _ 2) _)).ring⟩

theorem State.flushDone_completed (s : State) (n : Nat) : Completed s (s.flushDone planRing n) := by
  induction n generalizing s with
  | zero => exact State.ringIdle_completed s
  | succ n ih =>
    unfold State.flushDone
    split
    · split
      · exact ((Completed.refl.entries _).trans (State.postCompletion_completed _ _)).trans (ih _)
      · exact State.ringIdle_completed s
    · exact State.ringIdle_completed s

theorem State.finish_completed (s : State) (h result detail : Nat) : Completed s (s.finish planRing h result detail) :=
  (Completed.refl.entries _).trans (State.flushDone_completed _ _)

theorem State.finishPlan_completed (s : State) (op result detail : Nat) : Completed s (s.finishPlan op result detail) := by
  unfold State.finishPlan
  split
  · exact State.finish_completed _ _ _ _
  · exact Completed.refl

/-- An entry answered at once is consumed (R457). -/
theorem State.answerHead_consumes (s : State) (result detail : Nat) : Consumed planRing s (s.answerHead planRing result detail) :=
  ((State.finish_completed _ _ _ _).regs.rn (by decide) (by decide)).trans (State.rn_head_consume s)

theorem State.answerHead_recorded (s : State) (result detail : Nat) : Recorded s (s.answerHead planRing result detail) :=
  (State.consume_recorded _ _).trans (State.finish_completed _ _ _ _).recorded

/-- Nor does it change any other register but those of records. -/
theorem State.rd_answerHead (s : State) (result detail : Nat) {a : Nat} (ha : Steady a) (hh : a ≠ planHeadReg) (hs : a ≠ planStatReg) :
    (s.answerHead planRing result detail).rd a = s.rd a :=
  ((State.finish_completed _ _ _ _).regs a ha hs).trans (s.consume_regsBut a (by simp [hh, hs]))

end Sys2Proof.Machine

/-! PROOFS. The state right after reset (R211, R235, R382, R445, R492, R513, R518, log entry 7): O2. -/

namespace Sys2Proof.Machine

open Sys2Proof

/-! ### Registers -/

/-- Every register but RGS_BOOT_STAT holds its table's reset value (R10). -/
theorem rd_reset {a : Nat} (h : a ≠ bootStat) : State.reset.rd a = resetVal a := by
  have hne : ¬ 0x10014 = a := fun e => h e.symm
  show (if 0x10014 < a then resetVal a else if 0x10014 = a then (0x40 : Word) else resetVal a) = resetVal a
  rw [if_neg hne, ite_self]

/-- The CHANCE_TIME row of every block's incident logic (R416). -/
theorem findRow_chanceTime (b : Blk) : ∃ r k, findRow (rowsOf b) rINC_CHANCE_TIME = some (r, k) ∧ r.off ≠ rINC_POLICY
    ∧ ¬ (b = .wng ∧ r.off = rWNG_TX_SLOT_STAT) ∧ fieldsReset r.fields = 0x14 := by
  have h : ∀ b, (match findRow (rowsOf b) rINC_CHANCE_TIME with
      | some (r, _) => r.off != rINC_POLICY && !(b == .wng && r.off == rWNG_TX_SLOT_STAT) && fieldsReset r.fields == 0x14
      | none => false) = true := by
    intro b
    cases b <;> decide +kernel
  specialize h b
  split at h
  next r k hr => exact ⟨r, k, hr, by simpa [and_assoc, imp_iff_not_or] using h⟩
  next => cases h

theorem hasInstance_of_instOk {b : Blk} {i : Nat} (h : instOk b i = true) : hasInstance b i = true := by
  cases b
  case tile | wng | col | lmp => exact h
  all_goals rfl

/-- CHANCE_TIME of every incident block is 20 ms (R445). -/
theorem resetVal_chanceTime {c i : Nat} {b : Blk} (h : incBlock c i = some b) : resetVal (ir b i rINC_CHANCE_TIME) = 0x14 := by
  have hb : instOk b i = true := by
    unfold incBlock at h
    split at h
    · split at h
      next hok =>
        obtain rfl := Option.some.inj h
        exact hok
      next => cases h
    · cases h
  obtain ⟨j, hj⟩ := blkOf_ir (hasInstance_of_instOk hb) (o := rINC_CHANCE_TIME) (by decide)
  obtain ⟨r, k, hr, hpolicy, hslot, hval⟩ := findRow_chanceTime b
  simp only [resetVal, regRow, hj, hr, if_neg hpolicy, if_neg hslot, hval]
  rfl

/-! ### The statement -/

theorem wellKept_reset : WellKept State.reset :=
  ⟨by unfold RegsWf; decide +kernel, reset_vault_wf, reset_store_wf, by decide⟩

/-- Settles O2: the register file lists RGS_BOOT_STAT alone, so every other register reads its table. -/
theorem resetState : Obligations.ResetState := by
  refine ⟨wellKept_reset, rfl, fun a => rd_reset, by decide +kernel, by decide +kernel, by decide +kernel, by decide +kernel, fun c i b h => ?_,
    fun u hu => ?_, by decide +kernel, by decide +kernel, fun v => by cases v <;> exact ⟨rfl, rfl⟩⟩
  · have hne : ir b i rINC_CHANCE_TIME ≠ bootStat := fun e => by
      have hoff := ir_mod b i (o := rINC_CHANCE_TIME) (by decide)
      rw [e] at hoff
      exact absurd hoff (by decide)
    rw [State.rn, rd_reset hne, resetVal_chanceTime h]
    rfl
  · have hne : tr u rTILE_STATE ≠ bootStat := (ne_tr (by decide)).symm
    rw [State.ts, State.f, State.rn, rd_reset hne, ts_resetVal hu]

end Sys2Proof.Machine

/-! PROOFS. Plan slots (R168 to R172, R211, R241): what reading and changing one leaves, and the audit that rejects one: O23. -/

namespace Sys2Proof.Machine

open Sys2Proof

/-! ### One slot -/

section
variable {s t : State} {k j : Nat}

@[simp] theorem State.slot_mapSlot (s : State) (k : Nat) (g : Slot → Slot) : (s.mapSlot k g).slot k = g (s.slot k) := aget_aput_same _ _ _ _

theorem State.slot_of_cur (h : t.cur = s.cur) (k : Nat) : t.slot k = s.slot k := by unfold State.slot; rw [h]

theorem State.slotState_of_regs (h : t.regs = s.regs) (k : Nat) : t.slotState k = s.slotState k := State.f_of_regs h _ _ _

/-- The registers of the slots are none of those that events and records write. -/
theorem steady_slotReg (h : k < 4) : Steady (winBase .pln 0 + rPLN_SLOT_STAT + 0x20 * k) := by
  simp only [Steady, winBase, rPLN_SLOT_STAT, rHST_UNROUTED_COUNT]
  omega

theorem State.slotState_answerHead (s : State) (hk : k < 4) (result detail : Nat) :
    (s.answerHead planRing result detail).slotState k = s.slotState k :=
  congrArg (fun w : Word => fld w.toNat 0 3) (s.rd_answerHead result detail (steady_slotReg hk)
    (by simp only [planHeadReg, rg, winBase, rPLN_SLOT_STAT, rHST_RING_HEAD, planRing]; omega)
    (by simp only [planStatReg, rg, winBase, rPLN_SLOT_STAT, rHST_RING_STAT, planRing]; omega))

/-! ### Records read from a sound Store (R241) -/

/-- Where the Store holds nothing that fails its checks, no record is lost. -/
theorem State.checkRecords_of_sound (h : s.storeSound = true) (rs : List (Nat × Nat × Nat × Nat)) : s.checkRecords rs = s := by
  have hnone : ∀ k, ((s.slot k).records.any fun r => ([] : List Nat).contains r.2.2.1) = false := fun k => by simp
  simp only [State.checkRecords, State.readRecords, h, if_true, hnone]
  rfl

/-! ### A slot that the audit rejects (R185, R211) -/

theorem State.rejectSlot_cur (s : State) (k c d : Nat) : (s.rejectSlot k c d).cur = s.cur := rfl

theorem State.showImage_cur (s : State) (k : Nat) (img : List Byte) (h : Hdr) (v : Bool) : (s.showImage k img h v).cur = s.cur :=
  List.foldlRecOn (motive := fun u : State => u.cur = s.cur) _ _ rfl fun _ hu _ _ => hu

theorem State.audit_of_checkImage {f : Fail} (h : s.checkImage k = some f) : s.audit k = .error f := by simp [State.audit, h]

/-- An audit that fails drops the image of its slot and leaves the rest of it, the plan-store records among it (log entry 122). -/
theorem execAuditDone_fails {f : Fail} (hk : k < 4) (h2 : s.slotState k = 2) (hsound : s.storeSound = true) (ha : s.audit k = .error f) :
    ∃ t, exec (.auditDone k) s = .next t ∧ t.slot k = { s.slot k with image := [] } := by
  refine ⟨_, rfl, ?_⟩
  rw [if_pos ⟨hk, h2⟩, State.checkRecords_of_sound hsound]
  simp only [ha]
  rw [State.slot_of_cur (State.finishPlan_completed _ _ _ _).recorded.cur]
  unfold State.showFree
  rw [State.slot_of_cur (State.setf_cur ..), State.slot_of_cur (State.showImage_cur ..), State.slot_of_cur (State.rejectSlot_cur ..), State.slot_mapSlot]

end

/-! ### The statement -/

/-- Slot 0 in AUDITING with an image of 16 bytes, copied for a LOAD that gave it a plan-store record of 16 bytes. -/
def shortImage : State :=
  (State.reset.setSlotState 0 2).mapSlot 0 fun x =>
    { x with length := 16, image := List.replicate 16 0, records := [(0, 0, 0, 16)] }

theorem shortImage_rejected : shortImage.audit 0 = .error ⟨aSIZE, 0xFF, 0⟩ := State.audit_of_checkImage (by decide +kernel)

/-- Refutes O23: the audit rejects an image of 16 bytes with SIZE, and its slot keeps the plan-store record that LOAD gave it, as log
entry 122 says, where the statement has the slot hold none. -/
theorem not_slotsLoadAuditDiscard : ¬ Obligations.SlotsLoadAuditDiscard := by
  intro h
  obtain ⟨-, -, haudit, -⟩ := h shortImage []
  obtain ⟨hfail, -⟩ := haudit 0 (by decide) (by decide +kernel) (by decide +kernel)
  obtain ⟨t, ht, -, -, -, hrecords, -⟩ := hfail _ shortImage_rejected (by decide)
  obtain ⟨u, hu, hslot⟩ := execAuditDone_fails (s := shortImage) (k := 0) (by decide) (by decide +kernel) (by decide +kernel) shortImage_rejected
  obtain rfl : t = u := by simpa using ht.symm.trans hu
  rw [hslot] at hrecords
  exact absurd hrecords (by decide +kernel)

end Sys2Proof.Machine

/-! PROOFS. Read-backs of the plan ring (R192, R208, R465, R467): where no logbook ring is enabled, completing them writes no host memory: O27. -/

namespace Sys2Proof.Machine

open Sys2Proof

/-! ### Records that no ring takes (R467) -/

/-- No logbook ring is enabled. -/
def State.unlogged (s : State) : Prop := ∀ l, l < 4 → s.logEnabled l = false

/-- From a state without logbook rings, host memory stands and no ring is enabled. -/
def HostKept (s t : State) : Prop := s.unlogged → t.unlogged ∧ t.host.mem = s.host.mem

theorem HostKept.refl {s : State} : HostKept s s := fun h => ⟨h, rfl⟩

theorem HostKept.trans {s t u : State} (h : HostKept s t) (k : HostKept t u) : HostKept s u := fun hs =>
  let ⟨ht, hm⟩ := h hs
  let ⟨hu, hn⟩ := k ht
  ⟨hu, hn.trans hm⟩

theorem State.logEnabled_of_rd {s t : State} {l : Nat} (h : t.rd (lg rHST_LOG_CFG l) = s.rd (lg rHST_LOG_CFG l)) : t.logEnabled l = s.logEnabled l := by
  unfold State.logEnabled State.f State.rn
  rw [h]

/-- An update of neither host memory nor a ring's configuration. -/
theorem HostKept.same {s t : State} (hr : t.regs = s.regs) (hm : t.host.mem = s.host.mem) : HostKept s t := fun h =>
  ⟨fun l hl => (State.logEnabled_of_rd (by rw [State.rd, State.rd, hr])).trans (h l hl), hm⟩

theorem HostKept.wn (s : State) {a : Nat} (v : Nat) (ha : a < 0x600) : HostKept s (s.wn a v) := fun h =>
  ⟨fun l hl => (State.logEnabled_of_rd (State.rd_wr_ne s _ (by simp only [lg, winBase, rHST_LOG_CFG]; omega))).trans (h l hl), rfl⟩

theorem State.keepHistory_hostKept (s : State) (r : List Byte) : HostKept s (s.keepHistory r) := by
  unfold State.keepHistory
  simp only
  split
  · exact HostKept.same rfl rfl
  · exact HostKept.refl

/-- A record that no ring takes is counted and goes nowhere. -/
theorem State.logSend_unlogged {s : State} (h : s.unlogged) {l : Nat} (hl : l < 4) (r : List Byte) :
    s.logSend l r = s.bump (winBase .hst 0 + rHST_UNROUTED_COUNT) := by
  simp [State.logSend, State.logRoute, h l hl, h 0 (by decide)]

theorem State.logSend_hostKept (s : State) {l : Nat} (hl : l < 4) (r : List Byte) : HostKept s (s.logSend l r) := fun h => by
  rw [State.logSend_unlogged h hl]
  exact HostKept.wn s _ (by decide) h

theorem State.postTo_hostKept (s : State) {l : Nat} (hl : l < 4) (r : List Byte) : HostKept s (s.postTo l r) := by
  unfold State.postTo
  split
  · exact HostKept.refl
  · exact (s.keepHistory_hostKept r).trans (State.logSend_hostKept _ hl _)

/-! ### An entry answered -/

theorem State.ringIdle_hostKept (s : State) : HostKept s (s.ringIdle planRing) := by
  unfold State.ringIdle
  split
  · exact HostKept.wn _ _ (by decide)
  · exact HostKept.refl

theorem State.postCompletion_hostKept (s : State) (e : Entry) : HostKept s (s.postCompletion e) := by
  unfold State.postCompletion State.postRing
  exact HostKept.trans (HostKept.same (by rfl) (by rfl)) (State.postTo_hostKept _ (fld_lt _ _ 2) _)

theorem State.flushDone_hostKept (s : State) (n : Nat) : HostKept s (s.flushDone planRing n) := by
  induction n generalizing s with
  | zero => exact State.ringIdle_hostKept s
  | succ n ih =>
    unfold State.flushDone
    split
    · next e _ _ =>
      split
      · exact (HostKept.same (t := { s with host := { s.host with entries := s.host.entries.erase e } }) rfl rfl).trans
          ((State.postCompletion_hostKept _ _).trans (ih _))
      · exact State.ringIdle_hostKept s
    · exact State.ringIdle_hostKept s

theorem State.consume_hostKept (s : State) : HostKept s (s.consume planRing) := by
  unfold State.consume
  extract_lets h e
  have hentry : HostKept s { s with host := { s.host with entries := s.host.entries ++ [e] } } := HostKept.same rfl rfl
  exact (hentry.trans (HostKept.wn _ _ (by decide))).trans (State.ringIdle_hostKept _)

theorem State.finish_hostKept (s : State) (h result detail : Nat) : HostKept s (s.finish planRing h result detail) := by
  unfold State.finish
  exact HostKept.trans (HostKept.same (by rfl) (by rfl)) (State.flushDone_hostKept _ _)

theorem State.answerHead_hostKept (s : State) (result detail : Nat) : HostKept s (s.answerHead planRing result detail) :=
  (State.consume_hostKept s).trans (State.finish_hostKept _ _ _ _)

/-! ### A dump -/

theorem aputs_append {α : Type} [DecidableEq α] (d : α) (m : Assoc α) (k : Nat) (xs ys : List α) :
    aputs d m k (xs ++ ys) = aputs d (aputs d m k xs) (k + xs.length) ys := by
  induction xs generalizing m k with
  | nil => rfl
  | cons x xs ih => rw [List.cons_append, aputs, ih, aputs, List.length_cons, Nat.add_assoc, Nat.add_comm 1]

theorem length_flatten_take_le {α : Type} {size n : Nat} {recs : List (List α)} (h : ∀ r ∈ recs, r.length = size) :
    (recs.take (n / size)).flatten.length ≤ n := by
  have hall : ∀ r ∈ recs.take (n / size), r.length = size := fun r hr => h r (List.mem_of_mem_take hr)
  rw [List.length_flatten, List.map_congr_left hall, List.map_const', List.sum_replicate, smul_eq_mul, List.length_take]
  calc min (n / size) recs.length * size ≤ n / size * size := Nat.mul_le_mul_right _ (min_le_left _ _)
    _ ≤ n := Nat.div_mul_le_self n size

/-- What R465 has a dump of `len` bytes leave at `a`: its entry consumed, the generation and the number of records at the address, and
nothing written outside those bytes. -/
structure Dumped (s t : State) (a len gen n : Nat) : Prop where
  consumed : Consumed planRing s t
  gen : t.hostRead a 8 = leBytes 8 gen
  count : t.hostRead (a + 8) 4 = leBytes 4 n
  inside : ∀ x, x < a ∨ a + len ≤ x → aget 0 t.host.mem x = aget 0 s.host.mem x

/-- Bytes that begin with the two numbers, written and answered. -/
theorem State.hostWrite_dumped {s : State} (hs : s.unlogged) {a len gen n : Nat} {bytes : List Byte} (hlen : bytes.length ≤ len)
    (tail : List Byte) (hb : bytes = leBytes 8 gen ++ (leBytes 4 n ++ tail)) (d : Nat) :
    Dumped s ((s.hostWrite a bytes).answerHead planRing 0 d) a len gen n := by
  have hmem : ((s.hostWrite a bytes).answerHead planRing 0 d).host.mem = aputs 0 s.host.mem a bytes :=
    (State.answerHead_hostKept (s.hostWrite a bytes) 0 d hs).2
  refine ⟨State.answerHead_consumes (s.hostWrite a bytes) 0 d, ?_, ?_, fun x hx => ?_⟩
  · rw [State.hostRead, hmem, hb]
    exact agets_aputs_of_prefix _ _ _ ⟨_, rfl⟩ (leBytes_length _ _)
  · rw [State.hostRead, hmem, hb, aputs_append, leBytes_length]
    exact agets_aputs_of_prefix _ _ _ ⟨_, rfl⟩ (leBytes_length _ _)
  · rw [hmem]
    rcases hx with hx | hx
    · exact aget_aputs_below _ _ _ hx
    · exact aget_aputs_above _ _ _ (by omega)

/-- A dump of at least 16 bytes, of records of one size (R465). -/
theorem State.dump_dumped {s : State} (hs : s.unlogged) {b : List Byte} (hlen : 16 ≤ at_ b 0x18 8) (gen : Nat) {size : Nat}
    {recs : List (List Byte)} (hrecs : ∀ r ∈ recs, r.length = size) :
    Dumped s (s.dump b gen size recs) (at_ b 8 8) (at_ b 0x18 8) gen recs.length := by
  have hfit := length_flatten_take_le (n := at_ b 0x18 8 - 16) hrecs
  unfold State.dump
  rw [if_neg (by omega)]
  refine State.hostWrite_dumped hs ?_ _ (by rw [List.append_assoc, List.append_assoc]) _
  simp only [List.length_append, leBytes_length]
  omega

/-! ### The two read-backs -/

theorem catBytes_length (t : Nat) (e : CatEntry) : (catBytes t e).length = 32 := by
  simp only [catBytes, List.length_append, leBytes_length]

/-- The exhibits of the current placement, as READ_PLACEMENT lists them. -/
def State.placedExhibits (s : State) : List Nat := match s.cur.place with | some pl => pl.tiles.map (·.1) | none => []

theorem State.placedExhibits_length (s : State) :
    s.placedExhibits.length = match s.cur.place with | some pl => pl.tiles.length | none => 0 := by
  unfold State.placedExhibits
  split
  · exact List.length_map _
  · rfl

theorem execReadPlacement_eq {s : State} {b : List Byte} (h : PlanHead s 0x25 b) : exec .readPlacement s =
    .next (s.dump b s.planGen 8 (s.placedExhibits.map fun x => leBytes 2 x ++ leBytes 2 0 ++ leBytes 4 (s.placeData x))) :=
  congrArg _ (h.starts fun c =>
    s.dump c s.planGen 8 (s.placedExhibits.map fun x => leBytes 2 x ++ leBytes 2 0 ++ leBytes 4 (s.placeData x)))

theorem execReadCatalogue_eq {s : State} {b : List Byte} (h : PlanHead s 0x26 b) (hnow : at_ b 0x21 1 = 0) : exec .readCatalogue s =
    .next (s.dump b s.planGen 32 ((s.cur.place.getD Placement.empty).catalogue.map fun e : Nat × CatEntry => catBytes e.1 e.2)) := by
  show execReadCatalogue s = _
  rw [execReadCatalogue, h.starts, if_neg (by rw [hnow]; decide)]

theorem State.readPlacement_dumped {s : State} {b : List Byte} (hs : s.unlogged) (hlen : 16 ≤ at_ b 0x18 8) :
    Dumped s (s.dump b s.planGen 8 (s.placedExhibits.map fun x => leBytes 2 x ++ leBytes 2 0 ++ leBytes 4 (s.placeData x)))
      (at_ b 8 8) (at_ b 0x18 8) s.planGen (match s.cur.place with | some pl => pl.tiles.length | none => 0) := by
  rw [← State.placedExhibits_length, ← List.length_map (as := s.placedExhibits)]
  refine State.dump_dumped hs hlen s.planGen fun r hr => ?_
  obtain ⟨x, -, rfl⟩ := List.mem_map.1 hr
  simp only [List.length_append, leBytes_length]

theorem State.readCatalogue_dumped {s : State} {b : List Byte} (hs : s.unlogged) (hlen : 16 ≤ at_ b 0x18 8) :
    Dumped s (s.dump b s.planGen 32 ((s.cur.place.getD Placement.empty).catalogue.map fun e : Nat × CatEntry => catBytes e.1 e.2))
      (at_ b 8 8) (at_ b 0x18 8) s.planGen (match s.cur.place with | some pl => pl.catalogue.length | none => 0) := by
  have hcount : (match s.cur.place with | some pl => pl.catalogue.length | none => 0) = (s.cur.place.getD Placement.empty).catalogue.length := by
    cases s.cur.place
    · rfl
    · rfl
  rw [hcount, ← List.length_map (as := (s.cur.place.getD Placement.empty).catalogue)]
  refine State.dump_dumped hs hlen s.planGen fun r hr => ?_
  obtain ⟨e, -, rfl⟩ := List.mem_map.1 hr
  exact catBytes_length _ _

/-- Settles O27: both read-backs are dumps, of records of 8 and of 32 bytes. -/
theorem planDumps : Obligations.PlanDumps := by
  intro s b hs hlen
  refine ⟨fun h => ⟨_, execReadPlacement_eq h, ?_⟩, fun h hnow => ⟨_, execReadCatalogue_eq h hnow, ?_⟩⟩
  · have hd := State.readPlacement_dumped hs hlen
    exact ⟨hd.consumed, hd.gen, hd.count, hd.inside⟩
  · have hd := State.readCatalogue_dumped hs hlen
    exact ⟨hd.consumed, hd.gen, hd.count, hd.inside⟩

end Sys2Proof.Machine

/-! PROOFS. Preparing a slot (R170 to R172, R187, R193, R205): what sending messages and powering tiles leave, and the end of a placement: O24. -/

namespace Sys2Proof.Machine

open Sys2Proof

/-! ### Messages (R293, R521) -/

/-- What Office messages and their answers leave: registers, tiles and plan slots. -/
structure Messaged (s t : State) : Prop where
  regs : t.regs = s.regs
  tiles : t.tiles = s.tiles
  slots : t.cur.slots = s.cur.slots

theorem Messaged.refl {s : State} : Messaged s s := ⟨rfl, rfl, rfl⟩

theorem Messaged.trans {s t u : State} (h : Messaged s t) (k : Messaged t u) : Messaged s u :=
  ⟨k.regs.trans h.regs, k.tiles.trans h.tiles, k.slots.trans h.slots⟩

theorem Messaged.foldl {α : Type} {g : State → α → State} {s : State} (hg : ∀ u x, Messaged u (g u x)) (xs : List α) :
    Messaged s (xs.foldl g s) := by
  induction xs generalizing s with
  | nil => exact .refl
  | cons x xs ih => exact (hg s x).trans ih

theorem Messaged.regsBut {s t : State} (h : Messaged s t) : RegsBut [] s t := (RegsBut.refl [] s).same h.regs

theorem Messaged.slot {s t : State} (h : Messaged s t) (k : Nat) : t.slot k = s.slot k := by unfold State.slot; rw [h.slots]

theorem Messaged.slotState {s t : State} (h : Messaged s t) (k : Nat) : t.slotState k = s.slotState k := State.slotState_of_regs h.regs k

theorem State.sendOffice_messaged (s : State) (dest ty n : Nat) (body : List Byte) : Messaged s (s.sendOffice dest ty n body) := by
  unfold State.sendOffice
  split
  · exact .refl
  · exact ⟨rfl, rfl, rfl⟩

theorem State.sendQuery_messaged (s : State) (gen : Nat) (q : Nat × Nat) : Messaged s (s.sendQuery gen q) := State.sendOffice_messaged _ _ _ _ _

theorem State.askerAdded_messaged (s : State) (a : Nat × Nat × Nat) (c : Bool) :
    Messaged s (if c then { s with cur := { s.cur with askers := s.cur.askers ++ [a] } } else s) := by
  cases c
  · exact .refl
  · exact ⟨rfl, rfl, rfl⟩

theorem State.answerQuery_messaged (s : State) (k sender gen x : Nat) : Messaged s (s.answerQuery k sender gen x) :=
  (State.sendOffice_messaged s _ _ _ _).trans (State.askerAdded_messaged _ _ _)

theorem State.serveHeld_messaged (s : State) (k : Nat) : Messaged s (s.serveHeld k) := by
  unfold State.serveHeld
  exact Messaged.trans ⟨by rfl, by rfl, by rfl⟩ (Messaged.foldl (fun u q => State.answerQuery_messaged u _ _ _ _) _)

/-! ### A slot's registers -/

section
variable {s t : State} {k j : Nat}

theorem State.slotState_setf_apart (s : State) (k : Nat) {lo w : Nat} (v : Nat) (hlo : 3 ≤ lo) (hw : lo + w ≤ 32) (j : Nat) :
    (s.setf (slotReg k rPLN_SLOT_STAT) lo w v).slotState j = s.slotState j := by
  by_cases hj : j = k
  · subst hj
    exact State.f_setf_apart s _ v hw (Or.inl hlo)
  · exact State.f_setf_ne s lo w v 0 3 (by simp only [slotReg]; omega)

/-- A register written that is no slot's SLOT_STAT. -/
theorem State.slotState_wn_ne (s : State) {a : Nat} (v : Nat) (h : ∀ j, j < 4 → winBase .pln 0 + rPLN_SLOT_STAT + 0x20 * j ≠ a) (hj : j < 4) :
    (s.wn a v).slotState j = s.slotState j :=
  congrArg (fld · 0 3) (State.rn_wn_ne s v (h j hj))

theorem detail_ne_stat (k : Nat) : ∀ j, j < 4 → winBase .pln 0 + rPLN_SLOT_STAT + 0x20 * j ≠ slotReg k rPLN_SLOT_DETAIL := by
  intro j hj
  simp only [slotReg, winBase, rPLN_SLOT_STAT, rPLN_SLOT_DETAIL]
  omega

theorem State.slot_of_preparing (h : s.preparing = some k) : k < 4 ∧ s.slotState k = 4 := by
  have hk := List.find?_some h
  have hm := List.mem_of_find?_eq_some h
  exact ⟨List.mem_range.1 hm, by simpa using hk⟩

/-! ### PREPARE begins (R170, R172) -/

/-- A READY slot, if there is one, AUDITED again. -/
def State.unready (s : State) : State := match s.readySlot with | some j => s.setSlotState j 3 | none => s

/-- The registers that PREPARE sets as it begins. -/
def State.prepareRegs (s : State) (k : Nat) : State :=
  ((s.unready.setSlotState k 4).setf (slotReg k rPLN_SLOT_STAT) 8 8 0).wn (slotReg k rPLN_SLOT_DETAIL) 0

theorem State.startPrepare_rd (s : State) (k : Nat) {a : Nat} (h : a ≠ winBase .cur 0 + rCUR_RETIRED_COUNT) :
    (s.startPrepare k).rd a = (s.prepareRegs k).rd a := State.rd_wr_ne _ _ h

theorem State.slotState_unready (s : State) (j : Nat) : s.unready.slotState j = if s.readySlot = some j then 3 else s.slotState j := by
  unfold State.unready
  cases s.readySlot with
  | none => simp
  | some i => simp [State.slotState_setSlotState, eq_comm]

theorem State.startPrepare_slotState (s : State) (k : Nat) (hj : j < 4) : (s.startPrepare k).slotState j =
    if j = k then 4 else if s.readySlot = some j then 3 else s.slotState j := by
  have hcur : winBase .pln 0 + rPLN_SLOT_STAT + 0x20 * j ≠ winBase .cur 0 + rCUR_RETIRED_COUNT := by
    simp only [winBase, rPLN_SLOT_STAT, rCUR_RETIRED_COUNT]; omega
  have hregs : (s.startPrepare k).slotState j = (s.prepareRegs k).slotState j :=
    congrArg (fun w : Word => fld w.toNat 0 3) (s.startPrepare_rd k hcur)
  rw [hregs, State.prepareRegs, State.slotState_wn_ne _ _ (detail_ne_stat k) hj, State.slotState_setf_apart _ _ _ (by decide) (by decide),
    State.slotState_setSlotState, State.slotState_unready]
  rfl

theorem State.startPrepare_autoQueue (s : State) (k : Nat) : (s.startPrepare k).cur.autoQueue = s.cur.autoQueue.filter (· != k) := by
  unfold State.startPrepare
  cases s.readySlot <;> rfl

/-- The docket and plan rings' registers are none of those. -/
theorem State.rd_startPrepare_low (s : State) (k : Nat) {a : Nat} (ha : a < 0x10000) : (s.startPrepare k).rd a = s.rd a := by
  have hslot : ∀ i o, a ≠ slotReg i o := fun i o => by simp only [slotReg, winBase]; omega
  rw [s.startPrepare_rd k (by simp only [winBase, rCUR_RETIRED_COUNT]; omega)]
  have hunready : s.unready.rd a = s.rd a := by
    unfold State.unready
    cases s.readySlot with
    | none => rfl
    | some i => exact State.rd_wr_ne _ _ (hslot i _)
  exact (State.rd_wr_ne _ _ (hslot k _)).trans ((State.rd_wr_ne _ _ (hslot k _)).trans ((State.rd_wr_ne _ _ (hslot k _)).trans hunready))

/-! ### A slot becomes READY (R187) -/

theorem PlanKept.powerTile (h : PlanKept s t) (u : Nat) : PlanKept s (t.powerTile u) := by
  unfold State.powerTile
  split
  · exact PlanKept.setTs (h.same (by rfl)) _ _
  · exact h

theorem PlanKept.readyTile (h : PlanKept s t) (p : Plan) (e : Nat × Nat) : PlanKept s (t.readyTile p e) :=
  PlanKept.ite ((h.powerTile _).same rfl) (h.powerTile _)

theorem State.powerTile_cur (s : State) (u : Nat) : (s.powerTile u).cur = s.cur := by
  unfold State.powerTile
  split
  · rfl
  · rfl

theorem State.readyTile_cur (s : State) (p : Plan) (e : Nat × Nat) : (s.readyTile p e).cur = s.cur := by
  unfold State.readyTile
  simp only
  split
  · exact s.powerTile_cur _
  · exact s.powerTile_cur _

theorem State.readyTiles_cur (s : State) (p : Plan) (es : List (Nat × Nat)) : (es.foldl (fun u e => u.readyTile p e) s).cur = s.cur :=
  List.foldlRecOn (motive := fun u : State => u.cur = s.cur) es _ rfl fun u hu e _ => (u.readyTile_cur p e).trans hu

/-- The slot is READY, with its draft as its placement and the corridors that were resolved. -/
theorem State.becomeReady_slot (s : State) (hk : k < 4) (p : Plan) (d : Placement) : (s.becomeReady k p d).slotState k = 5
    ∧ ∃ pl, ((s.becomeReady k p d).slot k).place = some pl ∧ pl.tiles = d.tiles ∧ pl.catalogue = d.catalogue ∧ pl.remote = (s.slot k).remote := by
  unfold State.becomeReady
  extract_lets own pre u v
  have hslot : v.slot k = { u.slot k with place := some { d with remote := (u.slot k).remote, preload := pre }, draft := none, prepared := true } :=
    State.slot_mapSlot _ _ _
  have hdone : ((v.setSlotState k 5).finishPlan 0x21 0 0).slot k = v.slot k :=
    State.slot_of_cur (State.finishPlan_completed _ _ _ _).recorded.cur k
  constructor
  · rw [(State.serveHeld_messaged _ _).slotState, (PlanKept.refl.finishPlan _ _ _).slotState hk, State.slotState_setSlotState, if_pos rfl]
    rfl
  · refine ⟨{ d with remote := (u.slot k).remote, preload := pre }, ?_, rfl, rfl, ?_⟩
    · rw [(State.serveHeld_messaged _ _).slot, hdone, hslot]
    · rw [State.slot_of_cur (s.readyTiles_cur p own)]

/-! ### The draft (R187, R188, R205) -/

theorem State.draftStands_of_draft {p : Plan} {d : Placement} (h : (s.slot k).draft = some d) :
    s.draftStands k p = (d.tiles.all (fun e => s.usable e.2) && s.tilesFit p d.tiles) := by
  unfold State.draftStands
  rw [h]

theorem State.tilesOk_fits {p : Plan} {tiles : List (Nat × Nat)} (h : s.tilesOk k p tiles = true) :
    tiles.all (fun e => s.usable e.2) = true ∧ s.tilesFit p tiles = true := by
  simp only [State.tilesOk, Bool.and_eq_true] at h
  obtain ⟨⟨⟨⟨⟨-, husable⟩, -⟩, -⟩, hfit⟩, -⟩ := h
  exact ⟨(List.all_map (f := fun e : Nat × Nat => e.2) (p := s.usable)).symm.trans husable, hfit⟩

/-- A placement that meets every rule stands on usable tiles that fit the plan. -/
theorem State.judge_placed {p : Plan} {o : PlaceOut} {d : Placement} (h : s.judge k p o = .placed d) :
    d.tiles = o.tiles ∧ d.tiles.all (fun e => s.usable e.2) = true ∧ s.tilesFit p d.tiles = true := by
  unfold State.judge at h
  simp only at h
  split at h
  · cases h
  split at h
  · repeat' split at h
    all_goals cases h
  split at h
  · cases h
  next hok =>
    have hfit := State.tilesOk_fits (by simpa using hok)
    split at h
    · cases h
    split at h
    · cases h
    split at h
    · cases h
    split at h
    · cases h
      exact ⟨rfl, hfit⟩
    · cases h

/-- Too few usable tiles reject a placement with TILES, whatever the search answered (R188). -/
theorem State.judge_few {p : Plan} {o : PlaceOut} (h : (allTiles.filter s.usable).length < p.exhibits.length) :
    s.judge k p o = .fails aTILES (allTiles.filter s.usable).length := by
  unfold State.judge
  exact if_pos h

/-- A placement noted (R190). -/
def State.noteDraft (s : State) (k : Nat) (p : Plan) (o : PlaceOut) : State :=
  { s with cur := { s.cur with past := (s.placeIn k p, o) :: s.cur.past.filter fun e => e.1 != s.placeIn k p } }

theorem State.draftPlace_placed {p : Plan} {o : PlaceOut} {d : Placement} (hp : s.samePast (s.placeIn k p) o = true) (hj : s.judge k p o = .placed d)
    (hd : (s.slot k).draft = none) :
    s.draftPlace k p o = ((s.noteDraft k p o).mapSlot k fun x => { x with draft := some d }).startExchange k p o.tiles := by
  simp [State.draftPlace, hp, hj, hd, State.noteDraft]

theorem State.draftPlace_fails {p : Plan} {o : PlaceOut} {code place : Nat} (hp : s.samePast (s.placeIn k p) o = true)
    (hj : s.judge k p o = .fails code place) : s.draftPlace k p o = (s.noteDraft k p o).failPrepare k code place := by
  simp [State.draftPlace, hp, hj, State.noteDraft]

/-- A plan without remote corridors waits for none. -/
theorem State.startExchange_local {p : Plan} (hr : p.remotes = []) (tiles : List (Nat × Nat)) :
    ∃ remote, s.startExchange k p tiles = s.mapSlot k fun x => { x with remote := remote, waiting := [] } := by
  unfold State.startExchange
  split
  · exact ⟨_, rfl⟩
  · refine ⟨[], ?_⟩
    simp [hr, Slot.questions]

/-- A local draft that meets every rule is judged to stand, with nothing to wait for. -/
theorem State.draftPlace_local {p : Plan} {o : PlaceOut} {d : Placement} (hp : s.samePast (s.placeIn k p) o = true) (hj : s.judge k p o = .placed d)
    (hd : (s.slot k).draft = none) (hr : p.remotes = []) :
    ((s.draftPlace k p o).slot k).draft = some d ∧ ((s.draftPlace k p o).slot k).waiting = [] ∧ (s.draftPlace k p o).draftStands k p = true := by
  obtain ⟨-, husable, hfit⟩ := State.judge_placed hj
  rw [State.draftPlace_placed hp hj hd]
  generalize hn : (s.noteDraft k p o).mapSlot k (fun x => { x with draft := some d }) = n
  obtain ⟨remote, he⟩ := n.startExchange_local (k := k) hr o.tiles
  rw [he]
  have hdraft : ((n.mapSlot k fun x => { x with remote := remote, waiting := [] }).slot k).draft = some d := by
    rw [State.slot_mapSlot, ← hn, State.slot_mapSlot]
  refine ⟨hdraft, by rw [State.slot_mapSlot], ?_⟩
  rw [State.draftStands_of_draft hdraft, ← hn]
  exact Bool.and_eq_true_iff.2 ⟨husable, hfit⟩

/-- A draft with remote corridors whose exchange starts waits for each of them. -/
theorem State.draftPlace_remote {p : Plan} {o : PlaceOut} {d : Placement} (hp : s.samePast (s.placeIn k p) o = true) (hj : s.judge k p o = .placed d)
    (hd : (s.slot k).draft = none) (hknown : s.knownRemotes k p o.tiles = none) :
    ((s.draftPlace k p o).slot k).draft = some d
      ∧ ((s.draftPlace k p o).slot k).waiting = p.remotes.map (fun c => (c.corridor, c.dstModule, c.dst))
      ∧ (s.draftPlace k p o).slotState k = s.slotState k := by
  rw [State.draftPlace_placed hp hj hd]
  have hknown' : ((s.noteDraft k p o).mapSlot k fun x => { x with draft := some d }).knownRemotes k p o.tiles = none := hknown
  unfold State.startExchange
  simp only [hknown']
  generalize hn : (((s.noteDraft k p o).mapSlot k fun x => { x with draft := some d }).mapSlot k fun x =>
    { x with remote := [], waiting := p.remotes.map fun c => (c.corridor, c.dstModule, c.dst) }) = n
  have hm : Messaged n ((n.slot k).questions.foldl (fun u q => u.sendQuery p.gen q) n) := Messaged.foldl (fun u q => u.sendQuery_messaged _ q) _
  rw [hm.slot, hm.slotState, ← hn, State.slot_mapSlot, State.slot_mapSlot]
  exact ⟨rfl, rfl, rfl⟩

/-! ### A slot that PREPARE rejects (R185) -/

theorem State.failPrepare_slot (s : State) (hk : k < 4) (code place : Nat) (hcode : code < 2 ^ 8) :
    (s.failPrepare k code place).slotState k = 7 ∧ (s.failPrepare k code place).f (slotReg k rPLN_SLOT_STAT) 8 8 = code
      ∧ ((s.failPrepare k code place).slot k).waiting = [] ∧ ((s.failPrepare k code place).slot k).draft = none := by
  unfold State.failPrepare
  extract_lets d
  generalize hn : (s.rejectSlot k code d).mapSlot k (fun x => { x with waiting := [], draft := none }) = n
  have hfin : PlanKept n (n.finishPlan 0x21 5 d) := PlanKept.refl.finishPlan _ _ _
  have hslot := State.slot_of_cur (n.finishPlan_completed 0x21 5 d).recorded.cur k
  have hregs : n.regs = (s.rejectSlot k code d).regs := by rw [← hn]; rfl
  have hcode' : (s.rejectSlot k code d).f (slotReg k rPLN_SLOT_STAT) 8 8 = code := by
    unfold State.rejectSlot
    rw [State.f, State.rn_wn_ne _ _ (by simp only [slotReg, winBase, rPLN_SLOT_STAT, rPLN_SLOT_DETAIL]; omega)]
    exact (State.f_setf_same _ _ _ (by decide)).trans (Nat.mod_eq_of_lt hcode)
  refine ⟨?_, ?_, ?_, ?_⟩
  · rw [hfin.slotState hk, State.slotState_of_regs hregs]
    exact (State.slotState_wn_ne _ _ (detail_ne_stat k) hk).trans
      ((State.slotState_setf_apart _ k _ (by decide) (by decide) k).trans ((State.slotState_setSlotState _ _ _ _).trans (if_pos rfl)))
  · rw [hfin.f (by simp only [OffPlan, slotReg, winBase, rPLN_SLOT_STAT]; omega), State.f_of_regs hregs, hcode']
  · rw [hslot, ← hn, State.slot_mapSlot]
  · rw [hslot, ← hn, State.slot_mapSlot]

/-! ### The command -/

/-- PREPARE_DONE once the slot's records are read. -/
def State.placementDone (s : State) (k : Nat) (p : Plan) : State :=
  match (s.slot k).draft, (s.slot k).waiting with
  | some d, [] => if s.draftStands k p then s.becomeReady k p d else s
  | _, _ => s

/-- What the search answered. -/
abbrev searched (tiles tiers : List (Nat × Nat)) (offsets : List Nat) (segs : List (Nat × Nat)) (broken : Nat) : PlaceOut :=
  ⟨tiles, tiers.zipWith (fun e a => (e.1, e.2, a)) offsets, segs, broken⟩

theorem execPrepareDone_sound {p : Plan} (hk : k < 4) (h4 : s.slotState k = 4) (hplan : (s.slot k).plan = some p) (hs : s.storeSound = true)
    (tiles tiers : List (Nat × Nat)) (offsets : List Nat) (segs : List (Nat × Nat)) (broken : Nat) :
    exec (.prepareDone k tiles tiers offsets segs broken) s = .next ((if s.draftStands k p then s else
      s.draftPlace k p (searched tiles tiers offsets segs broken)).placementDone k p) := by
  show execPrepareDone k tiles tiers offsets segs broken s = _
  unfold execPrepareDone
  rw [State.checkRecords_of_sound hs, if_neg (by simp [hk, h4])]
  simp only [hplan, h4, beq_self_eq_true]
  rfl

/-- A draft that does not stand is made anew. -/
theorem execPrepareDone_drafts {p : Plan} (hk : k < 4) (h4 : s.slotState k = 4) (hplan : (s.slot k).plan = some p) (hs : s.storeSound = true)
    (hst : s.draftStands k p = false) (tiles tiers : List (Nat × Nat)) (offsets : List Nat) (segs : List (Nat × Nat)) (broken : Nat) :
    exec (.prepareDone k tiles tiers offsets segs broken) s =
      .next ((s.draftPlace k p (searched tiles tiers offsets segs broken)).placementDone k p) := by
  rw [execPrepareDone_sound hk h4 hplan hs, hst]
  rfl

/-- One that stands is kept. -/
theorem execPrepareDone_stands {p : Plan} (hk : k < 4) (h4 : s.slotState k = 4) (hplan : (s.slot k).plan = some p) (hs : s.storeSound = true)
    (hst : s.draftStands k p = true) (tiles tiers : List (Nat × Nat)) (offsets : List Nat) (segs : List (Nat × Nat)) (broken : Nat) :
    exec (.prepareDone k tiles tiers offsets segs broken) s = .next (s.placementDone k p) := by
  rw [execPrepareDone_sound hk h4 hplan hs, hst]
  rfl

theorem State.draftStands_of_none {p : Plan} (h : (s.slot k).draft = none) : s.draftStands k p = false := by simp [State.draftStands, h]

theorem State.placementDone_ready {p : Plan} {d : Placement} (hd : (s.slot k).draft = some d) (hw : (s.slot k).waiting = [])
    (hs : s.draftStands k p = true) : s.placementDone k p = s.becomeReady k p d := by
  simp [State.placementDone, hd, hw, hs]

theorem State.placementDone_waits {p : Plan} (hw : (s.slot k).waiting ≠ []) : s.placementDone k p = s := by
  unfold State.placementDone
  split
  next hd hn => exact absurd hn hw
  next => rfl

theorem State.placementDone_noDraft {p : Plan} (hd : (s.slot k).draft = none) : s.placementDone k p = s := by
  simp [State.placementDone, hd]

end

/-! ### The statement -/

theorem execPrepare_starts {s : State} {b : List Byte} (h : PlanHead s 0x21 b) (hp : s.preparing = none) (ho : s.hangOut = false)
    (h3 : s.slotState (at_ b 0x20 1) = 3) : exec .prepare s = .next ((s.consume planRing).startPrepare (at_ b 0x20 1)) := by
  show execPrepare s = _
  rw [execPrepare, h.starts]
  simp [hp, ho, h3]

theorem State.slotState_consume (s : State) {j : Nat} (hj : j < 4) : (s.consume planRing).slotState j = s.slotState j :=
  s.consume_regsBut.f (by simp only [planHeadReg, planStatReg, rg, winBase, rPLN_SLOT_STAT, rHST_RING_HEAD, rHST_RING_STAT, planRing,
    List.mem_cons, List.not_mem_nil, or_false]; omega) _ _

theorem State.readySlot_of_slotState {s t : State} (h : ∀ j, j < 4 → t.slotState j = s.slotState j) : t.readySlot = s.readySlot := by
  unfold State.readySlot
  refine List.find?_congr fun j hj => ?_
  rw [h j (List.mem_range.1 hj)]

theorem execAutoPrepareStart_starts {s : State} {k : Nat} {q : List Nat} (hq : s.cur.autoQueue = k :: q) (hp : s.preparing = none)
    (hr : s.readySlot = none) (hst : s.stopped = false) : exec .autoPrepareStart s = .next (s.startPrepare k) := by
  show execAutoPrepareStart s = _
  simp [execAutoPrepareStart, hq, hp, hr, hst]

/-- Settles O24: each clause runs PREPARE's beginning, or its end with a draft that stands, that waits, or that the judge refuses. -/
theorem slotsPrepare : Obligations.SlotsPrepare := by
  intro s
  refine ⟨fun b h hp ho h3 => ⟨_, execPrepare_starts h hp ho h3, ?_, ?_, fun j hj h5 hne hr => ?_⟩,
    fun k q hq hk hp hr hst => ⟨_, execAutoPrepareStart_starts hq hp hr hst, ?_, ?_⟩,
    fun k tiles tiers offsets segs broken p hk h4 hplan hs => ⟨fun d hd hpast hj hrem => ?_, fun d hd hpast hj hrem hknown => ?_,
      fun d hd hst hw => ?_, fun hst hpast hfew => ?_⟩⟩
  · rw [State.startPrepare_slotState _ _ (h.slot_lt (by decide)), if_pos rfl]
  · exact (congrArg BitVec.toNat ((s.consume planRing).rd_startPrepare_low _ (by decide))).trans s.rn_head_consume
  · rw [State.startPrepare_slotState _ _ hj, if_neg hne, State.readySlot_of_slotState fun j => s.slotState_consume, if_pos hr]
  · rw [State.startPrepare_slotState _ _ hk, if_pos rfl]
  · rw [State.startPrepare_autoQueue]
    simp
  · obtain ⟨hdraft, hwait, hstands⟩ := State.draftPlace_local hpast hj hd hrem
    obtain ⟨h5, pl, hplace, htiles, hcat, -⟩ := State.becomeReady_slot (s.draftPlace k p (searched tiles tiers offsets segs broken)) hk p d
    exact ⟨_, pl, (execPrepareDone_drafts hk h4 hplan hs (State.draftStands_of_none hd) ..).trans
      (congrArg _ (State.placementDone_ready hdraft hwait hstands)), h5, hplace, htiles.trans (State.judge_placed hj).1, hcat⟩
  · obtain ⟨hdraft, hwait, hstate⟩ := State.draftPlace_remote hpast hj hd hknown
    exact ⟨_, (execPrepareDone_drafts hk h4 hplan hs (State.draftStands_of_none hd) ..).trans
      (congrArg _ (State.placementDone_waits (by simpa [hwait] using hrem))), hstate.trans h4, hdraft, hwait⟩
  · obtain ⟨h5, pl, hplace, htiles, -, hremote⟩ := State.becomeReady_slot s hk p d
    exact ⟨_, pl, (execPrepareDone_stands hk h4 hplan hs hst ..).trans (congrArg _ (State.placementDone_ready hd hw hst)), h5, hplace, htiles,
      hremote⟩
  · obtain ⟨h7, hcode, -, hdraft⟩ := State.failPrepare_slot (s.noteDraft k p (searched tiles tiers offsets segs broken)) hk aTILES
      (allTiles.filter s.usable).length (by decide)
    exact ⟨_, (execPrepareDone_drafts hk h4 hplan hs hst ..).trans (congrArg _ ((congrArg (State.placementDone · k p)
      (State.draftPlace_fails hpast (State.judge_few hfew))).trans (State.placementDone_noDraft hdraft))), h7, hcode⟩

end Sys2Proof.Machine

/-! PROOFS. The placement exchange (R193, R194, R402, R521): what a query, an answer and a moved exhibit change: O28. -/

namespace Sys2Proof.Machine

open Sys2Proof

/-! ### Numbers in a message (R5) -/

theorem leNat_leBytes (n v : Nat) : leNat (leBytes n v) = v % 256 ^ n := by
  induction n generalizing v with
  | zero => rw [leBytes, leNat, Nat.pow_zero, Nat.mod_one]
  | succ n ih =>
    have hsplit : v % (256 * 256 ^ n) = v % 256 + 256 * (v / 256 % 256 ^ n) := Nat.mod_mul
    rw [leBytes, leNat, ih, BitVec.toNat_ofNat, (Nat.pow_succ' : 256 ^ (n + 1) = 256 * 256 ^ n), hsplit]

theorem leNat_lt (bs : List Byte) : leNat bs < 256 ^ bs.length := by
  induction bs with
  | nil => exact Nat.one_pos
  | cons b bs ih =>
    have hb := b.isLt
    rw [leNat, List.length_cons, Nat.pow_succ']
    omega

theorem at_lt (bs : List Byte) (o n : Nat) : at_ bs o n < 256 ^ n :=
  Nat.lt_of_lt_of_le (leNat_lt _) (Nat.pow_le_pow_right (by decide) (by rw [List.length_take]; exact min_le_left _ _))

/-- A field reads back at its offset. -/
theorem at_leBytes {pre post : List Byte} {o n v : Nat} (ho : pre.length = o) (hv : v < 256 ^ n) :
    at_ (pre ++ (leBytes n v ++ post)) o n = v := by
  rw [at_, ← ho, List.drop_left, List.take_left' (leBytes_length n v), leNat_leBytes, Nat.mod_eq_of_lt hv]

theorem padTo_of_le {n : Nat} {bs : List Byte} (h : bs.length ≤ n) : padTo n bs = bs ++ List.replicate (n - bs.length) 0 := by
  rw [padTo, List.take_of_length_le (by rw [List.length_append, List.length_replicate]; omega)]

section
variable {s t : State} {k : Nat}

/-! ### Messages taken and sent (R293, R521) -/

/-- Message `ix` out of the inbox. -/
def State.messageTaken (s : State) (ix : Nat) : State := { s with fab := { s.fab with inbox := s.fab.inbox.eraseIdx ix } }

theorem State.takeMsg_eq {ix ty : Nat} {c : Crate} (hc : s.fab.inbox[ix]? = some c) (hop : c.op = 0x10) (hty : at_ c.data 0 1 = ty) :
    s.takeMsg ix ty = some (c.data, s.messageTaken ix) := by
  unfold State.takeMsg
  simp only [hc, hop, hty]
  rfl

/-- The bytes of an Office message (R521). -/
def State.officeData (s : State) (ty n : Nat) (body : List Byte) : List Byte :=
  padTo n (leBytes 1 ty ++ leBytes 1 0 ++ leBytes 2 s.myId ++ leBytes 4 s.cur.msgSeq ++ body)

theorem State.outbound_sendOffice (h : s.unset = false) (dest ty n : Nat) (body : List Byte) :
    (s.sendOffice dest ty n body).fab.outbound = s.fab.outbound ++ [s.officeCrate (s.substMod dest) 0x10 3 (s.officeData ty n body)] := by
  unfold State.sendOffice
  rw [if_neg (by rw [h]; decide)]
  rfl

/-- The type, the generation and the exhibit of a message about an exhibit. -/
theorem State.at_officeData (s : State) {ty g x : Nat} (rest : List Byte) (hty : ty < 256) (hg : g < 256 ^ 8) (hx : x < 256 ^ 2)
    (hrest : rest.length ≤ 6) (body : List Byte) (hbody : body = leBytes 8 g ++ (leBytes 2 x ++ rest)) :
    at_ (s.officeData ty 24 body) 0 1 = ty ∧ at_ (s.officeData ty 24 body) 8 8 = g ∧ at_ (s.officeData ty 24 body) 16 2 = x := by
  have hhead : (leBytes 1 0 ++ leBytes 2 s.myId ++ leBytes 4 s.cur.msgSeq).length = 7 := by simp only [List.length_append, leBytes_length]
  have hdata : ∃ pad, s.officeData ty 24 body = leBytes 1 ty ++ ((leBytes 1 0 ++ leBytes 2 s.myId ++ leBytes 4 s.cur.msgSeq)
      ++ (leBytes 8 g ++ (leBytes 2 x ++ pad))) := by
    refine ⟨rest ++ List.replicate (24 - (leBytes 1 ty ++ leBytes 1 0 ++ leBytes 2 s.myId ++ leBytes 4 s.cur.msgSeq ++ body).length) 0, ?_⟩
    rw [State.officeData, padTo_of_le (by simp only [hbody, List.length_append, leBytes_length]; omega)]
    simp only [hbody, List.append_assoc]
  obtain ⟨pad, hpad⟩ := hdata
  rw [hpad]
  generalize leBytes 1 0 ++ leBytes 2 s.myId ++ leBytes 4 s.cur.msgSeq = head at hhead
  refine ⟨at_leBytes (pre := []) rfl (by omega), ?_, ?_⟩
  · rw [← List.append_assoc]
    exact at_leBytes (by rw [List.length_append, leBytes_length, hhead]) hg
  · rw [← List.append_assoc, ← List.append_assoc]
    exact at_leBytes (by rw [List.length_append, List.length_append, leBytes_length, leBytes_length, hhead]) hx

/-! ### Queries (R193) -/

theorem State.askerAdded_fab (s : State) (a : Nat × Nat × Nat) (c : Bool) :
    (if c then { s with cur := { s.cur with askers := s.cur.askers ++ [a] } } else s).fab = s.fab := by
  cases c
  · rfl
  · rfl

/-- RESULT and TILE of an answer about an exhibit. -/
def State.answerRest (s : State) (k x : Nat) : List Byte :=
  let tile := (s.slot k).place.bind fun pl => lookup? pl.tiles x
  leBytes 1 (b2n tile.isNone) ++ (leBytes 1 0 ++ leBytes 2 (match tile with | some t => rc t | none => 0))

theorem State.answerRest_length (s : State) (k x : Nat) : (s.answerRest k x).length = 4 := by
  simp only [State.answerRest, List.length_append, leBytes_length]

theorem State.answerQuery_fab (s : State) (k sender g x : Nat) :
    (s.answerQuery k sender g x).fab = (s.sendOffice sender 0x31 24 (leBytes 8 g ++ (leBytes 2 x ++ s.answerRest k x))).fab := by
  refine (State.askerAdded_fab _ _ _).trans ?_
  rw [List.append_assoc, List.append_assoc, List.append_assoc]
  rfl

theorem State.outbound_answerQuery (h : s.unset = false) (k sender : Nat) {g x : Nat} (hg : g < 256 ^ 8) (hx : x < 256 ^ 2) :
    ∃ d : Crate, (s.answerQuery k sender g x).fab.outbound = s.fab.outbound ++ [d] ∧ d.op = 0x10 ∧ d.destModule = s.substMod sender
      ∧ at_ d.data 0 1 = 0x31 ∧ at_ d.data 8 8 = g ∧ at_ d.data 16 2 = x := by
  rw [s.answerQuery_fab, State.outbound_sendOffice h]
  exact ⟨_, rfl, rfl, rfl, s.at_officeData _ (by decide) hg hx (by rw [s.answerRest_length]; decide) _ rfl⟩

theorem State.unset_of_regs (h : t.regs = s.regs) : t.unset = s.unset := by
  unfold State.unset State.idReg State.rn State.rd
  rw [h]

theorem State.outbound_sendQueries (h : s.unset = false) (gen : State → Nat) (qs : List (Nat × Nat)) :
    (qs.foldl (fun u q => u.sendQuery (gen u) q) s).fab.outbound.length = s.fab.outbound.length + qs.length := by
  induction qs generalizing s with
  | nil => rfl
  | cons q qs ih =>
    rw [List.foldl_cons, ih ((State.unset_of_regs (s.sendQuery_messaged _ q).regs).trans h), State.sendQuery, State.outbound_sendOffice h]
    simp only [List.length_append, List.length_cons, List.length_nil]
    omega

theorem State.openCorridors_of_tiles (h : t.tiles = s.tiles) : t.openCorridors = s.openCorridors := by unfold State.openCorridors; rw [h]

/-! ### Corridors (R194, R402) -/

theorem aget_map_values {α : Type} (d : α) (g : α → α) (m : Assoc α) (k : Nat) :
    aget d (m.map fun e : Nat × α => (e.1, g e.2)) k = g (aget d m k) ∨ aget d (m.map fun e : Nat × α => (e.1, g e.2)) k = d := by
  induction m with
  | nil => exact .inr rfl
  | cons e m ih =>
    simp only [List.map_cons, aget]
    split
    · exact ih
    · split
      · exact .inl rfl
      · exact .inr rfl

/-- An entry for an exhibit of a module names its new tile. -/
def State.retargetEntry (s : State) (m x t : Nat) (c : CorrEntry) : CorrEntry :=
  if s.substMod c.dstModule == m && c.dstExhibit == x then { c with tile := t, resolved := true } else c

/-- Nothing but the tiles' corridors and the current placement differs. -/
theorem State.retarget_eq (s : State) (m x t : Nat) : ∃ place, s.retarget m x t =
    { s with tiles := s.tiles.map fun e => (e.1, e.2.mapCorr (s.retargetEntry m x t)), cur := { s.cur with place := place } } := by
  unfold State.retarget
  simp only
  split
  · exact ⟨_, rfl⟩
  · exact ⟨s.cur.place, rfl⟩

/-- Every corridor to the exhibit names the tile. -/
theorem State.retarget_corridors (s : State) (m x t u : Nat) {e : CorrEntry} (he : e ∈ ((s.retarget m x t).tile u).corridors)
    (hm : s.substMod e.dstModule = m) (hx : e.dstExhibit = x) : e.tile = t ∧ e.resolved = true := by
  obtain ⟨place, hr⟩ := s.retarget_eq m x t
  rw [hr] at he
  rcases aget_map_values Tile.reset (fun y : Tile => y.mapCorr (s.retargetEntry m x t)) s.tiles u with h | h
  · rw [State.tile, h] at he
    obtain ⟨c, -, rfl⟩ := List.mem_map.1 he
    unfold State.retargetEntry at hm hx ⊢
    split at hm
    · rw [if_pos ‹_›]
      exact ⟨rfl, rfl⟩
    next hc =>
      rw [if_neg hc] at hx
      exact absurd (by simp [hm, hx]) hc
  · rw [State.tile, h] at he
    exact absurd he List.not_mem_nil

/-! ### Queries and answers (R193, R521) -/

theorem slotOfGen_messageTaken (ix g : Nat) : (s.messageTaken ix).slotOfGen g = s.slotOfGen g := rfl

/-- A query of a generation that no slot answers for is held. -/
theorem execPlaceQuery_held {ix : Nat} {c : Crate} (hc : s.fab.inbox[ix]? = some c) (hop : c.op = 0x10) (hty : at_ c.data 0 1 = 0x30)
    (hg : s.slotOfGen (at_ c.data 8 8) = none) : ∃ held, exec (.placeQuery ix) s =
      .next { s.messageTaken ix with cur := { s.cur with heldQueries := held } } ∧ (msgSender c.data, at_ c.data 8 8, at_ c.data 16 2) ∈ held := by
  show ∃ held, execPlaceQuery ix s = _ ∧ _
  unfold execPlaceQuery
  rw [State.takeMsg_eq hc hop hty]
  simp only [slotOfGen_messageTaken, hg]
  split
  next hin => exact ⟨s.cur.heldQueries, rfl, List.contains_iff_mem.1 hin⟩
  next => exact ⟨_, rfl, by simp⟩

theorem execPlaceQuery_answered {ix : Nat} {c : Crate} (hc : s.fab.inbox[ix]? = some c) (hop : c.op = 0x10) (hty : at_ c.data 0 1 = 0x30)
    (hg : s.slotOfGen (at_ c.data 8 8) = some k) :
    exec (.placeQuery ix) s = .next ((s.messageTaken ix).answerQuery k (msgSender c.data) (at_ c.data 8 8) (at_ c.data 16 2)) := by
  show execPlaceQuery ix s = _
  unfold execPlaceQuery
  rw [State.takeMsg_eq hc hop hty]
  simp only [slotOfGen_messageTaken, hg]

/-- With no corridor of the generation in force open, the queries of the slot that prepares are sent again. -/
theorem execPlaceQueryRepeat_eq (hp : s.preparing = some k) (ho : s.openCorridors = []) : exec .placeQueryRepeat s =
    .next ((s.slot k).questions.foldl (fun u q => u.sendQuery (s.slotGen k) q) s) := by
  show execPlaceQueryRepeat s = _
  unfold execPlaceQueryRepeat
  have hm : Messaged s ((s.slot k).questions.foldl (fun u q => u.sendQuery (s.slotGen k) q) s) := Messaged.foldl (fun u q => u.sendQuery_messaged _ q) _
  simp only [hp]
  rw [State.openCorridors_of_tiles hm.tiles, ho]
  rfl

/-- The corridors of a slot that wait for an exhibit of a module. -/
def State.waitingFor (s : State) (k m x : Nat) : List (Nat × Nat × Nat) := (s.slot k).waiting.filter fun w => s.substMod w.2.1 == m && w.2.2 == x

theorem State.mem_waitingFor {m x : Nat} {w : Nat × Nat × Nat} :
    w ∈ s.waitingFor k m x ↔ w ∈ (s.slot k).waiting ∧ s.substMod w.2.1 = m ∧ w.2.2 = x := by
  simp [State.waitingFor]

/-- The corridors `ws` of a slot are resolved to a tile. -/
def State.resolveCorridors (s : State) (k : Nat) (ws : List (Nat × Nat × Nat)) (t : Nat) : State :=
  s.mapSlot k fun y => { y with waiting := y.waiting.filter (fun v => !ws.contains v), remote := y.remote ++ ws.map fun v => (v.1, t) }

theorem execPlaceAnswer_resolves {ix : Nat} {c : Crate} (hc : s.fab.inbox[ix]? = some c) (hop : c.op = 0x10) (hty : at_ c.data 0 1 = 0x31)
    (hp : s.preparing = some k) (hg : s.slotGen k = at_ c.data 8 8) (hres : at_ c.data 18 1 = 0)
    (hne : s.waitingFor k (msgSender c.data) (at_ c.data 16 2) ≠ []) :
    let u := (s.messageTaken ix).resolveCorridors k (s.waitingFor k (msgSender c.data) (at_ c.data 16 2)) (tileOf (at_ c.data 20 2))
    exec (.placeAnswer ix) s = .next u
      ∨ exec (.placeAnswer ix) s = .next (u.retarget (msgSender c.data) (at_ c.data 16 2) (tileOf (at_ c.data 20 2))) := by
  intro u
  obtain ⟨w, ws, hw⟩ := List.exists_cons_of_ne_nil hne
  have hmine : ((s.messageTaken ix).slot k).waiting.filter (fun v => (s.messageTaken ix).substMod v.2.1 == msgSender c.data
      && v.2.2 == at_ c.data 16 2) = w :: ws := hw
  have hp' : (s.messageTaken ix).preparing = some k := hp
  have hg' : (s.messageTaken ix).slotGen k = at_ c.data 8 8 := hg
  have hu : u = (s.messageTaken ix).resolveCorridors k (w :: ws) (tileOf (at_ c.data 20 2)) := by rw [← hw]
  show execPlaceAnswer ix s = .next u ∨ execPlaceAnswer ix s = .next (u.retarget _ _ _)
  unfold execPlaceAnswer
  rw [State.takeMsg_eq hc hop hty]
  simp only [hp', hg', hmine, hres, ne_eq, not_true_eq_false, if_false, if_true, hu]
  split
  · exact .inr rfl
  · exact .inl rfl

/-- An answer resolves the corridors of the slot that wait for its exhibit. -/
theorem State.resolveCorridors_slot {ws : List (Nat × Nat × Nat)} {w : Nat × Nat × Nat} (hw : w ∈ ws) (x : Nat) :
    w ∉ ((s.resolveCorridors k ws x).slot k).waiting ∧ (w.1, x) ∈ ((s.resolveCorridors k ws x).slot k).remote := by
  rw [State.resolveCorridors, State.slot_mapSlot]
  exact ⟨fun h => by simp [hw] at h, List.mem_append_right _ (List.mem_map.2 ⟨w, hw, rfl⟩)⟩

theorem State.retarget_regs (s : State) (m x t : Nat) : (s.retarget m x t).regs = s.regs := by
  obtain ⟨place, hr⟩ := s.retarget_eq m x t
  rw [hr]

theorem State.retarget_fab (s : State) (m x t : Nat) : (s.retarget m x t).fab = s.fab := by
  obtain ⟨place, hr⟩ := s.retarget_eq m x t
  rw [hr]

theorem State.slot_retarget (s : State) (m x t k : Nat) : (s.retarget m x t).slot k = s.slot k := by
  obtain ⟨place, hr⟩ := s.retarget_eq m x t
  rw [hr]
  rfl

/-! ### Moved exhibits (R194, R402) -/

theorem State.substMod_of_regs (h : t.regs = s.regs) (m : Nat) : t.substMod m = s.substMod m := by
  unfold State.substMod State.f State.rn State.rd
  rw [h]

theorem State.planGen_of_regs (h : t.regs = s.regs) : t.planGen = s.planGen := by
  unfold State.planGen State.rd64 State.rn State.rd
  rw [h]

/-- What a message about the generation in force changes in the slots, and the corridors it sets. -/
theorem execPlaceMoved_folds {ix : Nat} {c : Crate} (hc : s.fab.inbox[ix]? = some c) (hop : c.op = 0x10) (hty : at_ c.data 0 1 = 0x32) :
    ∃ f : State → Nat → State, (∀ u j, (f u j).regs = u.regs ∧ (f u j).fab = u.fab) ∧ ∀ u, u = (List.range 4).foldl f (s.messageTaken ix) →
      at_ c.data 8 8 = u.planGen →
      exec (.placeMoved ix) s = .next (u.retarget (msgSender c.data) (at_ c.data 16 2) (tileOf (at_ c.data 20 2))) := by
  apply Exists.intro
  apply And.intro
  rotate_left
  · intro u hu hg
    show execPlaceMoved ix s = _
    unfold execPlaceMoved
    rw [State.takeMsg_eq hc hop hty]
    simp only
    rw [← hu, if_pos hg.le, if_pos hg]
  · intro u j
    split
    · split
      · exact ⟨rfl, rfl⟩
      · exact ⟨rfl, rfl⟩
    · exact ⟨rfl, rfl⟩

theorem execPlaceMoved_now {ix : Nat} {c : Crate} (hc : s.fab.inbox[ix]? = some c) (hop : c.op = 0x10) (hty : at_ c.data 0 1 = 0x32)
    (hg : at_ c.data 8 8 = s.planGen) : ∃ u : State, u.regs = s.regs ∧ u.fab = (s.messageTaken ix).fab
      ∧ exec (.placeMoved ix) s = .next (u.retarget (msgSender c.data) (at_ c.data 16 2) (tileOf (at_ c.data 20 2))) := by
  obtain ⟨f, hf, hexec⟩ := execPlaceMoved_folds hc hop hty
  have hfold : ((List.range 4).foldl f (s.messageTaken ix)).regs = s.regs ∧ ((List.range 4).foldl f (s.messageTaken ix)).fab
      = (s.messageTaken ix).fab := List.foldlRecOn (motive := fun u : State => u.regs = s.regs ∧ u.fab = (s.messageTaken ix).fab) _ _ ⟨rfl, rfl⟩
    fun u ⟨hr, hb⟩ j _ => ⟨(hf u j).1.trans hr, (hf u j).2.trans hb⟩
  exact ⟨_, hfold.1, hfold.2, hexec _ rfl (hg.trans (State.planGen_of_regs hfold.1).symm)⟩

/-! ### The exchange time (R193) -/

theorem execPlaceExchangeTimeout_rejects {w : Nat × Nat × Nat} {ws : List (Nat × Nat × Nat)} (hp : s.preparing = some k)
    (hw : (s.slot k).waiting = w :: ws) : exec .placeExchangeTimeout s = .next (s.failPrepare k aREMOTE w.1) := by
  show execPlaceExchangeTimeout s = _
  unfold execPlaceExchangeTimeout
  simp only [hp, hw]

end

/-- Settles O28: the message at the inbox is taken, and what it changes are held queries, the slot that prepares, or corridors. -/
theorem placementExchange : Obligations.PlacementExchange := by
  intro s ix c
  refine ⟨fun hc hop hty hg => ?_, fun k hc hop hty hg hid => ?_, fun k hp ho hid => ⟨_, execPlaceQueryRepeat_eq hp ho, ?_, ?_⟩,
    fun k hc hop hty hp hg hres hwait => ?_, fun hc hop hty hg => ?_, fun k w ws hp hw => ?_⟩
  · obtain ⟨held, hexec, hmem⟩ := execPlaceQuery_held hc hop hty hg
    exact ⟨_, hexec, hmem, rfl, (RegsBut.refl [] s).same rfl⟩
  · obtain ⟨d, hout, hop', hdest, hdata⟩ := State.outbound_answerQuery (s := s.messageTaken ix) hid k (msgSender c.data) (at_lt c.data 8 8)
      (at_lt c.data 16 2)
    obtain ⟨hty', hg', hx'⟩ := hdata
    exact ⟨_, d, execPlaceQuery_answered hc hop hty hg, hout, hop', hdest, hty', hg', hx',
      RegsBut.trans ((RegsBut.refl [] s).same rfl) (State.answerQuery_messaged _ _ _ _ _).regsBut⟩
  · exact State.outbound_sendQueries hid (fun _ => s.slotGen k) _
  · exact (Messaged.foldl (fun u q => u.sendQuery_messaged _ q) _).regsBut
  · have hne : s.waitingFor k (msgSender c.data) (at_ c.data 16 2) ≠ [] := by
      obtain ⟨w, hw, hm, hx⟩ := hwait
      exact List.ne_nil_of_mem (State.mem_waitingFor.2 ⟨hw, hm, hx⟩)
    rcases execPlaceAnswer_resolves hc hop hty hp hg hres hne with hexec | hexec
    · exact ⟨_, hexec, (RegsBut.refl [] s).same rfl, fun w hw hm hx => State.resolveCorridors_slot (State.mem_waitingFor.2 ⟨hw, hm, hx⟩) _⟩
    · refine ⟨_, hexec, (RegsBut.refl [] s).same (State.retarget_regs _ _ _ _), fun w hw hm hx => ?_⟩
      rw [State.slot_retarget]
      exact State.resolveCorridors_slot (State.mem_waitingFor.2 ⟨hw, hm, hx⟩) _
  · obtain ⟨u, hregs, hfab, hexec⟩ := execPlaceMoved_now hc hop hty hg
    refine ⟨_, hexec, (RegsBut.refl [] s).same ((u.retarget_regs _ _ _).trans hregs), (u.retarget_fab _ _ _).trans hfab, fun v e he hm hx => ?_⟩
    exact u.retarget_corridors _ _ _ v he ((State.substMod_of_regs hregs _).trans hm) hx
  · obtain ⟨h7, hcode, hwaiting, -⟩ := s.failPrepare_slot (State.slot_of_preparing hp).1 aREMOTE w.1 (by decide)
    exact ⟨_, execPlaceExchangeTimeout_rejects hp hw, h7, hcode, hwaiting⟩

end Sys2Proof.Machine

/-! PROOFS. What taking a trap, a tile that falls due, and the end of a hang leave (R98 to R104, R201, R204, R205): HEAD of the plan
ring, the state of the hang and the count of withdrawn hangs. -/

namespace Sys2Proof.Machine

open Sys2Proof

/-! ### The relation -/

/-- The count of withdrawn hangs. -/
def withdrawReg : Nat := winBase .pln 0 + rPLN_WITHDRAW_COUNT

/-- The registers by which a HANG and a WITHDRAW answer. -/
def hangCmdRegs : List Nat := [planHeadReg, hangReg, withdrawReg]

/-- They read as before. -/
def HangCmdKept (s t : State) : Prop := ∀ a ∈ hangCmdRegs, t.rd a = s.rd a

theorem HangCmdKept.refl {s : State} : HangCmdKept s s := fun _ _ => rfl

theorem HangCmdKept.trans {s t u : State} (h : HangCmdKept s t) (k : HangCmdKept t u) : HangCmdKept s u := fun a ha => (k a ha).trans (h a ha)

theorem HangCmdKept.same {s t u : State} (h : HangCmdKept s t) (e : u.regs = t.regs) : HangCmdKept s u := fun a ha => by
  rw [← h a ha, State.rd, State.rd, e]

theorem HangCmdKept.ite {s t u : State} {p : Prop} [Decidable p] (h : HangCmdKept s t) (k : HangCmdKept s u) : HangCmdKept s (if p then t else u) := by
  split
  · exact h
  · exact k

theorem HangCmdKept.foldl {α : Type} {g : State → α → State} {s t : State} (h : HangCmdKept s t) (hg : ∀ u x, HangCmdKept u (g u x)) (xs : List α) :
    HangCmdKept s (xs.foldl g t) := by
  induction xs generalizing t with
  | nil => exact h
  | cons x xs ih => exact ih (h.trans (hg t x))

theorem HangCmdKept.rn {s t : State} (h : HangCmdKept s t) {a : Nat} (ha : a ∈ hangCmdRegs) : t.rn a = s.rn a := congrArg BitVec.toNat (h a ha)

theorem HangCmdKept.hangState {s t : State} (h : HangCmdKept s t) : t.hangState = s.hangState := congrArg (fld · 0 3) (h.rn (by decide))

theorem hangCmdRegs_lt {a : Nat} (h : a ∈ hangCmdRegs) : a < 0x30020 :=
  (by decide : ∀ b ∈ hangCmdRegs, b < 0x30020) a h

theorem steady_of_hangCmd {a : Nat} (h : a ∈ hangCmdRegs) : Steady a := (by decide : ∀ b ∈ hangCmdRegs, Steady b) a h

theorem SteadyKept.hangCmd {s t : State} (h : SteadyKept s t) : HangCmdKept s t := fun a ha => h a (steady_of_hangCmd ha)

section
variable {s t : State} (h : HangCmdKept s t)
include h

/-- A register past the hang's own. -/
theorem HangCmdKept.wr {a : Nat} (ha : 0x30020 ≤ a) (v : Word) : HangCmdKept s (t.wr a v) := fun b hb => by
  rw [← h b hb, State.rd_wr_ne t v fun e => absurd (hangCmdRegs_lt hb) (by omega)]

theorem HangCmdKept.wn {a : Nat} (ha : 0x30020 ≤ a) (v : Nat) : HangCmdKept s (t.wn a v) := h.wr ha _
theorem HangCmdKept.setf {a : Nat} (ha : 0x30020 ≤ a) (lo w v : Nat) : HangCmdKept s (t.setf a lo w v) := h.wn ha _

/-- A tile's register. -/
theorem HangCmdKept.wnTile (u o v : Nat) : HangCmdKept s (t.wn (tr u o) v) := h.wn (Nat.le_trans (by decide) (tr_high u o)) v
theorem HangCmdKept.setfTile (u o lo w v : Nat) : HangCmdKept s (t.setf (tr u o) lo w v) := h.wnTile u o _
theorem HangCmdKept.wr64Tile (u o p v : Nat) : HangCmdKept s (t.wr64 (tr u o) (tr u p) v) := (h.wnTile u o _).wnTile u p _
theorem HangCmdKept.bumpTile (u o : Nat) : HangCmdKept s (t.bump (tr u o)) := h.wnTile u o _
theorem HangCmdKept.mapTile (u : Nat) (g : Tile → Tile) : HangCmdKept s (t.mapTile u g) := h.same rfl
theorem HangCmdKept.setTs (u v : Nat) : HangCmdKept s (t.setTs u v) := h.setfTile u _ _ _ _

theorem HangCmdKept.event (b : Blk) (i k d : Nat) (inj note : Bool) : HangCmdKept s (t.event b i k d inj note) :=
  h.trans (t.event_steady b i k d inj note).hangCmd

theorem HangCmdKept.post (ty : Nat) (b : Blk) (i : Nat) (body : List Byte) : HangCmdKept s (t.post ty b i body) :=
  h.trans (t.post_steady ty b i body).hangCmd

/-! ### Tiles stopped, reset and trapped -/

theorem HangCmdKept.clearTile (ev : Cls) (u : Nat) : HangCmdKept s (t.clearRange ev (tr u 0) (tr u 0x1000)) := by
  refine h.foldl (fun u e => ?_) _
  split
  · next hin => exact HangCmdKept.refl.wr (Nat.le_trans (Nat.le_trans (by decide) (tr_high _ 0)) hin.1) _
  · exact HangCmdKept.refl

theorem HangCmdKept.recount (u : Nat) (after : List (Nat × Nat)) : HangCmdKept s (t.recount u after) :=
  h.foldl (fun _ _ => HangCmdKept.refl.wnTile _ _ _) _

theorem HangCmdKept.margins (u : Nat) : HangCmdKept s (t.margins u) := (h.setfTile _ _ _ _ _).setfTile _ _ _ _ _

/-- A change at a tile's step boundary writes the tile's registers alone (R29, R107). -/
theorem HangCmdKept.tileApply (u : Nat) (d : Deferred) : HangCmdKept s (t.tileApply u d) := by
  cases d with
  | write off v m side =>
    unfold State.tileApply
    dsimp only
    split
    · exact h
    · exact h.wnTile _ _ _
  | statClear m => exact h.wnTile _ _ _
  | perfClear after => exact ((h.foldl (fun _ _ => HangCmdKept.refl.wnTile _ _ _) _).setfTile _ _ _ _ _).recount _ _
  | clock fq v => exact (h.setfTile _ _ _ _ _).setfTile _ _ _ _ _
  | pace v => exact h.same rfl
  | stop => exact h
  | reset k => exact h

theorem HangCmdKept.tileApplyStopped (u : Nat) (d : Deferred) : HangCmdKept s (t.tileApplyStopped u d) :=
  HangCmdKept.ite (h.bumpTile _ _) (h.tileApply _ _)

end

/-- Crates part-way in are dropped or left by free choice (R109): no register changes. -/
theorem State.dropArriving_regs (s : State) (u : Nat) : (s.dropArriving u).regs = s.regs := by
  obtain ⟨n, cs, he, -⟩ := s.dropArriving_spec u
  rw [he]

section
variable {s t : State} (h : HangCmdKept s t)
include h

theorem HangCmdKept.tileReset (u : Nat) : HangCmdKept s (t.tileReset u) := by
  unfold State.tileReset
  extract_lets u0 x waiting after tile u1 u2
  have h0 : HangCmdKept s u0 := h.same (t.dropArriving_regs u)
  have h1 : HangCmdKept s u1 := h0.same rfl
  have h2 : HangCmdKept s u2 := (HangCmdKept.same (h1.clearTile _ _) (by rfl)).margins _
  exact (h2.recount _ _).foldl (fun _ _ => HangCmdKept.refl.tileApplyStopped _ _) _

theorem HangCmdKept.applyStopped (u : Nat) : HangCmdKept s (t.applyStopped u) := by
  have hmap := h.mapTile u fun x => { x with deferred := [] }
  exact HangCmdKept.ite (h.tileReset _) (HangCmdKept.ite (hmap.foldl (fun _ _ => HangCmdKept.refl.tileApplyStopped _ _) _)
    (hmap.foldl (fun _ _ => HangCmdKept.refl.tileApply _ _) _))

theorem HangCmdKept.writeTrapRecord (u : Nat) (p : PendTrap) (also : Nat) : HangCmdKept s (t.writeTrapRecord u p also) :=
  ((((((h.wnTile _ _ _).wnTile _ _ _).wr64Tile _ _ _ _).wnTile _ _ _).wr64Tile _ _ _ _).wnTile _ _ _).wnTile _ _ _

/-! ### Tiles that fall due (R204, R205) -/

theorem HangCmdKept.rejectSlot (k c d : Nat) : HangCmdKept s (t.rejectSlot k c d) := by
  have hslot : ∀ o, 0x40 ≤ o → 0x30020 ≤ winBase .pln 0 + o + 0x20 * k := fun o ho => by simp only [winBase]; omega
  exact ((h.setf (hslot _ (by decide)) _ _ _).setf (hslot _ (by decide)) _ _ _).wn (hslot _ (by decide)) _

theorem HangCmdKept.powerTile (u : Nat) : HangCmdKept s (t.powerTile u) := by
  unfold State.powerTile
  split
  · exact HangCmdKept.setTs (h.same (by rfl)) _ _
  · exact h

end

/-- A choice drawn only where there is one to make takes a free value at most. -/
theorem State.drawAmong_eq (s : State) (p : Prop) [Decidable p] (n : Nat) :
    (if p then (0, s) else s.draw n).2 = { s with free := if p then s.free else s.free + 1 } := by
  split <;> rfl

/-- What a re-preparation is drawn from, and the tile it readies. -/
theorem State.reprepare_cases (s : State) (k u x : Nat) (pl : Placement) (p : Plan) :
    (∃ c d, s.reprepare k u x pl p = ((s.rejectSlot k 0x20 c).event .cur 0 0 k).postRetired u 0x7FF d)
      ∨ ∃ (n v : Nat) (steps : List Word64) (g : Slot → Slot),
        s.reprepare k u x pl p = ((({ s with free := n } : State).powerTile v).preloadTile v steps).mapSlot k g := by
  unfold State.reprepare
  dsimp only
  split
  · exact .inl ⟨_, _, rfl⟩
  · refine .inr ?_
    rw [State.drawAmong_eq]
    exact ⟨_, _, _, _, rfl⟩

theorem State.reprepare_hangCmd (s : State) (k u x : Nat) (pl : Placement) (p : Plan) : HangCmdKept s (s.reprepare k u x pl p) := by
  rcases s.reprepare_cases k u x pl p with ⟨c, d, he⟩ | ⟨n, v, steps, g, he⟩
  · rw [he]
    exact ((HangCmdKept.refl.rejectSlot _ _ _).event _ _ _ _ _ _).post _ _ _ _
  · rw [he]
    exact HangCmdKept.same (HangCmdKept.powerTile (HangCmdKept.same (t := s) .refl (by rfl)) _) rfl

theorem State.reprepare_lateTiles (s : State) (k u x : Nat) (pl : Placement) (p : Plan) :
    (s.reprepare k u x pl p).cur.lateTiles = s.cur.lateTiles := by
  rcases s.reprepare_cases k u x pl p with ⟨c, d, he⟩ | ⟨n, v, steps, g, he⟩
  · rw [he, State.postRetired, State.postEvent, (State.post_recorded _ _ _ _ _).cur, (State.event_recorded _ _ _ _ _ _ _).cur, State.rejectSlot_cur]
  · have hpower : (({ s with free := n } : State).powerTile v).cur.lateTiles = s.cur.lateTiles :=
      congrArg CurState.lateTiles (State.powerTile_cur { s with free := n } v)
    rw [he]
    exact hpower

/-- A tile that falls due is left to the hang after, or what the READY slot gives it is prepared anew (R205). -/
theorem State.fallDue_cases (s : State) (u : Nat) :
    (2 ≤ s.hangState ∧ s.fallDue u = { s with cur := { s.cur with lateTiles := s.cur.lateTiles ++ [u] } })
      ∨ s.fallDue u = s ∨ ∃ k x pl p, s.fallDue u = s.reprepare k u x pl p := by
  unfold State.fallDue
  split
  next h2 => exact .inl ⟨h2, rfl⟩
  next =>
    split
    · exact .inr (.inl rfl)
    · split
      · split
        · exact .inr (.inr ⟨_, _, _, _, rfl⟩)
        · exact .inr (.inl rfl)
      · exact .inr (.inl rfl)

theorem State.fallDue_hangCmd (s : State) (u : Nat) : HangCmdKept s (s.fallDue u) := by
  rcases s.fallDue_cases u with ⟨-, he⟩ | he | ⟨k, x, pl, p, he⟩
  · rw [he]
    exact HangCmdKept.refl.same rfl
  · rw [he]
    exact .refl
  · rw [he]
    exact s.reprepare_hangCmd _ _ _ _ _

/-- Outside a hang none is left to the hang after. -/
theorem State.fallDue_lateTiles {s : State} (h : s.hangState = 0) (u : Nat) : (s.fallDue u).cur.lateTiles = s.cur.lateTiles := by
  rcases s.fallDue_cases u with ⟨h2, -⟩ | he | ⟨k, x, pl, p, he⟩
  · omega
  · rw [he]
  · rw [he]
    exact s.reprepare_lateTiles _ _ _ _ _

/-! ### Traps (R98 to R104, R114) -/

section
variable {s t : State} (h : HangCmdKept s t)
include h

theorem HangCmdKept.tileDue (u : Nat) : HangCmdKept s (t.tileDue u) := by
  have hmap : HangCmdKept s (t.mapTile u fun x => { x with due := true }) := h.mapTile _ _
  exact HangCmdKept.ite h (HangCmdKept.ite hmap (hmap.trans (State.fallDue_hangCmd _ _)))

theorem HangCmdKept.tileFault (u : Nat) : HangCmdKept s (t.tileFault u) := by
  unfold State.tileFault
  extract_lets w ts u1
  have h1 : HangCmdKept s u1 := h.mapTile _ _
  exact HangCmdKept.ite (h1.tileDue _) h1

theorem HangCmdKept.enterTrap (u : Nat) : HangCmdKept s (t.enterTrap u) := by
  unfold State.enterTrap
  extract_lets ps
  split
  · exact h
  next p _ =>
    extract_lets u1 u2 u3 u4 u5
    have h3 : HangCmdKept s u3 := (((h.writeTrapRecord _ _ _).mapTile _ _).setTs _ _).post _ _ _ _
    have h4 : HangCmdKept s u4 := h3.foldl (fun _ _ => HangCmdKept.refl.event _ _ _ _ _ _) _
    have h5 : HangCmdKept s u5 := HangCmdKept.ite (h4.tileFault _) h4
    exact h5.applyStopped _

theorem HangCmdKept.trapNow (u : Nat) : HangCmdKept s (t.trapNow u) := HangCmdKept.ite (h.enterTrap _) (h.mapTile _ _)

theorem HangCmdKept.addCause (u : Nat) (p : PendTrap) : HangCmdKept s (t.addCause u p) := by
  unfold State.addCause
  extract_lets a u1 u2
  have h1 : HangCmdKept s u1 := h.wnTile _ _ _
  have h2 : HangCmdKept s u2 := h.mapTile _ _
  refine HangCmdKept.ite (h1.event _ _ _ _ _ _) ?_
  split
  · exact HangCmdKept.trapNow (h2.setTs _ _) _
  · exact h2.trapNow _
  · exact h2

/-! ### Disarming (R201) -/

theorem HangCmdKept.perf (u o n : Nat) : HangCmdKept s (t.perf u o n) := by
  unfold State.perf
  split
  · exact h
  · exact h.wnTile _ _ _

theorem HangCmdKept.setPos (u n : Nat) : HangCmdKept s (t.setPos u n) := h.setfTile _ _ _ _ _

theorem HangCmdKept.advance {u p : Nat} {x : State} (hx : t.advance u p = some x) : HangCmdKept s x := by
  unfold State.advance at hx
  dsimp only at hx
  split at hx
  · cases hx
  · obtain rfl := Option.some.inj hx
    exact (h.mapTile _ _).setPos _ _

theorem HangCmdKept.disarm (u : Nat) : HangCmdKept s (t.disarm u) := by
  unfold State.disarm
  refine HangCmdKept.ite (h.setTs _ _) (HangCmdKept.ite ?_ h)
  split
  next x hx => exact HangCmdKept.perf (HangCmdKept.mapTile (h.advance hx) _ _) _ _ _
  next => exact h.addCause _ _

end

/-! ### The end of a hang (R201, R210, R241) -/

theorem State.disarmed_hangCmd (s : State) (us : List Nat) : HangCmdKept s (us.foldl State.disarm s) :=
  HangCmdKept.refl.foldl (fun _ _ => HangCmdKept.refl.disarm _) _

/-- The hang's tiles are disarmed, and the hang is counted as withdrawn. -/
theorem State.dropHang_counts (s : State) : s.dropHang.rn withdrawReg = min 0xFFFFFFFF (s.rn withdrawReg + 1) := by
  unfold State.dropHang
  rw [← (s.disarmed_hangCmd s.poweredTiles).rn (a := withdrawReg) (by decide)]
  exact State.rn_bump _ _

theorem State.dropHang_head (s : State) : s.dropHang.rn planHeadReg = s.rn planHeadReg :=
  (State.rn_bump_ne _ (by decide)).trans ((s.disarmed_hangCmd s.poweredTiles).rn (by decide))

/-- Tiles that were left to a hang that is withdrawn are left to none, and the hang stays over. -/
theorem State.recallLate_spec {s : State} (h : s.hangState = 0) : HangCmdKept s s.recallLate ∧ s.recallLate.cur.lateTiles = [] := by
  unfold State.recallLate
  refine List.foldlRecOn (motive := fun u : State => HangCmdKept s u ∧ u.cur.lateTiles = []) _ _ ⟨HangCmdKept.refl.same rfl, rfl⟩ fun u ⟨hk, hl⟩ v _ => ?_
  exact ⟨hk.trans (u.fallDue_hangCmd v), (State.fallDue_lateTiles (hk.hangState.trans h) v).trans hl⟩

/-- Registers past the hang's own, cleared. -/
theorem State.clearRegs_spec {α : Type} (s : State) (f : α → Nat) {xs : List α} (hf : ∀ x ∈ xs, 0x30020 ≤ f x) :
    HangCmdKept s (xs.foldl (fun u x => u.wn (f x) 0) s) ∧ (xs.foldl (fun u x => u.wn (f x) 0) s).cur = s.cur :=
  List.foldlRecOn (motive := fun u : State => HangCmdKept s u ∧ u.cur = s.cur) _ _ ⟨HangCmdKept.refl, rfl⟩
    fun _ ⟨hk, hc⟩ x hx => ⟨hk.wn (hf x hx) 0, hc⟩

/-- A slot that becomes EMPTY. -/
theorem State.clearSlot_spec (s : State) (k : Nat) : HangCmdKept s (s.clearSlot k) ∧ (s.clearSlot k).cur.lateTiles = s.cur.lateTiles := by
  have hslot : ∀ o ∈ [rPLN_SLOT_STAT, rPLN_SLOT_DETAIL, rPLN_SLOT_GEN_LO, rPLN_SLOT_GEN_HI, rPLN_SLOT_LENGTH], 0x30020 ≤ slotReg k o := fun o ho => by
    have hlo := (by decide : ∀ p ∈ [rPLN_SLOT_STAT, rPLN_SLOT_DETAIL, rPLN_SLOT_GEN_LO, rPLN_SLOT_GEN_HI, rPLN_SLOT_LENGTH], 0x40 ≤ p) o ho
    simp only [slotReg, winBase]
    omega
  have hhash : ∀ w ∈ List.range 12, 0x30020 ≤ winBase .pln 0 + rPLN_SLOT_HASH + 4 * (12 * k + w) := fun w _ => by
    simp only [winBase, rPLN_SLOT_HASH]
    omega
  unfold State.clearSlot
  extract_lets c u0 u1
  obtain ⟨hk1, hc1⟩ := u0.clearRegs_spec (slotReg k) hslot
  obtain ⟨hk2, hc2⟩ := u1.clearRegs_spec _ hhash
  have h0 : HangCmdKept s u0 := HangCmdKept.refl.same rfl
  refine ⟨HangCmdKept.setf ((h0.trans hk1).trans hk2) (by decide) _ _ _, ?_⟩
  have hlate : u1.cur.lateTiles = u0.cur.lateTiles := congrArg CurState.lateTiles hc1
  exact (congrArg CurState.lateTiles hc2).trans hlate

/-- What the end of a hang leaves, applied or not: the hang over, the rest of its command's registers kept, and no tile left to it. -/
structure HangEnded (s t : State) : Prop where
  state : t.hangState = 0
  head : t.rn planHeadReg = s.rn planHeadReg
  count : t.rn withdrawReg = s.rn withdrawReg
  late : t.cur.lateTiles = []

/-- What finishHang does of a hang where nothing was applied, before a slot whose record was lost is emptied. -/
def State.endHang (s : State) (result : Nat) : State := ((s.hangIdle.draw (2 ^ 48)).2.finishPlan 0x22 result (s.hangIdle.draw (2 ^ 48)).1).recallLate

theorem State.finishHang_none (s : State) (result : Nat) :
    s.finishHang none result = if s.cur.lostHang then (s.endHang 7).clearSlot s.hangSlot else s.endHang result := by
  unfold State.finishHang
  cases hl : s.cur.lostHang
  · simp only [Bool.false_eq_true, if_false]
    rfl
  · simp only [if_true]
    rfl

/-- The command in progress completes with nothing but PLN_HANG_STAT changed of the hang's registers. -/
theorem State.hangDone_regs (s : State) (op result detail : Nat) {a : Nat} (ha : a ∈ hangCmdRegs) (hne : a ≠ hangReg) :
    ((s.hangIdle.draw (2 ^ 48)).2.finishPlan op result detail).rd a = s.rd a :=
  ((State.finishPlan_completed _ _ _ _).regs a (steady_of_hangCmd ha) ((by decide : ∀ b ∈ hangCmdRegs, b ≠ planStatReg) a ha)).trans
    (State.rd_wr_ne s _ hne)

theorem State.hangDone_state (s : State) (op result detail : Nat) : ((s.hangIdle.draw (2 ^ 48)).2.finishPlan op result detail).hangState = 0 := by
  have hrn : ((s.hangIdle.draw (2 ^ 48)).2.finishPlan op result detail).rn hangReg = 0 :=
    ((State.finishPlan_completed _ _ _ _).regs.rn (by decide) (by decide)).trans (State.rn_wn_same s hangReg 0)
  rw [State.hangState, State.f, hrn]
  rfl

theorem State.endHang_ended (s : State) (result : Nat) : HangEnded s (s.endHang result) := by
  obtain ⟨hkept, hlate⟩ := State.recallLate_spec (s.hangDone_state 0x22 result (s.hangIdle.draw (2 ^ 48)).1)
  exact ⟨hkept.hangState.trans (s.hangDone_state _ _ _),
    (hkept.rn (by decide)).trans (congrArg BitVec.toNat (s.hangDone_regs _ _ _ (by decide) (by decide))),
    (hkept.rn (by decide)).trans (congrArg BitVec.toNat (s.hangDone_regs _ _ _ (by decide) (by decide))), hlate⟩

/-- A hang that ends with nothing applied (R201). -/
theorem State.finishHang_ended (s : State) (result : Nat) : HangEnded s (s.finishHang none result) := by
  rw [State.finishHang_none]
  split
  · obtain ⟨hkept, hlate⟩ := (s.endHang 7).clearSlot_spec s.hangSlot
    have hend := s.endHang_ended 7
    exact ⟨hkept.hangState.trans hend.state, (hkept.rn (by decide)).trans hend.head, (hkept.rn (by decide)).trans hend.count, hlate.trans hend.late⟩
  · exact s.endHang_ended result

end Sys2Proof.Machine

/-! PROOFS. The hang armed, withdrawn and waved (R171, R195, R199 to R201, R205, log entry 180): O25. -/

namespace Sys2Proof.Machine

open Sys2Proof

section
variable {s t : State}

/-! ### Disarming tiles that go on (R201) -/

/-- Every tile that waits at a HANG step goes on past it. -/
def State.hangsGoOn (s : State) : Prop := ∀ u, (s.tile u).holding = .hang → GoesOn s u (s.pos u)

theorem tr_ne_of_ne {u v o : Nat} (h : u ≠ v) : tr u o ≠ tr v o := by simp only [tr, winBase]; omega

theorem State.ts_of_regsBut {as : List Nat} (h : RegsBut as s t) {u : Nat} (hu : tr u rTILE_STATE ∉ as) : t.ts u = s.ts u := h.f hu 0 3
theorem State.pos_of_regsBut {as : List Nat} (h : RegsBut as s t) {u : Nat} (hu : tr u rTILE_EXEC_POS ∉ as) : t.pos u = s.pos u := by
  unfold State.pos
  rw [h.f hu]

/-- What disarming a tile leaves, and the states it moves. -/
structure Disarmed (v : Nat) (s t : State) : Prop where
  cur : t.cur = s.cur
  blocks : SameBlocks s t
  goOn : t.hangsGoOn
  ts : ∀ u, t.ts u = if u = v ∧ s.ts v = tsHANG then tsRUN else s.ts u

theorem State.setTs_disarmed (hg : s.hangsGoOn) {v : Nat} (h : s.ts v = tsHANG) : Disarmed v s (s.setTs v tsRUN) := by
  have hbut : RegsBut [tr v rTILE_STATE] s (s.setTs v tsRUN) := RegsBut.setf _ _ _ _ _
  refine ⟨rfl, hbut.sameBlocks (fun a ha => by rw [List.mem_singleton.1 ha]; exact tr_high _ _), fun u hu => ?_, fun u => ?_⟩
  · rw [State.pos_of_regsBut hbut (by simpa using tr_ne_tr (by decide) (by decide) (by decide))]
    exact GoesOn.of_tile (hg u hu) rfl
  · by_cases hu : u = v
    · subst hu
      rw [if_pos ⟨rfl, h⟩, State.ts_setTs _ _ (by decide)]
    · rw [if_neg fun hc => hu hc.1, State.ts_of_regsBut hbut (by simpa using tr_ne_of_ne hu)]

theorem State.stepDone_cur (s : State) (u : Nat) : (s.stepDone u).cur = s.cur := by
  unfold State.stepDone State.perf
  split
  · rfl
  · rfl

theorem State.tile_stepDone (s : State) (u v : Nat) : (s.stepDone u).tile v = s.tile v := by
  unfold State.stepDone State.perf
  split
  · rfl
  · rfl

/-- A tile past its HANG step. -/
def State.pastHang (s : State) (v : Nat) : State := ((s.went v (s.pos v)).mapTile v fun x => { x with holding := .none }).stepDone v

theorem State.pastHang_regsBut (s : State) (v : Nat) : RegsBut [tr v rTILE_EXEC_POS, tr v rTILE_STEP_COUNT] s (s.pastHang v) :=
  (((s.went_regsBut v _).mono (by simp)).same (x := (s.went v (s.pos v)).mapTile v fun x => { x with holding := .none }) rfl).trans
    ((State.stepDone_regsBut _ v).mono (by simp))

theorem State.tile_pastHang (s : State) {u v : Nat} (h : u ≠ v) : (s.pastHang v).tile u = s.tile u := by
  rw [State.pastHang, State.tile_stepDone, State.tile_mapTile, if_neg h]
  exact (s.went_onlyTile v _).2 u h

theorem State.holding_pastHang (s : State) (v : Nat) : ((s.pastHang v).tile v).holding = .none := by
  rw [State.pastHang, State.tile_stepDone, State.tile_mapTile, if_pos rfl]

/-- The HANG step of a tile completes as a no-operation. -/
theorem State.pastHang_disarmed (hg : s.hangsGoOn) {v : Nat} (h : s.ts v ≠ tsHANG) : Disarmed v s (s.pastHang v) := by
  have hbut := s.pastHang_regsBut v
  refine ⟨State.stepDone_cur _ _, hbut.sameBlocks (fun a ha => ?_), fun u hu => ?_, fun u => ?_⟩
  · simp only [List.mem_cons, List.not_mem_nil, or_false] at ha
    rcases ha with rfl | rfl
    · exact tr_high _ _
    · exact tr_high _ _
  · have huv : u ≠ v := by
      rintro rfl
      rw [s.holding_pastHang] at hu
      cases hu
    rw [s.tile_pastHang huv] at hu
    have hpos : tr u rTILE_EXEC_POS ∉ [tr v rTILE_EXEC_POS, tr v rTILE_STEP_COUNT] := by
      simp only [List.mem_cons, List.not_mem_nil, or_false, not_or]
      exact ⟨tr_ne_of_ne huv, tr_ne_tr (by decide) (by decide) (by decide)⟩
    rw [State.pos_of_regsBut hbut hpos]
    exact GoesOn.of_tile (hg u hu) (s.tile_pastHang huv)
  · have hstate : tr u rTILE_STATE ∉ [tr v rTILE_EXEC_POS, tr v rTILE_STEP_COUNT] := by
      simp only [List.mem_cons, List.not_mem_nil, or_false, not_or]
      exact ⟨tr_ne_tr (by decide) (by decide) (by decide), tr_ne_tr (by decide) (by decide) (by decide)⟩
    rw [if_neg fun hc => h hc.2, State.ts_of_regsBut hbut hstate]

theorem State.disarm_disarmed (hg : s.hangsGoOn) (v : Nat) : Disarmed v s (s.disarm v) := by
  unfold State.disarm
  split
  next h => exact State.setTs_disarmed hg h
  next h =>
    split
    next hh =>
      rw [State.advance_of_goesOn (hg v hh)]
      exact State.pastHang_disarmed hg h
    next => exact ⟨rfl, fun _ _ => rfl, hg, fun u => by rw [if_neg fun hc => h hc.2]⟩

/-- Every tile of a list disarmed: the Curator and the registers below the tiles' are kept, and tiles in HANG run on. -/
theorem State.disarms_spec (hg : s.hangsGoOn) (us : List Nat) :
    (us.foldl State.disarm s).cur = s.cur ∧ SameBlocks s (us.foldl State.disarm s)
      ∧ ∀ u, s.ts u = tsRUN ∨ (s.ts u = tsHANG ∧ u ∈ us) → (us.foldl State.disarm s).ts u = tsRUN := by
  induction us generalizing s with
  | nil => exact ⟨rfl, fun _ _ => rfl, fun u hu => hu.resolve_right fun h => List.not_mem_nil h.2⟩
  | cons v us ih =>
    have hv := State.disarm_disarmed hg v
    obtain ⟨hcur, hblocks, hts⟩ := ih hv.goOn
    refine ⟨hcur.trans hv.cur, fun a ha => (hblocks a ha).trans (hv.blocks a ha), fun u hu => hts u ?_⟩
    rw [hv.ts]
    split
    · exact .inl rfl
    next hne =>
      refine hu.imp id fun ⟨hh, hm⟩ => ⟨hh, (List.mem_cons.1 hm).resolve_left ?_⟩
      rintro rfl
      exact hne ⟨rfl, hh⟩

/-! ### A hang that ends while nothing was lost (R201) -/

/-- The statement's calm: no record of the slot lost, no tile left to this hang, and no tile that traps as it is disarmed. -/
def State.calm (s : State) : Prop := s.cur.lostHang = false ∧ s.cur.lateTiles = []
  ∧ ∀ u, (s.tile u).pendTraps = [] ∧ ((s.tile u).holding = .hang → GoesOn s u (s.pos u))

/-- A hang with nothing lost and nothing left to it ends by its own registers alone. -/
theorem State.rd_finishHang_calm (hl : s.cur.lostHang = false) (hlate : s.cur.lateTiles = []) (result : Nat) {a : Nat} (ha : Steady a)
    (hs : a ≠ planStatReg) (hne : a ≠ hangReg) : (s.finishHang none result).rd a = s.rd a := by
  rw [State.finishHang_none, if_neg (by rw [hl]; decide), State.endHang]
  generalize hx : (s.hangIdle.draw (2 ^ 48)).2.finishPlan 0x22 result (s.hangIdle.draw (2 ^ 48)).1 = x
  have hdone := State.finishPlan_completed (s.hangIdle.draw (2 ^ 48)).2 0x22 result (s.hangIdle.draw (2 ^ 48)).1
  rw [hx] at hdone
  have hnone : x.cur.lateTiles = [] := (congrArg CurState.lateTiles hdone.recorded.cur).trans hlate
  rw [State.recallLate, hnone]
  exact (hdone.regs a ha hs).trans (State.rd_wr_ne s _ hne)

theorem steady_tileState (u : Nat) : Steady (tr u rTILE_STATE) := by
  simp only [Steady, tr, winBase, rTILE_STATE, rHST_UNROUTED_COUNT]
  omega

/-- What the statement says of a hang that has ended without its being applied. -/
structure Withdrawn (s t : State) : Prop where
  state : t.hangState = 0
  late : t.cur.lateTiles = []
  calm : s.calm → t.slotState s.hangSlot = s.slotState s.hangSlot ∧ ∀ u, isTile u = true → s.ts u = tsHANG → t.ts u = tsRUN
  head : t.rn planHeadReg = s.rn planHeadReg
  count : t.rn withdrawReg = min 0xFFFFFFFF (s.rn withdrawReg + 1)

theorem State.dropHang_calm (hc : s.calm) : s.dropHang.cur = s.cur ∧ s.dropHang.slotState s.hangSlot = s.slotState s.hangSlot
    ∧ ∀ u, isTile u = true → s.ts u = tsHANG → s.dropHang.ts u = tsRUN := by
  obtain ⟨-, -, htiles⟩ := hc
  obtain ⟨hcur, hblocks, hts⟩ := State.disarms_spec (fun u => (htiles u).2) s.poweredTiles
  unfold State.dropHang
  refine ⟨hcur, (State.slotState_wn _ _ (by decide) _).trans ?_, fun u hu hh => ?_⟩
  · have hk := s.hangSlot_lt
    exact hblocks.f (by simp only [winBase, rPLN_SLOT_STAT]; omega) 0 3
  · have hp : u ∈ s.poweredTiles := State.mem_poweredTiles hu (by rw [hh]; decide)
    exact (congrArg (fld · 0 3) (State.rn_bump_ne _ (ne_tr (by decide)).symm)).trans (hts u (.inr ⟨hh, hp⟩))

/-- A hang that is dropped, recorded and ended (R199, R201). -/
theorem State.finishHang_withdrawn {x : State} (hrec : Recorded s.dropHang x) (hkept : SteadyKept s.dropHang x) (result : Nat) :
    Withdrawn s (x.finishHang none result) := by
  have hend := x.finishHang_ended result
  refine ⟨hend.state, hend.late, fun hc => ?_, ?_, ?_⟩
  · obtain ⟨hcur, hslot, hts⟩ := State.dropHang_calm hc
    obtain ⟨hl, hlate, -⟩ := hc
    have hxcur : x.cur = s.cur := hrec.cur.trans hcur
    have hrd : ∀ a, Steady a → a ≠ planStatReg → a ≠ hangReg → (x.finishHang none result).rd a = s.dropHang.rd a := fun a ha hs hne =>
      (State.rd_finishHang_calm (by rw [hxcur, hl]) (by rw [hxcur, hlate]) result ha hs hne).trans (hkept a ha)
    have hk := s.hangSlot_lt
    refine ⟨?_, fun u hu hh => ?_⟩
    · refine Eq.trans (congrArg (fun w : Word => fld w.toNat 0 3) (hrd _ (steady_slotReg hk) ?_ ?_)) hslot
      · simp only [planStatReg, rg, winBase, rPLN_SLOT_STAT, rHST_RING_STAT, planRing]; omega
      · simp only [hangReg, winBase, rPLN_SLOT_STAT, rPLN_HANG_STAT]; omega
    · exact Eq.trans (congrArg (fun w : Word => fld w.toNat 0 3) (hrd _ (steady_tileState u) (ne_tr (by decide)).symm (ne_tr (by decide)).symm))
        (hts u hu hh)
  · rw [hend.head, hkept.rn (by decide), s.dropHang_head]
  · rw [hend.count, hkept.rn (by decide), s.dropHang_counts]

/-! ### HANG and WITHDRAW (R171, R195) -/

theorem execHang_starts {b : List Byte} (h : PlanHead s 0x22 b) (ho : s.hangOut = false) (h5 : s.slotState (at_ b 0x20 1) = 5) :
    exec .hang s = .next (s.startHang (at_ b 0x20 1)) := by
  show execHang s = _
  rw [execHang, h.starts]
  simp [ho, h5]

/-- The hang of a slot begins: ARMING, with entropy drawn. -/
theorem State.startHang_spec (s : State) {k : Nat} (hk : k < 4) : (s.startHang k).hangState = 1 ∧ (s.startHang k).hangSlot = k
    ∧ Consumed planRing s (s.startHang k) ∧ (s.startHang k).free = s.free + 1
    ∧ (s.startHang k).cur = { s.cur with nextEntropy := Config.entropy s.free % 2 ^ 64, hangStart := s.timer, hangReady := s.timer,
                                          waveSlow := false, waveResult := none, waitingHang := none }
    ∧ RegsBut [hangReg, rg rHST_RING_HEAD planRing, rg rHST_RING_STAT planRing] s (s.startHang k) := by
  have hrec := s.consume_recorded planRing
  have hval : (s.startHang k).rn hangReg = 1 + k * 2 ^ 4 := (State.rn_wn_same _ _ _).trans (Nat.mod_eq_of_lt (by omega))
  have hbut : RegsBut [hangReg] (s.consume planRing) (s.startHang k) := fun a ha => State.rd_wr_ne _ _ (by simpa using ha)
  refine ⟨?_, ?_, (hbut.rn (by decide)).trans s.rn_head_consume, congrArg (· + 1) hrec.free, ?_,
    (s.consume_regsBut.mono (by decide)).trans (hbut.mono (by decide))⟩
  · rw [State.hangState, State.f, hval, fld]
    omega
  · rw [State.hangSlot, State.f, hval, fld]
    omega
  · unfold State.startHang
    simp only [State.wn, State.wr, hrec.cur, hrec.free, hrec.timer]

theorem execWithdraw_withdraws {b : List Byte} (h : PlanHead s 0x23 b) (hw : s.cur.waitingHang = none) (ho : s.hangOut = true)
    (hc : s.canWithdraw = true) : exec .withdraw s = .next (s.withdrawHang.answerHead planRing 0 0) := by
  show execWithdraw s = _
  unfold execWithdraw
  simp only [hw]
  rw [h.starts]
  simp [ho, hc]

/-- The record and the end of the hang, for WITHDRAW. -/
theorem State.withdrawHang_withdrawn (s : State) : Withdrawn s s.withdrawHang :=
  State.finishHang_withdrawn (State.postEvent_recorded _ _ _ _ _) (State.postEvent_steady _ _ _ _ _) 0

/-- An answer leaves what a withdrawn hang left, but the HEAD that it moves. -/
theorem Withdrawn.answered (h : Withdrawn s t) (result detail : Nat) : (t.answerHead planRing result detail).hangState = 0
    ∧ (t.answerHead planRing result detail).cur.lateTiles = []
    ∧ (s.calm → (t.answerHead planRing result detail).slotState s.hangSlot = s.slotState s.hangSlot
      ∧ ∀ u, isTile u = true → s.ts u = tsHANG → (t.answerHead planRing result detail).ts u = tsRUN) := by
  refine ⟨?_, (congrArg CurState.lateTiles (t.answerHead_recorded _ _).cur).trans h.late, fun hc => ?_⟩
  · exact Eq.trans (congrArg (fun w : Word => fld w.toNat 0 3) (t.rd_answerHead result detail (a := hangReg) (by decide) (by decide) (by decide))) h.state
  · obtain ⟨hslot, hts⟩ := h.calm hc
    refine ⟨(t.slotState_answerHead s.hangSlot_lt _ _).trans hslot, fun u hu hh => ?_⟩
    exact Eq.trans (congrArg (fun w : Word => fld w.toNat 0 3) (t.rd_answerHead result detail (steady_tileState u) (ne_tr (by decide)).symm
      (ne_tr (by decide)).symm)) (hts u hu hh)

/-! ### Every tile armed (R195 steps 2 and 3) -/

theorem State.armed_eq (s : State) :
    s.armed = if s.hangState = 1 ∧ s.slotState s.hangSlot = 5 then s.setf hangReg 0 3 2 else s := rfl

theorem State.armed_regsBut (s : State) : RegsBut [hangReg] s s.armed := by
  rw [State.armed_eq]
  split
  · exact RegsBut.setf _ _ _ _ _
  · exact .refl _ _

theorem State.armed_tiles (s : State) : s.armed.tiles = s.tiles := by
  rw [State.armed_eq]
  split <;> rfl

theorem State.armed_cur (s : State) : s.armed.cur = s.cur := by
  rw [State.armed_eq]
  split <;> rfl

theorem State.hangSlot_armed (s : State) : s.armed.hangSlot = s.hangSlot := by
  rw [State.armed_eq]
  split
  · exact State.f_setf_apart s hangReg 2 (by decide) (.inr (by decide))
  · rfl

/-- A hang that is ARMED, or ARMING with its slot READY, is ARMED. -/
theorem State.hangState_armed (h : s.hangState = 2 ∨ (s.hangState = 1 ∧ s.slotState s.hangSlot = 5)) : s.armed.hangState = 2 := by
  rw [State.armed_eq]
  split
  · exact State.f_setf_same s hangReg 2 (by decide)
  next hn => exact h.resolve_right hn

theorem State.hanging_armed (s : State) : s.armed.hanging = s.hanging := by
  unfold State.hanging
  rw [s.hangSlot_armed, State.slot_of_cur s.armed_cur]

/-- Arming writes no tile's register. -/
theorem State.poweredTiles_armed {u : Nat} (h : u ∈ s.armed.poweredTiles) : u ∈ s.poweredTiles := by
  rw [State.armed_eq] at h
  split at h
  · obtain ⟨e, he, hu⟩ := List.mem_filterMap.1 h
    rcases regsWf_wr.mem_aput s.regs he with hm | ⟨rfl, -⟩
    · exact List.mem_filterMap.2 ⟨e, hm, hu⟩
    · have hnone : stateTile hangReg = none := by decide
      exact absurd (hnone.symm.trans hu) nofun
  · exact h

theorem State.pendingTiles_armed (h : s.pendingTiles = []) : s.armed.pendingTiles = [] := by
  refine List.filter_eq_nil_iff.2 fun u hu => ?_
  have htile : s.armed.tile u = s.tile u := by rw [State.tile, State.tile, s.armed_tiles]
  have hts : s.armed.ts u = s.ts u := State.ts_of_regsBut s.armed_regsBut (by simpa using (ne_tr (by decide)).symm)
  rw [hts, State.routerBad, htile]
  exact List.filter_eq_nil_iff.1 h u (State.poweredTiles_armed hu)

theorem State.sendMoved_messaged (s : State) (p : Plan) (pl : Placement) : Messaged s (s.sendMoved p pl) :=
  Messaged.foldl (fun _ _ => Messaged.foldl (fun _ _ => State.sendOffice_messaged _ _ _ _ _) _) _

theorem execHangArmed_applies {p : Plan} {pl : Placement} (h : s.hangState = 2 ∨ (s.hangState = 1 ∧ s.slotState s.hangSlot = 5))
    (hp : s.pendingTiles = []) (hh : s.hanging = some (p, pl)) (hg : p.hangGroup = 0xFF) :
    exec .hangArmedAllAtPoint s = .next ((({ s.armed with cur := { s.armed.cur with hangReady := s.armed.timer } } : State).sendMoved p pl).setf hangReg 0 3 4) := by
  show execHangArmedAllAtPoint s = _
  unfold execHangArmedAllAtPoint
  simp only [State.hangState_armed h, State.pendingTiles_armed hp, s.hanging_armed, hh, hg]
  rfl

/-- A hang whose slot is no longer READY as it arms (log entry 180). -/
theorem execHangArmed_ends (h : s.hangState = 1) (h5 : s.slotState s.hangSlot ≠ 5) : exec .hangArmedAllAtPoint s = .next (s.finishHang none 5) := by
  show execHangArmedAllAtPoint s = _
  unfold execHangArmedAllAtPoint
  have harmed : s.armed = s := by rw [State.armed_eq, if_neg fun hc => h5 hc.2]
  rw [harmed]
  simp only [h, if_true]

/-! ### The hang wave (R199, R200) -/

theorem execHangWaveComplete_agrees {lo hi : Nat} (hw : s.cur.waveResult = some (lo, hi)) (h3 : s.hangState = 3)
    (ha : lo = s.slotGen s.hangSlot ∧ hi = s.slotGen s.hangSlot) :
    exec .hangWaveComplete s = .next (({ s with cur := { s.cur with hangReady := s.timer } } : State).setf hangReg 0 3 4) := by
  show execHangWaveComplete s = _
  unfold execHangWaveComplete
  simp only [hw, h3]
  rw [if_neg (by decide), if_pos ha]

theorem execHangWaveComplete_disagrees {lo hi : Nat} (hw : s.cur.waveResult = some (lo, hi)) (h3 : s.hangState = 3)
    (ha : ¬ (lo = s.slotGen s.hangSlot ∧ hi = s.slotGen s.hangSlot)) :
    exec .hangWaveComplete s = .next ((s.dropHang.event .pln 0 0 s.hangSlot).finishHang none) := by
  show execHangWaveComplete s = _
  unfold execHangWaveComplete
  simp only [hw, h3]
  rw [if_neg (by decide), if_neg ha]

theorem execHangWaveSlow_reports (h3 : s.hangState = 3) (hi : s.f hangReg 3 1 = 1) (hs : s.cur.waveSlow = false)
    (ht : s.f (winBase .pln 0 + rPLN_HANG_WAVE_TIME) 0 16 ≠ 0) :
    exec .hangWaveSlow s = .next (({ s with cur := { s.cur with waveSlow := true } } : State).event .pln 0 1 s.hangSlot) := by
  show execHangWaveSlow s = _
  unfold execHangWaveSlow
  rw [if_pos (by simp [h3, hi, hs, ht])]

end

/-- Settles O25: a hang that is dropped disarms its tiles by no trap where each goes on, and ends by `finishHang`; the other clauses
run one command each. -/
theorem hangArmsAndWithdraws : Obligations.HangArmsAndWithdraws := by
  intro s b
  refine ⟨fun h ho h5 => ⟨_, execHang_starts h ho h5, s.startHang_spec (h.slot_lt (by decide))⟩, fun h hw ho hc => ?_, fun p pl h hp hh hg => ?_,
    fun h1 h5 => ⟨_, execHangArmed_ends h1 h5, (s.finishHang_ended 5).state⟩, fun lo hi hw h3 => ⟨fun hlo hhi => ?_, fun hne => ?_⟩,
    fun h3 hi hs ht => ⟨_, execHangWaveSlow_reports h3 hi hs ht, ?_, ?_⟩⟩
  · have hd := s.withdrawHang_withdrawn
    refine ⟨_, execWithdraw_withdraws h hw ho hc, (s.withdrawHang.answerHead_consumes 0 0).trans ?_, hd.answered 0 0, ?_⟩
    · exact congrArg (fun n => (n + 1) % 2 ^ 32) hd.head
    · exact (congrArg BitVec.toNat (s.withdrawHang.rd_answerHead 0 0 (a := withdrawReg) (by decide) (by decide) (by decide))).trans hd.count
  · have hmoved := State.sendMoved_messaged { s.armed with cur := { s.armed.cur with hangReady := s.armed.timer } } p pl
    refine ⟨_, execHangArmed_applies h hp hh hg, State.f_setf_same _ _ _ (by decide), ?_⟩
    exact (s.armed_regsBut.same hmoved.regs).setfIn (by simp) _ _ _
  · refine ⟨_, execHangWaveComplete_agrees hw h3 ⟨hlo, hhi.trans hlo⟩, State.f_setf_same _ _ _ (by decide), ?_⟩
    exact ((RegsBut.refl _ s).same rfl).setfIn (by simp) _ _ _
  · have hd : Withdrawn s _ := State.finishHang_withdrawn (State.event_recorded s.dropHang .pln 0 0 s.hangSlot false true)
      (State.event_steady s.dropHang .pln 0 0 s.hangSlot false true) 0
    refine ⟨_, execHangWaveComplete_disagrees hw h3 fun hc => hne ⟨hc.1, hc.2.trans hc.1.symm⟩, hd.state, hd.late, hd.calm⟩
  · exact (State.event_recorded _ _ _ _ _ _ _).cur
  · exact RegsButRecords.trans (fun _ _ _ => rfl) (State.event_frame _ rfl _ _ _ _)

end Sys2Proof.Machine

/-! PROOFS. The events counted of a source (R417, R419): an event counts once in its own source's register and leaves every other count. -/

namespace Sys2Proof.Machine

open Sys2Proof

/-! ### The relation -/

/-- A register in the place of an INC_COUNT, outside the HST_ window. -/
abbrev CountReg (a : Nat) : Prop := 0x10000 ≤ a ∧ 0x820 ≤ a % 0x1000

/-- The count of events in register `a` is as before. -/
def SameCount (a : Nat) (s t : State) : Prop := t.f a 8 24 = s.f a 8 24

section
variable {a : Nat} {s t u : State}

theorem SameCount.refl : SameCount a s s := rfl

theorem SameCount.trans (h : SameCount a s t) (k : SameCount a t u) : SameCount a s u := Eq.trans k h

/-- What does not touch the register file. -/
theorem SameCount.same (h : SameCount a s t) (e : u.regs = t.regs) : SameCount a s u := (State.f_of_regs e a 8 24).trans h

theorem SameCount.ite {p : Prop} [Decidable p] (h : SameCount a s t) (k : SameCount a s u) : SameCount a s (if p then t else u) := by
  split
  · exact h
  · exact k

theorem SameCount.foldl {α : Type} {g : State → α → State} (h : SameCount a s t) (hg : ∀ x e, SameCount a x (g x e)) (es : List α) :
    SameCount a s (es.foldl g t) := by
  induction es generalizing t with
  | nil => exact h
  | cons e es ih => exact ih (h.trans (hg t e))

theorem SameCount.wn (h : SameCount a s t) {b : Nat} (hb : a ≠ b) (v : Nat) : SameCount a s (t.wn b v) :=
  h.trans (congrArg (fld · 8 24) (State.rn_wn_ne t v hb))

/-- The window of a count lies apart from it in its register. -/
theorem SameCount.window (h : SameCount a s t) (b v : Nat) : SameCount a s (t.setf b 0 8 v) := by
  by_cases hb : a = b
  · exact h.trans (by rw [SameCount, hb, State.f_setf_apart _ _ _ (by decide) (.inr (by decide))])
  · exact h.wn hb _

end

/-- The other incident registers of a block come before its INC_COUNT. -/
theorem CountReg.ne_ir {a : Nat} (ha : CountReg a) (b : Blk) (i : Nat) {o : Nat} (ho : o < 0x820) : a ≠ ir b i o := fun e => by
  have hoff := ir_mod b i (o := o) (by omega)
  rw [← e] at hoff
  omega

/-! ### Events -/

theorem State.keepHistory_regs (s : State) (r : List Byte) : (s.keepHistory r).regs = s.regs := by
  unfold State.keepHistory
  dsimp only
  split
  · rfl
  · rfl

section
variable {a : Nat} (ha : CountReg a)
include ha

theorem State.raise_sameCount (s : State) (b : Blk) (i k : Nat) (inj : Bool) (d : Nat) : SameCount a s (s.raise b i k inj d).2 := by
  unfold State.raise
  extract_lets pol sev act u waits key was i0 u1 first u2 i2 u3 u4
  have h1 : SameCount a s u1 := (SameCount.refl.wn (ha.ne_ir b i (o := rINC_STAT) (by decide)) _).same rfl
  have hfirst : a ≠ ir b i rINC_FIRST := ha.ne_ir b i (by decide)
  have h2 : SameCount a s u2 := SameCount.ite (h1.wn hfirst _) (h1.wn hfirst _)
  have h3 : SameCount a s u3 := SameCount.ite (h2.same rfl) h2
  have h4 : SameCount a s u4 := SameCount.ite (h3.wn (ha.ne_ir b i (o := rINC_ACTION) (by decide)) _) h3
  exact h4.same rfl

theorem State.coincide_sameCount (s : State) (b : Blk) (i k : Nat) (inj : Bool) (d : Nat) : SameCount a s (s.coincide b i k inj d).2 := by
  unfold State.coincide
  cases inj
  · exact SameCount.ite (SameCount.wn (SameCount.refl.same (by rfl)) (ha.ne_ir b i (o := rINC_FIRST) (by decide)) _) (SameCount.refl.same rfl)
  · exact SameCount.refl

/-- An event counts in the register of its source alone, until that is full. -/
theorem State.eventCore_count (s : State) (b : Blk) (i k : Nat) (inj note : Bool) (d : Nat) : (s.eventCore b i k inj note d).2.f a 8 24
    = if hasSource b k = true ∧ a = ir b i rINC_COUNT + 4 * k then min 0xFFFFFF (s.f a 8 24 + 1) else s.f a 8 24 := by
  unfold State.eventCore
  split
  next hs =>
    have h0 : SameCount a s (s.coincide b i k inj d).2 := State.coincide_sameCount ha s b i k inj d
    generalize s.coincide b i k inj d = x at h0
    obtain ⟨forced, t⟩ := x
    dsimp -zeta only
    extract_lets cnt pol now key op w i1 u u2 u3 u4
    have hu : SameCount a s u := SameCount.ite (h0.same rfl) h0
    have hcounted : u2.f a 8 24 = if hasSource b k = true ∧ a = cnt then min 0xFFFFFF (s.f a 8 24 + 1) else s.f a 8 24 := by
      by_cases hc : a = cnt
      · rw [if_pos ⟨hs, hc⟩, ← show u.f a 8 24 = s.f a 8 24 from hu, hc]
        exact (State.f_setf_same u cnt _ (by decide)).trans (Nat.mod_eq_of_lt (by omega))
      · rw [if_neg fun h => hc h.2]
        exact hu.wn hc _
    rw [← hcounted]
    split
    · split
      · exact (SameCount.refl.window cnt _).same rfl
      · exact SameCount.refl.window cnt _
    · split
      · exact SameCount.refl.window cnt _
      · exact (SameCount.refl.window cnt _).trans (State.raise_sameCount ha _ _ _ _ _ _)
  next hs => rw [if_neg fun h => hs h.1]

/-- An event of another source. -/
theorem State.eventCore_sameCount (s : State) {b : Blk} {i k : Nat} (h : a ≠ ir b i rINC_COUNT + 4 * k) (inj note : Bool) (d : Nat) :
    SameCount a s (s.eventCore b i k inj note d).2 :=
  (State.eventCore_count ha s b i k inj note d).trans (if_neg fun e => h e.2)

/-! ### Records -/

theorem CountReg.ne_lg {off l : Nat} (ho : off < 0x1000) (hl : l < 4) : a ≠ lg off l := by
  simp only [lg, winBase]
  omega

theorem State.logPut_sameCount (s : State) {l : Nat} (hl : l < 4) (r : List Byte) : SameCount a s (s.logPut l r) :=
  SameCount.same (t := (s.hostWrite _ r).wn (lg rHST_LOG_PROD l) _) (SameCount.wn (SameCount.refl.same rfl) (ha.ne_lg (by decide) hl) _) rfl

theorem State.logMarker_sameCount (s : State) {l : Nat} (hl : l < 4) : SameCount a s (s.logMarker l) :=
  SameCount.trans (SameCount.refl.same rfl) (State.logPut_sameCount ha _ hl _)

theorem State.logDropOnly_sameCount (s : State) {l : Nat} (hl : l < 4) (r : List Byte) : SameCount a s (s.logDropOnly l r) :=
  SameCount.wn (SameCount.refl.same rfl) (ha.ne_lg (by decide) hl) _

theorem State.logDeliver_sameCount (s : State) {l : Nat} (hl : l < 4) (r : List Byte) : SameCount a s (s.logDeliver l r).1 := by
  unfold State.logDeliver
  dsimp only
  split
  · split
    · exact State.logPut_sameCount ha _ hl _
    · split
      · exact (State.logMarker_sameCount ha _ hl).trans (State.logPut_sameCount ha _ hl _)
      · exact State.logDropOnly_sameCount ha _ hl _
  · split
    · exact SameCount.refl.same rfl
    · exact State.logDropOnly_sameCount ha _ hl _

theorem State.logRoute_sameCount (s : State) {l : Nat} (hl : l < 4) (r : List Byte) : SameCount a s (s.logRoute l r).1 := by
  unfold State.logRoute
  split
  · exact State.logDeliver_sameCount ha _ hl _
  · split
    · exact State.logDeliver_sameCount ha _ (by decide) _
    · exact SameCount.refl.wn (by simp only [winBase, rHST_UNROUTED_COUNT]; omega) _

theorem State.logSend_sameCount (s : State) {l : Nat} (hl : l < 4) (r : List Byte) : SameCount a s (s.logSend l r) := by
  unfold State.logSend
  have h1 := State.logRoute_sameCount ha s hl r
  generalize s.logRoute l r = x at h1
  obtain ⟨t, dropped⟩ := x
  refine SameCount.ite ?_ h1
  have hdrop : a ≠ ir .hst 0 rINC_COUNT + 4 * 1 := by simp only [ir, winBase, rINC_COUNT]; omega
  have h2 := h1.trans (State.eventCore_sameCount ha t hdrop false true (if t.logEnabled l then l else 0))
  generalize t.eventCore .hst 0 1 false true (if t.logEnabled l then l else 0) = y at h2
  exact h2.foldl (fun t x => (SameCount.refl.same (t.keepHistory_regs x)).trans (State.logRoute_sameCount ha _ (State.routeOf_lt _ _) _)) _

theorem State.postTo_sameCount (s : State) {l : Nat} (hl : l < 4) (r : List Byte) : SameCount a s (s.postTo l r) :=
  SameCount.ite SameCount.refl ((SameCount.refl.same (s.keepHistory_regs r)).trans (State.logSend_sameCount ha _ hl _))

/-- So does an event with its records. -/
theorem State.event_count (s : State) (b : Blk) (i k d : Nat) (inj note : Bool) : (s.event b i k d inj note).f a 8 24
    = if hasSource b k = true ∧ a = ir b i rINC_COUNT + 4 * k then min 0xFFFFFF (s.f a 8 24 + 1) else s.f a 8 24 :=
  Eq.trans (SameCount.refl.foldl (fun _ _ => State.postTo_sameCount ha _ (State.routeOf_lt _ _) _) _) (State.eventCore_count ha s b i k inj note d)

theorem SameCount.event {s t : State} (h : SameCount a s t) {b : Blk} {i k : Nat} (hne : a ≠ ir b i rINC_COUNT + 4 * k) (d : Nat) (inj note : Bool) :
    SameCount a s (t.event b i k d inj note) :=
  h.trans ((State.event_count ha t b i k d inj note).trans (if_neg fun e => hne e.2))

end

end Sys2Proof.Machine

/-! PROOFS. What the upkeep of a memory leaves (R221 to R234, R241): the decode of a page, its reports and what falls due by it keep the
other memory, the place of the scrub, what the module has sent, and every register but a few counts of their own block. -/

namespace Sys2Proof.Machine

open Sys2Proof

/-! ### The relation -/

/-- The count of LINK_ECC events. -/
def linkEccEvents : Nat := ir .sto 0 rINC_COUNT + 20

theorem countReg_linkEcc : CountReg linkEccEvents := by decide

/-- The registers that the upkeep of a memory may write, but for those of records: the counts of errors, the last error, the spare pages
of the Store, the condition records of its retirements, and the rows of a Vault die that fails. -/
def upkeepRegs : Bool → List Nat
  | true => [rVLT_CORR_COUNT, rVLT_UNCORR_COUNT, rVLT_UNDETECTED_COUNT, rVLT_LAST_ERR_LO, rVLT_LAST_ERR_HI, rVLT_LAST_ERR_INFO].map (winBase .vlt 0 + ·)
      ++ (List.range 8).map fun d => winBase .vlt 0 + rVLT_SPARE_ROWS + 4 * d
  | false => (winBase .rgs 0 + rRGS_COND_SEQ) :: [rSTO_CORR_COUNT, rSTO_UNCORR_COUNT, rSTO_UNDETECTED_COUNT, rSTO_LAST_ERR_LO, rSTO_LAST_ERR_HI,
      rSTO_LAST_ERR_INFO, rSTO_SPARE_FREE, rSTO_RETIRED_PAGE_COUNT].map (winBase .sto 0 + ·)

/-- From `s` to `t` upkeep of the memory of side `v` alone was done. -/
structure Tended (v : Bool) (s t : State) : Prop where
  regs : RegsButRecords (upkeepRegs v) s t
  other : t.mem (!v) = s.mem (!v)
  scrubNext : (t.mem v).scrubNext = (s.mem v).scrubNext
  out : t.out = s.out
  links : SameCount linkEccEvents s t

theorem linkEcc_not_mem (v : Bool) : linkEccEvents ∉ upkeepRegs v := by cases v <;> decide

theorem mreg_mem_upkeepRegs (v : Bool) {rv rs : Nat} (hv : winBase .vlt 0 + rv ∈ upkeepRegs true) (hs : winBase .sto 0 + rs ∈ upkeepRegs false) :
    mreg v rv rs ∈ upkeepRegs v := by
  cases v
  · exact hs
  · exact hv

/-- Sources of a memory's block that its upkeep raises. -/
theorem linkEcc_ne_source (v : Bool) {k : Nat} (hk : k < 24 ∧ k ≠ 5) : linkEccEvents ≠ ir (mblk v) 0 rINC_COUNT + 4 * k := by
  intro e
  cases v
  · have hsto : 0x90820 + 20 = 0x90820 + 4 * k := e
    omega
  · have hvlt : 0x90820 + 20 = 0x80820 + 4 * k := e
    omega

theorem hasInstance_mblk (v : Bool) : hasInstance (mblk v) 0 = true := by cases v <;> rfl

section
variable {v : Bool} {s t u : State}

theorem Tended.refl : Tended v s s := ⟨fun _ _ _ => rfl, rfl, rfl, rfl, SameCount.refl⟩

theorem Tended.trans (h : Tended v s t) (k : Tended v t u) : Tended v s u :=
  ⟨h.regs.trans k.regs, k.other.trans h.other, k.scrubNext.trans h.scrubNext, k.out.trans h.out, h.links.trans k.links⟩

theorem Tended.ite {p : Prop} [Decidable p] (h : Tended v s t) (k : Tended v s u) : Tended v s (if p then t else u) := by
  split
  · exact h
  · exact k

theorem Tended.foldl {α : Type} {g : State → α → State} (h : Tended v s t) (hg : ∀ x e, Tended v x (g x e)) (es : List α) :
    Tended v s (es.foldl g t) := by
  induction es generalizing t with
  | nil => exact h
  | cons e es ih => exact ih (h.trans (hg t e))

end

section
variable {v : Bool} {s t : State} (h : Tended v s t)
include h

theorem Tended.rn {a : Nat} (ha : a ∉ upkeepRegs v) (hr : recordReg a = false) : t.rn a = s.rn a := congrArg BitVec.toNat (h.regs a ha hr)

theorem Tended.f {a : Nat} (ha : a ∉ upkeepRegs v) (hr : recordReg a = false) (lo w : Nat) : t.f a lo w = s.f a lo w :=
  congrArg (fld · lo w) (h.rn ha hr)

theorem Tended.setMem {m : Mem} (hm : m.scrubNext = (t.mem v).scrubNext) : Tended v s (t.setMem v m) :=
  h.trans ⟨fun _ _ _ => t.rd_setMem v m _, t.mem_setMem_other v m, by rw [t.mem_setMem, hm], t.setMem_out v m, t.f_setMem v m _ _ _⟩

theorem Tended.wn {a : Nat} (ha : a ∈ upkeepRegs v) (n : Nat) : Tended v s (t.wn a n) :=
  h.trans ⟨(RegsBut.refl _ t |>.wnIn ha n).records, rfl, rfl, rfl, SameCount.refl.wn (fun e => linkEcc_not_mem v (by rw [e]; exact ha)) n⟩

theorem Tended.setf {a : Nat} (ha : a ∈ upkeepRegs v) (lo w n : Nat) : Tended v s (t.setf a lo w n) := h.wn ha _
theorem Tended.bump {a : Nat} (ha : a ∈ upkeepRegs v) : Tended v s (t.bump a) := h.wn ha _

theorem Tended.recorded {u : State} (hr : Recorded t u) (hregs : RegsButRecords (upkeepRegs v) t u) (hc : SameCount linkEccEvents t u) : Tended v s u :=
  h.trans ⟨hregs, hr.mem _, by rw [hr.mem], hr.out, hc⟩

/-- An event of another source than LINK_ECC. -/
theorem Tended.event {b : Blk} {i k : Nat} (hi : hasInstance b i = true) (hk : linkEccEvents ≠ ir b i rINC_COUNT + 4 * k) (d : Nat) (inj note : Bool) :
    Tended v s (t.event b i k d inj note) :=
  h.recorded (State.event_recorded _ _ _ _ _ _ _) ((State.event_frame t hi k d inj note).mono (by simp)) (SameCount.refl.event countReg_linkEcc hk d inj note)

/-- An event of the memory's own block. -/
theorem Tended.ownEvent {k : Nat} (hk : k < 24 ∧ k ≠ 5) (d : Nat) : Tended v s (t.event (mblk v) 0 k d) :=
  h.event (hasInstance_mblk v) (linkEcc_ne_source v hk) d false true

/-! ### Reports of errors (R239, R241) -/

theorem Tended.lastErr (a k r : Nat) : Tended v s (t.lastErr v a k r) :=
  ((h.wn (mreg_mem_upkeepRegs v (by decide) (by decide)) _).wn (mreg_mem_upkeepRegs v (by decide) (by decide)) _).wn
    (mreg_mem_upkeepRegs v (by decide) (by decide)) _

/-- Errors that decodes and the scrub report: uncorrectable codewords and poisoned words. -/
theorem Tended.memError {k : Nat} (hk : k = 1 ∨ k = 3) (a r : Nat) : Tended v s (t.memError v a k r) := by
  unfold State.memError
  extract_lets x
  have hx : Tended v s x := by
    rcases hk with rfl | rfl
    · exact h.bump (mreg_mem_upkeepRegs v (by decide) (by decide))
    · exact h
  exact (hx.lastErr a k r).ownEvent (show k < 24 ∧ k ≠ 5 by omega) a

end

/-! ### Pages that fall due (R229 to R234) -/

@[simp] theorem Mem.powerUp_scrubNext (m : Mem) (k : Nat) : (m.powerUp k).scrubNext = m.scrubNext := by
  unfold Mem.powerUp
  split
  · rfl
  · rfl

@[simp] theorem Mem.placePage_scrubNext (m : Mem) (k p : Nat) (data : List (Byte × Bool)) : (m.placePage k p data).scrubNext = m.scrubNext := by
  have hfill : ∀ x : Mem, (x.fillPage k p).scrubNext = x.scrubNext := fun x => by
    unfold Mem.fillPage
    split
    · rfl
    · split
      · rfl
      · rfl
  exact (hfill _).trans (m.powerUp_scrubNext k)

/-- A Store page retired (R231). -/
theorem Tended.storeRetire {s t : State} (h : Tended false s t) (p : Nat) : Tended false s (t.storeRetire p) := by
  unfold State.storeRetire
  generalize t.pageData false true = data
  generalize t.bankKey false = bank
  generalize hbase : (reservedBase + 2 * 2 ^ 30) / 4096 = base
  extract_lets a free spare m l m2 m3 n u
  have hm2 : m2.scrubNext = t.store.scrubNext := t.store.placePage_scrubNext _ _ _
  clear_value m2
  have hm : m3.scrubNext = t.store.scrubNext := hm2
  clear_value m3
  have hu : Tended false s u := ((h.setMem hm).setf (by decide) _ _ _).bump (by decide)
  have hcond : ∀ a b c d e, Tended false s (u.condEvent a b c d e) := fun a b c d e =>
    hu.recorded (State.condEvent_recorded u a b c d e) ((u.condRecord_regsBut 2 _).mono (by decide)).records
      ((u.condRecord_regsBut 2 _).f (by decide) 8 24)
  exact Tended.ite h (Tended.ite ((h.setMem (m := { t.store with due := t.store.due ++ [p] }) rfl).ownEvent (by decide) _) (hcond _ _ _ _ _))

/-- A Vault page falls due: only the list of such pages grows, and the Curator's note of late ones (R229, R230, R242). -/
theorem State.pageDue_vault (s : State) (p : Nat) : ∃ due late, s.pageDue true p
    = { s with vault := { s.vault with due := due }, cur := { s.cur with latePages := late } } ∧ (∀ q ∈ s.vault.due, q ∈ due)
      ∧ (s.vault.retired.contains p = false → p ∈ due) := by
  unfold State.pageDue
  rw [if_pos rfl]
  split
  next hin =>
    refine ⟨s.vault.due, s.cur.latePages, rfl, fun _ hq => hq, fun hr => ?_⟩
    rw [hr, Bool.or_false] at hin
    exact List.contains_iff_mem.1 hin
  next =>
    have hgrow : ∀ q ∈ s.vault.due, q ∈ s.vault.due ++ [p] := fun q hq => List.mem_append_left _ hq
    have hlast : p ∈ s.vault.due ++ [p] := List.mem_append_right _ (List.mem_singleton.2 rfl)
    dsimp only
    split
    · exact ⟨_, _, rfl, hgrow, fun _ => hlast⟩
    · exact ⟨_, s.cur.latePages, rfl, hgrow, fun _ => hlast⟩

/-- The same over a run of pages. -/
theorem State.pagesDue_vault (ps : List Nat) (s : State) : ∃ due late, ps.foldl (fun (u : State) p => u.pageDue true p) s
    = { s with vault := { s.vault with due := due }, cur := { s.cur with latePages := late } } ∧ (∀ q ∈ s.vault.due, q ∈ due)
      ∧ (∀ p ∈ ps, s.vault.retired.contains p = false → p ∈ due) := by
  induction ps generalizing s with
  | nil => exact ⟨s.vault.due, s.cur.latePages, rfl, fun _ hq => hq, fun p hp => nomatch hp⟩
  | cons p ps ih =>
    obtain ⟨due1, late1, heq1, hold1, hnew1⟩ := s.pageDue_vault p
    obtain ⟨due, late, heq, hold, hnew⟩ := ih (s.pageDue true p)
    rw [heq1] at heq hold hnew
    refine ⟨due, late, by rw [List.foldl_cons, heq1, heq], fun q hq => hold q (hold1 q hq), fun q hq hr => ?_⟩
    rcases List.mem_cons.1 hq with rfl | hq
    · exact hold q (hnew1 hr)
    · exact hnew q hq hr

theorem Tended.vaultDue {s t : State} (h : Tended true s t) (due late : List Nat) :
    Tended true s { t with vault := { t.vault with due := due }, cur := { t.cur with latePages := late } } :=
  h.trans ⟨fun _ _ _ => rfl, rfl, rfl, rfl, rfl⟩

section
variable {v : Bool} {s t : State} (h : Tended v s t)
include h

theorem Tended.pageDue (p : Nat) : Tended v s (t.pageDue v p) := by
  cases v
  · exact h.storeRetire p
  · obtain ⟨due, late, heq, -, -⟩ := t.pageDue_vault p
    rw [heq]
    exact h.vaultDue due late

/-- An element that failed as a whole (R234, R241, R247). -/
theorem Tended.deadPage (p r : Nat) : Tended v s (t.deadPage v p r) :=
  (h.foldl (fun _ _ => Tended.refl.memError (.inl rfl) _ _) _).pageDue p

end

/-- The rows of a die that is no die are not written. -/
theorem spareRows_mem_upkeepRegs {d : Nat} (h : d < 8) : winBase .vlt 0 + rVLT_SPARE_ROWS + 4 * d ∈ upkeepRegs true :=
  List.mem_append_right _ (List.mem_map_of_mem (f := fun d => winBase .vlt 0 + rVLT_SPARE_ROWS + 4 * d) (List.mem_range.2 h))

theorem Tended.failDie {s t : State} (h : Tended true s t) (d : Nat) : Tended true s (t.failDie d) := by
  unfold State.failDie
  split
  · exact h
  next hd =>
    have hlt : d < 8 := by
      simp only [Bool.or_eq_true, decide_eq_true_eq, not_or] at hd
      omega
    have hdead : Tended true s { t with vault := { t.vault with deadDies := t.vault.deadDies ++ [d] } } :=
      h.setMem (m := { t.vault with deadDies := t.vault.deadDies ++ [d] }) rfl
    exact ((hdead.setf (spareRows_mem_upkeepRegs hlt) _ _ _).event rfl (by decide) _ _ _).foldl (fun _ _ => Tended.refl.pageDue _) _

/-! ### Decodes (R221 to R229) -/

theorem Mem.repair_scrubNext (m : Mem) (p j : Nat) (e : Nat × Nat) : (m.repair p j e).scrubNext = m.scrubNext := by
  unfold Mem.repair
  split
  · rfl
  · rfl

theorem Mem.repairs_scrubNext (m : Mem) (p j : Nat) (es : List (Nat × Nat)) : (es.foldl (fun m e => m.repair p j e) m).scrubNext = m.scrubNext := by
  induction es generalizing m with
  | nil => rfl
  | cons e es ih => exact (ih _).trans (m.repair_scrubNext p j e)

section
variable {v : Bool} {s t : State} (h : Tended v s t)
include h

theorem Tended.noteUncorr (p : Nat) : Tended v s (t.noteUncorr v p) := by
  unfold State.noteUncorr
  cases v
  · exact h
  · rw [if_neg (by decide)]
    extract_lets d l m x cols
    have hx : Tended true s x := h.setMem (m := { t.vault with uncorrTimes := l }) rfl
    exact Tended.ite (hx.failDie d) hx

theorem Tended.countPage (p : Nat) : Tended v s (t.countPage v p) := by
  unfold State.countPage
  extract_lets m w cs same recent cs2 x
  have hx : Tended v s x := h.setMem rfl
  exact Tended.ite (hx.pageDue p) hx

theorem Tended.trackWord (counts : Bool) (w mask : Nat) : Tended v s (t.trackWord v counts w mask) := by
  unfold State.trackWord
  dsimp only
  split
  · exact h.setMem rfl
  · exact Tended.ite ((h.setMem (by rfl)).countPage _) (h.setMem rfl)

/-- Only pages of the Vault lie in Keep windows (R225). -/
theorem Tended.queueKeep (p : Nat) (er : List Nat) : Tended v s (t.queueKeep v p er) := by
  cases v
  · exact h
  · exact Tended.ite (h.setMem (m := { t.vault with keepQueue := t.vault.keepQueue ++ [p] }) rfl) h

theorem Tended.decodeWord (back : Bool) (p l r j : Nat) : Tended v s (t.decodeWord v back p l r j).2 := by
  have hq := h.queueKeep p ((t.mem v).erasures p j)
  unfold State.decodeWord
  dsimp only
  split
  · exact ((hq.memError (.inl rfl) _ _).pageDue _).noteUncorr _
  · refine (Tended.ite hq (hq.setMem (Mem.repairs_scrubNext _ _ _ _))).foldl (fun x e => ?_) _
    exact ((Tended.refl.bump (mreg_mem_upkeepRegs v (by decide) (by decide))).lastErr _ _ _).ownEvent (by decide) _

theorem Tended.decodePage (p r : Nat) (back counts : Bool) : Tended v s (t.decodePage v p r back counts) := by
  unfold State.decodePage
  dsimp only
  split
  · exact h
  · have hdecoded := List.foldlRecOn (motive := fun acc : List (Nat × Nat) × State => Tended v s acc.2) ((t.mem v).suspects p)
      (fun acc j => (acc.1 ++ (acc.2.decodeWord v back p ((t.mem v).served p) r j).1, (acc.2.decodeWord v back p ((t.mem v).served p) r j).2))
      (b := ([], t)) h fun _ k _ _ => k.decodeWord _ _ _ _ _
    refine Tended.foldl hdecoded (fun x e => Tended.trackWord ?_ _ _ _) _
    have hcounted : Tended v x ((x.bump (mreg v rVLT_CORR_COUNT rSTO_CORR_COUNT)).event (mblk v) 0 0 ((t.mem v).served p * 4096 + e.1 % 4096)) :=
      (Tended.refl.bump (mreg_mem_upkeepRegs v (by decide) (by decide))).ownEvent (by decide) _
    exact Tended.ite (hcounted.event rfl (by decide) _ _ _) hcounted

theorem Tended.finishDecode (p : Nat) (counts : Bool) : Tended v s (t.finishDecode v p counts) := by
  unfold State.finishDecode
  split
  · exact h
  · exact (h.decodePage _ _ _ _).setMem rfl

theorem Tended.settle (a n : Nat) : Tended v s (t.settle v a n) := h.foldl (fun _ _ => Tended.refl.finishDecode _ _) _

end

end Sys2Proof.Machine

/-! PROOFS. Decode release, the scrub, dies, rows and channels that fail, training, refresh and self-refresh (R222 to R247): O48. -/

namespace Sys2Proof.Machine

open Sys2Proof

/-! ### A held page is released (R222) -/

/-- The decode of a page whose codewords all check changes nothing. -/
theorem State.decodePage_clean {s : State} {v : Bool} {p : Nat} (h : (s.mem v).suspects p = []) (r : Nat) (back counts : Bool) :
    s.decodePage v p r back counts = s := by
  unfold State.decodePage
  dsimp only
  rw [h]
  split
  · rfl
  · rfl

theorem State.finishDecode_releases (s : State) (v : Bool) (p : Nat) : ((s.finishDecode v p).mem v).held.any (fun h => h.1 == p) = false := by
  unfold State.finishDecode
  split
  next hnone => exact List.any_eq_false.2 (List.find?_eq_none.1 hnone)
  next => simp [State.unhold]

theorem State.finishDecode_clean {s : State} {v : Bool} {p : Nat} (h : (s.mem v).suspects p = []) :
    ((s.finishDecode v p).mem v).cells = (s.mem v).cells ∧ RegsBut [] s (s.finishDecode v p) := by
  unfold State.finishDecode
  split
  · exact ⟨rfl, RegsBut.refl _ s⟩
  · rw [State.decodePage_clean h, State.unhold, State.mem_setMem]
    exact ⟨rfl, fun _ _ => s.rd_setMem v _ _⟩

/-! ### The scrub (R227) -/

/-- The count of the passes of a memory's scrub. -/
def scrubPasses (v : Bool) : Nat := mreg v rVLT_SCRUB_PASS_COUNT rSTO_SCRUB_PASS_COUNT

theorem State.scrubOn_spec (s : State) (v : Bool) :
    ((s.scrubOn v).mem v = { s.mem v with scrubNext := if (s.mem v).scrubNext + 1 < scrubPages v then (s.mem v).scrubNext + 1 else 0 })
      ∧ (s.scrubOn v).rn (scrubPasses v) = (if (s.mem v).scrubNext + 1 < scrubPages v then s.rn (scrubPasses v)
          else min 0xFFFFFFFF (s.rn (scrubPasses v) + 1))
      ∧ RegsBut [scrubPasses v] s (s.scrubOn v) := by
  unfold State.scrubOn
  dsimp only
  split
  · exact ⟨s.mem_setMem v _, s.rn_setMem v _ _, fun _ _ => s.rd_setMem v _ _⟩
  · refine ⟨s.mem_setMem v _, ?_, fun a ha => ?_⟩
    · exact (State.rn_bump _ _).trans (by rw [scrubPasses, State.rn_setMem])
    · exact (RegsBut.bump _ (scrubPasses v) a ha).trans (s.rd_setMem v _ _)

theorem Tended.scrubRead {v : Bool} {s t : State} (h : Tended v s t) (p : Nat) : Tended v s (t.scrubRead v p) := by
  unfold State.scrubRead
  split
  · exact h.decodePage _ _ _ _
  · exact h.foldl (fun _ _ => Tended.refl.memError (.inr rfl) _ _) _

/-- What the scrub does to page `p`: nothing where the page holds nothing written (R227, R234). -/
def State.scrubTakes (s : State) (v : Bool) (p : Nat) : State :=
  if s.unwritten v (p * 4096) then s else if s.memDead v (p * 4096) then s.deadPage v p rdScrub else s.scrubRead v p

theorem State.scrubTakes_tended (s : State) (v : Bool) (p : Nat) : Tended v s (s.scrubTakes v p) :=
  Tended.ite Tended.refl (Tended.ite (Tended.refl.deadPage _ _) (Tended.refl.scrubRead _))

theorem State.scrubTakes_poisoned {s : State} {v : Bool} {p : Nat} (h : (s.mem v).pagePoisoned (s.bankKey v (p * 4096)) p = true) :
    s.scrubTakes v p = s := by
  have hpage : pageOf (p * 4096) = p := Nat.mul_div_cancel p (by decide)
  refine if_pos ?_
  rw [State.unwritten, hpage, h, Bool.or_true]

theorem execScrubPage_takes {s : State} {mem : Nat} (htime : s.f (mreg (mem == 1) rVLT_SCRUB_TIME rSTO_SCRUB_TIME) 0 16 ≠ 0) (hlock : s.locked = false)
    (hwipe : s.wiping (mem == 1) = false)
    (hheld : (s.mem (mem == 1)).held.any (fun h => h.1 == scrubPage (mem == 1) (s.mem (mem == 1)).scrubNext) = false) :
    exec (.scrubPage mem) s = .next ((s.scrubTakes (mem == 1) (scrubPage (mem == 1) (s.mem (mem == 1)).scrubNext)).scrubOn (mem == 1)) := by
  show execScrubPage mem s = _
  unfold execScrubPage State.scrubTakes
  dsimp only
  rw [if_neg (by simp [htime, hlock, hwipe, hheld]), apply_ite (State.scrubOn · (mem == 1)), apply_ite (State.scrubOn · (mem == 1))]

theorem scrubPasses_not_mem (v : Bool) : scrubPasses v ∉ upkeepRegs v ∧ recordReg (scrubPasses v) = false := by cases v <;> decide

/-! ### Dies and rows that fail (R230, R233, R234) -/

/-- A die declared failed: recorded, told, and each of its pages due. -/
theorem State.failDie_spec {s : State} {die : Nat} (hd : die < 8) (halive : s.vault.deadDies.contains die = false) :
    (s.failDie die).vault.deadDies = s.vault.deadDies ++ [die] ∧ (s.failDie die).f (winBase .vlt 0 + rVLT_SPARE_ROWS + 4 * die) 31 1 = 1
      ∧ (s.failDie die).vault.cells = s.vault.cells
      ∧ (∀ p ∈ diePages die, s.vault.retired.contains p = false → p ∈ (s.failDie die).vault.due)
      ∧ RegsButRecords [winBase .vlt 0 + rVLT_SPARE_ROWS + 4 * die] s (s.failDie die) := by
  unfold State.failDie
  rw [if_neg (by simp only [halive, Bool.or_false, decide_eq_true_eq]; omega)]
  extract_lets m u u1
  have hrecord : recordReg (winBase .vlt 0 + rVLT_SPARE_ROWS + 4 * die) = false :=
    (by decide : ∀ d < 8, recordReg (winBase .vlt 0 + rVLT_SPARE_ROWS + 4 * d) = false) die hd
  have hset : Recorded (u.setf (winBase .vlt 0 + rVLT_SPARE_ROWS + 4 * die) 31 1 1) u1 := State.event_recorded _ _ _ _ _ _ _
  have hframe : RecordFrame (u.setf (winBase .vlt 0 + rVLT_SPARE_ROWS + 4 * die) 31 1 1) u1 := State.event_frame _ rfl _ _ _ _
  have hvault : u1.vault = { s.vault with deadDies := s.vault.deadDies ++ [die] } := hset.vault
  have hdead : u1.vault.deadDies = s.vault.deadDies ++ [die] := congrArg Mem.deadDies hvault
  have hcells : u1.vault.cells = s.vault.cells := by rw [hvault]
  obtain ⟨due, late, heq, -, hnew⟩ := State.pagesDue_vault (diePages die) u1
  rw [heq]
  refine ⟨hdead, ?_, hcells, fun p hp hr => hnew p hp (by rw [hvault]; exact hr), fun a ha hr => ?_⟩
  · exact (hframe.f hrecord 31 1).trans (State.f_setf_same _ _ _ (by decide))
  · exact (hframe a List.not_mem_nil hr).trans (RegsBut.setf u _ _ _ _ a ha)

/-- A failing row of a retired page (R233). -/
theorem execMarchTest_row {s : State} {p : Nat} (hr : s.vault.retired.contains p = true) (r : Nat) (ps : List Nat) :
    ∃ t, exec (.marchTest p [(r, ps)]) s = .next t
      ∧ t.vault.softSpare = (if s.vault.spares (dieOf (p * 4096)) < 64 then s.vault.softSpare ++ [(dieOf (p * 4096) + 8 * (r % 8192), ps)]
          else s.vault.softSpare)
      ∧ RegsBut [winBase .rgs 0 + rRGS_COND_SEQ] s t := by
  refine ⟨_, show execMarchTest p [(r, ps)] s = .next _ from rfl, ?_⟩
  rw [hr, if_neg (by decide), List.foldl_cons, List.foldl_nil]
  dsimp only
  split
  next hfull => exact ⟨(if_neg (by omega)).symm, RegsBut.refl _ s⟩
  next hleft =>
    rw [if_pos (by omega)]
    exact ⟨congrArg Mem.softSpare (State.condEvent_recorded _ _ _ _ _ _).vault, State.condRecord_regsBut _ 2 _⟩

/-! ### Channels (R243, R247) -/

theorem recordReg_chanStat {c : Nat} (hc : c < 64) : recordReg (chanStat c) = false :=
  (by decide : ∀ c < 64, recordReg (chanStat c) = false) c hc

theorem State.failChannel_spec {s : State} {c : Nat} (hc : c < 64) (h4 : s.f (chanStat c) 0 3 ≠ 4) :
    (s.failChannel c).f (chanStat c) 0 3 = 4 ∧ (s.failChannel c).store = s.store ∧ RegsButRecords [chanStat c] s (s.failChannel c) := by
  unfold State.failChannel
  rw [if_neg (by simp only [h4, decide_false, Bool.or_false, decide_eq_true_eq]; omega)]
  have hframe := State.event_frame (s.setf (chanStat c) 0 3 4) (b := .sto) (i := 0) rfl 6 (storeBase + 4096 * c) false true
  exact ⟨(hframe.f (recordReg_chanStat hc) 0 3).trans (State.f_setf_same _ _ _ (by decide)), (State.event_recorded _ _ _ _ _ _ _).store,
    fun a ha hr => (hframe a List.not_mem_nil hr).trans (RegsBut.setf s _ _ _ _ a ha)⟩

theorem State.chanRuns_of_active {s : State} {c : Nat} (h : s.f (chanStat c) 0 3 = 0) : s.chanRuns c = true := by
  unfold State.chanRuns
  rw [h]
  rfl

/-- A refresh at the temperature that the device gives (R247). -/
theorem execStoreRefresh_reads {s : State} {c : Nat} (temp : Nat) (hc : c < 64) (h0 : s.f (chanStat c) 0 3 = 0) :
    ∃ t, exec (.storeRefresh c temp) s = .next t ∧ OnlyRegs s t ∧ t.f (chanStat c) 8 8 = min 125 temp ∧ t.f (chanStat c) 0 3 = 0
      ∧ RegsBut [chanStat c] s t := by
  refine ⟨(s.setf (chanStat c) 0 3 0).setf (chanStat c) 8 8 (min 125 temp), ?_, rfl, ?_, ?_, ?_⟩
  · show execStoreRefresh c temp s = _
    unfold execStoreRefresh
    rw [if_neg (by simp only [State.chanRuns_of_active h0, Bool.not_true, Bool.or_false, decide_eq_true_eq]; omega)]
  · exact (State.f_setf_same _ _ _ (by decide)).trans (Nat.mod_eq_of_lt (by omega))
  · exact (State.f_setf_apart _ _ _ (by decide) (.inl (by decide))).trans (State.f_setf_same _ _ _ (by decide))
  · exact (RegsBut.setf s _ _ _ _).setfIn (List.mem_singleton.2 rfl) _ _ _

/-- What a channel that enters self-refresh loses and shows (R236, R243). -/
def State.rested (s : State) (c : Nat) (drop : List Nat) : State :=
  ({ s with store := drop.foldl (fun (m : Mem) g => m.dark (partKey g c)) s.store }).setf (chanStat c) 0 3 (if drop = [] then 1 else 2)

theorem execSelfRefreshEntry_rests {s : State} {c : Nat} {segs drop : List Nat} (hc : c < 64) (h0 : s.f (chanStat c) 0 3 = 0)
    (hdue : (decide (2 ≤ s.f (winBase .pwr 0 + rPWR_STATE_STAT) 0 3) || (s.locked && s.tilesQuiet)) = true)
    (hdrop : (if 2 ≤ s.f (winBase .pwr 0 + rPWR_STATE_STAT) 0 3 then segs.filter fun g => decide (g < 1760) && !s.segInUse g && s.partOn g c else []) = drop) :
    exec (.selfRefreshEntry c segs) s = .next (s.rested c drop) := by
  show execSelfRefreshEntry c segs s = _
  unfold execSelfRefreshEntry
  simp only [hdue, State.chanRuns_of_active h0, Bool.not_true, Bool.false_and, Bool.or_false, decide_eq_true_eq, if_neg (show ¬ 64 ≤ c by omega), hdrop,
    State.rested]

theorem State.rested_nothing (s : State) (c : Nat) : OnlyRegs s (s.rested c []) ∧ (s.rested c []).f (chanStat c) 0 3 = 1
    ∧ RegsBut [chanStat c] s (s.rested c []) :=
  ⟨rfl, State.f_setf_same _ _ _ (by decide), RegsBut.setf s _ _ _ _⟩

theorem State.rested_segment (s : State) (c g : Nat) : (s.rested c [g]).f (chanStat c) 0 3 = 2 ∧ aget false (s.rested c [g]).store.off (partKey g c) = true
    ∧ (∀ k, k ≠ partKey g c → aget false (s.rested c [g]).store.off k = aget false s.store.off k)
    ∧ (s.rested c [g]).store.cells = s.store.cells ∧ RegsBut [chanStat c] s (s.rested c [g]) :=
  ⟨State.f_setf_same _ _ _ (by decide), aget_aput_same _ _ _ _, fun _ hk => aget_aput_ne _ _ _ hk, rfl,
    RegsBut.setf { s with store := s.store.dark (partKey g c) } _ _ _ _⟩

/-! ### Training and wipes (R235, R243, R246) -/

/-- STAT of a memory. -/
def memStat (v : Bool) : Nat := mreg v rVLT_STAT rSTO_STAT

theorem State.serveWaiting_of_none {s : State} (h : s.pwr.memWait = []) : s.serveWaiting = s := by
  unfold State.serveWaiting
  rw [h, List.foldl_nil, ← h]

theorem State.endWipe_of_none {s : State} (h : s.pwr.memWait = []) (v : Bool) : s.endWipe v = s.setf (memStat v) 0 1 0 :=
  State.serveWaiting_of_none (s := s.setf (memStat v) 0 1 0) h

theorem State.not_wiping {s : State} {v : Bool} (h : s.f (memStat v) 0 1 = 0) : s.wiping v = false := by
  unfold State.wiping
  rw [show s.f (mreg v rVLT_STAT rSTO_STAT) 0 1 = 0 from h]
  rfl

/-- The registers as training leaves them, before a failure is told. -/
def State.trained (s : State) : State :=
  let u := (s.setf (memStat false) 1 1 0).setf (memStat true) 0 1 0
  if u.f bootStat 14 1 = 0 then u.setf (memStat false) 0 1 1 else u

theorem State.trained_spec (s : State) : OnlyRegs s s.trained ∧ s.trained.f (memStat false) 1 1 = 0
    ∧ s.trained.f (memStat false) 0 1 = (if s.f bootStat 14 1 = 0 then 1 else s.f (memStat false) 0 1) ∧ s.trained.f (memStat true) 0 1 = 0
    ∧ RegsBut [memStat false, memStat true] s s.trained := by
  have hne : memStat true ≠ memStat false := by decide
  have hboot : ((s.setf (memStat false) 1 1 0).setf (memStat true) 0 1 0).f bootStat 14 1 = s.f bootStat 14 1 := by
    rw [State.f_setf_ne _ _ _ _ _ _ (by decide), State.f_setf_ne _ _ _ _ _ _ (by decide)]
  have hvault : ((s.setf (memStat false) 1 1 0).setf (memStat true) 0 1 0).f (memStat true) 0 1 = 0 := State.f_setf_same _ _ _ (by decide)
  have htrain : ((s.setf (memStat false) 1 1 0).setf (memStat true) 0 1 0).f (memStat false) 1 1 = 0 :=
    (State.f_setf_ne _ _ _ _ _ _ hne.symm).trans (State.f_setf_same _ _ _ (by decide))
  have hwipe : ((s.setf (memStat false) 1 1 0).setf (memStat true) 0 1 0).f (memStat false) 0 1 = s.f (memStat false) 0 1 := by
    rw [State.f_setf_ne _ _ _ _ _ _ hne.symm, State.f_setf_apart _ _ _ (by decide) (.inl (by decide))]
  have hregs : RegsBut [memStat false, memStat true] s ((s.setf (memStat false) 1 1 0).setf (memStat true) 0 1 0) :=
    ((RegsBut.refl _ s).setfIn (by simp) _ _ _).setfIn (by simp) _ _ _
  unfold State.trained
  dsimp only
  rw [hboot]
  split
  · refine ⟨rfl, ?_, State.f_setf_same _ _ _ (by decide), ?_, hregs.setfIn (by simp) _ _ _⟩
    · exact (State.f_setf_apart _ _ _ (by decide) (.inr (by decide))).trans htrain
    · exact (State.f_setf_ne _ _ _ _ _ _ hne).trans hvault
  · exact ⟨rfl, htrain, hwipe, hvault, hregs⟩

theorem execStoreTrainingDone_eq {s : State} (pass : Nat) (h1 : s.f (memStat false) 1 1 = 1) (hw : s.pwr.memWait = []) :
    exec (.storeTrainingDone pass) s = .next (if pass = 0 then s.trained.event .sto 0 8 else s.trained) := by
  show execStoreTrainingDone pass s = _
  unfold execStoreTrainingDone
  dsimp only
  rw [if_neg (by rw [show s.f (winBase .sto 0 + rSTO_STAT) 1 1 = 1 from h1]; decide), State.endWipe_of_none (by exact hw)]
  rfl

/-! ### The read of a channel's oscillator (R221, R243, log entry 147) -/

theorem chanStat_not_mem {c : Nat} (hc : c < 64) : chanStat c ∉ upkeepRegs false :=
  (by decide : ∀ c < 64, chanStat c ∉ upkeepRegs false) c hc

theorem ne_chanStat {a c : Nat} (hc : c < 64) (ha : a < 0x90100 ∨ 0x90200 ≤ a) : a ≠ chanStat c := by
  simp only [chanStat, winBase, rSTO_CHAN_STAT]
  omega

theorem chanStat_inj {c d : Nat} : chanStat c = chanStat d ↔ c = d := by
  unfold chanStat
  omega

/-- Retrainings that end write the states of their channels alone, and leave those that are none. -/
theorem State.retrained_spec (cs : List Nat) (s : State) : OnlyRegs s (cs.foldl State.retrained s) ∧ RegsBut (cs.map chanStat) s (cs.foldl State.retrained s)
    ∧ ∀ c, s.f (chanStat c) 0 3 = 0 → (cs.foldl State.retrained s).f (chanStat c) 0 3 = 0 := by
  induction cs generalizing s with
  | nil => exact ⟨rfl, RegsBut.refl _ s, fun _ h => h⟩
  | cons d cs ih =>
    have hone : OnlyRegs s (s.retrained d) ∧ RegsBut [chanStat d] s (s.retrained d) ∧ ∀ c, s.f (chanStat c) 0 3 = 0 → (s.retrained d).f (chanStat c) 0 3 = 0 := by
      unfold State.retrained
      split
      · refine ⟨rfl, RegsBut.setf s _ _ _ _, fun c h => ?_⟩
        by_cases hcd : c = d
        · rw [hcd]
          exact State.f_setf_same _ _ _ (by decide)
        · rw [State.f_setf_ne _ _ _ _ _ _ fun e => hcd (chanStat_inj.1 e), h]
      · exact ⟨rfl, RegsBut.refl _ s, fun _ h => h⟩
    obtain ⟨honly, hregs, hstate⟩ := hone
    obtain ⟨konly, kregs, kstate⟩ := ih (s.retrained d)
    exact ⟨honly.trans konly, (hregs.mono (by simp)).trans (kregs.mono (by simp +contextual)), fun c h => kstate c (hstate c h)⟩

/-- A run of LINK_ECC events counts each of them, and is records alone. -/
theorem State.linkEccEvents_spec (xs : List Nat) (d : Nat) (s : State) :
    Recorded s (xs.foldl (fun (u : State) _ => u.event .sto 0 5 d) s) ∧ RecordFrame s (xs.foldl (fun (u : State) _ => u.event .sto 0 5 d) s)
      ∧ (xs.foldl (fun (u : State) _ => u.event .sto 0 5 d) s).f linkEccEvents 8 24 = min 0xFFFFFF (s.f linkEccEvents 8 24 + xs.length) := by
  induction xs generalizing s with
  | nil =>
    have hlt : s.f linkEccEvents 8 24 < 2 ^ 24 := fld_lt _ _ _
    exact ⟨Recorded.refl s, RecordFrame.refl s, (Nat.min_eq_right (show s.f linkEccEvents 8 24 ≤ 0xFFFFFF by omega)).symm⟩
  | cons x xs ih =>
    obtain ⟨hrec, hframe, hcount⟩ := ih (s.event .sto 0 5 d)
    have hone : (s.event .sto 0 5 d).f linkEccEvents 8 24 = min 0xFFFFFF (s.f linkEccEvents 8 24 + 1) :=
      (State.event_count countReg_linkEcc s .sto 0 5 d false true).trans (if_pos ⟨by decide, rfl⟩)
    refine ⟨(State.event_recorded _ _ _ _ _ _ _).trans hrec, (State.event_frame s rfl _ _ _ _).trans hframe, hcount.trans ?_⟩
    rw [hone, List.length_cons]
    omega

/-- What counting corrected transfers leaves. -/
theorem State.countLinkEcc_spec (s : State) (c : Nat) : let t := s.countLinkEcc c
    let n := Config.choice s.free
    t.vault = s.vault ∧ t.store = s.store ∧ t.out = s.out ∧ t.free = s.free + 1
      ∧ t.rn (winBase .sto 0 + rSTO_LINK_ECC_COUNT) = min 0xFFFFFFFF (s.rn (winBase .sto 0 + rSTO_LINK_ECC_COUNT) + n)
      ∧ t.f linkEccEvents 8 24 = min 0xFFFFFF (s.f linkEccEvents 8 24 + n) ∧ RegsButRecords [winBase .sto 0 + rSTO_LINK_ECC_COUNT] s t := by
  dsimp only
  obtain ⟨hrec, hframe, hcount⟩ := State.linkEccEvents_spec (List.range (Config.choice s.free)) (storeBase + 4096 * c)
    (({ s with free := s.free + 1 } : State).bumpN (winBase .sto 0 + rSTO_LINK_ECC_COUNT) (Config.choice s.free))
  rw [List.length_range] at hcount
  refine ⟨hrec.vault, hrec.store, hrec.out, hrec.free, ?_, ?_, fun a ha hr => ?_⟩
  · refine (hframe.rn (by decide)).trans ((State.rn_wn_same _ _ _).trans (Nat.mod_eq_of_lt ?_))
    omega
  · have hsame := (RegsBut.wn ({ s with free := s.free + 1 } : State) (winBase .sto 0 + rSTO_LINK_ECC_COUNT)
      (min 0xFFFFFFFF (s.rn (winBase .sto 0 + rSTO_LINK_ECC_COUNT) + Config.choice s.free))).f (a := linkEccEvents) (by decide) 8 24
    exact hcount.trans (congrArg (fun x => min 0xFFFFFF (x + _)) hsame)
  · exact (hframe a List.not_mem_nil hr).trans (RegsBut.wn ({ s with free := s.free + 1 } : State) _ _ a ha)

theorem Tended.parityStored {s t : State} (h : Tended false s t) (ph : Nat) (b : Bool) :
    Tended false s { t with store := { t.store with parBad := aput false t.store.parBad ph b } } :=
  h.setMem (m := { t.store with parBad := aput false t.store.parBad ph b }) rfl

/-- The page of a byte of the Store that fails its parity is decoded. -/
def State.failingDecoded (s : State) (ph reader : Nat) : State :=
  ({ s with store := { s.store with parBad := aput false s.store.parBad ph true } } : State).decodePage false (pageOf ph) reader

theorem Tended.failingDecoded {s t : State} (h : Tended false s t) (ph r : Nat) : Tended false s (t.failingDecoded ph r) :=
  (h.parityStored ph true).decodePage _ _ _ _

/-- A transfer of a byte failed twice: what is stored with the byte stays. -/
def State.transferFailed (s : State) (ph reader : Nat) : State :=
  if s.unwritten false ph || s.memDead false ph then s
  else if s.store.bad ph then s.failingDecoded ph reader
  else { s.failingDecoded ph reader with
    store := { (s.failingDecoded ph reader).store with parBad := aput false (s.failingDecoded ph reader).store.parBad ph false } }

theorem State.linkFailure_eq (s : State) (a r : Nat) :
    s.linkFailure a r = (s.settle false a 1).transferFailed ((s.settle false a 1).store.phys a) r := rfl

theorem Tended.linkFailure {s t : State} (h : Tended false s t) (a r : Nat) : Tended false s (t.linkFailure a r) := by
  have hu : Tended false s (t.settle false a 1) := h.settle a 1
  rw [State.linkFailure_eq]
  have hd := hu.failingDecoded ((t.settle false a 1).store.phys a) r
  exact Tended.ite hu (Tended.ite hd (hd.parityStored _ false))

theorem State.linkFails_spec (s : State) (c : Nat) : Tended false s (s.linkFails c)
    ∧ (Config.choice s.free % 2 ≠ 1 → (s.linkFails c).store = s.store) := by
  have hfree : Tended false s { s with free := s.free + 3 } := ⟨fun _ _ _ => rfl, rfl, rfl, rfl, rfl⟩
  unfold State.linkFails
  exact ⟨Tended.ite (hfree.linkFailure _ _) hfree, fun hc => by rw [if_neg fun h => hc h.1]⟩

/-- What reading the oscillator of channel `c` does before the drift is judged. -/
def State.oscRead (s : State) (c : Nat) : State := ((((List.range 4).map fun k => c / 4 * 4 + k).foldl State.retrained s).countLinkEcc c).linkFails c

/-- The registers it may write. -/
def oscRegs (c : Nat) : List Nat :=
  (winBase .sto 0 + rSTO_LINK_ECC_COUNT) :: upkeepRegs false ++ (List.range 4).map fun k => chanStat (c / 4 * 4 + k)

theorem execWck2dqOscRead_eq {s : State} {c : Nat} (drift : Nat) (hc : c < 64) (h0 : s.f (chanStat c) 0 3 = 0) :
    exec (.wck2dqOscRead c drift) s = .next (if drift ≤ 16 then s.oscRead c
      else ((s.oscRead c).setf (chanStat c) 0 3 3).bump (winBase .sto 0 + rSTO_RETRAIN_COUNT)) := by
  show execWck2dqOscRead c drift s = _
  unfold execWck2dqOscRead State.oscRead
  rw [if_neg (by simp only [State.chanRuns_of_active h0, Bool.not_true, Bool.or_false, decide_eq_true_eq]; omega), List.foldl_map]

theorem State.oscRead_spec {s : State} {c : Nat} (hc : c < 64) (h0 : s.f (chanStat c) 0 3 = 0) : let t := s.oscRead c
    let n := Config.choice s.free
    t.rn (winBase .sto 0 + rSTO_LINK_ECC_COUNT) = min 0xFFFFFFFF (s.rn (winBase .sto 0 + rSTO_LINK_ECC_COUNT) + n)
      ∧ t.f linkEccEvents 8 24 = min 0xFFFFFF (s.f linkEccEvents 8 24 + n) ∧ t.vault = s.vault ∧ t.out = s.out
      ∧ (Config.choice (s.free + 1) % 2 ≠ 1 → t.store = s.store) ∧ t.f (chanStat c) 0 3 = 0 ∧ RegsButRecords (oscRegs c) s t := by
  dsimp only
  unfold State.oscRead
  obtain ⟨honly, hregs, hstate⟩ := State.retrained_spec ((List.range 4).map fun k => c / 4 * 4 + k) s
  generalize ((List.range 4).map fun k => c / 4 * 4 + k).foldl State.retrained s = u at honly hregs hstate
  rw [List.map_map] at hregs
  obtain ⟨r, rfl⟩ : ∃ r, u = { s with regs := r } := ⟨_, honly⟩
  have hlow : ∀ a, a < 0x90100 ∨ 0x90200 ≤ a → a ∉ (List.range 4).map (chanStat ∘ fun k => c / 4 * 4 + k) := by
    intro a ha hm
    obtain ⟨k, hk, h⟩ := List.mem_map.1 hm
    have hlt := List.mem_range.1 hk
    exact ne_chanStat (c := c / 4 * 4 + k) (by omega) ha h.symm
  obtain ⟨hvault, hstore, hout, hfree, hecc, hevents, hcounted⟩ := State.countLinkEcc_spec { s with regs := r } c
  generalize State.countLinkEcc { s with regs := r } c = w at hvault hstore hout hfree hecc hevents hcounted
  obtain ⟨htended, hkept⟩ := w.linkFails_spec c
  rw [hfree] at hkept
  refine ⟨?_, ?_, ?_, ?_, fun hch => ?_, ?_, fun a ha hr => ?_⟩
  · rw [htended.rn (by decide) (by decide), hecc, hregs.rn (hlow _ (by decide))]
  · rw [show (w.linkFails c).f linkEccEvents 8 24 = _ from htended.links, hevents, hregs.f (hlow _ (by decide))]
  · exact htended.other.trans hvault
  · exact htended.out.trans hout
  · exact (hkept hch).trans hstore
  · have hecc : chanStat c ∉ [winBase .sto 0 + rSTO_LINK_ECC_COUNT] := by
      simpa using (ne_chanStat (a := winBase .sto 0 + rSTO_LINK_ECC_COUNT) hc (.inl (by decide))).symm
    have hcount : w.f (chanStat c) 0 3 = State.f { s with regs := r } (chanStat c) 0 3 := congrArg (fun x : Word => fld x.toNat 0 3) (hcounted _ hecc (recordReg_chanStat hc))
    exact (htended.f (chanStat_not_mem hc) (recordReg_chanStat hc) 0 3).trans (hcount.trans (hstate c h0))
  · simp only [oscRegs, List.cons_append, List.mem_cons, List.mem_append, not_or] at ha
    obtain ⟨hne, hup, hchan⟩ := ha
    exact ((htended.regs a hup hr).trans (hcounted a (by simpa using hne) hr)).trans (hregs a hchan)

/-! ### A raw command that waited for a wipe and has no authority (R245, R246) -/

/-- RAW_CMD of a memory. -/
abbrev rawCmd (v : Bool) : Nat := rawReg v rVLT_RAW_CMD

/-- A raw command refused: REFUSED and DONE. -/
def State.rawRefused (s : State) (v : Bool) : State := (s.setf (rawCmd v) 17 1 1).setf (rawCmd v) 16 1 1

theorem State.rawRefused_spec (s : State) (v : Bool) : OnlyRegs s (s.rawRefused v) ∧ (s.rawRefused v).f (rawCmd v) 16 1 = 1
    ∧ (s.rawRefused v).f (rawCmd v) 17 1 = 1 ∧ RegsBut [rawCmd v] s (s.rawRefused v) :=
  ⟨rfl, State.f_setf_same _ _ _ (by decide), (State.f_setf_apart _ _ _ (by decide) (.inr (by decide))).trans (State.f_setf_same _ _ _ (by decide)),
    (RegsBut.setf s _ _ _ _).setfIn (List.mem_singleton.2 rfl) _ _ _⟩

theorem State.rawRun_refused {s : State} {side : Side} (h : s.rawAllowed side = false) (v : Bool) (op pp res : Nat) :
    s.rawRun v op pp res side = s.rawRefused v := by
  unfold State.rawRun
  rw [h]
  rfl

/-- The registers that authority is read from: the lifecycle, VLT_RAW_AUTH and the slots (R245). -/
def authRegs : List Nat :=
  [winBase .rgs 0 + rRGS_LIFECYCLE, rawReg true rVLT_RAW_AUTH] ++ (List.range 4).map fun k => winBase .pln 0 + rPLN_SLOT_STAT + 0x20 * k

theorem State.rawAllowed_of_regsBut {as : List Nat} {s t : State} (h : RegsBut as s t) (has : ∀ a ∈ authRegs, a ∉ as) (side : Side) :
    t.rawAllowed side = s.rawAllowed side := by
  have hslots : ((List.range 4).all fun k => t.slotState k != 6) = (List.range 4).all fun k => s.slotState k != 6 := by
    rw [Bool.eq_iff_iff, List.all_eq_true, List.all_eq_true]
    refine forall₂_congr fun k hk => ?_
    rw [State.slotState, h.f (has _ (List.mem_append_right _ (List.mem_map_of_mem (f := fun k => winBase .pln 0 + rPLN_SLOT_STAT + 0x20 * k) hk))),
      State.slotState]
  unfold State.rawAllowed
  rw [hslots, h.f (has _ (by simp [authRegs])), h.f (has _ (by simp [authRegs]))]

/-- A raw command alone in the queue: it waits on, or is carried out. -/
theorem State.serveWaiting_raw {s : State} {v : Bool} {op pp res : Nat} {side : Side} (h : s.pwr.memWait = [.raw v op pp res side]) :
    s.serveWaiting = if s.wiping v then s else ({ s with pwr := { s.pwr with memWait := [] } } : State).rawRun v op pp res side := by
  unfold State.serveWaiting
  rw [h, List.foldl_cons, List.foldl_nil]
  refine ite_congr rfl (fun _ => ?_) fun _ => rfl
  rw [List.nil_append, ← h]

/-- The end of a wipe of a memory that is wiped no more refuses a command without authority. -/
theorem State.endWipe_refuses {s : State} {v w : Bool} {op pp res : Nat} {side : Side} (h : s.pwr.memWait = [.raw v op pp res side])
    (ha : s.rawAllowed side = false) (hw : (s.setf (memStat w) 0 1 0).wiping v = false) :
    s.endWipe w = ({ s.setf (memStat w) 0 1 0 with pwr := { s.pwr with memWait := [] } } : State).rawRefused v := by
  have hallowed : ({ s.setf (memStat w) 0 1 0 with pwr := { s.pwr with memWait := [] } } : State).rawAllowed side = false :=
    (State.rawAllowed_of_regsBut ((RegsBut.setf s (memStat w) 0 1 0).same rfl) (by cases w <;> decide) side).trans ha
  refine (State.serveWaiting_raw (s := s.setf (memStat w) 0 1 0) h).trans ?_
  rw [if_neg (by rw [hw]; decide)]
  exact State.rawRun_refused hallowed v op pp res

theorem execStoreWipeDone_refuses {s : State} {v : Bool} {op pp res : Nat} {side : Side} (h : s.pwr.memWait = [.raw v op pp res side])
    (ha : s.rawAllowed side = false) :
    ∃ t, exec .storeWipeDone s = .next t ∧ t.pwr.memWait = [] ∧ t.f (rawCmd v) 16 1 = 1 ∧ t.f (rawCmd v) 17 1 = 1 := by
  refine ⟨(s.endWipe true).endWipe false, rfl, ?_⟩
  by_cases hw : (s.setf (memStat true) 0 1 0).wiping v = true
  · have hv : v = false := by
      cases v
      · rfl
      · rw [State.not_wiping (State.f_setf_same _ _ _ (by decide))] at hw
        cases hw
    have hwaits : s.endWipe true = s.setf (memStat true) 0 1 0 :=
      (State.serveWaiting_raw (s := s.setf (memStat true) 0 1 0) h).trans (if_pos hw)
    have hallowed : (s.setf (memStat true) 0 1 0).rawAllowed side = false :=
      (State.rawAllowed_of_regsBut (RegsBut.setf s (memStat true) 0 1 0) (by decide) side).trans ha
    have hover : ((s.setf (memStat true) 0 1 0).setf (memStat false) 0 1 0).wiping v = false := by
      rw [hv]
      exact State.not_wiping (State.f_setf_same _ _ _ (by decide))
    rw [hwaits, State.endWipe_refuses (s := s.setf (memStat true) 0 1 0) h hallowed hover]
    obtain ⟨-, hdone, hrefused, -⟩ := State.rawRefused_spec
      { (s.setf (memStat true) 0 1 0).setf (memStat false) 0 1 0 with pwr := { s.pwr with memWait := [] } } v
    exact ⟨rfl, hdone, hrefused⟩
  · rw [State.endWipe_refuses h ha (Bool.eq_false_iff.2 hw), State.endWipe_of_none (by rfl)]
    obtain ⟨-, hdone, hrefused, -⟩ := State.rawRefused_spec { s.setf (memStat true) 0 1 0 with pwr := { s.pwr with memWait := [] } } v
    have hne : rawCmd v ≠ memStat false := by cases v <;> decide
    exact ⟨rfl, (State.f_setf_ne _ _ _ _ _ _ hne).trans hdone, (State.f_setf_ne _ _ _ _ _ _ hne).trans hrefused⟩

/-! ### The statement -/

theorem execScrubPage_scrubs {s : State} {mem : Nat} (htime : s.f (mreg (mem == 1) rVLT_SCRUB_TIME rSTO_SCRUB_TIME) 0 16 ≠ 0) (hlock : s.locked = false)
    (hwipe : s.wiping (mem == 1) = false)
    (hheld : (s.mem (mem == 1)).held.any (fun h => h.1 == scrubPage (mem == 1) (s.mem (mem == 1)).scrubNext) = false) :
    let v := mem == 1
    let p := scrubPage v (s.mem v).scrubNext
    let n := (s.mem v).scrubNext + 1
    ∃ t, exec (.scrubPage mem) s = .next t ∧ (t.mem v).scrubNext = (if n < scrubPages v then n else 0)
      ∧ t.rn (scrubPasses v) = (if n < scrubPages v then s.rn (scrubPasses v) else min 0xFFFFFFFF (s.rn (scrubPasses v) + 1))
      ∧ ((s.mem v).pagePoisoned (s.bankKey v (p * 4096)) p = true → (t.mem v).cells = (s.mem v).cells ∧ RegsBut [scrubPasses v] s t) := by
  dsimp only
  refine ⟨_, execScrubPage_takes htime hlock hwipe hheld, ?_⟩
  generalize (mem == 1) = v at hheld ⊢
  have htended := s.scrubTakes_tended v (scrubPage v (s.mem v).scrubNext)
  have hpoisoned := fun h => State.scrubTakes_poisoned (s := s) (v := v) (p := scrubPage v (s.mem v).scrubNext) h
  generalize s.scrubTakes v (scrubPage v (s.mem v).scrubNext) = u at htended hpoisoned ⊢
  obtain ⟨hmem, hcount, hregs⟩ := u.scrubOn_spec v
  rw [htended.scrubNext] at hmem hcount
  rw [htended.rn (scrubPasses_not_mem v).1 (scrubPasses_not_mem v).2] at hcount
  refine ⟨by rw [hmem], hcount, fun hp => ?_⟩
  rw [hpoisoned hp] at hmem hregs ⊢
  exact ⟨by rw [hmem], hregs⟩

theorem execStoreTrainingDone_trains {s : State} (pass : Nat) (h1 : s.f (memStat false) 1 1 = 1) (hw : s.pwr.memWait = []) :
    ∃ t, exec (.storeTrainingDone pass) s = .next t ∧ t.f (memStat false) 1 1 = 0
      ∧ t.f (memStat false) 0 1 = (if s.f bootStat 14 1 = 0 then 1 else s.f (memStat false) 0 1) ∧ t.wiping true = false
      ∧ (pass ≠ 0 → OnlyRegs s t ∧ RegsBut [memStat false, memStat true] s t) ∧ RegsButRecords [memStat false, memStat true] s t := by
  obtain ⟨honly, htrain, hwipe, hvault, hregs⟩ := s.trained_spec
  refine ⟨_, execStoreTrainingDone_eq pass h1 hw, ?_⟩
  split
  next hp =>
    have hframe : RecordFrame s.trained (s.trained.event .sto 0 8) := State.event_frame _ rfl _ _ _ _
    exact ⟨(hframe.f (by decide) 1 1).trans htrain, (hframe.f (by decide) 0 1).trans hwipe,
      State.not_wiping ((hframe.f (a := memStat true) (by decide) 0 1).trans hvault), fun hne => absurd hp hne,
      fun a ha hr => (hframe a List.not_mem_nil hr).trans (hregs a ha)⟩
  next => exact ⟨htrain, hwipe, State.not_wiping hvault, fun _ => ⟨honly, hregs⟩, hregs.records⟩

theorem execStoreWipeDone_ends {s : State} (hw : s.pwr.memWait = []) :
    ∃ t, exec .storeWipeDone s = .next t ∧ OnlyRegs s t ∧ t.wiping false = false ∧ t.wiping true = false ∧ RegsBut [memStat false, memStat true] s t := by
  refine ⟨(s.setf (memStat true) 0 1 0).setf (memStat false) 0 1 0, ?_, rfl, State.not_wiping (State.f_setf_same _ _ _ (by decide)), ?_, ?_⟩
  · show Host.Outcome.next ((s.endWipe true).endWipe false) = _
    rw [State.endWipe_of_none hw, State.endWipe_of_none (by exact hw)]
  · exact State.not_wiping ((State.f_setf_ne _ _ _ _ _ _ (by decide)).trans (State.f_setf_same _ _ _ (by decide)))
  · exact ((RegsBut.refl _ s).setfIn (by simp) _ _ _).setfIn (by simp) _ _ _

/-- The count of a Store channel's retrainings. -/
def retrainCount : Nat := winBase .sto 0 + rSTO_RETRAIN_COUNT

/-- A retraining that a drift asks for begins. -/
def State.retrains (s : State) (c : Nat) : State := (s.setf (chanStat c) 0 3 3).bump retrainCount

theorem State.retrains_spec (s : State) {c : Nat} (hc : c < 64) : (s.retrains c).f (chanStat c) 0 3 = 3
    ∧ (s.retrains c).rn retrainCount = min 0xFFFFFFFF (s.rn retrainCount + 1) ∧ RegsBut [retrainCount, chanStat c] s (s.retrains c) := by
  have hne : retrainCount ≠ chanStat c := ne_chanStat hc (.inl (by decide))
  refine ⟨?_, ?_, ((RegsBut.refl _ s).setfIn (by simp) _ _ _).wnIn (by simp) _⟩
  · exact (congrArg (fld · 0 3) (State.rn_bump_ne _ hne.symm)).trans (State.f_setf_same _ _ _ (by decide))
  · rw [State.retrains, State.rn_bump, State.setf, State.rn_wn_ne _ _ hne]

theorem chanStat_mem_oscRegs (c : Nat) : chanStat c ∈ oscRegs c :=
  List.mem_append_right _ (List.mem_map.2 ⟨c % 4, List.mem_range.2 (Nat.mod_lt _ (by decide)), by rw [Nat.div_add_mod']⟩)

theorem not_mem_oscRegs {a c : Nat} (hc : c < 64) (ha : a ≠ winBase .sto 0 + rSTO_LINK_ECC_COUNT) (hu : a ∉ upkeepRegs false)
    (hr : a < 0x90100 ∨ 0x90200 ≤ a) : a ∉ oscRegs c := by
  simp only [oscRegs, List.cons_append, List.mem_cons, List.mem_append, List.mem_map, List.mem_range, not_or]
  refine ⟨ha, hu, fun ⟨k, hk, h⟩ => ne_chanStat (c := c / 4 * 4 + k) (by omega) hr h.symm⟩

theorem execWck2dqOscRead_counts {s : State} {c : Nat} (drift : Nat) (hc : c < 64) (h0 : s.f (chanStat c) 0 3 = 0) :
    let e := winBase .sto 0 + rSTO_LINK_ECC_COUNT
    let n := Config.choice s.free
    ∃ t, exec (.wck2dqOscRead c drift) s = .next t ∧ t.rn e = min 0xFFFFFFFF (s.rn e + n) ∧ t.f linkEccEvents 8 24 = min 0xFFFFFF (s.f linkEccEvents 8 24 + n)
      ∧ t.vault = s.vault ∧ t.out = s.out ∧ (Config.choice (s.free + 1) % 2 ≠ 1 → t.store = s.store) ∧ RegsButRecords (retrainCount :: oscRegs c) s t
      ∧ t.f (chanStat c) 0 3 = (if 16 < drift then 3 else 0)
      ∧ t.rn retrainCount = if 16 < drift then min 0xFFFFFFFF (s.rn retrainCount + 1) else s.rn retrainCount := by
  obtain ⟨hecc, hevents, hvault, hout, hstore, hstate, hregs⟩ := State.oscRead_spec hc h0
  have hrn : (s.oscRead c).rn retrainCount = s.rn retrainCount :=
    congrArg BitVec.toNat (hregs _ (not_mem_oscRegs hc (by decide) (by decide) (.inl (by decide))) (by decide))
  have hmore : RegsButRecords (retrainCount :: oscRegs c) s (s.oscRead c) := hregs.mono fun a => List.mem_cons_of_mem _
  refine ⟨_, execWck2dqOscRead_eq drift hc h0, ?_⟩
  by_cases hd : drift ≤ 16
  · rw [if_pos hd, if_neg (by omega), if_neg (by omega)]
    exact ⟨hecc, hevents, hvault, hout, hstore, hmore, hstate, hrn⟩
  · rw [if_neg hd, if_pos (by omega), if_pos (by omega)]
    obtain ⟨hthree, hcounted, hset⟩ := (s.oscRead c).retrains_spec hc
    have hother : ∀ a, a ≠ retrainCount → a < 0x90100 ∨ 0x90200 ≤ a → a ∉ [retrainCount, chanStat c] := fun a hb ha => by
      simpa using ⟨hb, ne_chanStat hc ha⟩
    refine ⟨(hset.rn (hother _ (by decide) (.inl (by decide)))).trans hecc, (hset.f (hother _ (by decide) (.inr (by decide))) 8 24).trans hevents, hvault, hout,
      hstore, hmore.trans (hset.mono ?_).records, hthree, hcounted.trans (by rw [hrn])⟩
    simp [chanStat_mem_oscRegs]

/-- Settles O48: a page decoded, scrubbed or lost is upkeep of its memory (`Tended`), and each of the other commands writes what its own lemma
lists. -/
theorem memoriesAreKept : Obligations.MemoriesAreKept := by
  intro s
  refine ⟨fun mem p => ⟨_, rfl, s.finishDecode_releases (mem == 1) p, State.finishDecode_clean⟩, fun mem => execScrubPage_scrubs,
    fun die hd halive => ⟨_, rfl, State.failDie_spec hd halive⟩, fun p r ps hr => execMarchTest_row hr r ps,
    fun c hc h4 => ⟨_, rfl, State.failChannel_spec hc h4⟩, fun pass => execStoreTrainingDone_trains pass, execStoreWipeDone_ends,
    fun v op pp res side => execStoreWipeDone_refuses, fun c temp => execStoreRefresh_reads temp, fun _ _ => ⟨s, rfl, rfl⟩, fun _ => ⟨s, rfl, rfl⟩,
    fun c drift hc h0 => ?_, fun c hc h0 => ⟨fun h => ?_, fun g h2 hg hfree hon => ?_⟩⟩
  · obtain ⟨t, hexec, hecc, hevents, hvault, hout, hstore, hregs, hstate, hretrain⟩ := execWck2dqOscRead_counts drift hc h0
    refine ⟨t, hexec, hecc, hevents, hvault, hout, hstore, hregs.mono fun a ha => ?_, hstate, hretrain⟩
    simp only [oscRegs, upkeepRegs, List.cons_append, List.nil_append, List.mem_cons, List.mem_append] at ha ⊢
    tauto
  · refine ⟨_, execSelfRefreshEntry_rests hc h0 ?_ (ite_self _), s.rested_nothing c⟩
    rcases h with h | ⟨hl, hq⟩
    · rw [decide_eq_true h, Bool.true_or]
    · rw [hl, hq, Bool.and_self, Bool.or_true]
  · refine ⟨_, execSelfRefreshEntry_rests hc h0 (by rw [decide_eq_true h2, Bool.true_or]) (drop := [g]) ?_, s.rested_segment c g⟩
    rw [if_pos h2, List.filter_cons_of_pos (by simp [hg, hfree, hon]), List.filter_nil]

end Sys2Proof.Machine

/-! PROOFS. Raw mode (R245 to R247): what each of the six commands does to the word at its address, and a state at which O49 fails. -/

namespace Sys2Proof.Machine

open Sys2Proof

/-! ### The fields of a command -/

/-- A part of a field is a field. -/
theorem State.f_part (s : State) (a lo : Nat) {k b c : Nat} (h : b + c ≤ k) : s.f a (lo + b) c = fld (s.f a lo k) b c := (fld_fld _ h).symm

/-- RAW_CMD as a command with GO stores it: its fields, with DONE, REFUSED and RESULT cleared. -/
def State.rawStored (s : State) (v : Bool) (op pp res : Nat) : State :=
  (((s.setf (rawCmd v) 0 3 op).setf (rawCmd v) 4 7 pp).setf (rawCmd v) 11 1 (if v then 0 else res)).setf (rawCmd v) 16 5 0

theorem State.rawStored_spec (s : State) (v : Bool) (op pp res : Nat) : let t := s.rawStored v op pp res
    OnlyRegs s t ∧ RegsBut [rawCmd v] s t ∧ t.f (rawCmd v) 16 1 = 0 ∧ t.f (rawCmd v) 17 1 = 0 := by
  have hcmd : rawCmd v ∈ [rawCmd v] := List.mem_singleton.2 rfl
  have hzero : (s.rawStored v op pp res).f (rawCmd v) 16 5 = 0 := State.f_setf_same _ _ _ (by decide)
  refine ⟨rfl, ((((RegsBut.refl _ s).setfIn hcmd _ _ _).setfIn hcmd _ _ _).setfIn hcmd _ _ _).setfIn hcmd _ _ _, ?_, ?_⟩
  · rw [State.f_part _ _ 16 (k := 5) (b := 0) (by decide), hzero]
    rfl
  · rw [State.f_part _ _ 16 (k := 5) (b := 1) (by decide), hzero]
    rfl

theorem State.wiping_rawStored (s : State) (v : Bool) (op pp res : Nat) : (s.rawStored v op pp res).wiping v = s.wiping v := by
  obtain ⟨-, hregs, -⟩ := s.rawStored_spec v op pp res
  exact congrArg (· == 1) (hregs.f (by cases v <;> decide) 0 1)

theorem State.rawAllowed_rawStored (s : State) (v : Bool) (op pp res : Nat) (side : Side) :
    (s.rawStored v op pp res).rawAllowed side = s.rawAllowed side := by
  obtain ⟨-, hregs, -⟩ := s.rawStored_spec v op pp res
  exact State.rawAllowed_of_regsBut hregs (by cases v <;> decide) side

theorem State.rawAddr_rawStored (s : State) (v : Bool) (op pp res r : Nat) : (s.rawStored v op pp res).rawAddr v r = s.rawAddr v r := by
  obtain ⟨-, hregs, -⟩ := s.rawStored_spec v op pp res
  unfold State.rawAddr
  rw [hregs.rn (by cases v <;> decide), hregs.f (by cases v <;> decide)]

/-! ### Commands that wait or are refused -/

/-- A raw command waits for the end of the wipe of its memory (R246, log entry 148). -/
theorem State.raw_waits {s : State} {v : Bool} (h : s.wiping v = true) (op pp res : Nat) (side : Side) : let t := s.raw v op pp res side
    t.pwr.memWait = s.pwr.memWait ++ [.raw v op pp res side] ∧ t.f (rawCmd v) 16 1 = 0 ∧ t.mem v = s.mem v ∧ RegsBut [rawCmd v] s t := by
  obtain ⟨-, hregs, hdone, -⟩ := s.rawStored_spec v op pp res
  have heq : s.raw v op pp res side
      = { s.rawStored v op pp res with pwr := { s.pwr with memWait := s.pwr.memWait ++ [.raw v op pp res side] } } :=
    if_pos ((s.wiping_rawStored v op pp res).trans h)
  dsimp only
  rw [heq]
  exact ⟨rfl, hdone, rfl, hregs.same rfl⟩

theorem State.raw_runs {s : State} {v : Bool} (h : s.wiping v = false) (op pp res : Nat) (side : Side) :
    s.raw v op pp res side = (s.rawStored v op pp res).rawRun v op pp res side :=
  if_neg fun hw => Bool.false_ne_true (h.symm.trans ((s.wiping_rawStored v op pp res).symm.trans hw))

/-- A raw command without authority marks itself alone (R245). -/
theorem State.raw_refused {s : State} {v : Bool} {side : Side} (h : s.wiping v = false) (ha : s.rawAllowed side = false) (op pp res : Nat) :
    let t := s.raw v op pp res side
    OnlyRegs s t ∧ t.f (rawCmd v) 16 1 = 1 ∧ t.f (rawCmd v) 17 1 = 1 ∧ RegsBut [rawCmd v] s t := by
  obtain ⟨honly, hregs, -, -⟩ := s.rawStored_spec v op pp res
  obtain ⟨konly, hdone, hrefused, kregs⟩ := (s.rawStored v op pp res).rawRefused_spec v
  dsimp only
  rw [State.raw_runs h, State.rawRun_refused ((s.rawAllowed_rawStored v op pp res side).trans ha)]
  exact ⟨honly.trans konly, hdone, hrefused, hregs.trans kregs⟩

/-! ### The word that a command acts on -/

/-- Raw mode reaches the word at `x`: its memory is not wiped, `side` has authority, and the word's page is powered, not poisoned and
not held (R222, R236, R245, R246). -/
structure RawWord (s : State) (v : Bool) (res : Nat) (side : Side) (x : Nat) : Prop where
  unwiped : s.wiping v = false
  allowed : s.rawAllowed side = true
  addr : s.rawAddr v res = some x
  powered : aget false (s.mem v).off (s.bankKey v ((s.mem v).phys x)) = false
  sound : s.poisonedAt v ((s.mem v).phys x) = false
  released : (s.mem v).held.any (fun h => h.1 == pageOf ((s.mem v).phys x)) = false

theorem RawWord.stored {s : State} {v : Bool} {res : Nat} {side : Side} {x : Nat} (h : RawWord s v res side x) (op pp : Nat) :
    RawWord (s.rawStored v op pp res) v res side x :=
  ⟨(s.wiping_rawStored v op pp res).trans h.unwiped, (s.rawAllowed_rawStored v op pp res side).trans h.allowed,
    (s.rawAddr_rawStored v op pp res res).trans h.addr, h.powered, h.sound, h.released⟩

/-- RAW_ADDR names a word. -/
theorem State.rawAddr_aligned {s : State} {v : Bool} {res x : Nat} (h : s.rawAddr v res = some x) : x % 32 = 0 := by
  unfold State.rawAddr at h
  dsimp only at h
  have hword : (s.rn (rawReg v rVLT_RAW_ADDR_LO) / 32 * 32 + 2 ^ 32 * s.f (rawReg v rVLT_RAW_ADDR_HI) 0 8) % 32 = 0 := by omega
  generalize s.rn (rawReg v rVLT_RAW_ADDR_LO) / 32 * 32 + 2 ^ 32 * s.f (rawReg v rVLT_RAW_ADDR_HI) 0 8 = a at h hword
  split at h
  · split at h
    · exact Option.some.inj h ▸ hword
    · cases h
  · split at h
    · split at h
      · rw [← Option.some.inj h, Nat.add_mod, hword]
        decide
      · cases h
    · split at h
      · exact Option.some.inj h ▸ hword
      · cases h

theorem Mem.pageOf_phys (m : Mem) (a : Nat) : pageOf (m.phys a) = aget (pageOf a) m.redirect (pageOf a) := by
  unfold Mem.phys
  generalize aget (pageOf a) m.redirect (pageOf a) = q
  unfold pageOf
  omega

/-- A word whose page is not held waits for no decode (R222). -/
theorem State.settle_word {s : State} {v : Bool} {x : Nat} (hx : x % 32 = 0)
    (h : (s.mem v).held.any (fun h => h.1 == pageOf ((s.mem v).phys x)) = false) : s.settle v x 32 = s := by
  have hone : (x % 4096 + 32 + 4095) / 4096 = 1 := by omega
  have hpage : pageOf (x / 4096 * 4096 + 4096 * 0) = pageOf x := by unfold pageOf; omega
  unfold State.settle
  rw [hone]
  show s.finishDecode v (pageOf ((s.mem v).phys (x / 4096 * 4096 + 4096 * 0))) = s
  rw [Mem.pageOf_phys, hpage, ← Mem.pageOf_phys]
  unfold State.finishDecode
  rw [List.find?_eq_none.2 (List.any_eq_false.1 h)]

theorem State.setMem_mem (s : State) (v : Bool) : s.setMem v (s.mem v) = s := by
  cases v
  · rfl
  · rfl

section
variable {s : State} {v : Bool} {res x : Nat} {side : Side} (h : RawWord s v res side x)
include h

theorem RawWord.rawRun (op pp : Nat) : s.rawRun v op pp res side = (s.rawAct v op pp ((s.mem v).phys x)).setf (rawCmd v) 16 1 1 := by
  have hpower : (s.mem v).powerUp (s.bankKey v ((s.mem v).phys x)) = s.mem v := if_neg (by rw [h.powered]; decide)
  unfold State.rawRun
  dsimp only
  rw [h.allowed, h.addr]
  dsimp only
  rw [State.settle_word (State.rawAddr_aligned h.addr) h.released, hpower, State.setMem_mem]
  rfl

theorem RawWord.raw (op pp : Nat) :
    s.raw v op pp res side = ((s.rawStored v op pp res).rawAct v op pp ((s.mem v).phys x)).setf (rawCmd v) 16 1 1 :=
  (State.raw_runs h.unwiped op pp res side).trans ((h.stored op pp).rawRun op pp)

end

/-! ### A command done -/

/-- A raw command carried out: DONE without REFUSED, the other memory as before, and no register written but RAW_CMD and those listed. -/
structure RawDone (v : Bool) (as : List Nat) (s t : State) : Prop where
  done : t.f (rawCmd v) 16 1 = 1
  accepted : t.f (rawCmd v) 17 1 = 0
  other : t.mem (!v) = s.mem (!v)
  regs : RegsBut (rawCmd v :: as) s t

theorem rawDone_of_accepted {s t : State} {v : Bool} {op pp res : Nat} {as : List Nat} (hregs : RegsBut (rawCmd v :: as) (s.rawStored v op pp res) t)
    (haccepted : t.f (rawCmd v) 17 1 = 0) (hother : t.mem (!v) = s.mem (!v)) : RawDone v as s (t.setf (rawCmd v) 16 1 1) := by
  obtain ⟨-, hstored, -, -⟩ := s.rawStored_spec v op pp res
  refine ⟨State.f_setf_same _ _ _ (by decide), ?_, hother, ((hstored.mono (by simp)).trans hregs).setfIn List.mem_cons_self _ _ _⟩
  exact (State.f_setf_apart _ _ _ (by decide) (.inr (by decide))).trans haccepted

theorem rawDone_of_acts {s t : State} {v : Bool} {op pp res : Nat} {as : List Nat} (hregs : RegsBut as (s.rawStored v op pp res) t) (has : rawCmd v ∉ as)
    (hother : t.mem (!v) = s.mem (!v)) : RawDone v as s (t.setf (rawCmd v) 16 1 1) := by
  obtain ⟨-, -, -, haccepted⟩ := s.rawStored_spec v op pp res
  exact rawDone_of_accepted (hregs.mono fun a => List.mem_cons_of_mem _) ((hregs.f has 17 1).trans haccepted) hother

theorem OnlyRegs.mem {s t : State} (h : OnlyRegs s t) (v : Bool) : t.mem v = s.mem v := by unfold State.mem; rw [h]

/-! ### The registers of raw mode -/

/-- A run of registers written reads what was written. -/
theorem State.foldl_wn (base : Nat) (g : Nat → Nat) (ks : List Nat) (s : State) : let t := ks.foldl (fun (u : State) k => u.wn (base + 4 * k) (g k)) s
    OnlyRegs s t ∧ RegsBut (ks.map fun k => base + 4 * k) s t ∧ ∀ k ∈ ks, t.rn (base + 4 * k) = g k % 2 ^ 32 := by
  induction ks generalizing s with
  | nil => exact ⟨rfl, RegsBut.refl _ s, fun k hk => nomatch hk⟩
  | cons j ks ih =>
    obtain ⟨honly, hregs, hval⟩ := ih (s.wn (base + 4 * j) (g j))
    refine ⟨(OnlyRegs.wn s _ _).trans honly, ((RegsBut.wn s _ _).mono (by simp)).trans (hregs.mono (by simp +contextual)), fun k hk => ?_⟩
    by_cases hin : k ∈ ks
    · exact hval k hin
    · have hkj : k = j := (List.mem_cons.1 hk).resolve_right hin
      have hout : base + 4 * k ∉ ks.map fun k => base + 4 * k := fun hm => by
        obtain ⟨i, hi, he⟩ := List.mem_map.1 hm
        exact hin ((show i = k by omega) ▸ hi)
      rw [List.foldl_cons, hregs.rn hout, hkj, State.rn_wn_same]

/-- The RAW_DATA registers. -/
def rawWords (v : Bool) : List Nat := (List.range 8).map fun k => rawReg v rVLT_RAW_DATA + 4 * k

theorem rawWords_ne {v : Bool} {i o : Nat} (hi : i < 8) (ho : o < rVLT_RAW_DATA) : rawReg v rVLT_RAW_DATA + 4 * i ≠ rawReg v o := by
  unfold rVLT_RAW_DATA at *
  cases v <;> simp only [rawReg, winBase, if_true, Bool.false_eq_true, if_false] <;> omega

theorem State.setRawData_spec (s : State) (v : Bool) (bs : List Byte) : OnlyRegs s (s.setRawData v bs) ∧ RegsBut (rawWords v) s (s.setRawData v bs)
    ∧ ∀ i, i < 8 → (s.setRawData v bs).rn (rawReg v rVLT_RAW_DATA + 4 * i) = at_ bs (4 * i) 4 := by
  obtain ⟨honly, hregs, hval⟩ := State.foldl_wn (rawReg v rVLT_RAW_DATA) (fun k => at_ bs (4 * k) 4) (List.range 8) s
  exact ⟨honly, hregs, fun i hi => (hval i (List.mem_range.2 hi)).trans (Nat.mod_eq_of_lt (at_lt bs (4 * i) 4))⟩

/-- A number put together bit by bit. -/
theorem foldl_bits (g : Nat → Bool) (n : Nat) : (List.range n).foldl (fun x i => x + b2n (g i) * 2 ^ i) 0 < 2 ^ n
    ∧ ∀ i, i < n → bit ((List.range n).foldl (fun x i => x + b2n (g i) * 2 ^ i) 0) i = g i := by
  induction n with
  | zero => exact ⟨Nat.one_pos, fun i hi => absurd hi (Nat.not_lt_zero i)⟩
  | succ n ih =>
    obtain ⟨hlt, hbits⟩ := ih
    rw [List.range_succ, List.foldl_append, List.foldl_cons, List.foldl_nil]
    generalize (List.range n).foldl (fun x i => x + b2n (g i) * 2 ^ i) 0 = x at hlt hbits
    have hpow : 2 ^ (n + 1) = 2 ^ n + 2 ^ n := by rw [Nat.pow_succ]; omega
    cases hg : g n
    · rw [b2n, if_neg (by decide), Nat.zero_mul, Nat.add_zero]
      refine ⟨by omega, fun i hi => ?_⟩
      rcases Nat.lt_succ_iff_lt_or_eq.1 hi with hi | rfl
      · exact hbits i hi
      · rw [bit_eq_testBit, Nat.testBit_lt_two_pow hlt, hg]
    · rw [b2n, if_pos rfl, Nat.one_mul, Nat.add_comm x]
      refine ⟨by omega, fun i hi => ?_⟩
      rcases Nat.lt_succ_iff_lt_or_eq.1 hi with hi | rfl
      · rw [bit_eq_testBit, Nat.testBit_two_pow_add_gt hi, ← bit_eq_testBit, hbits i hi]
      · rw [bit_eq_testBit, Nat.testBit_two_pow_add_eq, Nat.testBit_lt_two_pow hlt, hg]
        rfl

/-! ### The stored bits of a word (R217, R218) -/

/-- Parity of a sum is the sum of parities. -/
theorem evenParity_xor (x y : Nat) : evenParity (x ^^^ y) = (evenParity x == evenParity y) := by
  have key : ∀ (ks : List Nat) (p q : Bool), ks.foldl (fun r i => r != bit (x ^^^ y) i) (p == q)
      = (ks.foldl (fun r i => r != bit x i) p == ks.foldl (fun r i => r != bit y i) q) := by
    intro ks
    induction ks with
    | nil => exact fun _ _ => rfl
    | cons k ks ih =>
      intro p q
      have hstep : ((p == q) != bit (x ^^^ y) k) = ((p != bit x k) == (q != bit y k)) := by
        rw [bit_eq_testBit, Nat.testBit_xor, ← bit_eq_testBit, ← bit_eq_testBit]
        generalize bit x k = a
        generalize bit y k = b
        revert p q a b
        decide
      rw [List.foldl_cons, List.foldl_cons, List.foldl_cons, hstep, ih]
  exact key _ true true

/-- A data byte replaced keeps the parity bit stored with it, as it keeps every other. -/
theorem Mem.parityBit_rawByte (m : Mem) (ph : Nat) (b : Byte) (a : Nat) : (m.rawByte ph b).parityBit a = m.parityBit a := by
  show ((!evenParity (aget 0 (aput 0 m.cells ph b) a).toNat)
    != aget false (aput false m.parBad ph (m.bad ph != !evenParity (aget 0 m.cells ph ^^^ b).toNat)) a) = _
  by_cases ha : a = ph
  · rw [ha, aget_aput_same, aget_aput_same, BitVec.toNat_xor, evenParity_xor, Mem.parityBit]
    generalize evenParity b.toNat = p
    generalize evenParity (aget 0 m.cells ph).toNat = q
    generalize m.bad ph = c
    revert p q c
    decide
  · rw [aget_aput_ne _ _ _ ha, aget_aput_ne _ _ _ ha]
    rfl

/-- A run of data bytes replaced. -/
theorem Mem.rawBytes_spec (m : Mem) (ph : Nat) (bs : List Byte) (n : Nat) : let t := (List.range n).foldl (fun (m : Mem) i => m.rawByte (ph + i) (bs.getD i 0)) m
    (∀ a, aget 0 t.cells a = if ph ≤ a ∧ a < ph + n then bs.getD (a - ph) 0 else aget 0 m.cells a) ∧ ∀ a, t.parityBit a = m.parityBit a := by
  induction n with
  | zero => exact ⟨fun a => (if_neg (by omega)).symm, fun _ => rfl⟩
  | succ n ih =>
    obtain ⟨hcells, hparity⟩ := ih
    dsimp only
    rw [List.range_succ, List.foldl_append, List.foldl_cons, List.foldl_nil]
    refine ⟨fun a => ?_, fun a => (Mem.parityBit_rawByte _ _ _ a).trans (hparity a)⟩
    refine (aget_aput _ _ _ a _).trans ?_
    rw [hcells]
    by_cases ha : a = ph + n
    · rw [if_pos ha, if_pos (by omega), ha, Nat.add_sub_cancel_left]
    · rw [if_neg ha]
      exact if_congr (by omega) rfl rfl

/-- A run of values put at consecutive keys. -/
theorem aget_foldl_aput (g : Nat → Bool) (m : Assoc Bool) (ph n a : Nat) :
    aget false ((List.range n).foldl (fun t i => aput false t (ph + i) (g i)) m) a = if ph ≤ a ∧ a < ph + n then g (a - ph) else aget false m a := by
  induction n with
  | zero => exact (if_neg (by omega)).symm
  | succ n ih =>
    rw [List.range_succ, List.foldl_append, List.foldl_cons, List.foldl_nil, aget_aput, ih]
    by_cases ha : a = ph + n
    · rw [if_pos ha, if_pos (by omega), ha, Nat.add_sub_cancel_left]
    · rw [if_neg ha]
      exact if_congr (by omega) rfl rfl

/-! ### What the commands do to an unpoisoned word (R246) -/

section
variable {s : State} {v : Bool} {ph : Nat} (hs : s.poisonedAt v ph = false)
include hs

theorem State.readRaw_spec : OnlyRegs s (s.readRaw v ph) ∧ RegsBut (rawReg v rVLT_RAW_PARITY :: rawWords v) s (s.readRaw v ph)
    ∧ (∀ i, i < 8 → (s.readRaw v ph).rn (rawReg v rVLT_RAW_DATA + 4 * i) = at_ (agets 0 (s.mem v).cells ph 32) (4 * i) 4)
    ∧ ∀ i, i < 32 → bit ((s.readRaw v ph).rn (rawReg v rVLT_RAW_PARITY)) i = (s.mem v).parityBit (ph + i) := by
  unfold State.readRaw
  rw [if_neg (by rw [hs]; decide)]
  dsimp only
  obtain ⟨hlt, hbits⟩ := foldl_bits (fun i => (s.mem v).parityBit (ph + i)) 32
  obtain ⟨honly, hregs, hdata⟩ := s.setRawData_spec v (agets 0 (s.mem v).cells ph 32)
  refine ⟨honly.trans (OnlyRegs.wn _ _ _), (hregs.mono fun a => List.mem_cons_of_mem _).wnIn List.mem_cons_self _, fun i hi => ?_, fun i hi => ?_⟩
  · exact (State.rn_wn_ne _ _ (rawWords_ne hi (by decide))).trans (hdata i hi)
  · rw [State.rn_wn_same, Nat.mod_eq_of_lt hlt]
    exact hbits i hi

theorem State.rawWrite_spec (g : Mem → Mem) : s.rawWrite v ph g = s.setMem v (g (s.mem v)) := if_neg (by rw [hs]; decide)

theorem State.writeData_spec : RegsBut [] s (s.writeData v ph) ∧ (s.writeData v ph).mem (!v) = s.mem (!v)
    ∧ (∀ i, i < 32 → aget 0 ((s.writeData v ph).mem v).cells (ph + i) = (s.rawData v).getD i 0
        ∧ ((s.writeData v ph).mem v).parityBit (ph + i) = (s.mem v).parityBit (ph + i))
    ∧ ∀ a, a < ph ∨ ph + 32 ≤ a → aget 0 ((s.writeData v ph).mem v).cells a = aget 0 (s.mem v).cells a := by
  obtain ⟨hcells, hparity⟩ := (s.mem v).rawBytes_spec ph (s.rawData v) 32
  unfold State.writeData
  dsimp only
  rw [if_neg (by rw [hs]; decide), State.rawWrite_spec hs]
  generalize (List.range 32).foldl (fun (m : Mem) i => m.rawByte (ph + i) ((s.rawData v).getD i 0)) (s.mem v) = m at hcells hparity ⊢
  unfold State.untrack
  dsimp only
  rw [State.mem_setMem, State.mem_setMem]
  refine ⟨fun a _ => ?_, ?_, fun i hi => ⟨?_, hparity (ph + i)⟩, fun a ha => ?_⟩
  · rw [State.rd_setMem, State.rd_setMem]
  · rw [State.mem_setMem_other, State.mem_setMem_other]
  · exact (hcells (ph + i)).trans ((if_pos (by omega)).trans (by rw [Nat.add_sub_cancel_left]))
  · exact (hcells a).trans (if_neg (by omega))

theorem State.writeParity_spec : RegsBut [] s (s.writeParity v ph) ∧ (s.writeParity v ph).mem (!v) = s.mem (!v)
    ∧ ((s.writeParity v ph).mem v).cells = (s.mem v).cells ∧ ((s.writeParity v ph).mem v).ppDiff = (s.mem v).ppDiff
    ∧ ∀ i, i < 32 → ((s.writeParity v ph).mem v).parityBit (ph + i) = bit (s.rn (rawReg v rVLT_RAW_PARITY)) i := by
  unfold State.writeParity
  rw [State.rawWrite_spec hs, State.mem_setMem]
  refine ⟨fun a _ => s.rd_setMem v _ a, s.mem_setMem_other v _, rfl, rfl, fun i hi => ?_⟩
  show ((!evenParity (aget 0 (s.mem v).cells (ph + i)).toNat) != aget false _ (ph + i)) = _
  rw [aget_foldl_aput fun i => bit (s.rn (rawReg v rVLT_RAW_PARITY)) i != !evenParity (aget 0 (s.mem v).cells (ph + i)).toNat,
    if_pos (by omega), Nat.add_sub_cancel_left]
  generalize bit (s.rn (rawReg v rVLT_RAW_PARITY)) i = p
  generalize evenParity (aget 0 (s.mem v).cells (ph + i)).toNat = q
  revert p q
  decide

theorem State.readPageParity_spec (k : Nat) : OnlyRegs s (s.readPageParity v k ph) ∧ RegsBut [rawReg v rVLT_RAW_DATA] s (s.readPageParity v k ph)
    ∧ (s.readPageParity v k ph).f (rawReg v rVLT_RAW_DATA) 0 8 = ((s.mem v).ppByte (pageOf ph) k).toNat := by
  unfold State.readPageParity
  rw [if_neg (by rw [hs]; decide)]
  exact ⟨rfl, RegsBut.setf s _ _ _ _, (State.f_setf_same _ _ _ (by decide)).trans (Nat.mod_eq_of_lt (BitVec.isLt _))⟩

theorem State.writePageParity_spec (k : Nat) : RegsBut [] s (s.writePageParity v k ph) ∧ (s.writePageParity v k ph).mem (!v) = s.mem (!v)
    ∧ ((s.writePageParity v k ph).mem v).cells = (s.mem v).cells ∧ ((s.writePageParity v k ph).mem v).parBad = (s.mem v).parBad
    ∧ ((s.writePageParity v k ph).mem v).ppByte (pageOf ph) k = BitVec.ofNat 8 (s.f (rawReg v rVLT_RAW_DATA) 0 8) := by
  unfold State.writePageParity
  rw [State.rawWrite_spec hs, State.mem_setMem]
  refine ⟨fun a _ => s.rd_setMem v _ a, s.mem_setMem_other v _, rfl, rfl, ?_⟩
  unfold Mem.ppByte
  dsimp only
  rw [aget_aput_same]
  generalize BitVec.ofNat 8 (xorAll _) = x
  generalize aget 0 (s.mem v).ppDiff (ppKey (pageOf ph) k) = d
  generalize BitVec.ofNat 8 (s.f (rawReg v rVLT_RAW_DATA) 0 8) = n
  calc x ^^^ (d ^^^ (x ^^^ d ^^^ n)) = (x ^^^ d) ^^^ (x ^^^ d) ^^^ n := by simp only [BitVec.xor_assoc]
    _ = n := by rw [BitVec.xor_self, BitVec.zero_xor]

end

/-! ### The checked path (R236, R246) -/

theorem firstSome_none {α β : Type} {f : α → Option β} {xs : List α} (h : ∀ x ∈ xs, f x = none) : firstSome f xs = none := by
  induction xs with
  | nil => rfl
  | cons x xs ih =>
    rw [firstSome, h x List.mem_cons_self]
    exact ih fun y hy => h y (List.mem_cons_of_mem _ hy)

theorem firstSome_head {α β : Type} {f : α → Option β} {x : α} {xs : List α} {y : β} (h : f x = some y) : firstSome f (x :: xs) = some y := by
  rw [firstSome, h]

theorem agets_eq_map {α : Type} (d : α) (m : Assoc α) (k n : Nat) : agets d m k n = (List.range n).map fun i => aget d m (k + i) := by
  refine List.ext_getElem? fun j => ?_
  by_cases hj : j < n
  · rw [agets_getElem? d m k hj, List.getElem?_map, List.getElem?_range hj]
    rfl
  · rw [List.getElem?_eq_none (by rw [agets_length]; omega), List.getElem?_eq_none (by rw [List.length_map, List.length_range]; omega)]

/-- A word without failing bytes is delivered as it is stored. -/
theorem State.checkedRead_clean {s : State} {v : Bool} {ph : Nat}
    (h : ∀ i, i < 32 → (s.mem v).bad (ph + i) = false ∧ s.peek v (ph + i) = .ok (aget 0 (s.mem v).cells (ph + i))) :
    s.checkedRead v ph = (s.setRawData v (agets 0 (s.mem v).cells ph 32)).setf (rawCmd v) 18 3 0 := by
  have hbad : ((List.range 32).any fun i => (s.mem v).bad (ph + i)) = false :=
    List.any_eq_false.2 fun i hi => by rw [(h i (List.mem_range.1 hi)).1]; decide
  have hread : (List.range 32).map (fun i => s.peekAt v false (ph + i)) = (List.range 32).map fun i => .ok (aget 0 (s.mem v).cells (ph + i)) :=
    List.map_congr_left fun i hi => (h i (List.mem_range.1 hi)).2
  unfold State.checkedRead
  dsimp only
  rw [hbad, hread, firstSome_none (by simp), agets_eq_map, List.map_map]
  rfl

/-- Poison that the checked path finds in a byte it finds in the word that it decodes as well. -/
theorem State.peekAt_of_poison {s : State} {v : Bool} {a k : Nat} (h : s.peek v a = .poison k) (dec : Bool) : s.peekAt v dec a = .poison k := by
  cases dec
  · exact h
  · unfold State.peek State.peekAt at h
    unfold State.peekAt
    dsimp only at h ⊢
    split at h
    next hu => rw [if_pos hu, h]
    next hu =>
      rw [if_neg hu]
      split at h
      next hd => rw [if_pos hd, h]
      next hd =>
        rw [if_neg hd]
        split at h
        next => rw [Bool.true_or, if_pos rfl, h]
        next => cases h

theorem State.memError_frame (s : State) (v : Bool) (a k r : Nat) :
    RegsButRecords (mreg v rVLT_POISON_READ_COUNT rSTO_POISON_READ_COUNT :: upkeepRegs v) s (s.memError v a k r)
      ∧ ∀ w, (s.memError v a k r).mem w = s.mem w := by
  unfold State.memError
  extract_lets u
  have hu : RegsBut (mreg v rVLT_POISON_READ_COUNT rSTO_POISON_READ_COUNT :: upkeepRegs v) s u ∧ ∀ w, u.mem w = s.mem w := by
    by_cases h2 : k = 2
    · rw [show u = _ from if_pos h2]
      exact ⟨(RegsBut.refl _ s).wnIn List.mem_cons_self _, fun _ => rfl⟩
    · rw [show u = _ from if_neg h2]
      split
      · exact ⟨(RegsBut.refl _ s).wnIn (List.mem_cons_of_mem _ (mreg_mem_upkeepRegs v (by decide) (by decide))) _, fun _ => rfl⟩
      · exact ⟨RegsBut.refl _ s, fun _ => rfl⟩
  obtain ⟨hregs, hmem⟩ := hu
  have hlast : RegsBut (mreg v rVLT_POISON_READ_COUNT rSTO_POISON_READ_COUNT :: upkeepRegs v) s (u.lastErr v a k r) :=
    ((hregs.wnIn (List.mem_cons_of_mem _ (mreg_mem_upkeepRegs v (by decide) (by decide))) _).wnIn
      (List.mem_cons_of_mem _ (mreg_mem_upkeepRegs v (by decide) (by decide))) _).wnIn
      (List.mem_cons_of_mem _ (mreg_mem_upkeepRegs v (by decide) (by decide))) _
  exact ⟨hlast.records.trans ((State.event_frame _ (hasInstance_mblk v) _ _ _ _).mono (by simp)),
    fun w => ((State.event_recorded _ _ _ _ _ _ _).mem w).trans (hmem w)⟩

/-- What a checked read of a poisoned word reports (R239, R241). -/
def State.poisonReported (s : State) (v : Bool) (ph k : Nat) : State :=
  if k ≠ 1 then s.memError v ((s.mem v).served (pageOf ph) * 4096 + ph % 4096) k rdCurator
  else if s.memDead v ph then s.deadPage v (pageOf ph) rdCurator
  else s.decodePage v (pageOf ph) rdCurator false

theorem State.poisonReported_frame (s : State) (v : Bool) (ph k : Nat) :
    (s.poisonReported v ph k).f (rawCmd v) 17 1 = s.f (rawCmd v) 17 1 ∧ (s.poisonReported v ph k).mem (!v) = s.mem (!v) := by
  have hout : rawCmd v ∉ mreg v rVLT_POISON_READ_COUNT rSTO_POISON_READ_COUNT :: upkeepRegs v ∧ recordReg (rawCmd v) = false := by cases v <;> decide
  have key : ∀ t, RegsButRecords (mreg v rVLT_POISON_READ_COUNT rSTO_POISON_READ_COUNT :: upkeepRegs v) s t ∧ t.mem (!v) = s.mem (!v) →
      t.f (rawCmd v) 17 1 = s.f (rawCmd v) 17 1 ∧ t.mem (!v) = s.mem (!v) := fun t ht =>
    ⟨congrArg (fun x : Word => fld x.toNat 17 1) (ht.1 _ hout.1 hout.2), ht.2⟩
  have htended : ∀ t, Tended v s t → t.f (rawCmd v) 17 1 = s.f (rawCmd v) 17 1 ∧ t.mem (!v) = s.mem (!v) := fun t ht =>
    key t ⟨ht.regs.mono fun a => List.mem_cons_of_mem _, ht.other⟩
  unfold State.poisonReported
  split
  · obtain ⟨hregs, hmem⟩ := s.memError_frame v ((s.mem v).served (pageOf ph) * 4096 + ph % 4096) k rdCurator
    exact key _ ⟨hregs, hmem _⟩
  · split
    · exact htended _ (Tended.refl.deadPage _ _)
    · exact htended _ (Tended.refl.decodePage _ _ _ _)

/-- The RESULT of a kind of poison (R246). -/
def poisonResult (k : Nat) : Nat := if k = 1 then 2 else if k = 2 then 3 else 4

theorem State.checkedRead_poison {s : State} {v : Bool} {ph k : Nat} (h : s.peek v ph = .poison k) :
    ∃ n bs, s.checkedRead v ph = (({ s.poisonReported v ph k with free := n } : State).setRawData v bs).setf (rawCmd v) 18 3 (poisonResult k) := by
  unfold State.checkedRead
  dsimp only
  generalize ((List.range 32).any fun i => (s.mem v).bad (ph + i)) = dec
  rw [List.range_succ_eq_map, List.map_cons, Nat.add_zero, State.peekAt_of_poison h, firstSome_head (y := k) (by rfl)]
  refine ⟨(s.poisonReported v ph k).free + 32, _, congrArg₂ (fun u n => State.setf u (rawCmd v) 18 3 n) rfl ?_⟩
  unfold poisonResult
  split
  next hk => rw [if_pos (Option.some.inj hk)]
  next hk => rw [Option.some.inj hk]; rfl
  next h1 h2 hk =>
    cases hk
    rw [if_neg h1, if_neg h2]
  next hk => cases hk

/-! ### The six commands (R246) -/

/-- A device whose segments have modes of R215 is one of the sixteen: its channels' states lie apart from the raw registers. -/
theorem State.peek_rawStored {s : State} (hmode : ∀ g, aget 0 s.cur.segModes g ≤ 16) (v : Bool) (op pp res a : Nat) :
    (s.rawStored v op pp res).peek v a = s.peek v a := by
  obtain ⟨-, hregs, -⟩ := s.rawStored_spec v op pp res
  have hdead : ∀ x, (s.rawStored v op pp res).memDead v x = s.memDead v x := fun x => by
    cases v
    · have hchan : chanOf (s.segMode x) x < 64 := by
        have hm : s.segMode x ≤ 16 := hmode (segOf x)
        unfold chanOf
        dsimp only
        split
        · omega
        · omega
      have hstate : ∀ k ∈ List.range 4, (s.rawStored false op pp res).f (winBase .sto 0 + rSTO_CHAN_STAT + 4 * (4 * (chanOf (s.segMode x) x / 4) + k)) 0 3
          = s.f (winBase .sto 0 + rSTO_CHAN_STAT + 4 * (4 * (chanOf (s.segMode x) x / 4) + k)) 0 3 := fun k hk => by
        have hlt := List.mem_range.1 hk
        refine hregs.f ?_ 0 3
        simp only [List.mem_singleton, winBase, rSTO_CHAN_STAT, rawReg, rVLT_RAW_CMD, Bool.false_eq_true, if_false]
        omega
      have hdevice : (s.rawStored false op pp res).deviceDead (chanOf (s.segMode x) x / 4) = s.deviceDead (chanOf (s.segMode x) x / 4) := by
        unfold State.deviceDead
        refine congrArg₂ or ?_ rfl
        rw [Bool.eq_iff_iff, List.any_eq_true, List.any_eq_true]
        exact exists_congr fun k => and_congr_right fun hk => by rw [hstate k hk]
      exact congrArg (fun d => if x < storeBase + storeSize then d else false) hdevice
    · rfl
  unfold State.peek State.peekAt
  dsimp only
  rw [hdead]
  rfl

theorem State.rawData_rawStored (s : State) (v : Bool) (op pp res : Nat) : (s.rawStored v op pp res).rawData v = s.rawData v := by
  obtain ⟨-, hregs, -, -⟩ := s.rawStored_spec v op pp res
  unfold State.rawData
  refine congrArg List.flatten (List.map_congr_left fun k hk => ?_)
  rw [hregs.rn (by simpa using rawWords_ne (List.mem_range.1 hk) (by decide))]

section
variable {s : State} {v : Bool} {res x : Nat} {side : Side} (h : RawWord s v res side x) (pp : Nat)
include h

/-- READ_RAW: the data and the parity bits as they are stored. -/
theorem RawWord.readRaw : let t := s.raw v 0 pp res side
    let ph := (s.mem v).phys x
    RawDone v (rawReg v rVLT_RAW_PARITY :: rawWords v) s t ∧ t.mem v = s.mem v
      ∧ (∀ i, i < 8 → t.rn (rawReg v rVLT_RAW_DATA + 4 * i) = at_ (agets 0 (s.mem v).cells ph 32) (4 * i) 4)
      ∧ ∀ i, i < 32 → bit (t.rn (rawReg v rVLT_RAW_PARITY)) i = (s.mem v).parityBit (ph + i) := by
  obtain ⟨honly, hregs, hdata, hparity⟩ := State.readRaw_spec (h.stored 0 pp).sound
  dsimp only
  rw [h.raw]
  refine ⟨rawDone_of_acts hregs (by cases v <;> decide) (honly.mem _), honly.mem v, fun i hi => ?_, fun i hi => ?_⟩
  · exact (State.rn_wn_ne _ _ (rawWords_ne hi (by decide))).trans (hdata i hi)
  · have hne : rawReg v rVLT_RAW_PARITY ≠ rawCmd v := by cases v <;> decide
    exact (congrArg (bit · i) (State.rn_wn_ne _ _ hne)).trans (hparity i hi)

/-- WRITE_DATA: the data bytes of the word alone. -/
theorem RawWord.writeData : let t := s.raw v 1 pp res side
    let ph := (s.mem v).phys x
    RawDone v [] s t
      ∧ (∀ i, i < 32 → aget 0 (t.mem v).cells (ph + i) = (s.rawData v).getD i 0 ∧ (t.mem v).parityBit (ph + i) = (s.mem v).parityBit (ph + i))
      ∧ ∀ a, a < ph ∨ ph + 32 ≤ a → aget 0 (t.mem v).cells a = aget 0 (s.mem v).cells a := by
  obtain ⟨hregs, hother, hword, hrest⟩ := State.writeData_spec (h.stored 1 pp).sound
  dsimp only
  rw [h.raw]
  exact ⟨rawDone_of_acts hregs List.not_mem_nil hother, fun i hi => (hword i hi).imp (·.trans (by rw [State.rawData_rawStored])) id, hrest⟩

/-- WRITE_PARITY: the parity bits of the word alone. -/
theorem RawWord.writeParity : let t := s.raw v 2 pp res side
    let ph := (s.mem v).phys x
    RawDone v [] s t ∧ (t.mem v).cells = (s.mem v).cells ∧ (t.mem v).ppDiff = (s.mem v).ppDiff
      ∧ ∀ i, i < 32 → (t.mem v).parityBit (ph + i) = bit (s.rn (rawReg v rVLT_RAW_PARITY)) i := by
  obtain ⟨-, hstored, -, -⟩ := s.rawStored_spec v 2 pp res
  obtain ⟨hregs, hother, hcells, hdiff, hparity⟩ := State.writeParity_spec (h.stored 2 pp).sound
  dsimp only
  rw [h.raw]
  exact ⟨rawDone_of_acts hregs List.not_mem_nil hother, hcells, hdiff,
    fun i hi => (hparity i hi).trans (by rw [hstored.rn (by cases v <;> decide)])⟩

/-- READ_PAGE_PARITY: one byte of the page parity. -/
theorem RawWord.readPageParity : let t := s.raw v 3 pp res side
    RawDone v [rawReg v rVLT_RAW_DATA] s t ∧ t.mem v = s.mem v
      ∧ t.f (rawReg v rVLT_RAW_DATA) 0 8 = ((s.mem v).ppByte (pageOf ((s.mem v).phys x)) (pp % 128)).toNat := by
  obtain ⟨honly, hregs, hbyte⟩ := State.readPageParity_spec (h.stored 3 pp).sound (pp % 128)
  have hne : rawReg v rVLT_RAW_DATA ≠ rawCmd v := by cases v <;> decide
  dsimp only
  rw [h.raw]
  exact ⟨rawDone_of_acts hregs (by cases v <;> decide) (honly.mem _), honly.mem v, (State.f_setf_ne _ _ _ _ _ _ hne).trans hbyte⟩

/-- WRITE_PAGE_PARITY: one byte of the page parity alone. -/
theorem RawWord.writePageParity : let t := s.raw v 4 pp res side
    RawDone v [] s t ∧ (t.mem v).cells = (s.mem v).cells ∧ (t.mem v).parBad = (s.mem v).parBad
      ∧ (t.mem v).ppByte (pageOf ((s.mem v).phys x)) (pp % 128) = BitVec.ofNat 8 (s.f (rawReg v rVLT_RAW_DATA) 0 8) := by
  obtain ⟨-, hstored, -, -⟩ := s.rawStored_spec v 4 pp res
  obtain ⟨hregs, hother, hcells, hbad, hbyte⟩ := State.writePageParity_spec (h.stored 4 pp).sound (pp % 128)
  dsimp only
  rw [h.raw]
  exact ⟨rawDone_of_acts hregs List.not_mem_nil hother, hcells, hbad, hbyte.trans (by rw [hstored.f (by cases v <;> decide)])⟩

/-- CHECKED_READ of a word that checks: its data, and RESULT 0. -/
theorem RawWord.checkedRead_clean (hmode : ∀ g, aget 0 s.cur.segModes g ≤ 16)
    (hclean : ∀ i, i < 32 → (s.mem v).bad ((s.mem v).phys x + i) = false
      ∧ s.peek v ((s.mem v).phys x + i) = .ok (aget 0 (s.mem v).cells ((s.mem v).phys x + i))) : let t := s.raw v 5 pp res side
    RawDone v (rawWords v) s t ∧ t.f (rawCmd v) 18 3 = 0 ∧ t.mem v = s.mem v
      ∧ ∀ i, i < 8 → t.rn (rawReg v rVLT_RAW_DATA + 4 * i) = at_ (agets 0 (s.mem v).cells ((s.mem v).phys x) 32) (4 * i) 4 := by
  obtain ⟨-, -, -, haccepted⟩ := s.rawStored_spec v 5 pp res
  have hact : (s.rawStored v 5 pp res).rawAct v 5 pp ((s.mem v).phys x) = _ :=
    State.checkedRead_clean fun i hi => (hclean i hi).imp id ((State.peek_rawStored hmode v 5 pp res _).trans ·)
  obtain ⟨honly, hregs, hdata⟩ := (s.rawStored v 5 pp res).setRawData_spec v (agets 0 (s.mem v).cells ((s.mem v).phys x) 32)
  have hcmd : rawCmd v ∉ rawWords v := by cases v <;> decide
  dsimp only
  rw [h.raw, hact]
  refine ⟨rawDone_of_accepted ((hregs.mono fun a => List.mem_cons_of_mem _).setfIn List.mem_cons_self _ _ _) ?_ (honly.mem _), ?_, honly.mem v, fun i hi => ?_⟩
  · exact (State.f_setf_apart _ _ _ (by decide) (.inl (by decide))).trans ((hregs.f hcmd 17 1).trans haccepted)
  · exact (State.f_setf_apart _ _ _ (by decide) (.inr (by decide))).trans (State.f_setf_same _ _ _ (by decide))
  · have hne := rawWords_ne (v := v) (o := rVLT_RAW_CMD) hi (by decide)
    exact (State.rn_wn_ne _ _ hne).trans ((State.rn_wn_ne _ _ hne).trans (hdata i hi))

/-- CHECKED_READ of a word that begins with poison: its kind in RESULT. -/
theorem RawWord.checkedRead_poison (hmode : ∀ g, aget 0 s.cur.segModes g ≤ 16) {k : Nat} (hk : s.peek v ((s.mem v).phys x) = .poison k) :
    let t := s.raw v 5 pp res side
    t.f (rawCmd v) 16 1 = 1 ∧ t.f (rawCmd v) 17 1 = 0 ∧ t.mem (!v) = s.mem (!v) ∧ t.f (rawCmd v) 18 3 = poisonResult k := by
  obtain ⟨-, -, -, haccepted⟩ := s.rawStored_spec v 5 pp res
  have hpeek : (s.rawStored v 5 pp res).peek v ((s.mem v).phys x) = .poison k := (State.peek_rawStored hmode v 5 pp res _).trans hk
  obtain ⟨n, bs, hread⟩ := State.checkedRead_poison hpeek
  have hact : (s.rawStored v 5 pp res).rawAct v 5 pp ((s.mem v).phys x) = _ := hread
  obtain ⟨hcmd, hother⟩ := (s.rawStored v 5 pp res).poisonReported_frame v ((s.mem v).phys x) k
  obtain ⟨honly, hregs, -⟩ := State.setRawData_spec { (s.rawStored v 5 pp res).poisonReported v ((s.mem v).phys x) k with free := n } v bs
  dsimp only
  rw [h.raw, hact]
  refine ⟨State.f_setf_same _ _ _ (by decide), ?_, (honly.mem (!v)).trans hother, ?_⟩
  · exact (State.f_setf_apart _ _ _ (by decide) (.inr (by decide))).trans ((State.f_setf_apart _ _ _ (by decide) (.inl (by decide))).trans
      ((hregs.f (by cases v <;> decide) 17 1).trans (hcmd.trans haccepted)))
  · refine (State.f_setf_apart _ _ _ (by decide) (.inr (by decide))).trans ((State.f_setf_same _ _ _ (by decide)).trans (Nat.mod_eq_of_lt ?_))
    unfold poisonResult
    split
    · decide
    · split
      · decide
      · decide

end

/-! ### O49 of one state -/

/-- What O49 says of one state and one command's operands. -/
def RawModeActs (s : State) (mem pp res : Nat) (side : Side) : Prop :=
    let v := mem == 1
    let cmd := rawReg v rVLT_RAW_CMD
    let data := fun (t : State) (i : Nat) => t.rn (rawReg v rVLT_RAW_DATA + 4 * i)
    let words := (List.range 8).map fun k => rawReg v rVLT_RAW_DATA + 4 * k
    let waits := fun (c : Instr) (op : Nat) => ∃ t, exec c s = .next t ∧ t.pwr.memWait = s.pwr.memWait ++ [.raw v op pp res side] ∧ t.f cmd 16 1 = 0
      ∧ t.mem v = s.mem v ∧ RegsBut [cmd] s t
    (s.wiping v = true → waits (.readRaw mem pp res side) 0 ∧ waits (.writeData mem pp res side) 1 ∧ waits (.writeParity mem pp res side) 2
        ∧ waits (.readPageParity mem pp res side) 3 ∧ waits (.writePageParity mem pp res side) 4 ∧ waits (.checkedRead mem pp res side) 5)
    ∧ (s.wiping v = false → (∀ c, c ∈ [Instr.readRaw mem pp res side, .writeData mem pp res side, .writeParity mem pp res side, .readPageParity mem pp res side,
          .writePageParity mem pp res side, .checkedRead mem pp res side] → s.rawAllowed side = false →
        ∃ t, exec c s = .next t ∧ OnlyRegs s t ∧ t.f cmd 16 1 = 1 ∧ t.f cmd 17 1 = 1 ∧ RegsBut [cmd] s t)
    ∧ (∀ x, s.rawAllowed side = true → s.rawAddr v res = some x →
        let ph := (s.mem v).phys x
        let m := s.mem v
        aget false m.off (s.bankKey v ph) = false → s.poisonedAt v ph = false → m.held.any (fun h => h.1 == pageOf ph) = false →
        let done := fun (t : State) => t.f cmd 16 1 = 1 ∧ t.f cmd 17 1 = 0 ∧ t.mem (!v) = s.mem (!v)
        (∃ t, exec (.readRaw mem pp res side) s = .next t ∧ done t ∧ t.mem v = m ∧ (∀ i, i < 8 → data t i = at_ (agets 0 m.cells ph 32) (4 * i) 4)
          ∧ (∀ i, i < 32 → bit (t.rn (rawReg v rVLT_RAW_PARITY)) i = m.parityBit (ph + i)) ∧ RegsBut (cmd :: rawReg v rVLT_RAW_PARITY :: words) s t)
        ∧ (∃ t, exec (.writeData mem pp res side) s = .next t ∧ done t ∧ RegsBut [cmd] s t
          ∧ (∀ i, i < 32 → aget 0 (t.mem v).cells (ph + i) = (s.rawData v).getD i 0 ∧ (t.mem v).parityBit (ph + i) = m.parityBit (ph + i))
          ∧ (∀ a, a < ph ∨ ph + 32 ≤ a → aget 0 (t.mem v).cells a = aget 0 m.cells a))
        ∧ (∃ t, exec (.writeParity mem pp res side) s = .next t ∧ done t ∧ RegsBut [cmd] s t ∧ (t.mem v).cells = m.cells ∧ (t.mem v).ppDiff = m.ppDiff
          ∧ (∀ i, i < 32 → (t.mem v).parityBit (ph + i) = bit (s.rn (rawReg v rVLT_RAW_PARITY)) i))
        ∧ (∃ t, exec (.readPageParity mem pp res side) s = .next t ∧ done t ∧ t.mem v = m
          ∧ t.f (rawReg v rVLT_RAW_DATA) 0 8 = (m.ppByte (pageOf ph) (pp % 128)).toNat ∧ RegsBut [cmd, rawReg v rVLT_RAW_DATA] s t)
        ∧ (∃ t, exec (.writePageParity mem pp res side) s = .next t ∧ done t ∧ RegsBut [cmd] s t ∧ (t.mem v).cells = m.cells ∧ (t.mem v).parBad = m.parBad
          ∧ (t.mem v).ppByte (pageOf ph) (pp % 128) = BitVec.ofNat 8 (s.f (rawReg v rVLT_RAW_DATA) 0 8))
        ∧ ((∀ i, i < 32 → m.bad (ph + i) = false ∧ s.peek v (ph + i) = .ok (aget 0 m.cells (ph + i))) →
          ∃ t, exec (.checkedRead mem pp res side) s = .next t ∧ done t ∧ t.f cmd 18 3 = 0 ∧ (t.mem v).cells = m.cells
            ∧ (∀ i, i < 8 → data t i = at_ (agets 0 m.cells ph 32) (4 * i) 4) ∧ RegsBut (cmd :: words) s t)
        ∧ (∀ k, s.peek v ph = .poison k → ∃ t, exec (.checkedRead mem pp res side) s = .next t ∧ done t
            ∧ t.f cmd 18 3 = if k = 1 then 2 else if k = 2 then 3 else 4)))

theorem rawModeActsOnStoredBits_iff : Obligations.RawModeActsOnStoredBits ↔ ∀ s mem pp res side, RawModeActs s mem pp res side := Iff.rfl

/-- A raw command runs under the code of its name (R246). -/
theorem exec_raw {s : State} {mem pp res : Nat} {side : Side} {P : State → Prop} (h : ∀ op, P (s.raw (mem == 1) op pp res side)) :
    ∀ c, c ∈ [Instr.readRaw mem pp res side, .writeData mem pp res side, .writeParity mem pp res side, .readPageParity mem pp res side,
      .writePageParity mem pp res side, .checkedRead mem pp res side] → ∃ t, exec c s = .next t ∧ P t := by
  simp only [List.forall_mem_cons]
  exact ⟨⟨_, rfl, h 0⟩, ⟨_, rfl, h 1⟩, ⟨_, rfl, h 2⟩, ⟨_, rfl, h 3⟩, ⟨_, rfl, h 4⟩, ⟨_, rfl, h 5⟩, fun _ hc => nomatch hc⟩

/-- O49 holds of every state whose segments have modes of R215, as `segsOk` keeps them. -/
theorem rawModeActs_of_modes {s : State} (hmode : ∀ g, aget 0 s.cur.segModes g ≤ 16) (mem pp res : Nat) (side : Side) :
    RawModeActs s mem pp res side := by
  refine ⟨fun hw => ?_, fun hw => ⟨fun c hc ha => ?_, fun x ha hx hpow hpois hheld => ?_⟩⟩
  · exact ⟨⟨_, rfl, State.raw_waits hw 0 pp res side⟩, ⟨_, rfl, State.raw_waits hw 1 pp res side⟩, ⟨_, rfl, State.raw_waits hw 2 pp res side⟩,
      ⟨_, rfl, State.raw_waits hw 3 pp res side⟩, ⟨_, rfl, State.raw_waits hw 4 pp res side⟩, ⟨_, rfl, State.raw_waits hw 5 pp res side⟩⟩
  · exact exec_raw (P := fun t => OnlyRegs s t ∧ t.f (rawCmd (mem == 1)) 16 1 = 1 ∧ t.f (rawCmd (mem == 1)) 17 1 = 1 ∧ RegsBut [rawCmd (mem == 1)] s t)
      (fun op => State.raw_refused hw ha op pp res) c hc
  · have hword : RawWord s (mem == 1) res side x := ⟨hw, ha, hx, hpow, hpois, hheld⟩
    have hdone : ∀ {as t}, RawDone (mem == 1) as s t →
        t.f (rawCmd (mem == 1)) 16 1 = 1 ∧ t.f (rawCmd (mem == 1)) 17 1 = 0 ∧ t.mem (!(mem == 1)) = s.mem (!(mem == 1)) :=
      fun hd => ⟨hd.done, hd.accepted, hd.other⟩
    refine ⟨?_, ?_, ?_, ?_, ?_, fun hclean => ?_, fun k hk => ?_⟩
    · obtain ⟨hd, hmem, hdata, hparity⟩ := hword.readRaw pp
      exact ⟨_, rfl, hdone hd, hmem, hdata, hparity, hd.regs⟩
    · obtain ⟨hd, hin, hout⟩ := hword.writeData pp
      exact ⟨_, rfl, hdone hd, hd.regs, hin, hout⟩
    · obtain ⟨hd, hcells, hdiff, hparity⟩ := hword.writeParity pp
      exact ⟨_, rfl, hdone hd, hd.regs, hcells, hdiff, hparity⟩
    · obtain ⟨hd, hmem, hbyte⟩ := hword.readPageParity pp
      exact ⟨_, rfl, hdone hd, hmem, hbyte, hd.regs⟩
    · obtain ⟨hd, hcells, hbad, hbyte⟩ := hword.writePageParity pp
      exact ⟨_, rfl, hdone hd, hd.regs, hcells, hbad, hbyte⟩
    · obtain ⟨hd, hres, hmem, hdata⟩ := hword.checkedRead_clean pp hmode hclean
      exact ⟨_, rfl, hdone hd, hres, congrArg Mem.cells hmem, hdata, hd.regs⟩
    · obtain ⟨hd, haccepted, hother, hres⟩ := hword.checkedRead_poison pp hmode hk
      exact ⟨_, rfl, ⟨hd, haccepted, hother⟩, hres⟩

/-- Raw mode authorised in lifecycle RETURN, at the first word of the Store. The last raw command was of OP 4. -/
def returnedStore : State :=
  ((State.reset.setf (winBase .rgs 0 + rRGS_LIFECYCLE) 0 3 3).wn (rawReg false rVLT_RAW_ADDR_HI) 0x80).setf (rawCmd false) 0 3 4

theorem returnedStore_rawWord : RawWord returnedStore false 0 .pf1 storeBase :=
  ⟨by decide +kernel, by decide +kernel, by decide +kernel, by decide +kernel, by decide +kernel, by decide +kernel⟩

theorem rawModeActs_returnedStore : RawModeActs returnedStore 0 0 0 .pf1 :=
  rawModeActs_of_modes (s := returnedStore) (fun _ => Nat.zero_le 16) 0 0 0 .pf1

/-! ### A segment without devices -/

/-- `returnedStore` with a mode of 17 for the Store's first segment. R215 knows none such: the states of its channels would lie where the
Store's raw registers are. -/
def misplacedSegment : State := { returnedStore with cur := { returnedStore.cur with segModes := [(0, 17)] } }

theorem misplacedSegment_addr : misplacedSegment.rawAddr false 0 = some storeBase := by decide +kernel

theorem misplacedSegment_poison : misplacedSegment.peek false (misplacedSegment.store.phys storeBase) = .poison 1 := by decide +kernel

theorem misplacedSegment_checkedRead : ∃ t, exec (.checkedRead 0 0 0 .pf1) misplacedSegment = .next t ∧ t.f (rawCmd false) 18 3 = 0 :=
  ⟨_, rfl, by decide +kernel⟩

/-- Refutes O49: in a Store segment of mode 17 the OP left in STO_RAW_CMD is read as a channel's state FAILED, so a word there is poison
until the OP of CHECKED_READ is stored; the read then finds none and its RESULT is 0, not 2. O49 holds of every state with
modes up to 16 (`rawModeActs_of_modes`), the only ones that `segsOk` lets a placement have. -/
theorem not_rawModeActsOnStoredBits : ¬ Obligations.RawModeActsOnStoredBits := by
  intro h
  obtain ⟨-, hrun⟩ := h misplacedSegment 0 0 0 .pf1
  obtain ⟨-, hact⟩ := hrun (by decide +kernel)
  obtain ⟨-, -, -, -, -, -, hpoison⟩ := hact storeBase (by decide +kernel) misplacedSegment_addr (by decide +kernel) (by decide +kernel) (by decide +kernel)
  obtain ⟨t, ht, -, hres⟩ := hpoison 1 misplacedSegment_poison
  obtain ⟨u, hu, hok⟩ := misplacedSegment_checkedRead
  obtain rfl : t = u := by simpa using ht.symm.trans hu
  exact absurd (hres.symm.trans hok) (by decide)

end Sys2Proof.Machine

/-! PROOFS. Channels and their links (R263 to R283): where a channel's registers are, what one update of a channel leaves, and what an
event of a link leaves. -/

namespace Sys2Proof.Machine

open Sys2Proof

/-! ### Registers of a Wing -/

@[simp] theorem cr_inj {j o p : Nat} : cr j o = cr j p ↔ o = p := by simp only [cr, wg]; omega

/-- A register of a Wing that is none of its incident registers is no record's (R416, R456). -/
theorem recordReg_wg {w o : Nat} (hw : w < 4) (ho : o < 0x10000) (h : o < 0x800 ∨ 0x900 ≤ o) : recordReg (wg w o) = false := by
  have hbase : ∀ w < 4, blkOf (0x10000 * (0x10 + w)) = some (.wng, w, 0) := by decide
  have hblk : blkOf (wg w o) = some (.wng, w, o) := by
    rw [show wg w o = 0x10000 * (0x10 + w) + o by simp only [wg, winBase]; omega, blkOf_window ho (by omega), hbase w hw]
    rfl
  have hlow : ¬ wg w o < 0x10000 := by simp only [wg, winBase]; omega
  have hinc : 0x800 ≤ o → 0x900 ≤ o := by omega
  simpa [recordReg, hblk, hlow, isIncReg] using hinc

/-- The registers of a channel are no records' (R283). -/
theorem recordReg_cr {j o : Nat} (hj : j < 36) (lo : 0x1000 ≤ o) (hi : o < 0x2000) : recordReg (cr j o) = false :=
  recordReg_wg (by omega) (by omega) (.inr (by omega))

/-- WNG_LINK_STAT of a link is none of a channel's own registers (R352). -/
theorem lk_ne_cr {j l o : Nat} (hl : l < 2) (ho : 0x1000 ≤ o) : lk j l rWNG_LINK_STAT ≠ cr j o := by
  simp only [lk, cr, wg, rWNG_LINK_STAT]; omega

/-! ### What a register's update leaves of the fields of others -/

theorem State.rn_bumpN (s : State) (a n : Nat) : (s.bumpN a n).rn a = min 0xFFFFFFFF (s.rn a + n) := by
  rw [State.bumpN, State.rn_wn_same, Nat.mod_eq_of_lt (by omega)]

theorem RegsBut.bumpN (s : State) (a n : Nat) : RegsBut [a] s (s.bumpN a n) := RegsBut.wn s a _

theorem State.f_bumpN_ne (s : State) {a b : Nat} (n lo w : Nat) (h : b ≠ a) : (s.bumpN a n).f b lo w = s.f b lo w :=
  (RegsBut.bumpN s a n).f (by simpa using h) lo w

theorem State.f_bump_ne (s : State) {a b : Nat} (lo w : Nat) (h : b ≠ a) : (s.bump a).f b lo w = s.f b lo w := s.f_bumpN_ne 1 lo w h

/-! ### A channel -/

@[simp] theorem State.chan_mapChan_same (s : State) (j : Nat) (g : Chan → Chan) : (s.mapChan j g).chan j = g (s.chan j) := aget_aput_same _ _ _ _

theorem State.chan_mapChan_ne (s : State) {j k : Nat} (g : Chan → Chan) (h : k ≠ j) : (s.mapChan j g).chan k = s.chan k := aget_aput_ne _ _ _ h

@[simp] theorem State.rd_mapChan (s : State) (j : Nat) (g : Chan → Chan) (a : Nat) : (s.mapChan j g).rd a = s.rd a := rfl
@[simp] theorem State.rn_mapChan (s : State) (j : Nat) (g : Chan → Chan) (a : Nat) : (s.mapChan j g).rn a = s.rn a := rfl
@[simp] theorem State.f_mapChan (s : State) (j : Nat) (g : Chan → Chan) (a lo w : Nat) : (s.mapChan j g).f a lo w = s.f a lo w := rfl
@[simp] theorem State.linkState_mapChan (s : State) (j : Nat) (g : Chan → Chan) (k l : Nat) : (s.mapChan j g).linkState k l = s.linkState k l := rfl
@[simp] theorem State.chan_wn (s : State) (a v k : Nat) : (s.wn a v).chan k = s.chan k := rfl
@[simp] theorem State.chan_setf (s : State) (a lo w v k : Nat) : (s.setf a lo w v).chan k = s.chan k := rfl
@[simp] theorem State.chan_bumpN (s : State) (a n k : Nat) : (s.bumpN a n).chan k = s.chan k := rfl
@[simp] theorem State.chan_bump (s : State) (a k : Nat) : (s.bump a).chan k = s.chan k := rfl
@[simp] theorem State.chan_setLink (s : State) (j l v k : Nat) : (s.setLink j l v).chan k = s.chan k := rfl
@[simp] theorem State.chan_setWidth (s : State) (j l v k : Nat) : (s.setWidth j l v).chan k = s.chan k := rfl
@[simp] theorem State.chan_mapLane (s : State) (j l : Nat) (g : LaneLink → LaneLink) (k : Nat) : (s.mapLane j l g).chan k = s.chan k := rfl
@[simp] theorem State.chan_refreshChan (s : State) (j k : Nat) : (s.refreshChan j).chan k = s.chan k := rfl

theorem RegsBut.mapChan {as : List Nat} {s t : State} (h : RegsBut as s t) (j : Nat) (g : Chan → Chan) : RegsBut as s (t.mapChan j g) := h.same rfl

theorem Recorded.chan {s t : State} (h : Recorded s t) (k : Nat) : t.chan k = s.chan k := by unfold State.chan; rw [h.fab]

/-! ### The links and classes of a channel -/

@[simp] theorem Chan.link_mapLink_same (x : Chan) (l : Nat) (g : LinkState → LinkState) : (x.mapLink l g).link l = g (x.link l) := by
  unfold Chan.link Chan.mapLink; split <;> rfl

/-- Changing the sibling leaves a link. -/
theorem Chan.link_mapLink_other (x : Chan) {l : Nat} (hl : l < 2) (g : LinkState → LinkState) : (x.mapLink (1 - l) g).link l = x.link l := by
  obtain rfl | rfl : l = 0 ∨ l = 1 := by omega
  · rfl
  · rfl

section
variable (x : Chan) (l : Nat) (g : LinkState → LinkState)

@[simp] theorem Chan.mapLink_peerInstance : (x.mapLink l g).peerInstance = x.peerInstance := by unfold Chan.mapLink; split <;> rfl
@[simp] theorem Chan.mapLink_classes : (x.mapLink l g).classes = x.classes := by unfold Chan.mapLink; split <;> rfl
@[simp] theorem Chan.mapLink_replay : (x.mapLink l g).replay = x.replay := by unfold Chan.mapLink; split <;> rfl
@[simp] theorem Chan.mapLink_retx : (x.mapLink l g).retx = x.retx := by unfold Chan.mapLink; split <;> rfl
@[simp] theorem Chan.mapLink_queue : (x.mapLink l g).queue = x.queue := by unfold Chan.mapLink; split <;> rfl
@[simp] theorem Chan.mapLink_held : (x.mapLink l g).held = x.held := by unfold Chan.mapLink; split <;> rfl
@[simp] theorem Chan.mapLink_ready : (x.mapLink l g).ready = x.ready := by unfold Chan.mapLink; split <;> rfl
@[simp] theorem Chan.mapLink_inOrder : (x.mapLink l g).inOrder = x.inOrder := by unfold Chan.mapLink; split <;> rfl
@[simp] theorem Chan.mapLink_naks : (x.mapLink l g).naks = x.naks := by unfold Chan.mapLink; split <;> rfl
@[simp] theorem Chan.mapLink_controlDue : (x.mapLink l g).controlDue = x.controlDue := by unfold Chan.mapLink; split <;> rfl
@[simp] theorem Chan.mapLink_widthReq : (x.mapLink l g).widthReq = x.widthReq := by unfold Chan.mapLink; split <;> rfl
@[simp] theorem Chan.mapLink_isolated : (x.mapLink l g).isolated = x.isolated := by unfold Chan.mapLink; split <;> rfl
@[simp] theorem Chan.cls_mapLink (c : Nat) : (x.mapLink l g).cls c = x.cls c := by rw [Chan.cls, Chan.mapLink_classes]; rfl
end

@[simp] theorem Chan.cls_mapCls_same (x : Chan) (c : Nat) (g : ClassState → ClassState) : (x.mapCls c g).cls c = g (x.cls c) := aget_aput_same _ _ _ _

theorem Chan.cls_mapCls (x : Chan) (c : Nat) (g : ClassState → ClassState) (d : Nat) :
    (x.mapCls c g).cls d = if d = c then g (x.cls c) else x.cls d := aget_aput _ _ _ _ _

@[simp] theorem Chan.link_mapCls (x : Chan) (c : Nat) (g : ClassState → ClassState) (l : Nat) : (x.mapCls c g).link l = x.link l := rfl

/-- Changing the four classes one after the other changes each by itself. -/
theorem Chan.cls_foldl_mapCls (g : Nat → ClassState → ClassState) (cs : List Nat) (hcs : cs.Nodup) (x : Chan) (c : Nat) :
    (cs.foldl (fun (y : Chan) d => y.mapCls d (g d)) x).cls c = if c ∈ cs then g c (x.cls c) else x.cls c := by
  induction cs generalizing x with
  | nil => simp
  | cons d cs ih =>
    obtain ⟨hd, hcs⟩ := List.nodup_cons.1 hcs
    rw [List.foldl_cons, ih hcs, Chan.cls_mapCls]
    by_cases hc : c = d
    · subst hc; simp [hd]
    · simp [hc]

/-- Only the classes change so. -/
theorem Chan.foldl_mapCls_eq (g : Nat → ClassState → ClassState) (cs : List Nat) (x : Chan) :
    ∃ k, cs.foldl (fun (y : Chan) d => y.mapCls d (g d)) x = { x with classes := k } := by
  induction cs generalizing x with
  | nil => exact ⟨x.classes, rfl⟩
  | cons d cs ih => exact (ih _).imp fun _ h => h

/-! ### CHAN_STAT -/

theorem State.linkState_setLink_same (s : State) (j : Nat) {l : Nat} (hl : l < 2) (v : Nat) : (s.setLink j l v).linkState j l = v % 4 :=
  State.f_setf_same _ _ _ (by omega)

/-- LINKl_STATE stands apart from the sibling's. -/
theorem State.linkState_setLink_other (s : State) (j : Nat) {l : Nat} (hl : l < 2) (v : Nat) :
    (s.setLink j l v).linkState j (1 - l) = s.linkState j (1 - l) := State.f_setf_apart _ _ _ (by omega) (by omega)

/-- Refreshing STATE of a channel writes that field alone. -/
theorem State.f_refreshChan (s : State) (j : Nat) {lo : Nat} (w : Nat) (h : 3 ≤ lo) :
    (s.refreshChan j).f (cr j rWNG_CHAN_STAT) lo w = s.f (cr j rWNG_CHAN_STAT) lo w :=
  State.f_setf_apart _ _ _ (by omega) (.inr h)

@[simp] theorem State.linkState_refreshChan (s : State) (j l : Nat) : (s.refreshChan j).linkState j l = s.linkState j l := s.f_refreshChan j 2 (by omega)

theorem State.refreshChan_regs (s : State) (j : Nat) : RegsBut [cr j rWNG_CHAN_STAT] s (s.refreshChan j) := RegsBut.setf _ _ _ _ _

/-! ### Events of a link -/

theorem State.linkEvent_recorded (s : State) (j l k : Nat) : Recorded s (s.linkEvent j l k) := State.event_recorded _ _ _ _ _ _ _

theorem State.linkEvent_frame (s : State) {j : Nat} (hj : j < 36) (l k : Nat) : RecordFrame s (s.linkEvent j l k) :=
  State.event_frame s (show hasInstance .wng (j / 9) = true by simp only [hasInstance, decide_eq_true_eq]; omega) _ _ _ _

@[simp] theorem State.chan_linkEvent (s : State) (j l k i : Nat) : (s.linkEvent j l k).chan i = s.chan i := (s.linkEvent_recorded j l k).chan i

end Sys2Proof.Machine

/-! PROOFS. Crates that leave by a channel (R255, R256, R270, R290 to R292): O30. -/

namespace Sys2Proof.Machine

open Sys2Proof

/-! ### A crate cut into flits (R80, R255) -/

theorem Crate.header_length (c : Crate) : c.header.length = 32 := by
  simp only [Crate.header, List.length_append, leBytes_length]

/-- A list in blocks of `n` has as many as its length divided by `n`, rounded up. -/
theorem chunksOf_length {α : Type} {n : Nat} (hn : 0 < n) (fuel : Nat) (xs : List α) (h : xs.length ≤ fuel) :
    (chunksOf n fuel xs).length = (xs.length + n - 1) / n := by
  induction fuel generalizing xs with
  | zero =>
    rw [List.length_eq_zero_iff.1 (Nat.le_zero.1 h)]
    exact (Nat.div_eq_of_lt (by simpa using hn)).symm
  | succ fuel ih =>
    rcases Nat.eq_zero_or_pos xs.length with h0 | hpos
    · rw [List.length_eq_zero_iff.1 h0]
      exact (Nat.div_eq_of_lt (by simpa using hn)).symm
    · rw [chunksOf, if_neg (by simpa using List.ne_nil_of_length_pos hpos), List.length_cons, ih _ (by rw [List.length_drop]; omega), List.length_drop,
        show xs.length + n - 1 = xs.length - 1 + n by omega, Nat.add_div_right _ hn]
      by_cases hle : n ≤ xs.length
      · rw [show xs.length - n + n - 1 = xs.length - 1 by omega]
      · rw [Nat.div_eq_of_lt (by omega), Nat.div_eq_of_lt (by omega)]

/-- A crate is cut into as many flits as R80 counts, under any header of 32 bytes. -/
theorem Crate.cut_length (c : Crate) {head : List Byte} (h : head.length = 32) : (c.cut head).length = c.flits := by
  simp only [Crate.cut, List.length_map, List.length_zipIdx]
  rw [chunksOf_length (by decide) _ _ (Nat.le_succ _), List.length_append, h, Crate.flits]
  split <;> omega

/-! ### What sending changes -/

section
variable (s : State) (j : Nat) (c : Crate)

theorem State.countTransit_fab : (s.countTransit c).fab = s.fab := by unfold State.countTransit; split <;> rfl

theorem State.countTransit_regs : RegsBut [winBase .fab 0 + rFAB_TRANSIT_COUNT] s (s.countTransit c) := by
  unfold State.countTransit
  split
  · exact RegsBut.bump _ _
  · exact RegsBut.refl _ _

theorem State.rn_countTransit : (s.countTransit c).rn (winBase .fab 0 + rFAB_TRANSIT_COUNT) = if c.inTransit then
    min 0xFFFFFFFF (s.rn (winBase .fab 0 + rFAB_TRANSIT_COUNT) + 1) else s.rn (winBase .fab 0 + rFAB_TRANSIT_COUNT) := by
  unfold State.countTransit
  split
  · exact State.rn_bump _ _
  · rfl

/-- A request that leaves is noted in the request table alone (R301). -/
theorem State.requestLeaves_eq : ∃ r, s.requestLeaves j c = { s with fab := { s.fab with requests := r } } := by
  unfold State.requestLeaves
  split
  · split
    · exact ⟨_, rfl⟩
    · exact ⟨_, rfl⟩
  · exact ⟨_, rfl⟩

/-- A label is taken from its Wing's count alone (R256). -/
theorem State.label_eq (w : Nat) (via : Option Nat) : ∃ r, (s.label w c via).2 = { s with fab := { s.fab with labels := r } } := by
  unfold State.label
  split
  · exact ⟨_, rfl⟩
  · exact ⟨_, rfl⟩

/-- Before its flits queue, a crate that leaves changes the transit count, the request table and the labels alone. -/
theorem State.leaving_spec (d : Crate) : let u := (((s.countTransit c).requestLeaves j c).label (j / 9) d c.via).2
    u.fab.pinned = s.fab.pinned ∧ u.fab.outbound = s.fab.outbound ∧ u.fab.chans = s.fab.chans ∧ ∀ a, u.rd a = (s.countTransit c).rd a := by
  obtain ⟨r, hr⟩ := (s.countTransit c).requestLeaves_eq j c
  obtain ⟨b, hb⟩ := ((s.countTransit c).requestLeaves j c).label_eq d (j / 9) c.via
  rw [hb, hr, s.countTransit_fab]
  exact ⟨rfl, rfl, rfl, fun _ => rfl⟩

end

/-- Dropping a waiting crate leaves the channels. -/
theorem State.dropWaiting_chan (s : State) (ix k : Nat) : (s.dropWaiting ix).chan k = s.chan k := by
  unfold State.dropWaiting
  simp only
  split <;> rfl

theorem State.dropWaiting_rd (s : State) (ix a : Nat) : (s.dropWaiting ix).rd a = s.rd a := by
  unfold State.dropWaiting
  simp only
  split <;> rfl

/-- What is left of the crates that wait depends on the crates that wait. -/
theorem State.dropWaiting_congr {s t : State} (hp : t.fab.pinned = s.fab.pinned) (ho : t.fab.outbound = s.fab.outbound) (ix : Nat) :
    (t.dropWaiting ix).fab.outbound = (s.dropWaiting ix).fab.outbound ∧ (t.dropWaiting ix).fab.pinned = (s.dropWaiting ix).fab.pinned := by
  unfold State.dropWaiting
  by_cases hix : ix < s.fab.pinned.length
  · simp only [hp, ho, hix, if_true, and_self]
  · simp only [hp, ho, hix, if_false, and_self]

/-! ### The statement -/

/-- The flits of waiting crate `ix` queue on channel `j` and take its credits (R255, R256, R270); `late` says whether it waited longer
than WNG_CONGEST_TIME (R258). -/
def State.queueCrate (s : State) (ix j : Nat) (c : Crate) (late : Bool) : State :=
  let d := { c.onChannel s j with congested := late }
  let r := ((s.countTransit c).requestLeaves j c).label (j / 9) d c.via
  let d := { d with tag := r.1 }
  (r.2.dropWaiting ix).mapChan j fun x => ({ x with queue := x.queue ++ d.cut d.header }).mapCls (s.classOn j c) fun k =>
    { k with usedH := (k.usedH + 1) % 2 ^ 16, usedD := (k.usedD + c.flits) % 2 ^ 16 }

section
variable {s : State} {ix j : Nat} {c : Crate}

/-- A crate whose channel covers it is queued there (R270, R290). -/
theorem execCrateTransmitStart_covered (hw : s.waitingCrates[ix]? = some (none, c)) (hm : s.mayLeave ix none c = true) (hp : s.pickChannel c = some j)
    (hwng : s.halted .wng (j / 9) = false) (hcol : s.halted .col (j / 9) = false) (hreach : s.reachesWing (j / 9) c = true)
    (hcover : ((s.chan j).cls (s.classOn j c)).covers c.flits = true) :
    ∃ late, exec (.crateTransmitStart ix) s = .next (s.queueCrate ix j c late) := by
  have hflits : (c.onChannel s j).flits = c.flits := rfl
  have htc : (c.onChannel s j).tc = s.classOn j c := rfl
  show ∃ late, execCrateTransmitStart ix s = _
  simp only [execCrateTransmitStart, hw, hm, hp, hwng, hcol, hreach, hflits, htc, hcover, Bool.not_true, Bool.false_and, Bool.or_self,
    Bool.false_eq_true, if_false]
  exact ⟨_, rfl⟩

/-- What queueing a crate changes and leaves. -/
theorem State.queueCrate_spec (s : State) (ix j : Nat) (c : Crate) (late : Bool) : let t := s.queueCrate ix j c late
    (∃ fs, fs.length = c.flits ∧ t.chan j = ({ s.chan j with queue := (s.chan j).queue ++ fs }).mapCls (s.classOn j c) fun k =>
      { k with usedH := (k.usedH + 1) % 2 ^ 16, usedD := (k.usedD + c.flits) % 2 ^ 16 })
    ∧ (∀ k, k ≠ j → t.chan k = s.chan k) ∧ (∀ a, t.rd a = (s.countTransit c).rd a)
    ∧ t.fab.outbound = (s.dropWaiting ix).fab.outbound ∧ t.fab.pinned = (s.dropWaiting ix).fab.pinned := by
  intro t
  obtain ⟨hpin, hout, hchans, hregs⟩ := s.leaving_spec j c { c.onChannel s j with congested := late }
  have hchan : ∀ k, State.chan _ k = s.chan k := fun k => (State.dropWaiting_chan _ ix k).trans (congrArg (aget Chan.reset · k) hchans)
  obtain ⟨houtbound, hpinned⟩ := State.dropWaiting_congr hpin hout ix
  refine ⟨⟨?fs, ?length, ?queued⟩, fun k hk => ?_, fun a => ?_, houtbound, hpinned⟩
  case queued => exact (State.chan_mapChan_same _ _ _).trans (by rw [hchan])
  case length => exact Crate.cut_length _ (Crate.header_length _)
  · exact (State.chan_mapChan_ne _ _ hk).trans (hchan k)
  · exact (State.dropWaiting_rd _ ix a).trans (hregs a)

/-- A crate without a channel is discarded (R291). -/
theorem execCrateTransmitStart_lost (hw : s.waitingCrates[ix]? = some (none, c)) (hm : s.mayLeave ix none c = true) (hp : s.pickChannel c = none) :
    exec (.crateTransmitStart ix) s = .next ((s.dropWaiting ix).noRoute c.destModule) := by
  show execCrateTransmitStart ix s = _
  simp only [execCrateTransmitStart, hw, hm, hp, Bool.not_true, Bool.false_eq_true, if_false]

/-- A crate discarded without a route is counted, and posts records alone (R291). -/
theorem State.noRoute_spec (s : State) (d : Nat) : (s.noRoute d).fab = s.fab
    ∧ (s.noRoute d).rn (winBase .fab 0 + rFAB_NO_ROUTE_COUNT) = min 0xFFFFFFFF (s.rn (winBase .fab 0 + rFAB_NO_ROUTE_COUNT) + 1)
    ∧ RegsButRecords [winBase .fab 0 + rFAB_NO_ROUTE_COUNT] s (s.noRoute d) := by
  have hframe : RecordFrame (s.bump (winBase .fab 0 + rFAB_NO_ROUTE_COUNT)) (s.noRoute d) := State.event_frame _ rfl _ _ _ _
  refine ⟨(State.event_recorded _ _ _ _ _ _ _).fab, ?_, fun a ha hr => ?_⟩
  · rw [hframe.rn (by decide), State.rn_bump]
  · rw [hframe a List.not_mem_nil hr, RegsBut.bump s _ a ha]

end

/-- Settles O30: the two ends of a crate that may leave, by what `pickChannel` answers. -/
theorem cratesLeaveByChannel : Obligations.CratesLeaveByChannel := by
  intro s ix c hw hm
  refine ⟨fun j hp hwng hcol hreach hcover => ?_, fun hp => ?_⟩
  · obtain ⟨late, hexec⟩ := execCrateTransmitStart_covered hw hm hp hwng hcol hreach hcover
    obtain ⟨⟨fs, hlen, hchan⟩, hothers, hregs, houtbound, hpinned⟩ := s.queueCrate_spec ix j c late
    refine ⟨_, fs, hexec, by rw [hchan]; rfl, hlen, ?_, ?_, houtbound, hpinned, hothers, ?_, fun a ha => ?_⟩
    · rw [hchan, Chan.cls_mapCls_same]; rfl
    · rw [hchan, Chan.cls_mapCls_same]; rfl
    · rw [State.rn, hregs]
      exact s.rn_countTransit c
    · rw [hregs]
      exact s.countTransit_regs c a ha
  · obtain ⟨hfab, hcount, hregs⟩ := (s.dropWaiting ix).noRoute_spec c.destModule
    refine ⟨_, execCrateTransmitStart_lost hw hm hp, hfab, ?_, fun a ha hr => ?_⟩
    · rw [hcount, State.rn, State.dropWaiting_rd]
      rfl
    · rw [hregs a ha hr, State.dropWaiting_rd]

end Sys2Proof.Machine

/-! PROOFS. Flits that a link receives (R249, R254, R260 to R270, R280): O39. -/

namespace Sys2Proof.Machine

open Sys2Proof

/-! ### A good flit of a link -/

/-- The slot count that a receiver expects moves on by one (R249). -/
def LinkState.advance (k : LinkState) : LinkState := { k with rxLsn := k.rxLsn.map fun n => (n + 1) % 2 ^ 16 }

/-- The state once a good flit's corrections are counted and its slot has passed (R249, R254). -/
def State.heard (s : State) (j l n : Nat) : State := (s.bumpN (cr j rWNG_FEC_CORR_COUNT) n).rxAdvance j l

section
variable (s : State) (j l n : Nat)

@[simp] theorem State.chan_heard : (s.heard j l n).chan j = (s.chan j).mapLink l LinkState.advance := State.chan_mapChan_same _ _ _

theorem State.heard_regs : RegsBut [cr j rWNG_FEC_CORR_COUNT] s (s.heard j l n) := (RegsBut.bumpN s _ n).mapChan _ _

theorem State.rn_heard : (s.heard j l n).rn (cr j rWNG_FEC_CORR_COUNT) = min 0xFFFFFFFF (s.rn (cr j rWNG_FEC_CORR_COUNT) + n) :=
  State.rn_bumpN _ _ _

theorem State.f_heard {o : Nat} (ho : o ≠ rWNG_FEC_CORR_COUNT) (lo w : Nat) : (s.heard j l n).f (cr j o) lo w = s.f (cr j o) lo w :=
  (s.heard_regs j l n).f (by simpa using ho) lo w

@[simp] theorem State.linkState_heard (k : Nat) : (s.heard j l n).linkState j k = s.linkState j k := s.f_heard j l n (by decide) _ _

@[simp] theorem State.feature_heard (b : Nat) : (s.heard j l n).feature j b = s.feature j b := by
  rw [State.feature, s.f_heard j l n (by decide), State.feature]

@[simp] theorem State.p1_heard : (s.heard j l n).p1 j = s.p1 j := by rw [State.p1, s.f_heard j l n (by decide), State.p1]

@[simp] theorem State.flitOf_heard (h : Nat) (p : List Byte) : (s.heard j l n).flitOf j h p = s.flitOf j h p := by
  simp only [State.flitOf, State.feature_heard]

end

/-- A slot that passes leaves the slot logs. -/
theorem Chan.log_mapLink_advance (x : Chan) (l k : Nat) : ((x.mapLink l LinkState.advance).link k).log = (x.link k).log := by
  unfold Chan.mapLink
  split
  · unfold Chan.link
    split <;> rfl
  · unfold Chan.link
    split <;> rfl

section
variable {s : State} {j l n h : Nat} {raw : List Nat} {p : List Byte}

/-- A good flit in form, of a kind the command takes, is taken by its body once it is heard (R250, R254). -/
theorem State.onFlit_good (hg : GoodFlit s j l raw n h p) (hlen : raw.length = 280) {kinds : Nat → Bool} {ok : Nat → List Byte → Bool}
    (hkind : kinds (fld h 60 4) = true) (hlow : 1 ≤ fld h 60 4) (hhigh : fld h 60 4 ≤ 5) (hok : ok h p = true)
    (body : State → Nat → List Byte → State) :
    s.onFlit j l raw kinds ok body = body (s.heard j l n) h p := by
  obtain ⟨hr, hc, hform⟩ := hg
  unfold State.onFlit
  simp only [hr, hlen, hc, hkind, hok, Bool.not_true, Bool.false_or, ne_eq, not_true, decide_false, Bool.false_eq_true, if_false, Bool.and_true]
  rcases hform with h1 | ⟨h0, hslot⟩
  · simp [h1, State.heard]
  · have hother : (fld h 60 4 == 1 || (decide (2 ≤ fld h 60 4) && decide (fld h 60 4 ≤ 5))) = true := by
      simp only [Bool.or_eq_true, Bool.and_eq_true, beq_iff_eq, decide_eq_true_eq]
      omega
    have hslips : ∀ e, ((s.chan j).link l).rxLsn = some e → (fld h 26 16 != e) = false := fun e he => by simpa [he] using hslot
    cases hx : ((s.chan j).link l).rxLsn with
    | none =>
      simp only [h0, Bool.and_false, Bool.false_eq_true, if_false, beq_self_eq_true, Bool.and_true, hother, if_true]
      rfl
    | some e =>
      simp only [hslips e hx, h0, Bool.and_false, Bool.false_eq_true, if_false, beq_self_eq_true, Bool.and_true, hother, if_true]
      rfl

end

/-! ### DATA (R265) -/

section
variable {s : State} {j l h : Nat} {p : List Byte}

/-- A flit next in sequence that no other waits for is the one marked in order. -/
theorem Chan.markInOrder_next {x : Chan} {q : Nat} {f : Flit} (hq : q = (x.cls f.cls).next) (hheld : x.held = []) :
    ({ x with held := x.held ++ [(q, f)] } : Chan).markInOrder f.cls (x.held.length + 1) =
      ({ x with held := [], ready := x.ready ++ [f], inOrder := x.inOrder + 1, controlDue := x.controlDue || decide (32 ≤ x.inOrder + 1) }).mapCls f.cls
        fun k => { k with next := (q + 1) % 2 ^ 16 } := by
  have hfind : [(q, f)].find? (fun e => e.1 == (Chan.cls { x with held := [(q, f)] } f.cls).next && e.2.cls == f.cls) = some (q, f) :=
    List.find?_cons_of_pos (by rw [show (Chan.cls { x with held := [(q, f)] } f.cls).next = q from hq.symm]; simp)
  rw [hheld, List.nil_append, List.length_nil, Chan.markInOrder]
  simp only [hfind, Chan.markInOrder, List.erase_cons_head]
  rw [hq]
  rfl

/-- On an up link a DATA flit of a class in use, next in sequence, joins those in order. -/
theorem State.takeData_next (hup : s.linkState j l = 2) (hcls : (s.flitOf j h p).cls ≠ 1 ∨ s.feature j 0 = true)
    (hq : fld h 42 16 = ((s.chan j).cls (s.flitOf j h p).cls).next) (hheld : (s.chan j).held = []) :
    s.takeData j l h p = s.mapChan j fun x =>
      ({ x with held := [], ready := x.ready ++ [s.flitOf j h p], inOrder := x.inOrder + 1,
                controlDue := x.controlDue || decide (32 ≤ x.inOrder + 1) }).mapCls (s.flitOf j h p).cls
        fun k => { k with next := (fld h 42 16 + 1) % 2 ^ 16 } := by
  have hin : ((s.flitOf j h p).cls = 1 && !s.feature j 0) = false := by
    rcases hcls with hc | hc
    · simp [hc]
    · simp [hc]
  have hd : (fld h 42 16 + 2 ^ 16 - ((s.chan j).cls (s.flitOf j h p).cls).next) % 2 ^ 16 = 0 := by
    rw [← hq, Nat.add_sub_cancel_left, Nat.mod_self]
  have hnew : (s.chan j).isHeld (s.flitOf j h p).cls (fld h 42 16) = false := by simp [Chan.isHeld, hheld]
  unfold State.takeData
  simp only [hup, hin, hd, hnew, Bool.false_eq_true, if_false, State.mapChan, Chan.markInOrder_next hq hheld]
  rfl

/-- A DATA flit of an earlier SEQ is counted and discarded. -/
theorem State.takeData_earlier (hup : s.linkState j l = 2) (hcls : (s.flitOf j h p).cls ≠ 1 ∨ s.feature j 0 = true)
    (hq : 0x8000 ≤ (fld h 42 16 + 2 ^ 16 - ((s.chan j).cls (s.flitOf j h p).cls).next) % 2 ^ 16) :
    s.takeData j l h p = s.bump (cr j rWNG_DUP_COUNT) := by
  have hin : ((s.flitOf j h p).cls = 1 && !s.feature j 0) = false := by
    rcases hcls with hc | hc
    · simp [hc]
    · simp [hc]
  unfold State.takeData
  simp only [hup, hin, hq, Bool.false_eq_true, if_false, if_true]
  rfl

end

/-! ### Acknowledgements and credits (R267, R270) -/

section
variable (x : Chan)

theorem Chan.cls_takeAck (c n d : Nat) : (x.takeAck c n).cls d =
    if d = c then { x.cls c with acked := if seqBefore (x.cls c).acked n then n else (x.cls c).acked } else x.cls d := by
  unfold Chan.takeAck
  by_cases hs : seqBefore (x.cls c).acked n = true
  · rw [if_pos hs, Chan.cls_mapCls]
    simp only [hs, if_true]
    rfl
  · rw [if_neg hs]
    simp only [hs]
    split
    next hd => rw [hd]; rfl
    next => rfl

theorem Chan.link_takeAck (c n l : Nat) : (x.takeAck c n).link l = x.link l := by
  unfold Chan.takeAck
  split
  · rfl
  · rfl

theorem Chan.mem_replay_takeAck (c n : Nat) (e : Nat × Nat × Flit) : e ∈ (x.takeAck c n).replay ↔
    e ∈ x.replay ∧ ¬ (e.2.2.cls = c ∧ seqBefore (x.cls c).acked n = true ∧ seqBefore e.1 n = true) := by
  unfold Chan.takeAck
  by_cases hs : seqBefore (x.cls c).acked n = true
  · rw [if_pos hs]
    show e ∈ x.replay.filter _ ↔ _
    by_cases hc : e.2.2.cls = c
    · simp [List.mem_filter, hs, hc]
    · simp [List.mem_filter, hc]
  · rw [if_neg hs]
    simp [hs]

/-- The acknowledgements of several classes, one after the other. -/
def Chan.takeAcks (g : Nat → Nat) (cs : List Nat) : Chan := cs.foldl (fun (y : Chan) c => y.takeAck c (g c)) x

theorem Chan.takeAcks_spec (g : Nat → Nat) (cs : List Nat) (hcs : cs.Nodup) :
    (∀ l, (x.takeAcks g cs).link l = x.link l)
    ∧ (∀ d, (x.takeAcks g cs).cls d =
        if d ∈ cs then { x.cls d with acked := if seqBefore (x.cls d).acked (g d) then g d else (x.cls d).acked } else x.cls d)
    ∧ ∀ e, e ∈ (x.takeAcks g cs).replay ↔ e ∈ x.replay ∧ ¬ (e.2.2.cls ∈ cs
        ∧ seqBefore (x.cls e.2.2.cls).acked (g e.2.2.cls) = true ∧ seqBefore e.1 (g e.2.2.cls) = true) := by
  induction cs generalizing x with
  | nil => simp [Chan.takeAcks]
  | cons c cs ih =>
    obtain ⟨hc, hcs⟩ := List.nodup_cons.1 hcs
    obtain ⟨hlink, hcls, hreplay⟩ := ih (x.takeAck c (g c)) hcs
    have hstep : x.takeAcks g (c :: cs) = (x.takeAck c (g c)).takeAcks g cs := rfl
    refine ⟨fun l => ?_, fun d => ?_, fun e => ?_⟩
    · rw [hstep, hlink, Chan.link_takeAck]
    · rw [hstep, hcls, Chan.cls_takeAck]
      by_cases hd : d = c
      · subst hd; simp [hc]
      · simp [hd]
    · rw [hstep, hreplay, Chan.mem_replay_takeAck, Chan.cls_takeAck]
      by_cases he : e.2.2.cls = c
      · simp [he, hc]
      · simp [he]

theorem Chan.takeFreed_spec (p1 : Bool) (p : List Byte) (l : Nat) : (∃ k, x.takeFreed p1 p l = { x with classes := k })
    ∧ ∀ c, c < 4 → (x.takeFreed p1 p l).cls c = (x.cls c).freed p1 (at_ p (8 + 2 * c) 2) (at_ p (16 + 2 * c) 2) l := by
  have hg := Chan.cls_foldl_mapCls (fun c k => k.freed p1 (at_ p (8 + 2 * c) 2) (at_ p (16 + 2 * c) 2) l) (List.range 4) List.nodup_range x
  refine ⟨Chan.foldl_mapCls_eq (fun c k => k.freed p1 (at_ p (8 + 2 * c) 2) (at_ p (16 + 2 * c) 2) l) _ x, fun c hc => ?_⟩
  exact (hg c).trans (if_pos (List.mem_range.2 hc))

/-- Freed counts leave what a class has of sequences. -/
theorem ClassState.freed_acked (k : ClassState) (p1 : Bool) (h d l : Nat) : (k.freed p1 h d l).acked = k.acked := by
  unfold ClassState.freed
  split
  · rfl
  · rfl

/-- A NAK adds at most its own flit to those to be sent again, and adds it where it is not acknowledged (R267). -/
theorem Chan.takeNak_spec (slot l : Nat) : ∃ r, x.takeNak slot l = { x with retx := r } ∧ (∀ e ∈ x.retx, e ∈ r)
    ∧ ∀ z, (x.link l).log.find? (fun e => e.1 == slot) = some z → (∃ e ∈ x.replay, e.1 = z.2.2 ∧ e.2.2.cls = z.2.1) → (z.2.1, z.2.2) ∈ r := by
  unfold Chan.takeNak
  cases hfind : (x.link l).log.find? (fun e => e.1 == slot) with
  | none => exact ⟨x.retx, rfl, fun _ he => he, fun z hz => nomatch hz⟩
  | some z =>
    obtain ⟨k, c, q⟩ := z
    by_cases hdue : (x.replay.any (fun e => e.1 == q && e.2.2.cls == c) && !x.retx.contains (c, q)) = true
    · refine ⟨x.retx ++ [(c, q)], if_pos hdue, fun e he => List.mem_append_left _ he, fun z hz _ => ?_⟩
      cases hz
      exact List.mem_append_right _ (List.mem_singleton.2 rfl)
    · refine ⟨x.retx, if_neg hdue, fun e he => he, fun z hz hin => ?_⟩
      cases hz
      obtain ⟨e, he, hq, hc⟩ := hin
      have hany : x.replay.any (fun e => e.1 == q && e.2.2.cls == c) = true := List.any_eq_true.2 ⟨e, he, by simp [hq, hc]⟩
      simpa [hany] using hdue

/-- The NAK entries of a report, one after the other. -/
theorem Chan.foldl_takeNak_spec (slot link : Nat → Nat) (is : List Nat) :
    ∃ r, is.foldl (fun (y : Chan) i => y.takeNak (slot i) (link i)) x = { x with retx := r } ∧ (∀ e ∈ x.retx, e ∈ r)
    ∧ ∀ i ∈ is, ∀ z, (x.link (link i)).log.find? (fun e => e.1 == slot i) = some z → (∃ e ∈ x.replay, e.1 = z.2.2 ∧ e.2.2.cls = z.2.1) →
        (z.2.1, z.2.2) ∈ r := by
  induction is generalizing x with
  | nil => exact ⟨x.retx, rfl, fun _ he => he, fun i hi => nomatch hi⟩
  | cons i is ih =>
    obtain ⟨r, hr, hkeep, hin⟩ := x.takeNak_spec (slot i) (link i)
    obtain ⟨r', hr', hkeep', hin'⟩ := ih { x with retx := r }
    refine ⟨r', by rw [List.foldl_cons, hr, hr'], fun e he => hkeep' e (hkeep e he), fun k hk z hz he => ?_⟩
    rcases List.mem_cons.1 hk with rfl | hk
    · exact hkeep' _ (hin z hz he)
    · exact hin' k hk z hz he

/-- What a CONTROL payload's acknowledgements, credits and NAK entries make of a channel (R260, R267, R270). -/
def Chan.takeControl (p1 : Bool) (p : List Byte) (l : Nat) : Chan :=
  (List.range (at_ p 24 1)).foldl (fun (y : Chan) i => y.takeNak (fld (at_ p (32 + 4 * i) 4) 0 16) (fld (at_ p (32 + 4 * i) 4) 16 1))
    ((x.takeAcks (fun c => at_ p (2 * c) 2) (List.range 4)).takeFreed p1 p l)

theorem Chan.takeControl_eq (p1 : Bool) (p : List Byte) (l : Nat) : ∃ k r,
    x.takeControl p1 p l = { x.takeAcks (fun c => at_ p (2 * c) 2) (List.range 4) with classes := k, retx := r }
    ∧ (∀ c, c < 4 → aget ClassState.reset k c = ((x.takeAcks (fun c => at_ p (2 * c) 2) (List.range 4)).cls c).freed p1 (at_ p (8 + 2 * c) 2)
        (at_ p (16 + 2 * c) 2) l)
    ∧ ∀ i, i < at_ p 24 1 → ∀ z, (x.link (fld (at_ p (32 + 4 * i) 4) 16 1)).log.find? (fun e => e.1 == fld (at_ p (32 + 4 * i) 4) 0 16) = some z →
        (∃ e ∈ (x.takeAcks (fun c => at_ p (2 * c) 2) (List.range 4)).replay, e.1 = z.2.2 ∧ e.2.2.cls = z.2.1) → (z.2.1, z.2.2) ∈ r := by
  have hlink := (x.takeAcks_spec (fun c => at_ p (2 * c) 2) (List.range 4) List.nodup_range).1
  unfold Chan.takeControl
  generalize x.takeAcks (fun c => at_ p (2 * c) 2) (List.range 4) = y at *
  obtain ⟨⟨k, hk⟩, hfreed⟩ := y.takeFreed_spec p1 p l
  rw [hk] at hfreed ⊢
  obtain ⟨r, hr, -, hnak⟩ := Chan.foldl_takeNak_spec { y with classes := k } (fun i => fld (at_ p (32 + 4 * i) 4) 0 16)
    (fun i => fld (at_ p (32 + 4 * i) 4) 16 1) (List.range (at_ p 24 1))
  refine ⟨k, r, hr, hfreed, fun i hi z hz he => ?_⟩
  have hlog : Chan.link { y with classes := k } (fld (at_ p (32 + 4 * i) 4) 16 1) = x.link (fld (at_ p (32 + 4 * i) 4) 16 1) := hlink _
  exact hnak i (List.mem_range.2 hi) z (by rw [hlog]; exact hz) he

theorem Chan.cls_takeControl (p1 : Bool) (p : List Byte) (l : Nat) {c : Nat} (hc : c < 4) : (x.takeControl p1 p l).cls c = ClassState.freed
    { x.cls c with acked := if seqBefore (x.cls c).acked (at_ p (2 * c) 2) then at_ p (2 * c) 2 else (x.cls c).acked }
    p1 (at_ p (8 + 2 * c) 2) (at_ p (16 + 2 * c) 2) l := by
  obtain ⟨-, hcls, -⟩ := x.takeAcks_spec (fun c => at_ p (2 * c) 2) (List.range 4) List.nodup_range
  obtain ⟨k, r, heq, hfreed, -⟩ := x.takeControl_eq p1 p l
  rw [heq]
  exact (hfreed c hc).trans (by rw [hcls, if_pos (List.mem_range.2 hc)])

theorem Chan.mem_replay_takeControl (p1 : Bool) (p : List Byte) (l : Nat) (e : Nat × Nat × Flit) : e ∈ (x.takeControl p1 p l).replay ↔
    e ∈ x.replay ∧ ¬ (e.2.2.cls < 4 ∧ seqBefore (x.cls e.2.2.cls).acked (at_ p (2 * e.2.2.cls) 2) = true
      ∧ seqBefore e.1 (at_ p (2 * e.2.2.cls) 2) = true) := by
  obtain ⟨-, -, hreplay⟩ := x.takeAcks_spec (fun c => at_ p (2 * c) 2) (List.range 4) List.nodup_range
  obtain ⟨k, r, heq, -, -⟩ := x.takeControl_eq p1 p l
  rw [heq, hreplay, List.mem_range]

theorem Chan.mem_retx_takeControl (p1 : Bool) (p : List Byte) (l : Nat) {i : Nat} {z : Nat × Nat × Nat} (hi : i < at_ p 24 1)
    (hz : (x.link (fld (at_ p (32 + 4 * i) 4) 16 1)).log.find? (fun e => e.1 == fld (at_ p (32 + 4 * i) 4) 0 16) = some z)
    (he : ∃ e ∈ (x.takeControl p1 p l).replay, e.1 = z.2.2 ∧ e.2.2.cls = z.2.1) : (z.2.1, z.2.2) ∈ (x.takeControl p1 p l).retx := by
  obtain ⟨k, r, heq, -, hnak⟩ := x.takeControl_eq p1 p l
  rw [show (x.takeControl p1 p l).replay = (x.takeAcks (fun c => at_ p (2 * c) 2) (List.range 4)).replay by rw [heq]] at he
  rw [show (x.takeControl p1 p l).retx = r by rw [heq]]
  exact hnak i hi z hz he

end

/-! ### The commands -/

section
variable {s : State} {j l n h : Nat} {raw : List Nat} {p : List Byte}

/-- A DATA flit next in sequence (R265). -/
theorem execDataFlit_next (hg : GoodFlit s j l raw n h p) (hlen : raw.length = 280) (hup : s.linkState j l = 2) (hkind : fld h 60 4 = 1)
    (hcls : (s.flitOf j h p).cls ≠ 1 ∨ s.feature j 0 = true) (hq : fld h 42 16 = ((s.chan j).cls (s.flitOf j h p).cls).next)
    (hheld : (s.chan j).held = []) : exec (.dataFlit j l raw) s = .next ((s.heard j l n).mapChan j fun x =>
      ({ x with held := [], ready := x.ready ++ [s.flitOf j h p], inOrder := x.inOrder + 1,
                controlDue := x.controlDue || decide (32 ≤ x.inOrder + 1) }).mapCls (s.flitOf j h p).cls
        fun k => { k with next := (fld h 42 16 + 1) % 2 ^ 16 }) := by
  show execDataFlit j l raw s = _
  rw [execDataFlit, State.onFlit_good hg hlen (by rw [hkind]; rfl) (by omega) (by omega) rfl]
  rw [State.takeData_next (by simpa using hup) (by simpa using hcls) (by simpa using hq) (by simpa using hheld), State.flitOf_heard]

/-- A DATA flit of an earlier SEQ (R265). -/
theorem execDataFlit_earlier (hg : GoodFlit s j l raw n h p) (hlen : raw.length = 280) (hup : s.linkState j l = 2) (hkind : fld h 60 4 = 1)
    (hcls : (s.flitOf j h p).cls ≠ 1 ∨ s.feature j 0 = true)
    (hq : 0x8000 ≤ (fld h 42 16 + 2 ^ 16 - ((s.chan j).cls (s.flitOf j h p).cls).next) % 2 ^ 16) :
    exec (.dataFlit j l raw) s = .next ((s.heard j l n).bump (cr j rWNG_DUP_COUNT)) := by
  show execDataFlit j l raw s = _
  rw [execDataFlit, State.onFlit_good hg hlen (by rw [hkind]; rfl) (by omega) (by omega) rfl]
  rw [State.takeData_earlier (by simpa using hup) (by simpa using hcls) (by simpa using hq)]

/-- CONTROL on an up link that finds both links usable and asks for no width (R260, R267, R270). -/
theorem execControlFlit_good (hg : GoodFlit s j l raw n h p) (hlen : raw.length = 280) (hup : s.linkState j l = 2) (hkind : fld h 60 4 = 2)
    (hok : controlOk true h p = true) (hlinks : at_ p 25 1 = 3) (hwidth : bit (at_ p 26 1) 0 = false) :
    exec (.controlFlit j l raw) s = .next ((s.heard j l n).mapChan j fun x => x.takeControl (s.p1 j) p l) := by
  have h0 : bit 3 0 = true := by decide
  have h1 : bit 3 1 = true := by decide
  show execControlFlit j l raw s = _
  rw [execControlFlit, State.onFlit_good hg hlen (by rw [hkind]; rfl) (by omega) (by omega) hok]
  simp only [State.linkState_heard, hup, hlinks, hwidth, h0, h1, State.p1_heard, List.foldl_cons, List.foldl_nil, Bool.not_true, Bool.false_and,
    Bool.false_eq_true, if_false]
  rfl

/-- CREDIT on an up link (R270). -/
theorem execCreditFlit_good (hg : GoodFlit s j l raw n h p) (hlen : raw.length = 280) (hup : s.linkState j l = 2) (hkind : fld h 60 4 = 3)
    (hok : controlOk false h p = true) :
    exec (.creditFlit j l raw) s = .next ((s.heard j l n).mapChan j fun x => x.takeFreed (s.p1 j) p l) := by
  show execCreditFlit j l raw s = _
  rw [execCreditFlit, State.onFlit_good hg hlen (by rw [hkind]; rfl) (by omega) (by omega) hok]
  simp only [State.linkState_heard, hup, State.p1_heard]
  rfl

/-- IDLE (R280). -/
theorem execIdleFlit_good (hg : GoodFlit s j l raw n h p) (hlen : raw.length = 280) (hkind : fld h 60 4 = 4) (hlow : fld h 0 25 = 0)
    (hzero : zeroIn p 0 256 = true) : exec (.idleFlit j l raw) s =
      .next (((s.heard j l n).mapChan j fun x => x.mapLink l fun k => { k with fault := bit h 25 }).refreshChan j) := by
  show execIdleFlit j l raw s = _
  rw [execIdleFlit, State.onFlit_good hg hlen (by rw [hkind]; rfl) (by omega) (by omega) (by rw [hlow, hzero]; rfl)]

/-- A flit that RS cannot decode, on a link that has taken one before (R254, R266). -/
theorem execBadFlit_uncorr {m : Nat} (hr : s.receives j l = true) (hlen : raw.length = 280) (hbad : checkFlit raw = .uncorr)
    (hslot : ((s.chan j).link l).rxLsn = some m) : exec (.badFlit j l raw) s =
      .next (((s.bump (cr j rWNG_FEC_UNCORR_COUNT)).rxAdvance j l).mapChan j fun x => { x with naks := x.naks ++ [(l, m)], controlDue := true }) := by
  show execBadFlit j l raw s = _
  simp only [execBadFlit, hr, hlen, hbad, hslot, Bool.not_true, Bool.false_or, ne_eq, not_true, decide_false, Bool.false_eq_true, if_false]

end

/-! ### The statement -/

/-- Freed counts taken away from P1-compatible mode, of a class whose freed counts stood (R270). -/
theorem ClassState.freed_cumulative {k k' : ClassState} (hh : k'.freedH = k.freedH) (hd : k'.freedD = k.freedD) (h d l : Nat) :
    (k'.freed false h d l).freedH = (if seqBefore k.freedH h then h else k.freedH)
    ∧ (k'.freed false h d l).freedD = (if seqBefore k.freedD d then d else k.freedD) := by
  rw [← hh, ← hd]
  exact ⟨rfl, rfl⟩

/-- Settles O39, kind by kind: each command is what its body makes of the state once its flit is heard. -/
theorem flitsAreTaken : Obligations.FlitsAreTaken := by
  intro s j l raw hr hlen hup
  refine ⟨fun n h p hg => ⟨fun hkind hcls => ⟨fun hq hheld => ?_, fun hq => ?_⟩, fun hkind hok hlinks hwidth => ?_, fun hkind hok => ?_,
    fun hkind hlow hzero => ?_⟩, fun m hbad hslot => ?_⟩
  · refine ⟨_, execDataFlit_next hg hlen hup hkind hcls hq hheld, ?_, ?_, ?_, ?_, s.rn_heard j l n, (s.heard_regs j l n).mapChan _ _⟩
    · rw [State.chan_mapChan_same, State.chan_heard, Chan.mapLink_ready]; rfl
    · rw [State.chan_mapChan_same]; rfl
    · rw [State.chan_mapChan_same, Chan.cls_mapCls_same]
    · rw [State.chan_mapChan_same, State.chan_heard, Chan.mapLink_inOrder]; rfl
  · have hcount : cr j rWNG_DUP_COUNT ∉ [cr j rWNG_FEC_CORR_COUNT] := by simp [rWNG_DUP_COUNT, rWNG_FEC_CORR_COUNT]
    refine ⟨_, execDataFlit_earlier hg hlen hup hkind hcls hq, by simp, by simp, by simp, ?_, ?_⟩
    · rw [State.rn_bump, (s.heard_regs j l n).rn hcount]
    · exact ((s.heard_regs j l n).mono (by simp)).wnIn (by simp) _
  · have hchan : ∀ t, t = (s.heard j l n).mapChan j (fun x => x.takeControl (s.p1 j) p l) →
        t.chan j = ((s.chan j).mapLink l LinkState.advance).takeControl (s.p1 j) p l := by
      rintro t rfl
      rw [State.chan_mapChan_same, State.chan_heard]
    refine ⟨_, execControlFlit_good hg hlen hup hkind hok hlinks hwidth, s.rn_heard j l n, fun c hc hp1 => ?_, (s.heard_regs j l n).mapChan _ _,
      fun c hc => ?_, fun e => ?_, fun i z hi hz he => ?_⟩
    · rw [hchan _ rfl, Chan.cls_takeControl _ _ _ _ hc, Chan.cls_mapLink, hp1]
      exact ClassState.freed_cumulative rfl rfl _ _ _
    · rw [hchan _ rfl, Chan.cls_takeControl _ _ _ _ hc, Chan.cls_mapLink, ClassState.freed_acked]
    · rw [hchan _ rfl, Chan.mem_replay_takeControl, Chan.cls_mapLink, Chan.mapLink_replay]
    · rw [hchan _ rfl] at he ⊢
      exact Chan.mem_retx_takeControl _ _ _ _ hi (by rw [Chan.log_mapLink_advance]; exact hz) he
  · obtain ⟨⟨k, hk⟩, hfreed⟩ := ((s.chan j).mapLink l LinkState.advance).takeFreed_spec (s.p1 j) p l
    refine ⟨_, execCreditFlit_good hg hlen hup hkind hok, s.rn_heard j l n, fun c hc hp1 => ?_, ?_, ?_, (s.heard_regs j l n).mapChan _ _⟩
    · rw [State.chan_mapChan_same, State.chan_heard, hfreed c hc, Chan.cls_mapLink, hp1]
      exact ClassState.freed_cumulative rfl rfl _ _ _
    · rw [State.chan_mapChan_same, State.chan_heard, hk]
      exact Chan.mapLink_replay _ _ _
    · rw [State.chan_mapChan_same, State.chan_heard, hk]
      exact Chan.mapLink_retx _ _ _
  · have hcount : cr j rWNG_FEC_CORR_COUNT ∉ [cr j rWNG_CHAN_STAT] := by simp [rWNG_CHAN_STAT, rWNG_FEC_CORR_COUNT]
    refine ⟨_, execIdleFlit_good hg hlen hkind hlow hzero, ?_, by simp, by simp, ?_⟩
    · exact ((State.refreshChan_regs _ j).rn hcount).trans (s.rn_heard j l n)
    · exact (((s.heard_regs j l n).mapChan _ _).mono (by simp)).trans ((State.refreshChan_regs _ j).mono (by simp))
  · have hchan : State.chan (((s.bump (cr j rWNG_FEC_UNCORR_COUNT)).rxAdvance j l).mapChan j fun x =>
        { x with naks := x.naks ++ [(l, m)], controlDue := true }) j =
        { (s.chan j).mapLink l LinkState.advance with naks := ((s.chan j).mapLink l LinkState.advance).naks ++ [(l, m)], controlDue := true } := by
      rw [State.chan_mapChan_same, State.rxAdvance, State.chan_mapChan_same]
      rfl
    refine ⟨_, execBadFlit_uncorr hr hlen hbad hslot, ?_, ?_, ?_, ?_, ?_, ?_, ((RegsBut.bump s _).mapChan _ _).mapChan _ _⟩
    · rw [hchan, Chan.mapLink_naks]
    · rw [hchan]
    · rw [hchan]
      show (((s.chan j).mapLink l LinkState.advance).link l).rxLsn = _
      rw [Chan.link_mapLink_same, LinkState.advance, hslot]
      rfl
    · rw [hchan]
      exact Chan.mapLink_classes _ _ _
    · rw [hchan]
      exact Chan.mapLink_held _ _ _
    · exact State.rn_bump _ _

end Sys2Proof.Machine

/-! PROOFS. What a transmit slot carries, the reorder buffer and the timers of a channel (R249, R255, R263 to R270, R280, R320, R437): O41. -/

namespace Sys2Proof.Machine

open Sys2Proof

/-! ### A flit put into a slot (R249, R255, R267) -/

/-- A flit of a header and payload as it leaves on a link. -/
def outFlit (j l h : Nat) (p : List Byte) : Out := Out.flit (j / 9) (2 * (j % 9) + l) ((sealFlit h p).map (BitVec.ofNat 8))

/-- The slot count of a link moves on by one, and its slot log forgets what is 8,192 slots old. -/
def LinkState.sent (k : LinkState) : LinkState :=
  { k with lsn := (k.lsn + 1) % 2 ^ 16, log := k.log.filter fun e => decide ((k.lsn + 2 ^ 16 - e.1) % 2 ^ 16 < 8192) }

section
variable (s : State) (j l h : Nat) (p : List Byte)

theorem State.sendFlit_eq : s.sendFlit j l h p = { s.mapChan j (fun x => x.mapLink l LinkState.sent) with out := s.out ++ [outFlit j l h p] } := rfl

@[simp] theorem State.chan_sendFlit : (s.sendFlit j l h p).chan j = (s.chan j).mapLink l LinkState.sent :=
  s.chan_mapChan_same j fun x => x.mapLink l LinkState.sent

/-- A flit other than DATA leaves in the next slot, and only its link's slot counts change (R260 to R262). -/
theorem State.sendOther_spec (kind low : Nat) : let t := s.sendOther j l kind low p
    t.out = s.out ++ [outFlit j l (otherHeader kind ((s.chan j).link l).lsn low) p] ∧ RegsBut [] s t
    ∧ ((t.chan j).link l).lsn = (((s.chan j).link l).lsn + 1) % 2 ^ 16 := by
  refine ⟨rfl, fun a _ => rfl, ?_⟩
  unfold State.sendOther
  rw [State.chan_mapChan_same, Chan.link_mapLink_same, State.chan_sendFlit, Chan.link_mapLink_same]
  rfl

/-- What a DATA flit notes of its link. -/
def LinkState.sentData (q : Nat) (f : Flit) (k : LinkState) : LinkState :=
  { k.sent with sinceOther := k.sinceOther + 1, log := k.sent.log ++ [(k.lsn, f.cls, q)] }

/-- A DATA flit that is not marked congested leaves in the next slot, and only its link changes (R255, R267). -/
theorem State.sendData_spec (q : Nat) {f : Flit} (hf : f.congested = false) : let t := s.sendData j l q f
    t.out = s.out ++ [outFlit j l (s.dataHeader j q f) f.payload] ∧ t.regs = s.regs
    ∧ t.chan j = (s.chan j).mapLink l (LinkState.sentData q f) := by
  unfold State.sendData
  simp only [hf, Bool.false_and, Bool.false_eq_true, if_false]
  refine ⟨rfl, rfl, ?_⟩
  rw [State.chan_mapChan_same, State.chan_sendFlit]
  unfold Chan.mapLink Chan.link
  split
  · rfl
  · rfl

end

/-! ### What a slot carries (R249, R268, R320) -/

/-- A link whose slot is free for DATA: it receives, no Lockdown and no halt holds it, no exchange of INIT runs, nothing other than DATA
is due on it, and its partner shows no FAULT and is the plan's. -/
structure FreeSlot (s : State) (j l : Nat) : Prop where
  receives : s.receives j l = true
  unlocked : s.locked = false
  runs : s.halted .wng (j / 9) = false
  noInit : ((s.chan j).link l).init = false
  noControl : (s.chan j).controlDue = false
  noWidth : ((s.chan j).link l).widthDue = false
  noCredit : (s.chan j).creditDue = false
  other : ((s.chan j).link l).sinceOther < 255
  noFault : s.chanState j ≠ 5
  peer : s.peerOk j = true

/-- What a free slot carries: a retransmission, a new flit where none is due again, or IDLE. -/
def State.fillSlot (s : State) (j l : Nat) : State :=
  match s.nextResend j l with
  | some e => s.resendOn j l e
  | none => match s.nextNew j l with
    | some f => if (s.chan j).resends == [] then s.sendNew j l f else s.sendIdle j l false
    | none => s.sendIdle j l false

section
variable {s : State} {j l : Nat}

theorem execFlitSlot_locked (hr : s.receives j l = true) (hlock : s.locked = true) :
    exec (.flitSlot j l) s = .next ((s.countStuff (j / 9)).sendIdle j l true) := by
  have hlock' : (s.countStuff (j / 9)).locked = true := hlock
  show execFlitSlot j l s = _
  simp only [execFlitSlot, hr, hlock', Bool.not_true, Bool.false_and, Bool.false_eq_true, if_false, Bool.true_or, if_true]

theorem execFlitSlot_free (h : FreeSlot s j l) : exec (.flitSlot j l) s = .next ((s.countStuff (j / 9)).fillSlot j l) := by
  have hlock : (s.countStuff (j / 9)).locked = false := h.unlocked
  have hruns : (s.countStuff (j / 9)).halted .wng (j / 9) = false := h.runs
  have hfault : (s.countStuff (j / 9)).chanState j ≠ 5 := h.noFault
  have hpeer : (s.countStuff (j / 9)).peerOk j = true := h.peer
  have hother : ¬ 255 ≤ ((s.chan j).link l).sinceOther := Nat.not_le.2 h.other
  show execFlitSlot j l s = _
  simp only [execFlitSlot, h.receives, hlock, hruns, h.noInit, h.noControl, h.noWidth, h.noCredit, hfault, hpeer, hother, Bool.not_true, Bool.false_and,
    Bool.and_false, Bool.or_self, Bool.false_eq_true, if_false, decide_false]
  rfl

/-- Where nothing is due again there is no retransmission for any link. -/
theorem State.nextResend_none (h : (s.chan j).resends = []) : s.nextResend j l = none := by
  simp [State.nextResend, Chan.firstResend, h]

/-- The first retransmission leaves before any new flit, and is due no longer (R268). -/
theorem State.fillSlot_resend {e : Nat × Nat × Flit} (he : s.nextResend j l = some e) (hf : e.2.2.congested = false) : let t := s.fillSlot j l
    t.out = s.out ++ [outFlit j l (s.dataHeader j e.1 e.2.2) e.2.2.payload]
    ∧ t.rn (cr j rWNG_REPLAY_COUNT) = min 0xFFFFFFFF (s.rn (cr j rWNG_REPLAY_COUNT) + 1) ∧ RegsBut [cr j rWNG_REPLAY_COUNT] s t
    ∧ (t.chan j).queue = (s.chan j).queue ∧ (t.chan j).retx = (s.chan j).retx.erase (e.2.2.cls, e.1) := by
  obtain ⟨hout, hregs, hchan⟩ := (s.bump (cr j rWNG_REPLAY_COUNT)).sendData_spec j l e.1 hf
  have hrd : ∀ a, (s.fillSlot j l).rd a = (s.bump (cr j rWNG_REPLAY_COUNT)).rd a := fun a => by
    simp only [State.fillSlot, he, State.resendOn, State.rd_mapChan]
    rw [State.rd, hregs, State.rd]
  have hheader : (s.bump (cr j rWNG_REPLAY_COUNT)).dataHeader j e.1 e.2.2 = s.dataHeader j e.1 e.2.2 := by
    simp only [State.dataHeader, State.feature]
    rw [State.f_bump_ne _ _ _ (by simp [rWNG_CHAN_STAT, rWNG_REPLAY_COUNT]), State.f_bump_ne _ _ _ (by simp [rWNG_CHAN_STAT, rWNG_REPLAY_COUNT])]
  refine ⟨?_, ?_, fun a ha => ?_, ?_, ?_⟩
  · simp only [State.fillSlot, he]
    exact hout.trans (by rw [hheader]; rfl)
  · rw [State.rn, hrd]
    exact State.rn_bump _ _
  · rw [hrd, RegsBut.bump s _ a ha]
  · simp only [State.fillSlot, he, State.resendOn, State.chan_mapChan_same, hchan, Chan.mapLink_queue, State.chan_bump]
  · simp only [State.fillSlot, he, State.resendOn, State.chan_mapChan_same, hchan, Chan.mapLink_retx, State.chan_bump]

/-- A new flit takes the next SEQ of its class and waits to be acknowledged (R263, R264). -/
theorem State.fillSlot_new (h0 : (s.chan j).resends = []) {f : Flit} (hf : s.nextNew j l = some f) (hc : f.congested = false) : let t := s.fillSlot j l
    let q := ((s.chan j).cls f.cls).nextSeq
    t.out = s.out ++ [outFlit j l (s.dataHeader j q f) f.payload] ∧ RegsBut [] s t ∧ ((t.chan j).cls f.cls).nextSeq = (q + 1) % 2 ^ 16
    ∧ (t.chan j).queue = (s.chan j).queue.erase f ∧ (t.chan j).replay = (s.chan j).replay ++ [(q, l, f)]
    ∧ ((t.chan j).link l).lsn = (((s.chan j).link l).lsn + 1) % 2 ^ 16 := by
  obtain ⟨hout, hregs, hchan⟩ := s.sendData_spec j l ((s.chan j).cls f.cls).nextSeq hc
  have ht : s.fillSlot j l = s.sendNew j l f := by
    simp only [State.fillSlot, State.nextResend_none h0, hf, h0, beq_self_eq_true, if_true]
  intro t q
  have hx : ∃ g, t.chan j = Chan.mapLink (Chan.mapCls
      { (s.chan j).mapLink l (LinkState.sentData q f) with queue := (s.chan j).queue.erase f, replay := (s.chan j).replay ++ [(q, l, f)] }
      f.cls fun k => { k with nextSeq := (q + 1) % 2 ^ 16 }) l g ∧ ∀ k, (g k).lsn = k.lsn := by
    show ∃ g, (s.fillSlot j l).chan j = _ ∧ _
    rw [ht, State.sendNew, State.chan_mapChan_same, hchan, Chan.mapLink_queue, Chan.mapLink_replay]
    by_cases hlow : f.cls ≤ 1
    · rw [if_pos hlow]
      exact ⟨_, rfl, fun _ => rfl⟩
    · rw [if_neg hlow]
      exact ⟨id, by unfold Chan.mapLink; split <;> rfl, fun _ => rfl⟩
  obtain ⟨g, hx, hg⟩ := hx
  refine ⟨?_, fun a _ => ?_, ?_, ?_, ?_, ?_⟩
  · show (s.fillSlot j l).out = _
    rw [ht]
    exact hout
  · show (s.fillSlot j l).rd a = _
    rw [ht, State.sendNew, State.rd_mapChan, State.rd, hregs, State.rd]
  · rw [hx, Chan.cls_mapLink, Chan.cls_mapCls_same]
  · rw [hx, Chan.mapLink_queue]; rfl
  · rw [hx, Chan.mapLink_replay]; rfl
  · rw [hx, Chan.link_mapLink_same, hg, Chan.link_mapCls]
    show (Chan.link ((s.chan j).mapLink l _) l).lsn = _
    rw [Chan.link_mapLink_same]
    rfl

theorem State.fillSlot_idle (h0 : (s.chan j).resends = []) (hf : s.nextNew j l = none) : s.fillSlot j l = s.sendIdle j l false := by
  simp only [State.fillSlot, State.nextResend_none h0, hf]

end

/-! ### The reorder buffer (R265, R270) -/

/-- Taking away the first flit of a class takes away what erasing it does. -/
theorem foldl_dropFirst {c : Nat} {f : Flit} {rest xs : List Flit} (h : xs.filter (fun g => g.cls == c) = f :: rest) (as : List Flit) :
    (xs.foldl (fun (a : Nat × List Flit) g => if g.cls == c && a.1 < 1 then (a.1 + 1, a.2) else (a.1, a.2 ++ [g])) (0, as)).2 = as ++ xs.erase f := by
  have hkeep : ∀ (ys bs : List Flit),
      (ys.foldl (fun (a : Nat × List Flit) g => if g.cls == c && a.1 < 1 then (a.1 + 1, a.2) else (a.1, a.2 ++ [g])) (1, bs)).2 = bs ++ ys := by
    intro ys
    induction ys with
    | nil => exact fun bs => (List.append_nil bs).symm
    | cons y ys ih =>
      intro bs
      rw [List.foldl_cons, if_neg (by simp), ih, List.append_assoc]
      rfl
  induction xs generalizing as with
  | nil => exact nomatch h
  | cons g xs ih =>
    by_cases hg : (g.cls == c) = true
    · rw [List.filter_cons, if_pos hg] at h
      obtain ⟨rfl, -⟩ := List.cons.inj h
      rw [List.foldl_cons, if_pos (by simpa using hg), hkeep, List.erase_cons_head]
    · rw [List.filter_cons, if_neg hg] at h
      have hfc : (f.cls == c) = true := (List.mem_filter.1 (h ▸ List.mem_cons_self : f ∈ xs.filter fun g => g.cls == c)).2
      have hne : ¬ (g == f) = true := fun he => hg (by rw [eq_of_beq he]; exact hfc)
      rw [List.foldl_cons, if_neg (by simp [hg]), ih h, List.erase_cons_tail hne, List.append_assoc]
      rfl

/-- An update of a channel is what it makes of that channel. -/
theorem State.mapChan_congr (s : State) {j : Nat} {g h : Chan → Chan} (e : g (s.chan j) = h (s.chan j)) : s.mapChan j g = s.mapChan j h :=
  congrArg (fun x => { s with fab := { s.fab with chans := aput Chan.reset s.fab.chans j x } }) e

/-- The channel once a crate of one flit of class `c` has left its reorder buffer, which keeps `left`. -/
def Chan.released (x : Chan) (c : Nat) (left : List Flit) : Chan :=
  let x : Chan := { x with ready := left, waits := aput none x.waits c none }
  let y : ClassState := x.cls c
  let h : Nat := (y.outH + 1) % 2 ^ 16
  let d : Nat := (y.outD + 1) % 2 ^ 16
  let due := decide (32 ≤ (h + 2 ^ 16 - y.repH) % 2 ^ 16) || decide (32 ≤ (d + 2 ^ 16 - y.repD) % 2 ^ 16)
  { x.mapCls c fun k => { k with outH := h, outD := d } with creditDue := x.creditDue || due }

theorem Chan.cls_released (x : Chan) (c : Nat) (left : List Flit) :
    (x.released c left).cls c = { x.cls c with outH := ((x.cls c).outH + 1) % 2 ^ 16, outD := ((x.cls c).outD + 1) % 2 ^ 16 } :=
  Chan.cls_mapCls_same { x with ready := left, waits := aput none x.waits c none } c fun k =>
    { k with outH := ((x.cls c).outH + 1) % 2 ^ 16, outD := ((x.cls c).outD + 1) % 2 ^ 16 }

/-- A crate of one flit has the flit's TAG, and waits for nothing yet. -/
theorem crateOf_one {j : Nat} {f : Flit} {d : Crate} (h : crateOf j [f] = some d) : d.tag = f.tag ∧ d.since = none := by
  cases h
  exact ⟨rfl, rfl⟩

section
variable {s : State} {j : Nat} {d : Crate}

/-- A crate for this module lands under the module's number, and but for an Office crate from a campus channel in its class (R293, R402). -/
theorem State.landed_mine (j : Nat) (hm : s.substMod d.destModule = s.myId) : ∃ k, s.landed j d = { d with destModule := s.myId, tc := k }
    ∧ (k = 3 ∨ k = d.tc) ∧ (d.op ≠ 0x10 → k = d.tc) := by
  unfold State.landed
  simp only [hm]
  split
  next h =>
    simp only [Bool.and_eq_true, decide_eq_true_eq] at h
    exact ⟨3, rfl, .inl rfl, fun hop => absurd h.1.2 hop⟩
  next => exact ⟨d.tc, rfl, .inr rfl, fun _ => rfl⟩

end

section
variable (s : State) (j i : Nat) (c : Crate)

theorem State.noRoute_chan (d : Nat) : (s.noRoute d).chan i = s.chan i := by unfold State.chan; rw [(s.noRoute_spec d).1]

theorem State.toCorridor_chan (a : Nat) : (s.toCorridor a c).chan i = s.chan i := by
  unfold State.toCorridor
  split
  · rfl
  · exact (State.event_recorded _ _ _ _ _ _ _).chan i

theorem State.intoMesh_chan : (s.intoMesh j c).chan i = s.chan i := by
  unfold State.intoMesh
  split
  · exact s.noRoute_chan i _
  · exact s.toCorridor_chan i c _

theorem State.toRegistrar_chan : (s.toRegistrar j c).chan i = s.chan i := by
  unfold State.toRegistrar
  split
  · exact s.noRoute_chan i _
  · split
    · rfl
    · exact (State.event_recorded _ _ _ _ _ _ _).chan i

theorem State.takeTransit_chan : (s.takeTransit j c).chan i = s.chan i := by
  unfold State.takeTransit
  extract_lets ok
  split
  · rfl
  · exact (State.event_recorded _ _ _ _ _ _ _).chan i

/-- An arriving crate may count its congestion, which leaves the fabric. -/
theorem State.countCongested_fab (p : Prop) [Decidable p] (a : Nat) : (if p then s.bump a else s).fab = s.fab := by
  split <;> rfl

/-- A crate that arrives leaves every channel. -/
theorem State.arriveModule_chan : (s.arriveModule j c).chan i = s.chan i := by
  unfold State.arriveModule
  extract_lets mine t
  have ht : t.chan i = s.chan i := by
    rw [State.chan, s.countCongested_fab, State.chan]
  rw [← ht]
  split
  · rfl
  · split
    · exact t.takeTransit_chan j i c
    · split
      · rfl
      · split
        · exact t.noRoute_chan i _
        · split
          · exact t.toRegistrar_chan (j / 9) i c
          · split
            · rfl
            · exact t.intoMesh_chan (j / 9) i c

/-- A COLLATE crate waits at a Wing (R303). -/
theorem State.arriveModule_collate {c : Crate} (h : c.op = 4) : (s.arriveModule j c).fab.collIn = s.fab.collIn ++ [c] := by
  unfold State.arriveModule
  extract_lets mine t
  rw [if_pos h]
  show t.fab.collIn ++ [c] = _
  rw [s.countCongested_fab]

end

section
variable {s : State} {j c : Nat} {f : Flit} {rest : List Flit} {d : Crate}

/-- A WAVE message finds a place while fewer than 64 are held or wait for the Registrar (R315). -/
theorem State.waveFull_eq_false {d : Crate} (h : d.op = 0x11 → s.fab.heldWaves.length + s.fab.regIn.length < 64) : s.waveFull d = false := by
  by_cases hop : d.op = 0x11
  · have hlen := List.length_filter_le (fun e : Crate => e.op == 0x11 && at_ e.data 1 1 != 0xFF
      && seqBefore (s.rn (winBase .pln 0 + rPLN_GEN_LO) % 2 ^ 16) (at_ e.data 6 2)) s.fab.regIn
    have hroom := h hop
    have hlt : ¬ 64 ≤ s.fab.heldWaves.length + (s.fab.regIn.filter fun e : Crate => e.op == 0x11 && at_ e.data 1 1 != 0xFF
      && seqBefore (s.rn (winBase .pln 0 + rPLN_GEN_LO) % 2 ^ 16) (at_ e.data 6 2)).length := by omega
    simp only [State.waveFull, hlt, decide_false, Bool.and_false]
  · simp [State.waveFull, hop]

/-- A whole crate of one flit for this module that nothing holds leaves the reorder buffer and arrives (R265, R270). -/
theorem execReorderRelease_one (hj : j < 36) (hready : (s.chan j).ready.filter (fun g => g.cls == c) = f :: rest) (hlast : f.last = true)
    (hd : crateOf j [f] = some d) (hset : s.unset = false) (hm : s.substMod d.destModule = s.myId) (htile : d.destTile % 64 ≤ 32 ∨ d.tc = 3)
    (hcoll : d.op = 4 ∨ c = 1 → ∀ q ∈ s.fab.collIn, q.via ≠ d.via) (hwave : d.op = 0x11 → s.fab.heldWaves.length + s.fab.regIn.length < 64)
    (hgal : s.f (winBase .gal 0 + rGAL_STAT) 0 1 = 0) (hcol : c = 1 → s.halted .col (j / 9) = false) :
    ∃ k, exec (.reorderRelease j c) s =
        .next ((s.mapChan j fun x => x.released c (x.ready.erase f)).arriveModule j { d with destModule := s.myId, tc := k })
      ∧ (d.op ≠ 0x10 → k = d.tc) := by
  obtain ⟨htag, hsince⟩ := crateOf_one hd
  obtain ⟨k, hland, hk, hk4⟩ := s.landed_mine j hm
  refine ⟨k, ?_, hk4⟩
  have hmine : s.forMe (s.landed j d) = true := by rw [hland]; simp [State.forMe, hset]
  have hfull : s.waveFull (s.landed j d) = false := State.waveFull_eq_false (by rwa [hland])
  have hcolumn : ((s.landed j d).tc != 3 && decide (33 ≤ (s.landed j d).destTile % 64)) = false := by
    rw [hland]
    rcases htile with h | h
    · simp [Nat.not_le.2 (Nat.lt_succ_of_le h)]
    · rcases hk with rfl | rfl
      · simp
      · simp [h]
  have hwait : ((decide ((s.landed j d).op = 4) || decide (c = 1)) && s.fab.collIn.any fun q => q.via == (s.landed j d).via) = false := by
    rw [hland]
    by_cases h : d.op = 4 ∨ c = 1
    · simpa using fun _ => hcoll h
    · simp only [not_or] at h
      simp [h]
  have hhalt : (decide (c = 1) && s.halted .col (j / 9)) = false := by
    by_cases h : c = 1
    · simp [h, hcol h]
    · simp [h]
  have htake : ((f :: rest).takeWhile fun g => !g.last).length + 1 = 1 := by simp [hlast]
  have hone : ¬ (f :: rest).length < 1 := by simp
  have hsplit : ([f].any fun g => g.tag != (s.landed j d).tag) = false := by rw [hland, List.any_cons, htag]; simp
  have hdrop := foldl_dropFirst hready []
  have hlanded : { s.landed j d with since := none } = { d with destModule := s.myId, tc := k } := by rw [hland, ← hsince]
  show execReorderRelease j c s = _
  simp only [execReorderRelease, hready, htake, List.take_succ_cons, List.take_zero, hd, hsplit, hmine, hfull, hgal, hcolumn, hwait, hhalt, hj, hone,
    Nat.zero_ne_one, decide_true, decide_false, Bool.not_true, Bool.not_false, Bool.true_and, Bool.false_and, Bool.or_false, Bool.and_false,
    Bool.false_eq_true, if_false, Option.isSome_none]
  rw [hlanded]
  exact congrArg (fun t => Host.Outcome.next (State.arriveModule t j _)) (s.mapChan_congr (congrArg (Chan.released (s.chan j) c) hdrop))

end

/-! ### The timers (R266, R268, R270) -/

/-- Every flit last sent on link `l` is due again, and so is every flit that was (R268, R269). -/
theorem Chan.mem_retx_resend (x : Chan) (l : Nat) :
    (∀ e ∈ x.replay, e.2.1 = l → (e.2.2.cls, e.1) ∈ (x.resend l).retx) ∧ ∀ e ∈ x.retx, e ∈ (x.resend l).retx := by
  refine ⟨fun e he hl => ?_, fun e he => List.mem_append_left _ he⟩
  by_cases hin : (e.2.2.cls, e.1) ∈ x.retx
  · exact List.mem_append_left _ hin
  · refine List.mem_append_right _ (List.mem_filter.2 ⟨List.mem_map.2 ⟨e, List.mem_filter.2 ⟨he, by simp [hl]⟩, rfl⟩, by simpa using hin⟩)

section
variable {s : State} {j l c : Nat}

theorem execAckTimerExpiry_due (hj : j < 36) (h : 0 < (s.chan j).inOrder) :
    exec (.ackTimerExpiry j) s = .next (s.mapChan j fun y => { y with controlDue := true }) := congrArg Host.Outcome.next (if_pos ⟨hj, h⟩)

theorem execCreditTimerExpiry_due (hj : j < 36) (hc : c < 4) (hdue : (s.chan j).controlDue = false) (h : ((s.chan j).cls c).outH ≠ ((s.chan j).cls c).repH) :
    exec (.creditTimerExpiry j) s = .next (s.mapChan j fun y => { y with creditDue := true }) := by
  have hany : (List.range 4).any (fun c => ((s.chan j).cls c).outH != ((s.chan j).cls c).repH || ((s.chan j).cls c).outD != ((s.chan j).cls c).repD) = true :=
    List.any_eq_true.2 ⟨c, List.mem_range.2 hc, by simp [h]⟩
  exact congrArg Host.Outcome.next (if_pos (by simp [hj, hdue, hany]))

theorem execReplayTimerExpiry_runs (hj : j < 36) (hl : l < 2) (h : s.quietChan j = false) :
    exec (.replayTimerExpiry j l) s = .next (s.mapChan j fun x => x.resend l) := congrArg Host.Outcome.next (if_pos (by simp [hj, hl, h]))

end

/-! ### The statement -/

theorem otherHeader_fault (slot : Nat) : otherHeader 4 slot (b2n true * 2 ^ 25) = 4 * 2 ^ 60 + slot * 2 ^ 26 + 2 ^ 25 := by simp [otherHeader, b2n]

theorem otherHeader_idle (slot : Nat) : otherHeader 4 slot (b2n false * 2 ^ 25) = 4 * 2 ^ 60 + slot * 2 ^ 26 := by simp [otherHeader, b2n]

/-- Settles O41: what a slot carries by what is due, the release of a crate of one flit, and the three timers. -/
theorem slotsAndTimers : Obligations.SlotsAndTimers := by
  intro s j l hj hl
  refine ⟨fun hr hlock => ?_, fun hr hlock hruns hinit hcontrol hwidth hcredit hother hfault hpeer => ?_,
    fun c f rest d hready hlast hd hset hm htile hcoll hwave hgal hcol => ?_, fun h => ⟨_, execAckTimerExpiry_due hj h, rfl⟩,
    fun c hc hdue h => ⟨_, execCreditTimerExpiry_due hj hc hdue h, rfl⟩, fun h => ?_⟩
  · obtain ⟨hout, hregs, hlsn⟩ := (s.countStuff (j / 9)).sendOther_spec j l [] 4 (b2n true * 2 ^ 25)
    rw [otherHeader_fault] at hout
    exact ⟨_, execFlitSlot_locked hr hlock, hout, hregs, hlsn⟩
  · have hfree : FreeSlot s j l := ⟨hr, hlock, hruns, hinit, hcontrol, hwidth, hcredit, hother, hfault, hpeer⟩
    refine ⟨fun e he hc => ?_, fun h0 f hf hc _ => ?_, fun h0 hf => ?_⟩
    · exact ⟨_, execFlitSlot_free hfree, (s.countStuff (j / 9)).fillSlot_resend he hc⟩
    · exact ⟨_, execFlitSlot_free hfree, (s.countStuff (j / 9)).fillSlot_new h0 hf hc⟩
    · obtain ⟨hout, hregs, -⟩ := (s.countStuff (j / 9)).sendOther_spec j l [] 4 (b2n false * 2 ^ 25)
      rw [otherHeader_idle] at hout
      have hidle : (s.countStuff (j / 9)).fillSlot j l = (s.countStuff (j / 9)).sendIdle j l false := State.fillSlot_idle h0 hf
      exact ⟨_, (execFlitSlot_free hfree).trans (congrArg _ hidle), hout, hregs⟩
  · obtain ⟨k, hexec, hk⟩ := execReorderRelease_one hj hready hlast hd hset hm htile hcoll hwave hgal hcol
    refine ⟨_, hexec, ?_, ?_, ?_, ?_, fun hop => ?_⟩
    · rw [State.arriveModule_chan, State.chan_mapChan_same]; rfl
    · rw [State.arriveModule_chan, State.chan_mapChan_same]; rfl
    · rw [State.arriveModule_chan, State.chan_mapChan_same, Chan.cls_released]
    · rw [State.arriveModule_chan, State.chan_mapChan_same, Chan.cls_released]
    · obtain rfl := hk (by omega)
      exact State.arriveModule_collate _ _ (c := { d with destModule := s.myId }) hop
  · obtain ⟨hlink, hold⟩ := (s.chan j).mem_retx_resend l
    refine ⟨_, execReplayTimerExpiry_runs hj hl h, ?_, fun a _ => rfl, ?_, ?_⟩
    · rw [State.chan_mapChan_same]; rfl
    · rw [State.chan_mapChan_same]; exact hlink
    · rw [State.chan_mapChan_same]; exact hold

end Sys2Proof.Machine

/-! PROOFS. What suspends, ends and resets a link or its channel (R276, R278, R279): the first part of O42. -/

namespace Sys2Proof.Machine

open Sys2Proof

/-! ### Fields that a reset event clears (R10) -/

/-- Whether an event of class `ev` clears a field of the register at `a`. -/
def clearsField (ev : Cls) (a lo w : Nat) : Bool :=
  (regRow a).any fun e => e.2.2.1.fields.any fun f => f.lo == lo && f.width == w && f.cls.clearedBy ev

/-- The row of an address is one of its block's table. -/
theorem mem_rowsOf_of_regRow {a i k : Nat} {b : Blk} {r : RegRow} (h : regRow a = some (b, i, r, k)) : r ∈ rowsOf b := by
  cases hb : blkOf a with
  | none => simp [regRow, hb] at h
  | some e =>
    obtain ⟨b', i', o⟩ := e
    cases hf : findRow (rowsOf b') o with
    | none => simp [regRow, hb, hf] at h
    | some e =>
      simp only [regRow, hb, hf, Option.some.injEq, Prod.mk.injEq] at h
      obtain ⟨rfl, rfl, rfl, rfl⟩ := h
      exact (findRow_spec hf).1

/-- A field that the event clears is at its reset value afterwards. -/
theorem fld_clearOne {ev : Cls} {a lo w : Nat} (h : clearsField ev a lo w = true) (v : Word) :
    fld (clearOne ev a v).toNat lo w = fld (resetVal a).toNat lo w := by
  cases hr : regRow a with
  | none => simp [clearsField, hr] at h
  | some e =>
    obtain ⟨b, i, r, k⟩ := e
    obtain ⟨f, hf, hlo, hw, hc⟩ : ∃ f ∈ r.fields, f.lo = lo ∧ f.width = w ∧ f.cls.clearedBy ev = true := by
      simpa [clearsField, hr, and_assoc] using h
    subst hlo hw
    obtain ⟨hfit, hapart⟩ := rowsOf_sound b r (mem_rowsOf_of_regRow hr)
    have hfold : clearFields r.fields (resetVal a).toNat v.toNat ev = (r.fields.filter fun f => f.cls.clearedBy ev).foldl
        (fun x f => setFld x f.lo f.width (fld (resetVal a).toNat f.lo f.width)) v.toNat := List.foldl_filter.symm
    have hlt : clearFields r.fields (resetVal a).toNat v.toNat ev < 2 ^ 32 := by
      rw [hfold]
      exact foldl_setFld_lt _ (fun f hf => (hfit f (List.mem_of_mem_filter hf)).2.1) v.isLt
    simp only [clearOne, hr]
    rw [BitVec.toNat_ofNat, Nat.mod_eq_of_lt hlt, hfold, fld_foldl_setFld (fun f => fld (resetVal a).toNat f.lo f.width) (hapart.filter _)
      (List.mem_filter.2 ⟨hf, hc⟩), fld_mod]

/-- A register in the range of an event holds what the event makes of some value. -/
theorem State.rd_clearRange_inside (s : State) (ev : Cls) {lo hi a : Nat} (h : lo ≤ a ∧ a < hi) :
    ∃ v, (s.clearRange ev lo hi).rd a = clearOne ev a v := by
  have hfold : ∀ (es : Assoc Word) (t : State), (a ∈ es.map (·.1) ∨ ∃ v, t.rd a = clearOne ev a v) →
      ∃ v, (es.foldl (fun st e => if lo ≤ e.1 ∧ e.1 < hi then st.wr e.1 (clearOne ev e.1 (st.rd e.1)) else st) t).rd a = clearOne ev a v := by
    intro es
    induction es with
    | nil => exact fun t ht => ht.resolve_left List.not_mem_nil
    | cons e es ih =>
      intro t ht
      refine ih _ ?_
      by_cases he : a = e.1
      · subst he
        exact .inr ⟨t.rd e.1, by dsimp only; rw [if_pos h, State.rd_wr, if_pos rfl]⟩
      · refine ht.imp (fun ht => (List.mem_cons.1 ht).resolve_left he) (Exists.imp fun v hv => ?_)
        rw [← hv]
        dsimp only
        split
        · exact State.rd_wr_ne _ _ he
        · rfl
  by_cases ha : a ∈ s.regs.map (·.1)
  · exact hfold s.regs s (.inl ha)
  · exact hfold s.regs s (.inr ⟨resetVal a, by rw [State.rd_unlisted ha, clearOne_resetVal]⟩)

/-- A field cleared in the range of an event is at its reset value. -/
theorem State.f_clearRange (s : State) {ev : Cls} {lo hi a x w : Nat} (h : lo ≤ a ∧ a < hi) (hc : clearsField ev a x w = true) :
    (s.clearRange ev lo hi).f a x w = fld (resetVal a).toNat x w := by
  obtain ⟨v, hv⟩ := s.rd_clearRange_inside ev h
  rw [State.f, State.rn, hv, fld_clearOne hc]

/-! ### A channel reset (R279, R283) -/

theorem clearsField_drop : ∀ j < 36, clearsField .chn (cr j rWNG_DROP_COUNT) 0 32 = true ∧ fld (resetVal (cr j rWNG_DROP_COUNT)).toNat 0 32 = 0 := by
  decide +kernel

theorem clearsField_linkState : ∀ j < 36, ∀ l < 2,
    clearsField .chn (cr j rWNG_CHAN_STAT) (4 + 2 * l) 2 = true ∧ fld (resetVal (cr j rWNG_CHAN_STAT)).toNat (4 + 2 * l) 2 = 0 := by
  decide +kernel

theorem OnlyRegs.chan {s t : State} (h : OnlyRegs s t) (k : Nat) : t.chan k = s.chan k := by unfold State.chan; rw [h]

section
variable (s : State) (j : Nat)

theorem State.clearChan_onlyRegs : OnlyRegs s (s.clearChan j) := by
  have hcut : ∀ (u : State) (lo hi : Nat), OnlyRegs s u → OnlyRegs s (u.clearRange .chn lo hi) :=
    fun u lo hi h => h.trans (OnlyRegs.clearRange u .chn lo hi)
  unfold State.clearChan
  refine List.foldlRecOn _ _ ?_ fun u hu i _ => ?_
  · exact hcut _ _ _ (hcut _ _ _ (hcut _ _ _ (hcut _ _ _ (hcut _ _ _ (hcut _ _ _ (OnlyRegs.refl s))))))
  · dsimp only
    split
    · exact hu
    · exact hu.trans (OnlyRegs.setf _ _ _ _ _)

/-- A channel's own registers are cleared as one range, and the rest of its reset leaves them. -/
theorem State.rd_clearChan {o : Nat} (lo : 0x1000 ≤ o) (hi : o < 0x1140) : (s.clearChan j).rd (cr j o) =
    (s.clearRange .chn (wg (j / 9) (rWNG_CHAN_STAT + 0x40 * (j % 9))) (wg (j / 9) (rWNG_CHAN_STAT + 0x40 * (j % 9) + 4 * 16))).rd (cr j o) := by
  have hout : ∀ (u : State) {lo hi : Nat}, cr j o < lo ∨ hi ≤ cr j o → (u.clearRange .chn lo hi).rd (cr j o) = u.rd (cr j o) :=
    fun u _ _ h => u.rd_clearRange_outside .chn h
  unfold State.clearChan
  refine List.foldlRecOn _ _ (motive := fun u : State => u.rd (cr j o) = _) ?_ fun u hu i _ => ?_
  · simp only [cr, wg, rWNG_LINK_STAT, rWNG_RX_SLOT_STAT, rWNG_RX_SLOT_QUAL, rWNG_TX_SLOT_STAT, rWNG_STEER_MAP] at hout ⊢
    rw [hout, hout, hout, hout, hout]
    all_goals omega
  · dsimp only
    split
    · exact hu
    · rw [RegsBut.setf u _ _ _ _ _ (by simp only [cr, wg, rWNG_CAL_RX, List.mem_singleton]; omega), hu]

/-- A field of the channel that the reset clears is at its reset value. -/
theorem State.f_clearChan {o x w : Nat} (lo : 0x1100 ≤ o) (hi : o < 0x1140) (hc : clearsField .chn (cr j o) x w = true) :
    (s.clearChan j).f (cr j o) x w = fld (resetVal (cr j o)).toNat x w := by
  rw [State.f, State.rn, s.rd_clearChan j (by omega) hi, ← State.rn, ← State.f]
  exact s.f_clearRange (by simp only [cr, wg, rWNG_CHAN_STAT]; omega) hc

theorem State.abandonCal_fab : (s.abandonCal j).fab = s.fab := by
  unfold State.abandonCal State.requeueCal
  split
  · rfl
  · split
    · rfl
    · rfl

/-- A channel's buffers and lanes at their reset, with nothing noted of its slots (R279). -/
def State.withoutFlits (t : State) (j : Nat) (isolated : Bool) : State :=
  let t := t.mapChan j fun _ => { Chan.reset with isolated := isolated }
  let keep := fun (u : State) (l : Nat) => u.mapLane j l fun k => { LaneLink.reset with interval := k.interval }
  let t := keep (keep t 0) 1
  let base := 324 * (j / 9) + 36 * (j % 9)
  { t with light := { t.light with bad := acut t.light.bad base (base + 36), clearing := t.light.clearing.filter fun k => k < base || base + 36 ≤ k } }

theorem State.withoutFlits_regs (isolated : Bool) : (s.withoutFlits j isolated).regs = s.regs := rfl

theorem State.withoutFlits_fab (isolated : Bool) : (s.withoutFlits j isolated).fab = (s.mapChan j fun _ => { Chan.reset with isolated := isolated }).fab := rfl

/-- The reset of a channel's buffers, lanes and registers, before STATE and the count of its flits. -/
def State.emptied (s : State) (j : Nat) : State := ((s.abandonCal j).clearChan j).withoutFlits j (s.chan j).isolated

theorem State.resetChan_eq : s.resetChan j =
    (if (s.chan j).isolated then s.emptied j else (s.emptied j).setf (cr j rWNG_CHAN_STAT) 0 3 1).bumpN (cr j rWNG_DROP_COUNT)
      ((s.chan j).replay.length + (s.chan j).queue.length + (s.chan j).held.length + (s.chan j).ready.length) := rfl

theorem State.chan_emptied (k : Nat) : (s.emptied j).chan k = if k = j then { Chan.reset with isolated := (s.chan j).isolated } else s.chan k := by
  have hold : ((s.abandonCal j).clearChan j).chan k = s.chan k :=
    (((s.abandonCal j).clearChan_onlyRegs j).chan k).trans (by rw [State.chan, s.abandonCal_fab, State.chan])
  rw [State.chan, State.emptied, State.withoutFlits_fab, ← State.chan]
  by_cases h : k = j
  · rw [if_pos h, h, State.chan_mapChan_same]
  · rw [if_neg h, State.chan_mapChan_ne _ _ h, hold]

theorem State.chan_resetChan (k : Nat) : (s.resetChan j).chan k = if k = j then { Chan.reset with isolated := (s.chan j).isolated } else s.chan k := by
  rw [s.resetChan_eq, State.chan_bumpN, ← s.chan_emptied j k]
  by_cases h : (s.chan j).isolated = true
  · rw [if_pos h]
  · rw [if_neg h, State.chan_setf]

theorem State.f_emptied (a x w : Nat) : (s.emptied j).f a x w = ((s.abandonCal j).clearChan j).f a x w := by
  simp only [State.f, State.rn, State.rd, State.emptied, State.withoutFlits_regs]

end

section
variable (s : State) {j : Nat}

/-- Before it counts, a reset writes STATE alone over what clearing leaves. -/
theorem State.f_resetChan {o : Nat} (ho : o ≠ rWNG_DROP_COUNT) {x : Nat} (w : Nat) (hx : 3 ≤ x ∨ o ≠ rWNG_CHAN_STAT) :
    (s.resetChan j).f (cr j o) x w = ((s.abandonCal j).clearChan j).f (cr j o) x w := by
  rw [s.resetChan_eq, State.f_bumpN_ne _ _ _ _ (by simpa using ho), ← s.f_emptied j]
  by_cases hiso : (s.chan j).isolated = true
  · rw [if_pos hiso]
  · rw [if_neg hiso]
    by_cases h : o = rWNG_CHAN_STAT
    · subst h
      exact State.f_setf_apart _ _ _ (by omega) (.inr (hx.resolve_right (fun h => h rfl)))
    · exact State.f_setf_ne _ _ _ _ _ _ (by simpa using h)

/-- A reset channel trains again, unless it is isolated (R279). -/
theorem State.chanState_resetChan (h : (s.chan j).isolated = false) : (s.resetChan j).chanState j = 1 := by
  rw [s.resetChan_eq, State.chanState, State.f_bumpN_ne _ _ _ _ (by simp [rWNG_CHAN_STAT, rWNG_DROP_COUNT]), h, if_neg (by decide)]
  exact State.f_setf_same _ _ _ (by omega)

/-- A reset counts the channel's flits from 0 (R279). -/
theorem State.rn_resetChan_drop (hj : j < 36) : (s.resetChan j).rn (cr j rWNG_DROP_COUNT) =
    min 0xFFFFFFFF ((s.chan j).replay.length + (s.chan j).queue.length + (s.chan j).held.length + (s.chan j).ready.length) := by
  obtain ⟨hclears, hreset⟩ := clearsField_drop j hj
  have hzero : (s.emptied j).rn (cr j rWNG_DROP_COUNT) = 0 := by
    have hf := (s.abandonCal j).f_clearChan j (by decide) (by decide) hclears
    rwa [← s.f_emptied, hreset, State.f, fld, Nat.pow_zero, Nat.div_one, Nat.mod_eq_of_lt (State.rn_lt _ _)] at hf
  rw [s.resetChan_eq, State.rn_bumpN]
  by_cases h : (s.chan j).isolated = true
  · rw [if_pos h, hzero, Nat.zero_add]
  · rw [if_neg h, RegsBut.rn (RegsBut.setf _ _ _ _ _) (by simp [rWNG_CHAN_STAT, rWNG_DROP_COUNT]), hzero, Nat.zero_add]

/-- The links of a reset channel are down (R279). -/
theorem State.linkState_resetChan (hj : j < 36) {l : Nat} (hl : l < 2) : (s.resetChan j).linkState j l = 0 := by
  obtain ⟨hclears, hreset⟩ := clearsField_linkState j hj l hl
  rw [State.linkState, s.f_resetChan (by decide) _ (.inl (by omega)), State.f_clearChan _ _ (by decide) (by decide) hclears, hreset]

end

/-! ### Suspension (R276) -/

/-- A channel one of whose links is suspended: the link's flits are due again, and CONTROL is to say so. -/
def Chan.suspended (x : Chan) (l : Nat) : Chan :=
  { (x.resend l).mapLink l fun k =>
      { k with init := false, gotInit := false, sentAcked := false, gotAcked := false, rxLsn := none, log := [], fault := false,
               widthDue := false, fell := true } with
    controlDue := true, naks := x.naks.filter fun n => n.1 != l }

theorem Chan.suspended_spec (x : Chan) (l : Nat) :
    (x.suspended l).controlDue = true ∧ (x.suspended l).replay = x.replay ∧ (x.suspended l).retx = (x.resend l).retx :=
  ⟨rfl, Chan.mapLink_replay _ _ _, Chan.mapLink_retx _ _ _⟩

section
variable (s : State) {j l : Nat}

/-- An event of a link leaves the registers of a channel. -/
theorem State.f_linkEvent (hj : j < 36) (k : Nat) {o : Nat} (lo : 0x1000 ≤ o) (hi : o < 0x2000) (x w : Nat) :
    (s.linkEvent j l k).f (cr j o) x w = s.f (cr j o) x w := (s.linkEvent_frame hj l k).f (recordReg_cr hj lo hi) x w

theorem State.linkState_linkEvent (hj : j < 36) (k i : Nat) : (s.linkEvent j l k).linkState j i = s.linkState j i :=
  s.f_linkEvent hj k (by decide) (by decide) _ _

theorem State.suspend_eq (h : s.linkState j l = 2 ∨ s.linkState j l = 3 ∨ ((s.chan j).link l).init = true) : s.suspend j l =
    ((((s.setLink j l 1).mapChan j fun x => x.suspended l).bump (cr j rWNG_FAILOVER_COUNT)).linkEvent j l 0).refreshChan j := by
  refine if_neg ?_
  rcases h with h | h | h
  · simp [h]
  · simp [h]
  · simp [h]

/-- Suspension keeps the buffers, counts, and has the link's flits sent again (R276). -/
theorem State.suspend_spec (hj : j < 36) (hl : l < 2) (h : s.linkState j l = 2 ∨ s.linkState j l = 3 ∨ ((s.chan j).link l).init = true) :
    let t := s.suspend j l
    t.linkState j l = 1 ∧ t.linkState j (1 - l) = s.linkState j (1 - l) ∧ t.chan j = (s.chan j).suspended l
    ∧ t.rn (cr j rWNG_FAILOVER_COUNT) = min 0xFFFFFFFF (s.rn (cr j rWNG_FAILOVER_COUNT) + 1)
    ∧ RegsButRecords [cr j rWNG_CHAN_STAT, cr j rWNG_FAILOVER_COUNT] s t := by
  have hne : cr j rWNG_CHAN_STAT ≠ cr j rWNG_FAILOVER_COUNT := by simp [rWNG_CHAN_STAT, rWNG_FAILOVER_COUNT]
  have hstate : ∀ i, (s.suspend j l).linkState j i = (s.setLink j l 1).linkState j i := fun i => by
    rw [s.suspend_eq h, State.linkState_refreshChan, State.linkState_linkEvent _ hj, State.linkState, State.f_bump_ne _ _ _ hne]
    rfl
  intro t
  refine ⟨?_, ?_, ?_, ?_, ?_⟩
  · rw [hstate, s.linkState_setLink_same j hl]
  · rw [hstate, s.linkState_setLink_other j hl]
  · show (s.suspend j l).chan j = _
    rw [s.suspend_eq h, State.chan_refreshChan, State.chan_linkEvent, State.chan_bump, State.chan_mapChan_same, State.chan_setLink]
  · show (s.suspend j l).rn _ = _
    rw [s.suspend_eq h, RegsBut.rn (State.refreshChan_regs _ j) (by simpa using hne.symm),
      (State.linkEvent_frame _ hj l 0).rn (recordReg_cr hj (by decide) (by decide)), State.rn_bump, State.rn_mapChan, State.setLink,
      RegsBut.rn (RegsBut.setf _ _ _ _ _) (by simpa using hne.symm)]
  · show RegsButRecords _ s (s.suspend j l)
    rw [s.suspend_eq h]
    have hbefore : RegsBut [cr j rWNG_CHAN_STAT, cr j rWNG_FAILOVER_COUNT] s
        (((s.setLink j l 1).mapChan j fun x => x.suspended l).bump (cr j rWNG_FAILOVER_COUNT)) :=
      (((RegsBut.refl _ s).setfIn (by simp) _ _ _).mapChan j _).wnIn (by simp) _
    exact (hbefore.records.trans ((State.linkEvent_frame _ hj l 0).mono (List.forall_mem_nil _))).trans ((State.refreshChan_regs _ j).mono (by simp)).records

end

end Sys2Proof.Machine

/-! PROOFS. A link that goes down, with its sibling up or down (R278): the second part of O42. -/

namespace Sys2Proof.Machine

open Sys2Proof

/-! ### Calibrations abandoned -/

section
variable (s : State) (j k : Nat)

theorem State.abandonCal_regs : RegsBut [wg (j / 9) rWNG_CAL_ABANDON_COUNT] s (s.abandonCal j) := by
  unfold State.abandonCal State.requeueCal
  split
  · exact RegsBut.refl _ _
  · split
    · exact RegsBut.bump _ _
    · exact (RegsBut.bump s _).same rfl

theorem State.abandonOn_regs : RegsBut [wg (j / 9) rWNG_CAL_ABANDON_COUNT] s (s.abandonOn j k) := by
  unfold State.abandonOn
  split
  · split
    · exact s.abandonCal_regs j
    · exact RegsBut.refl _ _
  · exact RegsBut.refl _ _

theorem State.abandonOn_fab : (s.abandonOn j k).fab = s.fab := by
  unfold State.abandonOn
  split
  · split
    · exact s.abandonCal_fab j
    · rfl
  · rfl

theorem State.chan_abandonOn (i : Nat) : (s.abandonOn j k).chan i = s.chan i := by rw [State.chan, s.abandonOn_fab, State.chan]

/-- The registers of channels and links stand when a calibration is abandoned. -/
theorem State.f_abandonOn {a : Nat} (h : a ≠ wg (j / 9) rWNG_CAL_ABANDON_COUNT) (x w : Nat) : (s.abandonOn j k).f a x w = s.f a x w :=
  (s.abandonOn_regs j k).f (by simpa using h) x w

end

theorem cr_ne_calAbandon {j o : Nat} (h : o < 0x1140) : cr j o ≠ wg (j / 9) rWNG_CAL_ABANDON_COUNT := by
  simp only [cr, wg, rWNG_CAL_ABANDON_COUNT]; omega

/-- WNG_LINK_STAT of a link is no record's (R352). -/
theorem recordReg_lk {j l : Nat} (hj : j < 36) (hl : l < 2) : recordReg (lk j l rWNG_LINK_STAT) = false :=
  recordReg_wg (by omega) (by simp only [rWNG_LINK_STAT]; omega) (.inl (by simp only [rWNG_LINK_STAT]; omega))

/-! ### A link goes down (R278, R342) -/

/-- A channel one of whose links went down: the link's flits are due again, and CONTROL is to say so. -/
def Chan.fallen (x : Chan) (l : Nat) : Chan :=
  { (x.resend l).mapLink l fun k => { LinkState.reset with stamp := k.stamp, width := k.width, fell := true } with controlDue := true }

theorem Chan.fallen_spec (x : Chan) (l : Nat) : (x.fallen l).controlDue = true ∧ (x.fallen l).replay = x.replay ∧ (x.fallen l).retx = (x.resend l).retx
    ∧ (x.fallen l).isolated = x.isolated :=
  ⟨rfl, Chan.mapLink_replay _ _ _, Chan.mapLink_retx _ _ _, Chan.mapLink_isolated _ _ _⟩

/-- LINKl_STATE and LINKl_WIDTH of a link that is down. -/
def State.linkOff (s : State) (j l : Nat) : State := ((s.abandonOn j (s.rxFibre j l)).setLink j l 0).setWidth j l 3

/-- A link that is down, before its channel's STATE. -/
def State.linkFell (s : State) (j l : Nat) : State :=
  let s := (s.linkOff j l).mapChan j fun x => x.fallen l
  let s := (s.setf (lk j l rWNG_LINK_STAT) 0 3 5).mapLane j l fun k => { LaneLink.reset with interval := k.interval }
  (s.linkEvent j l 1).linkEvent j l 12

/-- What a link that went down shows, with its sibling as before. -/
structure LinkIsDown (j l : Nat) (s t : State) : Prop where
  state : t.linkState j l = 0
  width : t.f (cr j rWNG_CHAN_STAT) (8 + 2 * l) 2 = 3
  bringup : t.bringup j l = 5
  sibling : t.linkState j (1 - l) = s.linkState j (1 - l)
  chan : t.chan j = (s.chan j).fallen l
  regs : RegsButRecords [cr j rWNG_CHAN_STAT, lk j l rWNG_LINK_STAT, wg (j / 9) rWNG_CAL_ABANDON_COUNT] s t

section
variable (s : State) {j l : Nat}

theorem State.linkDown_eq (h : s.linkState j l ≠ 0) : s.linkDown j l =
    if (s.linkFell j l).linkState j (1 - l) = 0 then (s.linkFell j l).chanDown j l else (s.linkFell j l).refreshChan j := if_neg h

theorem State.f_linkOff_width (hl : l < 2) : (s.linkOff j l).f (cr j rWNG_CHAN_STAT) (8 + 2 * l) 2 = 3 := State.f_setf_same _ _ _ (by omega)

theorem State.linkState_linkOff (hl : l < 2) : (s.linkOff j l).linkState j l = 0 :=
  (State.f_setf_apart _ _ _ (by omega) (by omega)).trans (State.linkState_setLink_same _ j hl 0)

theorem State.linkState_linkOff_sibling (hl : l < 2) : (s.linkOff j l).linkState j (1 - l) = s.linkState j (1 - l) :=
  ((State.f_setf_apart _ _ _ (by omega) (by omega)).trans (State.linkState_setLink_other _ j hl 0)).trans
    (s.f_abandonOn j _ (cr_ne_calAbandon (by decide)) _ _)

theorem State.linkOff_regs : RegsBut [cr j rWNG_CHAN_STAT, lk j l rWNG_LINK_STAT, wg (j / 9) rWNG_CAL_ABANDON_COUNT] s (s.linkOff j l) :=
  (((s.abandonOn_regs j _).mono (by simp)).setfIn (by simp) _ _ _).setfIn (by simp) _ _ _

/-- Before STATE of its channel, a link that went down shows so. -/
theorem State.linkFell_isDown (hj : j < 36) (hl : l < 2) : LinkIsDown j l s (s.linkFell j l) := by
  have hstat : ∀ x w, (s.linkFell j l).f (cr j rWNG_CHAN_STAT) x w = (s.linkOff j l).f (cr j rWNG_CHAN_STAT) x w := fun x w =>
    calc (s.linkFell j l).f (cr j rWNG_CHAN_STAT) x w
      _ = (((s.linkOff j l).mapChan j fun x => x.fallen l).setf (lk j l rWNG_LINK_STAT) 0 3 5).f (cr j rWNG_CHAN_STAT) x w :=
          (State.f_linkEvent _ hj 12 (by decide) (by decide) x w).trans (State.f_linkEvent _ hj 1 (by decide) (by decide) x w)
      _ = (s.linkOff j l).f (cr j rWNG_CHAN_STAT) x w := State.f_setf_ne _ _ _ _ _ _ (lk_ne_cr hl (by decide)).symm
  refine ⟨(hstat _ _).trans (s.linkState_linkOff hl), (hstat _ _).trans (s.f_linkOff_width hl), ?_,
    (hstat _ _).trans (s.linkState_linkOff_sibling hl), ?_, ?_⟩
  · exact (((State.linkEvent_frame _ hj l 12).f (recordReg_lk hj hl) 0 3).trans ((State.linkEvent_frame _ hj l 1).f (recordReg_lk hj hl) 0 3)).trans
      (State.f_setf_same _ _ _ (by omega))
  · unfold State.linkFell
    rw [State.chan_linkEvent, State.chan_linkEvent, State.chan_mapLane, State.chan_setf, State.chan_mapChan_same, State.linkOff, State.chan_setWidth,
      State.chan_setLink, State.chan_abandonOn]
  · have hquiet : RegsBut [cr j rWNG_CHAN_STAT, lk j l rWNG_LINK_STAT, wg (j / 9) rWNG_CAL_ABANDON_COUNT] s
        ((((s.linkOff j l).mapChan j fun x => x.fallen l).setf (lk j l rWNG_LINK_STAT) 0 3 5).mapLane j l fun k =>
          { LaneLink.reset with interval := k.interval }) :=
      (((s.linkOff_regs).mapChan j _).setfIn (by simp) _ _ _).same rfl
    exact (hquiet.records.trans ((State.linkEvent_frame _ hj l 1).mono (List.forall_mem_nil _))).trans
      ((State.linkEvent_frame _ hj l 12).mono (List.forall_mem_nil _))

/-- With its sibling up, the channel's STATE follows (R278). -/
theorem State.linkDown_isDown (hj : j < 36) (hl : l < 2) (h : s.linkState j l ≠ 0) (hs : s.linkState j (1 - l) ≠ 0) :
    LinkIsDown j l s (s.linkDown j l) := by
  have hfell := s.linkFell_isDown hj hl
  rw [s.linkDown_eq h, if_neg (by rwa [hfell.sibling])]
  refine ⟨?_, ?_, ?_, ?_, hfell.chan, hfell.regs.trans ((State.refreshChan_regs _ j).mono (by simp)).records⟩
  · rw [State.linkState_refreshChan, hfell.state]
  · rw [State.f_refreshChan _ _ _ (by omega), hfell.width]
  · rw [State.bringup, (State.refreshChan_regs _ j).f (by simpa using lk_ne_cr hl (by decide)), ← State.bringup, hfell.bringup]
  · rw [State.linkState_refreshChan, hfell.sibling]

/-- With its sibling down as well, the channel is reset (R278, R279). -/
theorem State.linkDown_reset (hj : j < 36) (hl : l < 2) (h : s.linkState j l ≠ 0) (hs : s.linkState j (1 - l) = 0) : let t := s.linkDown j l
    t.linkState j l = 0 ∧ t.chan j = { Chan.reset with isolated := (s.chan j).isolated } ∧ ((s.chan j).isolated = false → t.chanState j = 1) := by
  have hfell := s.linkFell_isDown hj hl
  have hiso : (((s.linkFell j l).linkEvent j l 2).chan j).isolated = (s.chan j).isolated := by
    rw [State.chan_linkEvent, hfell.chan]
    exact (Chan.fallen_spec _ l).2.2.2
  have heq : s.linkDown j l = ((s.linkFell j l).linkEvent j l 2).resetChan j := by
    rw [s.linkDown_eq h, if_pos (by rw [hfell.sibling, hs])]; rfl
  rw [heq]
  refine ⟨State.linkState_resetChan _ hj hl, ?_, fun h0 => State.chanState_resetChan _ (hiso.trans h0)⟩
  rw [State.chan_resetChan, if_pos rfl, hiso]

/-- What comes before a link goes down, in records alone, shows no more. -/
theorem LinkIsDown.after {s t u : State} (hr : Recorded s t) (hf : RecordFrame s t) (hj : j < 36) (h : LinkIsDown j l t u) : LinkIsDown j l s u := by
  refine ⟨h.state, h.width, h.bringup, ?_, ?_, (hf.mono (List.forall_mem_nil _)).trans h.regs⟩
  · exact h.sibling.trans (hf.f (recordReg_cr hj (by decide) (by decide)) _ _)
  · rw [h.chan, hr.chan]

end

end Sys2Proof.Machine

/-! PROOFS. The lanes of a link under a width change (R275, R351): the third part of O42. -/

namespace Sys2Proof.Machine

open Sys2Proof

/-! ### What work on lanes leaves -/

/-- Nothing of the fabric, of what was sent, of the entropy drawn or of the lanes' records differs, and the registers in `kept` read as before. -/
structure LaneWork (kept : Nat → Prop) (s t : State) : Prop where
  regs : ∀ a, kept a → t.rd a = s.rd a
  fab : t.fab = s.fab
  out : t.out = s.out
  free : t.free = s.free
  links : t.light.links = s.light.links

section
variable {kept : Nat → Prop} {s t u : State}

theorem LaneWork.refl (s : State) : LaneWork kept s s := ⟨fun _ _ => rfl, rfl, rfl, rfl, rfl⟩

theorem LaneWork.trans (h : LaneWork kept s t) (k : LaneWork kept t u) : LaneWork kept s u :=
  ⟨fun a ha => (k.regs a ha).trans (h.regs a ha), k.fab.trans h.fab, k.out.trans h.out, k.free.trans h.free, k.links.trans h.links⟩

theorem LaneWork.wn (h : LaneWork kept s t) {a : Nat} (ha : ¬ kept a) (v : Nat) : LaneWork kept s (t.wn a v) :=
  h.trans ⟨fun _ hb => State.rd_wr_ne _ _ (fun e => ha (e ▸ hb)), rfl, rfl, rfl, rfl⟩

theorem LaneWork.setf (h : LaneWork kept s t) {a : Nat} (ha : ¬ kept a) (lo w v : Nat) : LaneWork kept s (t.setf a lo w v) := h.wn ha _

theorem LaneWork.chan (h : LaneWork kept s t) (k : Nat) : t.chan k = s.chan k := by rw [State.chan, h.fab, State.chan]

theorem LaneWork.lane (h : LaneWork kept s t) (j l : Nat) : t.lane j l = s.lane j l := by rw [State.lane, h.links, State.lane]

theorem LaneWork.f (h : LaneWork kept s t) {a : Nat} (ha : kept a) (lo w : Nat) : t.f a lo w = s.f a lo w := by
  simp only [State.f, State.rn, h.regs a ha]

theorem State.abandonOn_laneWork (s : State) {j : Nat} (k : Nat) (h : ¬ kept (wg (j / 9) rWNG_CAL_ABANDON_COUNT)) : LaneWork kept s (s.abandonOn j k) := by
  refine ⟨fun a ha => s.abandonOn_regs j k a (by rw [List.mem_singleton]; exact fun e => h (e ▸ ha)), s.abandonOn_fab j k, ?_, ?_, ?_⟩
  all_goals
    unfold State.abandonOn State.abandonCal State.requeueCal
    split
    · split
      · split
        · rfl
        · split
          · rfl
          · rfl
      · rfl
    · rfl

end

/-! ### Lanes -/

section
variable (s : State) (j : Nat)

theorem State.lane_mapLane (k : Nat) (g : LaneLink → LaneLink) (l : Nat) : (s.mapLane j k g).lane j l = if l = k then g (s.lane j k) else s.lane j l := by
  have h : 2 * j + l = 2 * j + k ↔ l = k := by omega
  simp only [State.lane, State.mapLane, aget_aput, h]

@[simp] theorem State.lane_mapLane_same (l : Nat) (g : LaneLink → LaneLink) : (s.mapLane j l g).lane j l = g (s.lane j l) :=
  (s.lane_mapLane j l g l).trans (if_pos rfl)

theorem State.lane_drawNonce (l : Nat) : (s.drawNonce j l).lane j l = { s.lane j l with nonce := Config.entropy s.free % 2 ^ 16 } :=
  State.lane_mapLane_same { s with free := s.free + 1 } j l _

theorem State.lane_drawNonce_ne {k l : Nat} (h : k ≠ l) : (s.drawNonce j l).lane j k = s.lane j k :=
  (State.lane_mapLane { s with free := s.free + 1 } j l _ k).trans (if_neg h)

/-- The frames of a link are those that stand once they are sent. -/
theorem State.out_sendFrames (l : Nat) (last : Bool) : (s.sendFrames j l last).out = s.out ++ (List.range 18).map fun x =>
    Out.training (j / 9) (2 * (j % 9) + l) (leBytes 32 ((s.sendFrames j l last).frame j l x last)) := rfl

end

/-! ### The moves of a link abandoned (R351) -/

theorem sl_tx_mem_laneRegs {j l x : Nat} (h : x < 36) : sl j x rWNG_TX_SLOT_STAT ∈ laneRegs j l :=
  List.mem_append_left _ (List.mem_append_right _ (List.mem_map_of_mem (f := (sl j · rWNG_TX_SLOT_STAT)) (List.mem_range.2 h)))

theorem sl_rx_mem_laneRegs {j l x : Nat} (h : x < 36) : sl j x rWNG_RX_SLOT_STAT ∈ laneRegs j l :=
  List.mem_append_left _ (List.mem_append_left _ (List.mem_map_of_mem (f := (sl j · rWNG_RX_SLOT_STAT)) (List.mem_range.2 h)))

theorem steer_mem_laneRegs {j l b : Nat} (h : b < 16) : steer j l b ∈ laneRegs j l :=
  List.mem_append_right _ (List.mem_map_of_mem (List.mem_range.2 h))

/-- A lane's record once its moves are abandoned. -/
def LaneLink.still (k : LaneLink) : LaneLink := { k with asked := [], moves := [], targets := [] }

/-- The new slots of a link's moves go back to filler, and its lanes to the slots they had. -/
def State.dropSlots (s : State) (j l : Nat) : State :=
  (List.range 16).foldl (fun (u : State) b => u.setf (steer j l b) 15 1 0)
    ((s.lane j l).moves.foldl (fun (u : State) m => if u.txUse j m.2 = 2 then u.releaseTx j m.2 else u) s)

section
variable {kept : Nat → Prop} {s t : State} {j l x : Nat}

theorem State.dropMoves_eq (s : State) (j l : Nat) : s.dropMoves j l = (s.dropSlots j l).mapLane j l LaneLink.still := rfl

theorem LaneWork.setTx (h : LaneWork kept s t) (hx : ¬ kept (sl j x rWNG_TX_SLOT_STAT)) (use lane : Nat) (other : Bool) :
    LaneWork kept s (t.setTx j x use lane other) := ((h.setf hx _ _ _).setf hx _ _ _).setf hx _ _ _

theorem LaneWork.setRx (h : LaneWork kept s t) (hx : ¬ kept (sl j x rWNG_RX_SLOT_STAT)) (use lane : Nat) (other : Bool) :
    LaneWork kept s (t.setRx j x use lane other) := ((h.setf hx _ _ _).setf hx _ _ _).setf hx _ _ _

/-- Moves abandoned write slots and lanes of the link alone. -/
theorem State.dropSlots_laneWork (hregs : ∀ a, kept a → a ∉ laneRegs j l) (hmoves : ∀ m ∈ (s.lane j l).moves, m.2 < 36) :
    LaneWork kept s (s.dropSlots j l) := by
  unfold State.dropSlots
  refine List.foldlRecOn _ _ (List.foldlRecOn _ _ (LaneWork.refl s) fun u hu m hm => ?_) fun u hu b hb => ?_
  · split
    · exact hu.setTx (fun hk => hregs _ hk (sl_tx_mem_laneRegs (hmoves m hm))) _ _ _
    · exact hu
  · exact hu.setf (fun hk => hregs _ hk (steer_mem_laneRegs (List.mem_range.1 hb))) _ _ _

end

/-! ### A width change (R275) -/

/-- A channel one of whose links stops for width code `w`: the link holds and offers the width, its flits are due again, and where
this end asks, the request is due on the links that are up. -/
def Chan.widthHeld (x : Chan) (l w : Nat) (ask sib : Bool) : Chan :=
  let due := fun (k : LinkState) (up : Bool) => { k with widthDue := k.widthDue || (ask && up) }
  { ((x.resend l).mapLink l fun k => due { k.exchange true with init := false, lsn := k.lsn, width := widthOf w, fault := false } true).mapLink (1 - l)
      fun k => due k sib with
    widthReq := if ask then some (l, w) else x.widthReq, controlDue := x.controlDue || ask, naks := x.naks.filter fun n => n.1 != l }

/-- A link whose moves are abandoned is held for a width change. -/
def State.holdLink (t : State) (j l w : Nat) (ask : Bool) : State :=
  ((t.setLink j l 3).mapChan j fun x => x.widthHeld l w ask (t.linkState j (1 - l) == 2)).refreshChan j

/-- A link held for a width change, before its lanes train. -/
def State.widthHeld (s : State) (j l w : Nat) (ask : Bool) : State :=
  (((s.abandonOn j (s.rxFibre j l)).dropSlots j l).mapLane j l LaneLink.still).holdLink j l w ask

/-- The lanes of a link, on receive fibre `f`, train anew. -/
def State.retrain (s : State) (j l f : Nat) : State :=
  (((s.mapLane j f fun k => { k with rxDone := false }).mapLane j l fun k => { k with peerDone := false }).drawNonce j l).sendFrames j l false

section
variable (x : Chan) {l : Nat}

theorem Chan.widthHeld_spec (w : Nat) (ask sib : Bool) : let y := x.widthHeld l w ask sib
    y.widthReq = (if ask then some (l, w) else x.widthReq) ∧ y.controlDue = (x.controlDue || ask) ∧ y.replay = x.replay :=
  ⟨rfl, rfl, by simp only [Chan.widthHeld, Chan.mapLink_replay]; rfl⟩

theorem Chan.link_widthHeld (hl : l < 2) (w : Nat) (ask sib : Bool) : ((x.widthHeld l w ask sib).link l).width = widthOf w
    ∧ ((x.widthHeld l w ask sib).link l).init = false := by
  have hlink : (x.widthHeld l w ask sib).link l = _ := (Chan.link_mapLink_other _ hl _).trans (Chan.link_mapLink_same _ l _)
  rw [hlink]
  exact ⟨rfl, rfl⟩

end

section
variable (s : State) {j l w : Nat} {ask : Bool}

theorem State.startWidth_eq (hup : s.linkState j l = 2) (hw : s.f (cr j rWNG_CHAN_STAT) (8 + 2 * l) 2 ≠ w) (hfeature : w = 1 → s.feature j 1 = true) :
    s.startWidth j l w ask = (s.widthHeld j l w ask).retrain j l (s.rxFibre j l) := by
  refine if_neg ?_
  by_cases h : w = 1
  · simp [hup, hw, hfeature h]
  · simp [hup, hw, h]

/-- The lanes of a link that train anew, and what was sent for them (R275, R335). -/
theorem State.retrain_spec (f : Nat) : let t := s.retrain j l f
    (t.lane j l).moves = (s.lane j l).moves ∧ (t.lane j f).rxDone = false ∧ (t.lane j l).peerDone = false
    ∧ (t.lane j l).nonce = Config.entropy s.free % 2 ^ 16 ∧ t.regs = s.regs ∧ t.fab = s.fab
    ∧ t.out = s.out ++ (List.range 18).map fun y => Out.training (j / 9) (2 * (j % 9) + l) (leBytes 32 (t.frame j l y false)) := by
  have hlane : (s.retrain j l f).lane j l = { (s.mapLane j f fun k => { k with rxDone := false }).lane j l with
      peerDone := false, nonce := Config.entropy s.free % 2 ^ 16 } := by
    refine (State.lane_drawNonce _ j l).trans ?_
    rw [State.lane_mapLane_same]
    rfl
  have hfibre : ((s.retrain j l f).lane j f).rxDone = false := by
    by_cases h : f = l
    · subst h
      rw [hlane, State.lane_mapLane_same]
    · refine (congrArg LaneLink.rxDone ((State.lane_drawNonce_ne _ j h).trans ?_)).trans
        (congrArg LaneLink.rxDone (s.lane_mapLane_same j f fun k => { k with rxDone := false }))
      rw [State.lane_mapLane, if_neg h]
  refine ⟨?_, hfibre, by rw [hlane], by rw [hlane], rfl, rfl, rfl⟩
  rw [hlane, State.lane_mapLane]
  split
  next h => rw [h]
  next => rfl

/-- Holding a link changes its channel and CHAN_STAT alone. -/
theorem State.holdLink_spec (hl : l < 2) : let t := s.holdLink j l w ask
    t.linkState j l = 3 ∧ t.chan j = (s.chan j).widthHeld l w ask (s.linkState j (1 - l) == 2) ∧ (∀ k i, t.lane k i = s.lane k i)
    ∧ t.out = s.out ∧ t.free = s.free ∧ RegsBut [cr j rWNG_CHAN_STAT] s t := by
  refine ⟨?_, ?_, fun _ _ => rfl, rfl, rfl, ?_⟩
  · exact (State.linkState_refreshChan _ j l).trans (State.linkState_setLink_same _ j hl 3)
  · rw [State.holdLink, State.chan_refreshChan, State.chan_mapChan_same, State.chan_setLink]
  · exact ((RegsBut.setf s _ _ _ _).mapChan j _).trans (State.refreshChan_regs _ j)

/-- Work on lanes before a lane's record changes. -/
theorem State.dropped_laneWork (hmoves : ∀ m ∈ (s.lane j l).moves, m.2 < 36) :
    LaneWork (· ∉ wg (j / 9) rWNG_CAL_ABANDON_COUNT :: laneRegs j l) s ((s.abandonOn j (s.rxFibre j l)).dropSlots j l) := by
  have hcal := s.abandonOn_laneWork (j := j) (kept := (· ∉ wg (j / 9) rWNG_CAL_ABANDON_COUNT :: laneRegs j l)) (s.rxFibre j l) (by simp)
  refine hcal.trans (State.dropSlots_laneWork (fun a ha h => ha (List.mem_cons_of_mem _ h)) ?_)
  rwa [hcal.lane]

/-- A link held for a width change (R275). -/
theorem State.widthHeld_spec (hl : l < 2) (hmoves : ∀ m ∈ (s.lane j l).moves, m.2 < 36) : let t := s.widthHeld j l w ask
    t.linkState j l = 3 ∧ (∃ sib, t.chan j = (s.chan j).widthHeld l w ask sib) ∧ (t.lane j l).moves = [] ∧ t.out = s.out ∧ t.free = s.free
    ∧ RegsBut ([cr j rWNG_CHAN_STAT, wg (j / 9) rWNG_CAL_ABANDON_COUNT] ++ laneRegs j l) s t := by
  have hwork := s.dropped_laneWork hmoves
  unfold State.widthHeld
  generalize (s.abandonOn j (s.rxFibre j l)).dropSlots j l = u at hwork
  obtain ⟨hstate, hchan, hlane, hout, hfree, hregs⟩ := (u.mapLane j l LaneLink.still).holdLink_spec (w := w) (ask := ask) hl
  rw [State.chan_mapLane, hwork.chan] at hchan
  refine ⟨hstate, ⟨_, hchan⟩, ?_, hout.trans hwork.out, hfree.trans hwork.free, fun a ha => ?_⟩
  · rw [hlane, State.lane_mapLane_same]
    rfl
  · simp only [List.mem_append, List.mem_cons, List.not_mem_nil, or_false, not_or] at ha
    obtain ⟨⟨hstat, hcal⟩, hlanes⟩ := ha
    exact (hregs a (by simpa using hstat)).trans (hwork.regs a (by simp [hcal, hlanes]))

end

end Sys2Proof.Machine

/-! PROOFS. A grant of credits written (R271), and O42 from its parts (R275, R276, R278, R279). -/

namespace Sys2Proof.Machine

open Sys2Proof

/-! ### WNG_CREDIT_ADV (R271) -/

/-- The row of WNG_CREDIT_ADV of class `c`. -/
def creditAdvRow (c : Nat) : RegRow :=
  ⟨rWNG_CREDIT_ADV + 4 * c, 1, 4,
    [⟨0, 12, .rw, [0x200, 0x200, 0x300, 0x100].getD c 0, .mod⟩, ⟨16, 14, .rw, [0x1000, 0x800, 0x400, 0x400].getD c 0, .mod⟩]⟩

theorem regRow_creditAdv : ∀ w < 4, ∀ c < 4, regRow (wg w (rWNG_CREDIT_ADV + 4 * c)) = some (.wng, w, creditAdvRow c, 0) := by
  have h : ∀ w < 4, ∀ c < 4, decide (regRow (wg w (rWNG_CREDIT_ADV + 4 * c)) = some (.wng, w, creditAdvRow c, 0)) = true := by decide +kernel
  exact fun w hw c hc => of_decide_eq_true (h w hw c hc)

theorem limitOf_creditAdv : ∀ c < 4, limitOf .wng (rWNG_CREDIT_ADV + 4 * c) 0 = none ∧ limitOf .wng (rWNG_CREDIT_ADV + 4 * c) 16 = none := by decide

theorem testBit_eq_fld (n i : Nat) : n.testBit i = decide (fld n i 1 = 1) := Nat.testBit_eq_decide_div_mod_eq

/-- A field copied from another number has that number's bits, and the rest stands. -/
theorem testBit_setFld_fld (w x lo n i : Nat) : (setFld w lo n (fld x lo n)).testBit i = if lo ≤ i ∧ i < lo + n then x.testBit i else w.testBit i := by
  simp only [testBit_eq_fld]
  split
  next h =>
    obtain ⟨k, rfl⟩ := Nat.exists_eq_add_of_le h.1
    rw [← fld_fld _ (show k + 1 ≤ n by omega), fld_setFld_same, fld_mod, fld_fld _ (show k + 1 ≤ n by omega)]
  next h =>
    rcases Nat.lt_or_ge i lo with hi | hi
    · rw [fld_setFld_below _ _ _ _ _ _ (by omega)]
    · rw [fld_setFld_above _ _ _ _ _ _ (by omega)]

/-- Writing the word of a grant replaces both its counts and leaves the reserved bits. -/
theorem valueAfter_creditAdv {c : Nat} (hc : c < 4) (side : Side) {v old : Nat} (hv : v < 2 ^ 32) (hold : old < 2 ^ 32) :
    valueAfter .wng (creditAdvRow c) side v 0xFFFFFFFF old = v &&& 0x3FFF0FFF ||| old &&& 0xC000F000 := by
  obtain ⟨hlow, hhigh⟩ := limitOf_creditAdv c hc
  have hfield : ∀ lo w rv, 0 < w → lo + w ≤ 32 → limitOf .wng (rWNG_CREDIT_ADV + 4 * c) lo = none →
      fieldAfter .wng (rWNG_CREDIT_ADV + 4 * c) side v 0xFFFFFFFF old ⟨lo, w, .rw, rv, .mod⟩ = fld v lo w := fun lo w rv h0 h32 hlim => by
    rw [fieldAfter_ones _ _ _ _ _ h0 h32, RField.written]
    simp only [hlim, Limit.take]
  have hmask : ∀ i < 32, (0x3FFF0FFF : Nat).testBit i = decide (i < 12 ∨ 16 ≤ i ∧ i < 30)
      ∧ (0xC000F000 : Nat).testBit i = !decide (i < 12 ∨ 16 ≤ i ∧ i < 30) := by
    decide
  show setFld (setFld old 0 12 (fieldAfter _ (rWNG_CREDIT_ADV + 4 * c) side v _ old _)) 16 14 (fieldAfter _ (rWNG_CREDIT_ADV + 4 * c) side v _ old _) = _
  rw [hfield 0 12 _ (by omega) (by omega) hlow, hfield 16 14 _ (by omega) (by omega) hhigh]
  apply Nat.eq_of_testBit_eq
  intro i
  rw [testBit_setFld_fld, testBit_setFld_fld, Nat.testBit_or, Nat.testBit_and, Nat.testBit_and]
  rcases Nat.lt_or_ge i 32 with hi | hi
  · obtain ⟨hm, hn⟩ := hmask i hi
    rw [hm, hn]
    by_cases h16 : 16 ≤ i ∧ i < 30
    · simp [h16]
    · by_cases h12 : i < 12
      · simp [h12, h16]
      · simp [h12, h16]
  · have hbits : ∀ {n : Nat}, n < 2 ^ 32 → n.testBit i = false := fun hn => Nat.testBit_lt_two_pow (hn.trans_le (Nat.pow_le_pow_right (by decide) hi))
    simp [hbits hv, hbits hold]

section
variable (s : State) {w c v : Nat} (side : Side)

/-- A grant is stored where the four of its Wing fit, and counted as rejected where they do not (R271). -/
theorem State.regStore_creditAdv (hw : w < 4) (hc : c < 4) (hv : v < 2 ^ 32) : let a := wg w (rWNG_CREDIT_ADV + 4 * c)
    let t := s.wn a (v &&& 0x3FFF0FFF ||| s.rn a &&& 0xC000F000)
    s.regStore a v 0xFFFFFFFF side = if t.creditAdvOk w then t else s.bump (wg w rWNG_CFG_REJECT_COUNT) := by
  have hpolicy : rWNG_CREDIT_ADV + 4 * c ≠ rINC_POLICY := by simp only [rWNG_CREDIT_ADV, rINC_POLICY]; omega
  have hoff : rWNG_CREDIT_ADV + 4 * c < rWNG_CREDIT_ADV + 16 := by omega
  intro a t
  unfold State.regStore
  rw [regRow_creditAdv w hw c hc]
  simp only [valueAfter_creditAdv hc side hv (s.rn_lt _)]
  rw [if_neg (show (creditAdvRow c).off ≠ rINC_POLICY from hpolicy)]
  by_cases hok : t.creditAdvOk w = true
  · rw [if_pos hok, if_neg (by simp [hok, a, t]), if_neg (by simp), if_neg (by simp)]
    rfl
  · rw [if_neg hok, if_pos (by simpa [creditAdvRow, hoff] using hok)]

/-- A register stored, or its rejection counted. -/
theorem State.storedOrCounted (s : State) {a r new : Nat} (hne : a ≠ r) (hlt : new < 2 ^ 32) (fits : Bool) : let t := if fits then s.wn a new else s.bump r
    OnlyRegs s t ∧ t.rn a = (if fits then new else s.rn a) ∧ t.rn r = (if fits then s.rn r else min 0xFFFFFFFF (s.rn r + 1)) ∧ RegsBut [a, r] s t := by
  cases fits with
  | true => exact ⟨OnlyRegs.wn _ _ _, (State.rn_wn_same _ _ _).trans (Nat.mod_eq_of_lt hlt),
      State.rn_wn_ne _ _ hne.symm, (RegsBut.wn s a new).mono (by simp)⟩
  | false => exact ⟨OnlyRegs.bump _ _, State.rn_bump_ne _ hne, State.rn_bump _ _, (RegsBut.bump s r).mono (by simp)⟩

end

/-! ### The commands -/

section
variable {s : State} {j l : Nat}

theorem execLinkSuspend_in (hj : j < 36) (hl : l < 2) : exec (.linkSuspend j l) s = .next (s.suspend j l) := congrArg Host.Outcome.next (if_pos ⟨hj, hl⟩)

theorem execLinkDown_in (hj : j < 36) (hl : l < 2) (side : Side) : exec (.linkDown j l side) s = .next (s.linkDown j l) :=
  congrArg Host.Outcome.next (if_pos ⟨hj, hl⟩)

theorem execLinkDownTimer_suspended (hj : j < 36) (hl : l < 2) (h : s.linkState j l = 1) (hinit : ((s.chan j).link l).init = false) :
    exec (.linkDownTimer j l) s = .next (s.linkDown j l) := congrArg Host.Outcome.next (if_pos (by simp [hj, hl, h, hinit]))

/-- A class that waits too long takes down the link that carried its last credits (R274). -/
theorem execCreditTimeout_waits (hj : j < 36) {c : Nat} (hp1 : s.p1 j = true) (hquiet : s.quietChan j = false) (hwaits : s.classWaits j c = true)
    (hlink : ((s.chan j).cls c).creditLink = l) : exec (.creditTimeout j c) s = .next ((s.linkEvent j l 5).linkDown j l) := by
  subst hlink
  exact congrArg Host.Outcome.next (if_pos (by simp [hj, hp1, hquiet, hwaits]))

theorem execWidthChange_in (hj : j < 36) (hl : l < 2) {width code : Nat} (h : (width, code) ∈ [(16, 0), (12, 1), (8, 2)]) :
    exec (.widthChange j l width) s = .next (s.startWidth j l code true) ∧ widthOf code = width := by
  have hcode : (width = 16 ∨ width = 12 ∨ width = 8) ∧ widthCode width = code ∧ widthOf code = width := by
    simp only [List.mem_cons, Prod.mk.injEq, List.not_mem_nil, or_false] at h
    obtain ⟨rfl, rfl⟩ | ⟨rfl, rfl⟩ | ⟨rfl, rfl⟩ := h
    · decide
    · decide
    · decide
  obtain ⟨hwidth, rfl, hof⟩ := hcode
  exact ⟨congrArg Host.Outcome.next (if_pos ⟨hj, hl, hwidth⟩), hof⟩

theorem execChannelReset_in (hj : j < 36) (side : Side) : exec (.channelReset j side) s = .next (s.resetChan j) := congrArg Host.Outcome.next (if_pos hj)

theorem execCreditAdvWrite_in {w c : Nat} (hw : w < 4) (hc : c < 4) (v : Nat) (side : Side) :
    exec (.creditAdvWrite w c v side) s = .next (s.regStore (wg w (rWNG_CREDIT_ADV + 4 * c)) v 0xFFFFFFFF side) :=
  congrArg Host.Outcome.next (if_pos ⟨hw, hc⟩)

end

/-! ### The statement -/

/-- A width change holds the link, and its lanes train anew (R275, R335). -/
theorem State.startWidth_spec (s : State) {j l w : Nat} (hl : l < 2) (hup : s.linkState j l = 2) (hw : s.f (cr j rWNG_CHAN_STAT) (8 + 2 * l) 2 ≠ w)
    (hfeature : w = 1 → s.feature j 1 = true) (hmoves : ∀ m ∈ (s.lane j l).moves, m.2 < 36) : let t := s.startWidth j l w true
    t.linkState j l = 3 ∧ (∃ sib, t.chan j = (s.chan j).widthHeld l w true sib) ∧ (t.lane j l).moves = [] ∧ (t.lane j (s.rxFibre j l)).rxDone = false
    ∧ (t.lane j l).peerDone = false
    ∧ t.out = s.out ++ (List.range 18).map (fun y => Out.training (j / 9) (2 * (j % 9) + l) (leBytes 32 (t.frame j l y false)))
    ∧ (t.lane j l).nonce = Config.entropy s.free % 2 ^ 16 ∧ RegsBut ([cr j rWNG_CHAN_STAT, wg (j / 9) rWNG_CAL_ABANDON_COUNT] ++ laneRegs j l) s t := by
  obtain ⟨hstate, ⟨sib, hchan⟩, hstill, hout, hfree, hregs⟩ := s.widthHeld_spec (w := w) (ask := true) hl hmoves
  rw [s.startWidth_eq hup hw hfeature]
  generalize s.widthHeld j l w true = u at *
  obtain ⟨hmov, hrx, hpeer, hnonce, hr, hfab, hsent⟩ := u.retrain_spec (j := j) (l := l) (s.rxFibre j l)
  refine ⟨?_, ⟨sib, ?_⟩, hmov.trans hstill, hrx, hpeer, ?_, ?_, hregs.same hr⟩
  · rw [State.linkState, State.f_of_regs hr, ← State.linkState, hstate]
  · rw [State.chan, hfab, ← State.chan, hchan]
  · rw [hsent, hout]
  · rw [hnonce, hfree]

/-- Settles O42, command by command. -/
theorem linksComeAndGo : Obligations.LinksComeAndGo := by
  intro s j l hj hl
  refine ⟨fun h => ?_, fun hup hsib => ?_, fun side hup hsib hiso => ?_, fun width code hw hup hne hfeature hmoves => ?_, fun side => ?_,
    fun w c v side hw hc hv => ?_⟩
  · obtain ⟨hstate, hsib, hchan, hcount, hregs⟩ := s.suspend_spec hj hl h
    obtain ⟨hcontrol, hreplay, hretx⟩ := (s.chan j).suspended_spec l
    refine ⟨_, execLinkSuspend_in hj hl, hstate, hsib, by rw [hchan, hcontrol], by rw [hchan, hreplay], ?_, hcount, hregs⟩
    rw [hchan, hretx]
    exact ((s.chan j).mem_retx_resend l).1
  · intro down
    have hdown : ∀ t, LinkIsDown j l s t → down t := fun t h => by
      obtain ⟨hcontrol, hreplay, hretx, -⟩ := (s.chan j).fallen_spec l
      refine ⟨h.state, h.width, h.bringup, h.sibling, by rw [h.chan, hreplay], by rw [h.chan, hcontrol], ?_, h.regs⟩
      rw [h.chan, hretx]
      exact ((s.chan j).mem_retx_resend l).1
    have hfalls := hdown _ (s.linkDown_isDown hj hl hup hsib)
    refine ⟨fun side => ⟨_, execLinkDown_in hj hl side, hfalls⟩, fun hsusp hinit => ⟨_, execLinkDownTimer_suspended hj hl hsusp hinit, hfalls⟩,
      fun c hp1 hquiet hwaits hlink => ⟨_, execCreditTimeout_waits hj hp1 hquiet hwaits hlink, hdown _ ?_⟩⟩
    refine LinkIsDown.after (s.linkEvent_recorded j l 5) (s.linkEvent_frame hj l 5) hj (State.linkDown_isDown _ hj hl ?_ ?_)
    · rwa [State.linkState_linkEvent _ hj]
    · rwa [State.linkState_linkEvent _ hj]
  · obtain ⟨-, hchan, hstate⟩ := s.linkDown_reset hj hl hup hsib
    refine ⟨_, execLinkDown_in hj hl side, ?_, hstate hiso⟩
    rw [hchan, hiso]
    rfl
  · obtain ⟨hexec, hof⟩ := execWidthChange_in (s := s) hj hl hw
    obtain ⟨hstate, ⟨sib, hchan⟩, hmov, hrx, hpeer, hout, hnonce, hregs⟩ := s.startWidth_spec hl hup hne hfeature hmoves
    obtain ⟨hreq, hcontrol, hreplay⟩ := (s.chan j).widthHeld_spec (l := l) code true sib
    obtain ⟨hwidth, hinit⟩ := (s.chan j).link_widthHeld hl code true sib
    refine ⟨_, hexec, hstate, ?_, ?_, ?_, ?_, hmov, hrx, hpeer, hout, hnonce, ?_, hregs⟩
    · rw [hchan, hreq]; rfl
    · rw [hchan, hcontrol, Bool.or_true]
    · rw [hchan, hwidth, hof]
    · rw [hchan, hinit]
    · rw [hchan, hreplay]
  · refine ⟨_, execChannelReset_in hj side, ?_, s.chanState_resetChan, fun k hk => ?_, s.rn_resetChan_drop hj⟩
    · rw [State.chan_resetChan, if_pos rfl]
    · rw [State.chan_resetChan, if_neg hk]
  · intro a new fits
    have hne : a ≠ wg w rWNG_CFG_REJECT_COUNT := by simp only [a, wg, rWNG_CREDIT_ADV, rWNG_CFG_REJECT_COUNT]; omega
    have hlt : new < 2 ^ 32 := Nat.or_lt_two_pow (Nat.and_lt_two_pow _ (by decide)) (Nat.and_lt_two_pow _ (by decide))
    exact ⟨_, (execCreditAdvWrite_in hw hc v side).trans (congrArg _ (s.regStore_creditAdv side hw hc hv)), s.storedOrCounted hne hlt fits⟩

end Sys2Proof.Machine

/-! PROOFS. Lanes assigned and lanes trained (R333, R340, R341): what they leave of a channel. The first part of O40. -/

namespace Sys2Proof.Machine

open Sys2Proof

theorem mem_passing_lt {f : Nat → Bool} {fibre x : Nat} (hf : fibre < 2) (h : x ∈ passing f fibre) : x < 36 := by
  obtain ⟨y, hy, rfl⟩ := List.mem_map.1 (List.mem_of_mem_filter h)
  have := List.mem_range.1 hy
  omega

theorem State.rxFibre_lt (s : State) (j : Nat) {l : Nat} (hl : l < 2) : s.rxFibre j l < 2 := by
  unfold State.rxFibre
  split
  · omega
  · exact hl

/-! ### Lanes assigned (R340) -/

/-- An assignment writes the link's lane registers, its lanes' records and the width it holds, and forgets the lanes lost. -/
theorem State.assignLanes_spec (s : State) (j : Nat) {l : Nat} (hl : l < 2) (w : Nat) : ∃ u g, LaneWork (· ∉ laneRegs j l) s u ∧ (∀ k, (g k).lost = [])
    ∧ s.assignLanes j l w = (u.mapLane j l g).mapChan j fun x => x.mapLink l fun k => { k with width := w } := by
  have hf := s.rxFibre_lt j hl
  unfold State.assignLanes
  extract_lets f s₁ s₂ rx tx s₃ s₄ base light s₅ s₆
  have h₁ : LaneWork (· ∉ laneRegs j l) s s₁ := List.foldlRecOn _ _ (LaneWork.refl s) fun u hu x hx =>
    hu.setRx (not_not_intro (sl_rx_mem_laneRegs (mem_passing_lt (by omega) hx))) _ _ _
  have h₂ : LaneWork (· ∉ laneRegs j l) s s₂ := List.foldlRecOn _ _ h₁ fun u hu x hx =>
    hu.setTx (not_not_intro (sl_tx_mem_laneRegs (mem_passing_lt (by omega) hx))) _ _ _
  have h₃ : LaneWork (· ∉ laneRegs j l) s s₃ := List.foldlRecOn _ _ h₂ fun u hu x hx => by
    have hset := fun use lane => hu.setRx (not_not_intro (sl_rx_mem_laneRegs (mem_passing_lt hf hx))) use lane false
    split
    · split
      · exact hset _ _
      · exact hset _ _
    · exact hset _ _
  have h₄ : LaneWork (· ∉ laneRegs j l) s s₄ := List.foldlRecOn _ _ h₃ fun u hu x hx => by
    have hset := fun use lane => hu.setTx (not_not_intro (sl_tx_mem_laneRegs (mem_passing_lt hl hx))) use lane false
    split
    · split
      · exact hset _ _
      · exact hset _ _
    · exact hset _ _
  have h₅ : LaneWork (· ∉ laneRegs j l) s s₅ := h₄.trans ⟨fun _ _ => rfl, rfl, rfl, rfl, rfl⟩
  have h₆ : LaneWork (· ∉ laneRegs j l) s s₆ := List.foldlRecOn _ _ h₅ fun u hu b hb =>
    hu.wn (not_not_intro (steer_mem_laneRegs (List.mem_range.1 hb))) _
  exact ⟨s₆, _, h₆, fun _ => rfl, rfl⟩

/-! ### Lanes trained (R333, R341) -/

section
variable {kept : Nat → Prop} {s t : State}

theorem LaneWork.clearRange (h : LaneWork kept s t) (ev : Cls) {lo hi : Nat} (hout : ∀ a, kept a → a < lo ∨ hi ≤ a) :
    LaneWork kept s (t.clearRange ev lo hi) := by
  have honly := OnlyRegs.clearRange t ev lo hi
  exact h.trans ⟨fun a ha => t.rd_clearRange_outside ev (hout a ha), by rw [honly], by rw [honly], by rw [honly], by rw [honly]⟩

theorem LaneWork.queueCal (h : LaneWork kept s t) (w n rank excess : Nat) : LaneWork kept s (t.queueCal w n rank excess) := by
  refine h.trans ?_
  unfold State.queueCal
  split
  · exact ⟨fun _ _ => rfl, rfl, rfl, rfl, rfl⟩
  · exact ⟨fun _ _ => rfl, rfl, rfl, rfl, rfl⟩

theorem LaneWork.startRing (h : LaneWork kept s t) {j x off : Nat} (ha : ¬ kept (sl j x off)) : LaneWork kept s (t.startRing j x off) := by
  unfold State.startRing
  split
  · exact h.setf ha _ _ _
  · dsimp only
    split
    · exact h.setf ha _ _ _
    · exact (h.setf ha _ _ _).queueCal _ _ _ _

/-- A condition that ends writes no register. -/
theorem LaneWork.setLevel_off (h : LaneWork kept s t) (b : Blk) (i k : Nat) : LaneWork kept s (t.setLevel b i k false) := by
  refine h.trans ?_
  unfold State.setLevel
  dsimp only
  split
  · exact LaneWork.refl _
  · exact ⟨fun _ _ => rfl, rfl, rfl, rfl, rfl⟩

theorem LaneWork.ringsBack (h : LaneWork kept s t) (w lo n : Nat) : LaneWork kept s (t.ringsBack w lo n) := by
  have hlight : ∀ (u : State) (x : List Nat) (y : List Nat), LaneWork kept s u →
      LaneWork kept s { u with light := { u.light with ringsOut := x, unlocked := y } } := fun u x y hu => hu.trans ⟨fun _ _ => rfl, rfl, rfl, rfl, rfl⟩
  unfold State.ringsBack
  extract_lets u v
  split
  · split
    · exact hlight t _ _ h
    · exact (hlight t _ _ h).setLevel_off _ _ _
  · exact hlight t _ t.light.unlocked h

theorem LaneWork.lockRings (h : LaneWork kept s t) {j l off : Nat} (hrings : ∀ x, ¬ kept (sl j x off)) : LaneWork kept s (t.lockRings j l off) := by
  unfold State.lockRings
  refine LaneWork.ringsBack (List.foldlRecOn _ _ h fun u hu k _ => ?_) _ _ _
  exact ((hu.startRing (hrings _)).setf (hrings _) _ _ _).setf (hrings _) _ _ _

end

/-- CHAN_STAT of a channel is none of its slots' registers. -/
theorem chanStat_ne_sl {j x off : Nat} (h : rWNG_RX_SLOT_STAT ≤ off) : ¬ sl j x off = cr j rWNG_CHAN_STAT := by
  simp only [sl, cr, wg, rWNG_RX_SLOT_STAT, rWNG_CHAN_STAT] at h ⊢
  omega

/-- A link that trains, before BRINGUP says so: its lanes, and what its training leaves of the channel. -/
theorem State.startTraining_eq (s : State) (j : Nat) {l : Nat} (hl : l < 2) : ∃ u, LaneWork (· = cr j rWNG_CHAN_STAT) s u ∧ s.startTraining j l =
    (((((u.mapLane j (s.rxFibre j l) fun k => { k with rxDone := false, heard := none, sender := none }).mapLane j l fun k =>
      { LaneLink.reset with interval := k.interval }).drawNonce j l).setf (lk j l rWNG_LINK_STAT) 0 3 1).refreshChan j).sendFrames j l false := by
  unfold State.startTraining
  extract_lets cut f x p kept marks s₁ s₂ s₃ s₄
  refine ⟨s₄, ?_, rfl⟩
  have hcut : ∀ {u : State} {off : Nat} (k n : Nat), rWNG_RX_SLOT_STAT ≤ off → LaneWork (· = cr j rWNG_CHAN_STAT) s u →
      LaneWork (· = cr j rWNG_CHAN_STAT) s (cut u off k n) := fun {u off} k n h hu => hu.clearRange .chn fun a ha => by
    rw [ha]
    simp only [cr, wg, rWNG_RX_SLOT_STAT, rWNG_CHAN_STAT] at h ⊢
    omega
  have hmarks : ∀ m ∈ marks, ¬ m.1 = cr j rWNG_CHAN_STAT := by
    intro m hm
    simp only [marks, kept, List.mem_append, List.mem_map] at hm
    obtain (⟨y, -, rfl⟩ | ⟨y, -, rfl⟩) | ⟨y, -, rfl⟩ := hm
    · exact chanStat_ne_sl (by decide)
    · exact chanStat_ne_sl (by decide)
    · exact chanStat_ne_sl (by decide)
  have h₁ : LaneWork (· = cr j rWNG_CHAN_STAT) s s₁ := s.abandonOn_laneWork f (cr_ne_calAbandon (by decide)).symm
  have h₂ : LaneWork (· = cr j rWNG_CHAN_STAT) s s₂ := by
    have hslots := hcut (off := rWNG_STEER_MAP) (16 * p) 16 (by decide) (hcut (off := rWNG_TX_SLOT_STAT) (x + 18 * l) 18 (by decide)
      (hcut (off := rWNG_RX_SLOT_QUAL) (x + 18 * f) 18 (by decide) (hcut (off := rWNG_RX_SLOT_STAT) (x + 18 * f) 18 (by decide) h₁)))
    refine hslots.clearRange .chn fun a ha => .inr ?_
    rw [ha]
    simp only [p, cr, wg, rWNG_LINK_STAT, rWNG_CHAN_STAT]
    omega
  have h₃ : LaneWork (· = cr j rWNG_CHAN_STAT) s s₃ := List.foldlRecOn _ _ h₂ fun u hu m hm => hu.wn (hmarks m hm) _
  exact (h₃.lockRings fun y => chanStat_ne_sl (by decide)).lockRings fun y => chanStat_ne_sl (by decide)

end Sys2Proof.Machine

/-! PROOFS. The INIT exchange of a channel, its failure and a rejoin (R262, R272, R273, R277, R278): O40. -/

namespace Sys2Proof.Machine

open Sys2Proof

/-! ### What the first INIT gives a channel (R272, R273) -/

/-- A channel whose link `l` heard an INIT of payload `p`, the first one of it: INSTANCE and grants are the partner's. -/
structure Chan.Opened (l : Nat) (p : List Byte) (x : Chan) : Prop where
  peer : x.peerInstance = some (at_ p 12 2)
  heard : (x.link l).gotInit = true
  grants : ∀ c, c < 4 → (x.cls c).advH = at_ p (16 + 2 * c) 2 ∧ (x.cls c).advD = at_ p (24 + 2 * c) 2

/-- A change of the link that keeps what it heard. -/
theorem Chan.Opened.mapLink {l : Nat} {p : List Byte} {x : Chan} (h : x.Opened l p) {g : LinkState → LinkState} (hg : ∀ k, (g k).gotInit = k.gotInit) :
    (x.mapLink l g).Opened l p := by
  refine ⟨?_, ?_, fun c hc => ?_⟩
  · rw [Chan.mapLink_peerInstance, h.peer]
  · rw [Chan.link_mapLink_same, hg, h.heard]
  · rw [Chan.cls_mapLink]
    exact h.grants c hc

/-- A class with the grants that an INIT of payload `p` names for it. -/
def ClassState.granted (p : List Byte) (c : Nat) (k : ClassState) : ClassState := { k with advH := at_ p (16 + 2 * c) 2, advD := at_ p (24 + 2 * c) 2 }

/-- A channel with its peer's INSTANCE is open once its classes have their grants. -/
theorem Chan.opened_granted {l : Nat} {p : List Byte} {x : Chan} (hpeer : x.peerInstance = some (at_ p 12 2)) (hheard : (x.link l).gotInit = true) :
    ((List.range 4).foldl (fun (y : Chan) c => y.mapCls c (ClassState.granted p c)) x).Opened l p := by
  have hcls := x.cls_foldl_mapCls (ClassState.granted p) (List.range 4) List.nodup_range
  obtain ⟨k, hk⟩ := x.foldl_mapCls_eq (ClassState.granted p) (List.range 4)
  rw [hk] at hcls ⊢
  refine ⟨hpeer, hheard, fun c hc => ?_⟩
  rw [hcls, if_pos (List.mem_range.2 hc)]
  exact ⟨rfl, rfl⟩

/-- WNG_CHAN_PEER of a channel whose first INIT has payload `p` (R262, R283). -/
def peerWord (p : List Byte) : Nat := at_ p 2 2 + at_ p 4 1 % 64 * 2 ^ 16 + at_ p 1 1 % 16 * 2 ^ 24 + 2 * 2 ^ 28

theorem peerWord_lt (p : List Byte) : peerWord p < 2 ^ 32 := by
  have := at_lt p 2 2
  unfold peerWord
  omega

/-- The registers that an INIT flit may write. -/
def initRegs (j l : Nat) : List Nat := [cr j rWNG_CHAN_STAT, cr j rWNG_CHAN_PEER, cr j rWNG_CHAN_RTT, cr j rWNG_FEC_CORR_COUNT] ++ laneRegs j l

/-- A state in which a channel has its peer, from a state before the first INIT of it. -/
structure InitTaken (j l : Nat) (p : List Byte) (s t : State) : Prop where
  chan : (t.chan j).Opened l p
  lost : (t.lane j l).lost = []
  peer : t.rn (cr j rWNG_CHAN_PEER) = peerWord p
  level : t.f (cr j rWNG_CHAN_STAT) 16 4 = min (s.f (wg (j / 9) rWNG_FEATURE_CFG) 0 8) (at_ p 1 1) % 16
  regs : RegsButRecords (initRegs j l) s t

section
variable {s t u : State} {j l : Nat} {p : List Byte}

/-- The lane registers of a link are none of its channel's. -/
theorem cr_not_mem_laneRegs {o : Nat} (h : o < 0x1140) : cr j o ∉ laneRegs j l := by
  simp only [laneRegs, List.mem_append, List.mem_map, List.mem_range, sl, steer, cr, wg, rWNG_RX_SLOT_STAT, rWNG_TX_SLOT_STAT, rWNG_STEER_MAP]
  rintro ((⟨x, hx, he⟩ | ⟨x, hx, he⟩) | ⟨b, hb, he⟩)
  all_goals omega

/-- CHAN_STAT below LEVEL may change. -/
theorem InitTaken.setf (h : InitTaken j l p s t) {lo w : Nat} (hlo : lo + w ≤ 16) (v : Nat) : InitTaken j l p s (t.setf (cr j rWNG_CHAN_STAT) lo w v) where
  chan := h.chan
  lost := h.lost
  peer := (RegsBut.rn (RegsBut.setf t _ _ _ _) (by simp [rWNG_CHAN_PEER, rWNG_CHAN_STAT])).trans h.peer
  level := (State.f_setf_apart _ _ _ (by omega) (.inr hlo)).trans h.level
  regs := h.regs.trans ((RegsBut.setf t _ _ _ _).mono (by simp [initRegs])).records

theorem InitTaken.event (h : InitTaken j l p s t) (hj : j < 36) (k : Nat) : InitTaken j l p s (t.linkEvent j l k) where
  chan := by rw [State.chan_linkEvent]; exact h.chan
  lost := by rw [State.lane, (t.linkEvent_recorded j l k).light, ← State.lane]; exact h.lost
  peer := ((t.linkEvent_frame hj l k).rn (recordReg_cr hj (by decide) (by decide))).trans h.peer
  level := (t.f_linkEvent hj k (by decide) (by decide) _ _).trans h.level
  regs := h.regs.trans ((t.linkEvent_frame hj l k).mono (List.forall_mem_nil _))

theorem InitTaken.mapChan (h : InitTaken j l p s t) {g : Chan → Chan} (hg : (g (t.chan j)).Opened l p) : InitTaken j l p s (t.mapChan j g) where
  chan := by rw [State.chan_mapChan_same]; exact hg
  lost := h.lost
  peer := h.peer
  level := h.level
  regs := h.regs

theorem InitTaken.assignLanes (h : InitTaken j l p s t) (hl : l < 2) (w : Nat) : InitTaken j l p s (t.assignLanes j l w) := by
  obtain ⟨u, g, hwork, hg, heq⟩ := t.assignLanes_spec j hl w
  rw [heq]
  refine InitTaken.mapChan (t := u.mapLane j l g) ⟨?_, ?_, ?_, ?_, ?_⟩ ?_
  · rw [State.chan_mapLane, hwork.chan]; exact h.chan
  · rw [State.lane_mapLane_same, hg]
  · exact (congrArg BitVec.toNat (hwork.regs _ (cr_not_mem_laneRegs (by decide)))).trans h.peer
  · exact (hwork.f (cr_not_mem_laneRegs (by decide)) _ _).trans h.level
  · exact h.regs.trans fun a ha _ => hwork.regs a fun hm => ha (List.mem_append_right _ hm)
  · rw [State.chan_mapLane, hwork.chan]
    exact h.chan.mapLink fun _ => rfl

/-- An exchange that completes keeps what it gave the channel. -/
theorem InitTaken.finishInit (h : InitTaken j l p s t) (hl : l < 2) : InitTaken j l p s (t.finishInit j l) := by
  have hup : ∀ {u : State}, InitTaken j l p s u → InitTaken j l p s (((u.setLink j l 2).mapChan j fun x =>
      { x.mapLink l fun k => { k with init := false, fault := false, sinceOther := 0 } with controlDue := true }).refreshChan j) := fun hu => by
    obtain ⟨hpeer, hheard, hgrants⟩ := hu.chan.mapLink (g := fun k => { k with init := false, fault := false, sinceOther := 0 }) fun _ => rfl
    exact ((hu.setf (by omega) 2).mapChan ⟨hpeer, hheard, hgrants⟩).setf (by omega) _
  unfold State.finishInit
  extract_lets k n u v
  split
  · have hu : InitTaken j l p s u := by
      show InitTaken j l p s (if _ then _ else _)
      split
      · exact h.assignLanes hl _
      · exact h
    have hv : InitTaken j l p s v := hup hu
    rw [if_pos hv.lost]
    exact hv
  · exact h

/-- The first INIT gives the channel its peer, the INSTANCE and the lower of the two levels (R272, R273). -/
theorem State.takePeer_taken (hheard : ((t.chan j).link l).gotInit = true) (hlost : (t.lane j l).lost = []) (hkind : at_ p 0 1 = 2)
    (hown : t.f (wg (j / 9) rWNG_FEATURE_CFG) 0 8 = s.f (wg (j / 9) rWNG_FEATURE_CFG) 0 8) (hregs : RegsButRecords (initRegs j l) s t) :
    InitTaken j l p s (t.takePeer j p) := by
  have hp1 : (at_ p 0 1 == 1) = false := by rw [hkind]; rfl
  have hword : at_ p 2 2 + at_ p 4 1 % 64 * 2 ^ 16 + at_ p 1 1 % 16 * 2 ^ 24 + at_ p 0 1 % 16 * 2 ^ 28 = peerWord p := by rw [hkind]; rfl
  unfold State.takePeer
  extract_lets p1 ffl own en level need on t₁ t₂ t₃
  have hffl : ffl = at_ p 1 1 := by simp only [ffl, p1, hp1, Bool.false_eq_true, if_false]
  refine ⟨?_, hlost, ?_, ?_, ?_⟩
  · rw [State.chan_mapChan_same]
    refine Chan.opened_granted (x := { t₃.chan j with peerInstance := some (if p1 then 0 else at_ p 12 2) }) ?_ hheard
    simp only [p1, hp1, Bool.false_eq_true, if_false]
  · have hkept : RegsBut [cr j rWNG_CHAN_STAT] t₁ t₃ := (((RegsBut.refl _ t₁).setfIn (by simp) _ _ _).setfIn (by simp) _ _ _).setfIn (by simp) _ _ _
    rw [State.rn_mapChan, hkept.rn (by simp [rWNG_CHAN_PEER, rWNG_CHAN_STAT])]
    simp only [t₁, hffl, hword]
    rw [State.rn_wn_same, Nat.mod_eq_of_lt (peerWord_lt p)]
  · rw [State.f_mapChan, State.f_setf_apart _ _ _ (by omega) (by omega), State.f_setf_same _ _ _ (by omega)]
    simp only [level, hffl, own, hown]
    rfl
  · refine hregs.trans (RegsBut.records ((RegsBut.mapChan (t := t₃) ?_ j _)))
    have hstat : cr j rWNG_CHAN_STAT ∈ initRegs j l := by simp [initRegs]
    exact ((((RegsBut.refl _ t).wnIn (by simp [initRegs]) _).setfIn hstat _ _ _).setfIn hstat _ _ _).setfIn hstat _ _ _

/-! ### An INIT flit (R262, R272) -/

/-- What a link notes of an INIT flit of header `h` and payload `p` (R272). -/
def LinkState.initHeard (h : Nat) (p : List Byte) (k : LinkState) : LinkState :=
  { k with rxLsn := some (k.rxLsn.getD ((fld h 26 16 + 1) % 2 ^ 16)), gotInit := true, gotAcked := k.gotAcked || bit h 25, stamp := at_ p 32 8 }

/-- The round trip that an INIT flit shows is stored. -/
def State.noteTrip (s : State) (j : Nat) (p : List Byte) : State :=
  if at_ p 40 8 ≠ 0 then s.wn (cr j rWNG_CHAN_RTT) ((s.timer + 2 ^ 64 - at_ p 40 8) % 2 ^ 16) else s

/-- The state once a good INIT flit has been noted of its link. -/
def State.initHeard (s : State) (j l n h : Nat) (p : List Byte) : State :=
  ((s.heard j l n).mapChan j fun x => x.mapLink l (LinkState.initHeard h p)).noteTrip j p

/-- A partner that is not the plan's raises PEER_MISMATCH at its first INIT (R281). -/
def State.checkPeer (s : State) (j l : Nat) (heard : Bool) : State := if !heard && !s.peerOk j then s.linkEvent j l 6 else s

/-- The first INIT of a channel that is not of P1 (R272, R273). -/
theorem execInitFlit_first {n h : Nat} {raw : List Nat} (hlen : raw.length = 280) (hg : GoodFlit s j l raw n h p) (hkind : fld h 60 4 = 5)
    (hok : initOk h p = true) (hp : at_ p 0 1 = 2) (hinit : ((s.chan j).link l).init = true) (hpeer : (s.chan j).peerInstance = none) :
    ∃ heard w, exec (.initFlit j l raw) s = .next (((((s.initHeard j l n h p).takePeer j p).checkPeer j l heard).setWidth j l w).finishInit j l) := by
  have hp1 : (at_ p 0 1 == 1) = false := by rw [hp]; rfl
  have hpeer' : ((s.heard j l n).chan j).peerInstance = none := by rw [State.chan_heard, Chan.mapLink_peerInstance, hpeer]
  have hinit' : (((s.heard j l n).chan j).link l).init = true := by rw [State.chan_heard, Chan.link_mapLink_same]; exact hinit
  show ∃ heard w, execInitFlit j l raw s = _
  rw [execInitFlit, State.onFlit_good hg hlen (by rw [hkind]; rfl) (by omega) (by omega) hok]
  simp only [hp1, hpeer', hinit', Bool.not_true, Bool.not_false, Bool.false_eq_true, if_false, Option.isSome_none, Option.isNone_none, Bool.false_and,
    Bool.true_and, Bool.true_or, if_true, decide_eq_true_eq]
  exact ⟨_, _, rfl⟩

end

theorem State.noteTrip_spec (s : State) (j : Nat) (p : List Byte) :
    RegsBut [cr j rWNG_CHAN_RTT] s (s.noteTrip j p) ∧ (∀ k, (s.noteTrip j p).chan k = s.chan k)
    ∧ ∀ k i, (s.noteTrip j p).lane k i = s.lane k i := by
  unfold State.noteTrip
  split
  · exact ⟨RegsBut.wn _ _ _, fun _ => rfl, fun _ _ => rfl⟩
  · exact ⟨RegsBut.refl _ _, fun _ => rfl, fun _ _ => rfl⟩

/-- So the channel has its peer. -/
theorem State.initFlit_taken (s : State) {j l : Nat} (hj : j < 36) (hl : l < 2) {p : List Byte} (n h w : Nat) (heard : Bool) (hp : at_ p 0 1 = 2)
    (hlost : (s.lane j l).lost = []) :
    InitTaken j l p s (((((s.initHeard j l n h p).takePeer j p).checkPeer j l heard).setWidth j l w).finishInit j l) := by
  unfold State.initHeard
  obtain ⟨hregs, hchan, hlane⟩ := ((s.heard j l n).mapChan j fun x => x.mapLink l (LinkState.initHeard h p)).noteTrip_spec j p
  have hbefore := ((s.heard_regs j l n).mapChan j fun x => x.mapLink l (LinkState.initHeard h p))
  generalize ((s.heard j l n).mapChan j fun x => x.mapLink l (LinkState.initHeard h p)).noteTrip j p = t at *
  have hfeature : ∀ o, 0x1040 ≤ o → wg (j / 9) rWNG_FEATURE_CFG ≠ cr j o := fun o ho => by
    simp only [cr, wg, rWNG_FEATURE_CFG]; omega
  have htaken : InitTaken j l p s (t.takePeer j p) := by
    refine State.takePeer_taken ?_ ?_ hp ?_ ?_
    · rw [hchan, State.chan_mapChan_same, Chan.link_mapLink_same]
      rfl
    · rw [hlane]
      exact hlost
    · rw [hregs.f (by simpa using hfeature _ (by decide)), hbefore.f (by simpa using hfeature _ (by decide))]
    · exact ((hbefore.mono (by simp [initRegs])).trans (hregs.mono (by simp [initRegs]))).records
  refine InitTaken.finishInit (InitTaken.setf ?_ (by omega) _) hl
  unfold State.checkPeer
  split
  · exact htaken.event hj 6
  · exact htaken

/-! ### An exchange that does not complete (R272, R278) -/

/-- A link whose exchange did not complete forgets it, and goes down. -/
def State.initFailed (s : State) (j l : Nat) (opened : Bool) : State :=
  ((s.setLink j l 0).setWidth j l 3).mapChan j fun x => x.mapLink l fun k => { LinkState.reset with stamp := k.stamp, fell := k.fell || opened }

section
variable (s : State) {j l : Nat}

theorem State.linkState_initFailed (hl : l < 2) (opened : Bool) : (s.initFailed j l opened).linkState j l = 0
    ∧ (s.initFailed j l opened).linkState j (1 - l) = s.linkState j (1 - l) := by
  constructor
  · exact (State.f_setf_apart _ _ _ (by omega) (by omega)).trans (s.linkState_setLink_same j hl 0)
  · exact (State.f_setf_apart _ _ _ (by omega) (by omega)).trans (s.linkState_setLink_other j hl 0)

theorem State.chan_initFailed (opened : Bool) : (((s.initFailed j l opened).chan j).link l).init = false
    ∧ ((s.initFailed j l opened).chan j).isolated = (s.chan j).isolated := by
  unfold State.initFailed
  rw [State.chan_mapChan_same, Chan.link_mapLink_same, Chan.mapLink_isolated]
  exact ⟨rfl, rfl⟩

/-- A link whose exchange starts again from lane training; where its channel is open, CONTROL tells so. -/
def State.initRetry (s : State) (j l : Nat) : State :=
  let opened := s.linkState j l != 0
  if opened then (s.initFailed j l opened).mapChan j fun x => { x with controlDue := true } else s.initFailed j l opened

theorem State.initRetry_spec (hl : l < 2) : (s.initRetry j l).linkState j l = 0 ∧ (((s.initRetry j l).chan j).link l).init = false
    ∧ (s.initRetry j l).lane j l = s.lane j l ∧ (s.initRetry j l).out = s.out := by
  obtain ⟨hinit, -⟩ := s.chan_initFailed (j := j) (l := l) (s.linkState j l != 0)
  obtain ⟨hstate, -⟩ := s.linkState_initFailed hl (s.linkState j l != 0)
  unfold State.initRetry
  extract_lets opened
  split
  · refine ⟨hstate, ?_, rfl, rfl⟩
    rw [State.chan_mapChan_same]
    exact hinit
  · exact ⟨hstate, hinit, rfl, rfl⟩

/-- Training starts on a link: its lanes at their reset with a new NONCE, and a frame on each slot (R333). -/
theorem State.startTraining_spec (hl : l < 2) : let t := s.startTraining j l
    t.linkState j l = s.linkState j l ∧ t.bringup j l = 1 ∧ (∀ k, t.chan k = s.chan k)
    ∧ (∃ n, t.lane j l = { LaneLink.reset with nonce := n, interval := (s.lane j l).interval })
    ∧ t.out = s.out ++ (List.range 18).map fun x => Out.training (j / 9) (2 * (j % 9) + l) (leBytes 32 (t.frame j l x false)) := by
  obtain ⟨u, hwork, heq⟩ := s.startTraining_eq j hl
  have hinterval : ((u.mapLane j (s.rxFibre j l) fun k => { k with rxDone := false, heard := none, sender := none }).lane j l).interval =
      (s.lane j l).interval := by
    rw [State.lane_mapLane, ← hwork.lane]
    split
    next h => rw [← h]
    next => rfl
  rw [heq]
  refine ⟨?_, ?_, hwork.chan, ⟨Config.entropy u.free % 2 ^ 16, ?_⟩, ?_⟩
  · refine (State.linkState_refreshChan _ j l).trans ((State.f_setf_ne _ _ _ _ _ _ (lk_ne_cr hl (by decide)).symm).trans ?_)
    exact hwork.f rfl _ _
  · exact ((State.refreshChan_regs _ j).f (by simpa using lk_ne_cr hl (by decide)) 0 3).trans (State.f_setf_same _ _ _ (by omega))
  · refine (State.lane_drawNonce _ j l).trans ?_
    rw [State.lane_mapLane_same, hinterval]
    rfl
  · rw [State.out_sendFrames, ← hwork.out]
    rfl

theorem execInitTimeout_retrains (hj : j < 36) (hl : l < 2) (hinit : ((s.chan j).link l).init = true)
    (h : s.linkState j l = 0 ∨ s.linkState j (1 - l) ≠ 0) : exec (.initTimeout j l) s = .next ((s.initRetry j l).startTraining j l) := by
  have hopen : ¬ ((s.linkState j l != 0) && decide ((s.initFailed j l (s.linkState j l != 0)).linkState j (1 - l) = 0)) = true := by
    rw [(s.linkState_initFailed hl _).2]
    rcases h with h | h
    · simp [h]
    · simp [h]
  exact congrArg Host.Outcome.next ((if_pos (by simp [hj, hl, hinit])).trans (if_neg hopen))

theorem execInitTimeout_down (hj : j < 36) (hl : l < 2) (hinit : ((s.chan j).link l).init = true) (h : s.linkState j l ≠ 0)
    (hsib : s.linkState j (1 - l) = 0) : exec (.initTimeout j l) s = .next ((s.initFailed j l (s.linkState j l != 0)).chanDown j l) := by
  have hopen : ((s.linkState j l != 0) && decide ((s.initFailed j l (s.linkState j l != 0)).linkState j (1 - l) = 0)) = true := by
    rw [(s.linkState_initFailed hl _).2]
    simp [h, hsib]
  exact congrArg Host.Outcome.next ((if_pos (by simp [hj, hl, hinit])).trans (if_pos hopen))

/-! ### A rejoin (R277) -/

/-- A link that is not down joins its channel again. -/
theorem State.beginInit_joins (h : s.linkState j l ≠ 0) :
    s.beginInit j l = (s.mapChan j fun x => x.mapLink l fun k => k.exchange true).refreshChan j := by
  have hjoins : (s.linkState j l != 0 || s.linkState j (1 - l) != 0 || ((s.chan j).link (1 - l)).init) = true := by simp [h]
  simp only [State.beginInit, hjoins, if_true]

theorem execLinkRejoin_short (hw : s.widthFor j (s.linkWidth j l - (s.lane j l).lost.length) < 8) : exec (.linkRejoin j l) s = .next s :=
  congrArg Host.Outcome.next (if_neg (by simp [hw]))

/-- The lanes not lost carry a width, and the exchange offers it. -/
theorem execLinkRejoin_opens (hj : j < 36) (hl : l < 2) (h : s.linkState j l = 1) (hp1 : s.p1 j = false) (hinit : ((s.chan j).link l).init = false)
    (hw : 8 ≤ s.widthFor j (s.linkWidth j l - (s.lane j l).lost.length)) : let w := s.widthFor j (s.linkWidth j l - (s.lane j l).lost.length)
    exec (.linkRejoin j l) s = .next (((s.mapChan j fun x => x.mapLink l fun k => { k with width := w }).mapChan j fun x =>
      x.mapLink l fun k => k.exchange true).refreshChan j) := by
  intro w
  rw [← State.beginInit_joins (s.mapChan j _) (show s.linkState j l ≠ 0 by omega)]
  exact congrArg Host.Outcome.next (if_pos (by simp [hj, hl, h, hp1, hinit, hw]))

end

/-! ### The statement -/

/-- Settles O40: the first INIT, the two ends of an exchange that does not complete, and a rejoin. -/
theorem initOpensAChannel : Obligations.InitOpensAChannel := by
  intro s j l hj hl
  refine ⟨fun raw n h p hlen hg hkind hok hp hinit hpeer hlost => ?_, fun hinit => ⟨fun h => ?_, fun h hsib => ?_⟩,
    fun h hp1 hinit => ⟨fun hw => ⟨s, execLinkRejoin_short s hw, rfl⟩, fun hw => ?_⟩⟩
  · obtain ⟨heard, w, hexec⟩ := execInitFlit_first hlen hg hkind hok hp hinit hpeer
    have htaken := s.initFlit_taken hj hl n h w heard hp hlost
    exact ⟨_, hexec, htaken.chan.peer, htaken.chan.heard, htaken.peer, htaken.level, htaken.chan.grants, htaken.regs⟩
  · obtain ⟨hstate, hbringup, hchan, ⟨m, hlane⟩, hout⟩ := (s.initRetry j l).startTraining_spec hl
    obtain ⟨hdown, hforgot, hsame, hsent⟩ := s.initRetry_spec (j := j) hl
    refine ⟨_, m, execInitTimeout_retrains s hj hl hinit h, hstate.trans hdown, hbringup, ?_, ?_, ?_⟩
    · rw [hchan, hforgot]
    · rw [hlane, hsame]
    · rw [hout, hsent]
  · have hiso : (((s.initFailed j l (s.linkState j l != 0)).linkEvent j l 2).chan j).isolated = (s.chan j).isolated := by
      rw [State.chan_linkEvent]
      exact (s.chan_initFailed _).2
    refine ⟨_, execInitTimeout_down s hj hl hinit h hsib, State.linkState_resetChan _ hj hl, ?_⟩
    rw [State.chanDown, State.chan_resetChan, if_pos rfl, hiso]
  · refine ⟨_, execLinkRejoin_opens s hj hl h hp1 hinit hw, ?_⟩
    rw [State.chan_refreshChan, State.chan_mapChan_same, Chan.link_mapLink_same, State.chan_mapChan_same, Chan.link_mapLink_same, Chan.mapLink_replay,
      Chan.mapLink_replay]
    exact ⟨rfl, rfl, rfl, rfl, rfl, (((RegsBut.refl _ s).mapChan j _).mapChan j _).trans (State.refreshChan_regs _ j)⟩

end Sys2Proof.Machine
